-- ==== Sys2Proof/Word.lean ====
section
/-!
DEFINITION. The word types of the module: bytes, 64-bit registers, 64-byte entries and 128-byte descriptors,
with their plainest arithmetic.  Multi-byte structures are little-endian (R6).
-/

namespace Sys2Proof

/-- One byte. -/
abbrev Byte := BitVec 8

/-- A 64-bit register or module address (R7, R25). -/
abbrev Word := BitVec 64

/-- A 64-byte structure: a macro-op, a work-list entry, a ring command or a 64-byte descriptor. -/
abbrev Entry := BitVec 512

/-- A 128-byte descriptor (table, shard or group descriptor). -/
abbrev Desc := BitVec 1024

/-- Bits [hi:lo] of a number, bit 0 the least significant. -/
def bitsOf (hi lo v : Nat) : Nat := (v >>> lo) % 2 ^ (hi + 1 - lo)

/-- The number `v` with its bits [hi:lo] replaced by the low bits of `x`. -/
def withBits (hi lo x v : Nat) : Nat :=
  v - bitsOf hi lo v * 2 ^ lo + (x % 2 ^ (hi + 1 - lo)) * 2 ^ lo

/-- Bits [hi:lo] of 64-bit word `k` of a 64-byte entry. -/
def Entry_bits (w : Entry) (k hi lo : Nat) : Nat := bitsOf (64 * k + hi) (64 * k + lo) w.toNat

/-- Bytes `b` to `b + n - 1` of a 64-byte entry, as a little-endian number (R6). -/
def Entry_bytes (w : Entry) (b n : Nat) : Nat := bitsOf (8 * (b + n) - 1) (8 * b) w.toNat

/-- Bytes `b` to `b + n - 1` of a 128-byte descriptor, as a little-endian number (R6). -/
def Desc_bytes (w : Desc) (b n : Nat) : Nat := bitsOf (8 * (b + n) - 1) (8 * b) w.toNat

/-- The little-endian bytes of a number (R6). -/
def bytesLE : Nat → Nat → List Byte
  | 0, _ => []
  | n + 1, v => BitVec.ofNat 8 v :: bytesLE n (v / 256)

/-- The number that little-endian bytes hold (R6). -/
def ofBytesLE : List Byte → Nat
  | [] => 0
  | b :: bs => b.toNat + 256 * ofBytesLE bs

/-- Counters that stop at their largest value. -/
def satAdd (limit a b : Nat) : Nat := if a + b ≤ limit then a + b else limit

/-- A number clamped to an interval. -/
def clampTo (lo hi v : Nat) : Nat := if v < lo then lo else if hi < v then hi else v

/-- The quotient rounded up. -/
def ceilDiv (a b : Nat) : Nat := (a + b - 1) / b

end Sys2Proof
end

