-- ==== Sys2Proof/Syntax.lean ====
section
/-!
DEFINITION. The commands of the module: one constructor of `Instr` per row of the opcode table, with the data types
that its operands use.  A command carries what its environment brings (a register value, a packet, a measured
temperature, the outcome of a physical check); what the module already holds (a ring entry, a pending request) it
finds in State.
-/

namespace Sys2Proof

/-- Completion statuses (R18). -/
inductive Status where
  | done | doneCorrected | deferred | refusedQuota | refusedCapacity | refusedPartition | lostGeneration
  | portNotReady | timeout | sealMismatch | poisoned | nonfinite | stepSkipped | cancelled
  deriving DecidableEq, Repr

/-- The path on which a control access reaches the module (R366, R421, R425). -/
inductive Path where
  | pf0
  | vf (f : Nat)
  | sideband
  | jtag
  deriving DecidableEq, Repr

/-- The part of a 64-bit register that an access carries (R7). -/
inductive Half where
  | full | low | high
  deriving DecidableEq, Repr

/-- The place of a control access: a control-space offset, or an offset of the context page of a function's slot. -/
inductive RegAddr where
  | ctrl (off : Nat)
  | page (fn slot rel : Nat)
  deriving DecidableEq, Repr

/-- The queues of the module (R118, R199, R231, R287, R332). -/
inductive QueueId where
  | workList (p w : Nat)
  | haloQp (s qp : Nat)
  | orrQp (q qp : Nat)
  | collCh (q c : Nat)
  | cmdRing (ctx : Nat)
  deriving DecidableEq, Repr

/-- Outcome of the physical checks of a compute macro-op (R114, R116). -/
inductive TileCheck where
  | pass
  | residue (unit : Nat)
  | uncorrectable (slot word : Nat)
  | corrected (n : Nat)
  deriving DecidableEq, Repr

/-- What physically happened to fetched block `j` of a mover (R115, R148): its first copy arrived damaged, both
copies did, or its H unit could not be corrected. -/
inductive FetchFault where
  | once (j : Nat)
  | twice (j : Nat)
  | uncorrectable (j : Nat)
  deriving DecidableEq, Repr

/-- A Starlane packet: the header fields of R259 and the payload. -/
structure Packet where
  ty : Nat
  proto : Nat := 1
  cls : Nat := 2
  spec : Bool := false
  dim : Bool := false
  dstModule : Nat := 0
  dstUnit : Nat := 0
  srcModule : Nat := 0
  srcUnit : Nat := 0
  jobDomain : Nat := 0
  srcInc : Nat := 0
  hops : Nat := 15
  targetGen : Nat := 0
  status : Nat := 0
  txn : Nat := 0
  arg : Nat := 0
  payload : List Byte := []
  deriving DecidableEq, Repr

/-- A packet as a port receives it: the link word's SEQ and ACK (R259), whether its LCRC and FEC codeword were good
(R261). -/
structure Rx where
  port : Nat
  seq : Nat
  ack : Nat
  good : Bool
  pkt : Packet
  deriving DecidableEq, Repr

/-- An Ethernet frame as a port receives it (R277). -/
structure Frame where
  dstPrefix : Nat
  dstModule : Nat
  etherType : Nat
  fcsGood : Bool
  wellFormed : Bool
  pkt : Packet
  deriving DecidableEq, Repr


/-- The commands of the module, one constructor per row of the opcode table. -/
inductive Instr where
  /-- ACCESS_UNSUPPORTED_SIZE (R7): A register access of an unsupported size or alignment completes without effect, reads return all ones, and event 0x1901 is recorded once per register per power cycle. -/
  | accessUnsupportedSize (off size : Nat) (write : Bool) (fn : Nat)
  /-- ACCESS_OUTSIDE_BLOCKS (R33): A control-space access outside every block completes without effect and is recorded once per offset as event 0x1902. -/
  | accessOutsideBlocks (off : Nat) (write : Bool) (fn : Nat)
  /-- REGISTER_WRITE (R8): A write to a register field that has no row of its own acts by the field's access type; a write to an undefined offset has no effect under R449. -/
  | registerWrite (path : Path) (a : RegAddr) (h : Half) (v : Word)
  /-- RC_FIELD_READ (R8): A read of an RC field returns its value and clears it; a 32-bit read clears only the bits it returns. -/
  | rcFieldRead (path : Path) (a : RegAddr) (h : Half)
  /-- EXTENT_CHANGE_TAKES_EFFECT (R29): Once every request issued under the old extents has completed, the extent change takes effect and the waiting requests are translated. -/
  | extentChangeTakesEffect (ctx : Fin 4096)
  /-- BAR0_WINDOW_ACCESS (R35): A PF0 access through the sliding part of BAR0 reaches control space at HUB_BAR0_WIN.BASE; BASE 0x6 to 0xF reads all ones. -/
  | bar0WindowAccess (off : Nat) (h : Half) (write : Option Word)
  /-- BAR2_READ (R37): A BAR2 read is translated as an H-tier access of the BAR2 context, with its seal checked in sealed extents; outside the view it returns all ones and counts a violation. -/
  | bar2Read (fn : Fin 256) (off len : Nat)
  /-- BAR2_WRITE (R37): A BAR2 write changes the bytes inside an unsealed extent and recomputes the seal CRC; it is discarded and counts a violation outside the view or in a sealed extent. -/
  | bar2Write (fn : Fin 256) (off : Nat) (data : List Byte)
  /-- P_TIER_REFUSED (R445): A host Unsupported Request or Completer Abort on a P-tier or Q-tier request stops the range, completes the request with REFUSED_PARTITION and counts one violation. -/
  | pTierRefused (req : Nat)
  /-- PCIE_COMPLETION_POISONED (R328): A completion received with the poisoned indication completes its request with POISONED. -/
  | pcieCompletionPoisoned (req : Nat)
  /-- PCIE_COMPLETION_TIMEOUT (R326): A P-tier or Q-tier read whose PCIe completion times out completes with TIMEOUT. -/
  | pcieCompletionTimeout (req : Nat)
  /-- CONTEXT_FREE (R44): When all of a Closing context's requests have retired and 10 ms have passed, the context becomes Free, INCARNATION is incremented and its extents are released. -/
  | contextFree (ctx : Fin 4096)
  /-- LOAD_BUFFER (R53): The image in the image buffer is expanded into the staging set, opening a session with EDITED 0. -/
  | loadBuffer (path : Path)
  /-- LOAD_SLOT (R53): The image of an Almanac slot is expanded into the staging set, opening a session. -/
  | loadSlot (path : Path) (slot : Fin 8)
  /-- CHECK (R55): The staging set starts its consistency check against itself and the live state, and the report is cleared. -/
  | check (path : Path)
  /-- CHECK_COMPLETE (R55): The consistency check ends; the staging set becomes Checked, or returns to Open with the report filled and event 0x3101 recorded. -/
  | checkComplete
  /-- ARM (R57): A Checked staging set becomes Armed and the drain of the affected partitions starts. -/
  | arm (path : Path) (w : Word)
  /-- DISCARD (R53): The staging set is dropped and the session closes. -/
  | discard (path : Path)
  /-- CFG_STORE (R62): The loaded image is programmed into an Almanac slot and read back; a mismatch marks the slot Bad. -/
  | cfgStore (path : Path) (slot : Fin 8)
  /-- REVERT (R64): The Previous slot is loaded into the staging set. -/
  | revert (path : Path)
  /-- CFG_CONFIRM (R60): A pending trial commit is confirmed, and the applied slot becomes Active. -/
  | cfgConfirm (path : Path)
  /-- ERASE_SLOT (R62): An Almanac slot is erased and marked Empty, unless it is Active, Previous or a trial. -/
  | eraseSlot (path : Path) (slot : Fin 8)
  /-- CFG_RAISE_SVN_FLOOR (R61): The image SVN floor is set to the SVN of the active image. -/
  | cfgRaiseSvnFloor (path : Path)
  /-- CFG_OP_UNASSIGNED (R53): A CFG_CMD with OP 0x0 or 0xB to 0xF ends with REFUSED_PARTITION. -/
  | cfgOpUnassigned (path : Path) (op : Nat)
  /-- MIRROR_WRITE (R53): A write to an ST mirror edits the staging set, opening a session or voiding a check or an armed commit. -/
  | mirrorWrite (path : Path) (off : Nat) (h : Half) (v : Word)
  /-- DRAIN_END (R57): The affected partitions hold no pending update and no dispatched entry, so the module raises the Meridian or sends its ready vote. -/
  | drainEnd
  /-- DRAIN_LIMIT_EXPIRE (R57): The drain exceeds DRAIN_LIMIT, the commit is abandoned and the held entries are released. -/
  | drainLimitExpire
  /-- ARM_TIMEOUT_EXPIRE (R58): Not every module voted ready within ARM_TIMEOUT, so the commit is abandoned. -/
  | armTimeoutExpire
  /-- TRIAL_EXPIRE (R60): No CONFIRM came within TRIAL seconds, so the module loads, checks and arms the Active image and records event 0x3104. -/
  | trialExpire
  /-- DIRECTORY_WRITE_COMPLETE (R63): The Almanac directory copy after an apply is written and DIR_PENDING clears. -/
  | directoryWriteComplete
  /-- QSAT_CTL_WRITE (R89): A write to TILE_QSAT_CTL sets the saturation thresholds and restarts the window. -/
  | qsatCtlWrite (path : Path) (t : Fin 272) (h : Half) (v : Word)
  /-- WAIT_TIMEOUT (R102): A WAIT whose timeout expires completes with TIMEOUT. -/
  | waitTimeout (t : Fin 272)
  /-- MACRO_OP_COMPLETE (R97): A macro-op completes; a status other than DONE stops issue, and its seal or signal is delivered. -/
  | macroOpComplete (t : Fin 272)
  /-- QUEUE_EN_WRITE (R118): A write to EN of a work list, queue pair, channel or command ring starts or stops it, leaving EN at 0 if the setup is invalid. -/
  | queueEnWrite (path : Path) (q : QueueId) (en : Bool)
  /-- QUEUE_RESTART (R118): RESTART in Stopped resumes dispatch at HEAD. -/
  | queueRestart (path : Path) (q : QueueId)
  /-- QUEUE_TAIL_WRITE (R118): A TAIL or SQ_TAIL write sets the new tail, or is discarded when out of range or overfull. -/
  | queueTailWrite (path : Path) (q : QueueId) (tail : Nat)
  /-- COMPLETION_RING_ROOM (R331): A CQ_HEAD write frees room, so a held completion record is written and the held requests continue. -/
  | completionRingRoom (path : Path) (q : QueueId) (head : Nat)
  /-- STREAM_ACCESS_RESUME (R126): A waiting stream store or load proceeds once there is room or data. -/
  | streamAccessResume (i : Fin 1024)
  /-- STREAM_WATCHDOG_EXPIRE (R126): A stream wait longer than WATCHDOG ends the macro-op with TIMEOUT and records event 0x7106. -/
  | streamWatchdogExpire (i : Fin 1024)
  /-- MODULE_MERIDIAN_RAISE (R133): Firmware raises the System-scope barrier, and every valid partition arrives at its next beat. -/
  | moduleMeridianRaise
  /-- JOB_RELEASE_INSTANT (R136): The module resumes at its first beat at or after T_rel of a job-scope release. -/
  | jobReleaseInstant (p : Fin 128)
  /-- MERIDIAN_TIMEOUT (R137): An incomplete barrier is abandoned, arrived participants complete with TIMEOUT and missing children are accused. -/
  | meridianTimeout (p : Fin 128) (scope : Fin 3)
  /-- DIM_TOKEN_SEND (R138): A participant at T2 or replaying sends a DIM progress token to its parent every 10 µs. -/
  | dimTokenSend (p : Fin 128)
  /-- PACE_SET_WRITE (R140): A PACE_SET write is clamped to 16 to 384 and requests a new pace. -/
  | paceSetWrite (path : Path) (v : Nat)
  /-- PACE_GROUP_BOUNDARY (R140): At a 16-cycle PACE_REF boundary, a new PACE_NOW takes effect and event 0x7102 is recorded. -/
  | paceGroupBoundary (groups : Nat)
  /-- DROOP_TRIP (R141): A droop detector trips and the governor withholds beat tokens across the module within 1 ns. -/
  | droopTrip (detector : Fin 1088)
  /-- DROOP_CLEAR (R141): Tokens resume after every detector has been clear for 4 beat slots, and the stretch is counted. -/
  | droopClear (slots : Nat)
  /-- PACE_EPOCH (R142): At the epoch edge, BEAT is set to 0 and the time counter loads the Lodestar's value. -/
  | paceEpoch
  /-- OFFLINE (R149): PF0 takes an Active channel offline and a sparing copy to a spare starts. -/
  | offline (s : Fin 12) (c : Fin 34)
  /-- ONLINE (R149): PF0 brings an Offline channel back and the copy back starts. -/
  | online (s : Fin 12) (c : Fin 34)
  /-- SPARING_COPY_COMPLETE (R150): A sparing copy finishes, and the channel becomes Retired, Offline or Active. -/
  | sparingCopyComplete (s : Fin 12) (c : Fin 34)
  /-- CHANNEL_UNREADABLE (R149): A channel becomes unreadable; its blocks are poisoned and a spare or a fold takes the slot. -/
  | channelUnreadable (s : Fin 12) (c : Fin 34)
  /-- FOLD_COMPLETE (R151): A fold finishes moving extents and the fold map takes effect. -/
  | foldComplete (s : Fin 12) (c : Fin 34)
  /-- REFRESH (R154): A per-bank refresh is issued to a pseudo-channel, holding its bank. -/
  | refresh (s : Fin 12) (pc : Nat) (waits : List (Nat × Nat))
  /-- STACK_TEMP_SAMPLE (R155): A stack temperature sample enters or leaves throttle levels T1 to T3. -/
  | stackTempSample (s : Fin 12) (temp : Nat)
  /-- T3_HOLD_EXPIRE (R158): No recovery sample arrived within HOLD_MS, so failover is requested with Fatal event 0x8106. -/
  | t3HoldExpire (s : Fin 12)
  /-- EXERCISER_START (R159): The exerciser starts a run on a Spare, Offline or Retired channel. -/
  | exerciserStart (s : Fin 12)
  /-- EXERCISER_ABORT (R159): The exerciser run stops and reports the errors so far. -/
  | exerciserAbort (s : Fin 12)
  /-- EXERCISER_RUN_COMPLETE (R159): An exerciser run finishes and sets RESULT.DONE and PASS. -/
  | exerciserRunComplete (s : Fin 12) (errors marginLo marginHi : Nat)
  /-- LLM_FLUSH (R165): The dirty lines of a slice are written back and stay valid. -/
  | llmFlush (q : Fin 4) (i : Fin 17)
  /-- LLM_INVALIDATE (R165): The lines of a slice are dropped and dirty data is discarded. -/
  | llmInvalidate (q : Fin 4) (i : Fin 17)
  /-- LLM_FLUSH_INVALIDATE (R165): The dirty lines of a slice are written back and then dropped. -/
  | llmFlushInvalidate (q : Fin 4) (i : Fin 17)
  /-- LLM_OP_COMPLETE (R165): A slice operation completes and the queued operation starts. -/
  | llmOpComplete (q : Fin 4) (i : Fin 17)
  /-- LLM_SLICE_COPY_COMPLETE (R167): The copy of a retired scratchpad slice to the spare finishes and the spare takes its index. -/
  | llmSliceCopyComplete (q : Fin 4) (i : Fin 17)
  /-- DEFERRAL_HEAD_READMIT (R174): When capacity frees, the head of a deferral queue passes admission again. -/
  | deferralHeadReadmit (point : Nat)
  /-- DEFERRAL_WAIT_LIMIT (R174): A deferred head reaches the wait limit of its admission point and completes as that point states. -/
  | deferralWaitLimit (point : Nat)
  /-- PROMOTION_COMPLETE (R176): A promoting row's D block arrives or fails; the row becomes Clean or Cold and waiting requests are served. -/
  | promotionComplete (s : Fin 12) (tid row : Nat) (ok : Bool)
  /-- WRITE_BACK_ACK (R176): D acknowledges a write-back, and the row becomes Cold, Clean or Dirty by version and EVICT. -/
  | writeBackAck (s : Fin 12) (tid row : Nat)
  /-- D_WRITE_ACKNOWLEDGE (R182): A D write reaches the power-loss-protected buffer and is acknowledged. -/
  | dWriteAcknowledge (id : Nat)
  /-- GARBAGE_COLLECTION (R183): Free erase blocks fall below 2 % of raw capacity, so valid pages are moved and blocks erased. -/
  | garbageCollection (moved : Nat)
  /-- STATIC_WEAR_LEVELLING (R183): The P/E spread exceeds 200, so cold data is moved onto worn blocks. -/
  | staticWearLevelling (moved : Nat)
  /-- READ_DISTURB_REFRESH (R183): An erase block reaches 60,000 reads, so its data is moved and the block erased. -/
  | readDisturbRefresh (block moved : Nat)
  /-- RETENTION_REFRESH (R183): Data older than 90 days is moved. -/
  | retentionRefresh (moved : Nat)
  /-- BAD_BLOCK_RETIREMENT (R184): A failing erase block is retired from the spare pool; unreadable data is poisoned. -/
  | badBlockRetirement (block : Nat) (lost : List Nat)
  /-- DEEP_RESTORE_COMPLETE (R186): After a unit reset the controller has restored its translation table and serves under the new generation. -/
  | deepRestoreComplete
  /-- GOVERNOR_CREDIT_SAVE (R187): Every 60 s the credit and DEEP_LIFE counters are saved to NAND. -/
  | governorCreditSave
  /-- TRANSLATION_REBUILD_COMPLETE (R190): The inactive translation bank is complete and waits for the next module Meridian to flip EPOCH. -/
  | translationRebuildComplete
  /-- REPL_PUSH_TIMEOUT (R215): A Stale replica receives no push within 1 ms after the commit and is dropped. -/
  | replPushTimeout (s : Fin 12) (tid row : Nat)
  /-- LOAD_WINDOW_END (R216): After LOAD_WINDOW steps the load counts close and cold replicas are dropped. -/
  | loadWindowEnd (s : Fin 12) (tid : Nat)
  /-- MIGRATION_COPY_COMPLETE (R218): The migration copy is complete and waits for a commit or skip Meridian to flip. -/
  | migrationCopyComplete (s : Fin 12) (tid : Nat)
  /-- ROW_MAP_REBUILD_COMPLETE (R220): The inactive row-map or replica-map bank is complete and flips at the next module Meridian. -/
  | rowMapRebuildComplete (s : Fin 12) (tid : Nat) (replica : Bool)
  /-- ROOT_COMPUTE_COMPLETE (R237): The Kronecker roots in ROOT_NEXT are complete, releasing a GRAD that waits for them. -/
  | rootComputeComplete (q : Fin 4) (k : Fin 512)
  /-- CHECK_BARRIER_RELEASE (R241): The check barrier is released; the step commits, skips or enters the verdict phase. -/
  | checkBarrierRelease (p : Fin 128)
  /-- VERDICT_RELEASE (R242): The verdict barrier is released, and the step commits or skips. -/
  | verdictRelease (p : Fin 128)
  /-- PARALLAX_WINDOW_EXPIRE (R242): A replay not compared within PARALLAX_WINDOW is treated as disagreeing, and the module arrives with OR[2]. -/
  | parallaxWindowExpire (p : Fin 128)
  /-- SIGNAL_DETECT (R256): Signal appears on at least two lanes and the port starts training. -/
  | signalDetect (port : Fin 32) (lanes : Nat)
  /-- TRAINING_STEP_DONE (R256): A training step completes and the next step starts, or the port becomes Up. -/
  | trainingStepDone (port : Fin 32) (lanes : Nat)
  /-- TRAINING_STEP_TIMEOUT (R256): A training step exceeds its bound, so the port returns to step 1 and records event 0xC102. -/
  | trainingStepTimeout (port : Fin 32)
  /-- SIGNAL_LOST (R258): Signal is lost on all lanes, so the port goes Down and its traffic is rerouted. -/
  | signalLost (port : Fin 32)
  /-- CALIBRATION_DUE (R258): The 1 s recalibration timer moves the port to Calibrating after moving C0. -/
  | calibrationDue (port : Fin 32)
  /-- CALIBRATION_DONE (R258): Calibration ends and the port returns to Up. -/
  | calibrationDone (port : Fin 32)
  /-- RETRAIN_DONE (R258): Retraining ends, the port returns to Up and its retry buffer is replayed. -/
  | retrainDone (port : Fin 32) (lanes : Nat)
  /-- TRAIN (R257): A capability exchange is received and the protocol version and lanes are agreed, or the port enters Mismatch. -/
  | train (port : Fin 32) (payload : List Byte)
  /-- LINK_ACK (R261): An ACK frees the acknowledged packets from the retry buffer. -/
  | linkAck (port : Fin 32) (ack : Nat)
  /-- LINK_NAK (R261): A NAK replays every unacknowledged packet from the NAKed one. -/
  | linkNak (port : Fin 32) (ack : Nat)
  /-- REPLAY_TIMER_EXPIRE (R261): No ACK arrives for 2 µs, so unacknowledged packets are replayed. -/
  | replayTimerExpire (port : Fin 32)
  /-- ERR_COUNTER_DECAY (R270): Every 1 ms each error counter above zero is decremented. -/
  | errCounterDecay (port : Fin 32)
  /-- C0_MOVE_COMPLETE (R271): Queued C0 packets have moved to alternates or the sideband, and the pending port state change proceeds. -/
  | c0MoveComplete (port : Fin 32)
  /-- PORT_RETRAIN (R257): SL_CMD RETRAIN retrains the port. -/
  | portRetrain (path : Path) (port : Fin 32)
  /-- PORT_CLEAR (R273): SL_CMD CLEAR zeroes the counters and trains all four lanes. -/
  | portClear (path : Path) (port : Fin 32)
  /-- PORT_CALIBRATE (R258): SL_CMD CALIBRATE starts a calibration now. -/
  | portCalibrate (path : Path) (port : Fin 32)
  /-- PORT_RESET (R275): SL_CMD RESET drains the port, re-sends its traffic and increments GENERATION. -/
  | portReset (path : Path) (port : Fin 32)
  /-- PORT_DRAIN_COMPLETE (R275): The port drain is complete; the port goes Down with a new generation and trains. -/
  | portDrainComplete (port : Fin 32)
  /-- ROUTE_FLIP (R266): A FLIP write sets a route bank flip pending for the next module Meridian. -/
  | routeFlip (path : Path)
  /-- XT_TIMEOUT_EXPIRE (R267): No response arrives within XT_TIMEOUT, so the request completes with TIMEOUT. -/
  | xtTimeoutExpire (unit txn : Nat)
  /-- ROUTE_WAIT_EXPIRE (R268): No usable port appears within 50 µs, so the request completes with PORT_NOT_READY. -/
  | routeWaitExpire (unit txn : Nat)
  /-- PORT_QUEUE_WAIT_EXPIRE (R274): A packet waits 50 µs on a port that is not Up and is handed to the next usable port. -/
  | portQueueWaitExpire (port : Fin 32)
  /-- ETHERNET_FRAME_RECEIVE (R277): An Ethernet frame carrying a Starlane packet is received, or is dropped for its address, EtherType or form. -/
  | ethernetFrameReceive (port : Fin 32) (f : Frame)
  /-- ETHERNET_RESEND_TIMER (R278): An unacknowledged Ethernet packet is re-sent after 20 µs, and after the eighth re-send it is handed on. -/
  | ethernetResendTimer (port : Fin 32) (unit txn : Nat)
  /-- READ_REQ (R31): A remote read request is translated through the local context of its job domain and served. -/
  | readReq (rx : Rx)
  /-- READ_RSP (R267): A read response completes its outstanding request, or is discarded as late or stale. -/
  | readRsp (rx : Rx)
  /-- WRITE_REQ (R31): A remote write request is translated and applied. -/
  | writeReq (rx : Rx)
  /-- WRITE_ACK (R267): A write acknowledgement completes its request. -/
  | writeAck (rx : Rx)
  /-- ROW_REQ (R203): A Halo row read or promotion request is served at the row's home. -/
  | rowReq (rx : Rx)
  /-- ROW_RSP (R203): A row response delivers the committed row to the pooling engine. -/
  | rowRsp (rx : Rx)
  /-- PAIRS (R208): Gradient pairs arriving at their home are merged, once per TXN. -/
  | pairs (rx : Rx)
  /-- STATUS (R267): A status response completes a request, and a DEFERRED status restarts its timer. -/
  | statusPkt (rx : Rx)
  /-- MERIDIAN_PACKET (R136): A barrier arrival, release or DIM token is taken up once per barrier number. -/
  | meridianPacket (rx : Rx)
  /-- TIME (R281): A TIME packet measures link delay and slews the time counter, or names the epoch value. -/
  | time (rx : Rx)
  /-- LODESTAR_TIME_SEND (R280): The Lodestar sends TIME packets every 1 ms. -/
  | lodestarTimeSend
  /-- LODESTAR_HEARTBEAT_SEND (R280): The Lodestar sends CONST heartbeats every 10 µs. -/
  | lodestarHeartbeatSend
  /-- CONST_HEARTBEAT (R282): A Lodestar heartbeat is received or relayed. -/
  | constHeartbeat (rx : Rx)
  /-- HEARTBEAT_LOSS (R282): No heartbeat arrives for 50 µs, so the takeover starts. -/
  | heartbeatLoss (us : Nat)
  /-- TAKEOVER_CLAIM_ACK (R282): A majority acknowledges the claim and the claimant becomes Lodestar. -/
  | takeoverClaimAck (rx : Rx)
  /-- CONST_MEMBERSHIP (R279): A constellation membership message updates the live members. -/
  | constMembership (rx : Rx)
  /-- CONST_POOL_GRANT (R284): A pool grant is taken up at a constellation barrier. -/
  | constPoolGrant (rx : Rx)
  /-- POOL_FORM_TIMEOUT (R284): The pool requests do not all arrive within 1 s, so the pool does not form. -/
  | poolFormTimeout (tag : Nat)
  /-- REPL_REQUEST (R214): The owner grants or refuses a replica request. -/
  | replRequest (rx : Rx)
  /-- REPL_GRANT (R214): The holder places a granted row in a slot in state Filling. -/
  | replGrant (rx : Rx)
  /-- REPL_INVALIDATION (R215): The holder marks its replica Stale and acknowledges. -/
  | replInvalidation (rx : Rx)
  /-- REPL_PUSH (R215): The committed row value makes a Stale replica Valid. -/
  | replPush (rx : Rx)
  /-- REPL_ACKNOWLEDGEMENT (R215): The owner takes a holder's acknowledgement of a replica invalidation or push, which allows its check arrival and the completion of the partition's commit. -/
  | replAcknowledgement (rx : Rx)
  /-- REPL_DROP (R215): A drop notice from the owner (migration, swap or table destruction) drops the holder's replica, and a holder's notice that it dropped a cold replica frees the owner's directory entry. -/
  | replDrop (rx : Rx)
  /-- GROUP_CRC_RECEIVE (R289): Rank 0 takes a rank's descriptor CRC and answers every rank once all are in. -/
  | groupCrcReceive (rx : Rx)
  /-- GROUP_ANSWER (R289): Rank 0's answer completes GROUP_CREATE with DONE or REFUSED_PARTITION. -/
  | groupAnswer (rx : Rx)
  /-- COLL_CONTRIBUTION (R305): A contribution is added once per segment and source rank, and duplicates are discarded. -/
  | collContribution (rx : Rx)
  /-- COLL_RESULT (R299): A segment's result is received and written to DST. -/
  | collResult (rx : Rx)
  /-- COLL_PROGRESS (R307): A DIM progress packet extends the wait by COLL_TIMEOUT, up to 8 times. -/
  | collProgress (rx : Rx)
  /-- COLL_RESEND_REQUEST (R306): The sender rebuilds a contribution and sends it again. -/
  | collResendRequest (rx : Rx)
  /-- COLL_STATUS (R306): A status packet ends the collective on every rank with its status. -/
  | collStatus (rx : Rx)
  /-- PCIE_LINK_RESET (R327): A link-down, hot reset or PERST# resets the PCIe function layer and sends every function into Orphan. -/
  | pcieLinkReset
  /-- FUNCTION_LEVEL_RESET (R328): An FLR moves every context of the function to Closing within 100 ms. -/
  | functionLevelReset (f : Fin 256)
  /-- NUMVFS_REDUCTION (R328): PF0 reduces NumVFs, which is a function-level reset of each VF removed. -/
  | numvfsReduction (n : Nat)
  /-- DOORBELL (R329): A doorbell sets a queue's tail and counts as a heartbeat, or counts a violation for a foreign queue. -/
  | doorbell (fn : Fin 256) (slot qn tail : Nat)
  /-- HEARTBEAT (R339): A HEARTBEAT write updates LAST_HB of the function. -/
  | heartbeat (fn : Fin 256) (slot : Nat)
  /-- HB_TIMEOUT_EXPIRE (R339): HB_TIMEOUT passes since LAST_HB, so the function enters Orphan. -/
  | hbTimeoutExpire (f : Fin 256)
  /-- RESUME (R342): HANDOVER RESUME returns an Orphan function to Attached and releases held work. -/
  | resume (f : Fin 256)
  /-- TEARDOWN (R342): HANDOVER TEARDOWN moves every context of the function to Closing. -/
  | teardown (f : Fin 256)
  /-- ORPHAN_HOLD_EXPIRE (R342): HOLD_MIN expires and the function enters Tearing down. -/
  | orphanHoldExpire (f : Fin 256)
  /-- FLUSH_READ_COMPLETE (R336): The flush read of an outbound COPY completes, and the flag, completion record and host copy are written. -/
  | flushReadComplete (req : Nat)
  /-- STAGE (R351): A firmware image is read and programmed into the slot that is not running. -/
  | stage (path : Path) (w : Word)
  /-- STAGING_COMPLETE (R351): Programming and verification end; the update becomes Staged or returns to Idle. -/
  | stagingComplete (reason : Nat)
  /-- ACTIVATE (R352): The staged image is verified and loaded into the free SRAM banks for a switch. -/
  | activate (path : Path) (w : Word)
  /-- FW_SWITCH_COMPLETE (R352): The new image re-executes the journal and releases dispatch, entering Trial. -/
  | fwSwitchComplete (selfCheckOk : Bool)
  /-- FW_CONFIRM (R351): A firmware trial is committed and the new slot becomes Active. -/
  | fwConfirm (path : Path)
  /-- ROLLBACK (R351): A firmware trial is rolled back to the old image. -/
  | rollback (path : Path)
  /-- ROLLBACK_COMPLETE (R353): The switch back ends and the update returns to Idle. -/
  | rollbackComplete
  /-- FW_TRIAL_WINDOW_EXPIRE (R351): The SELFCHECK window ends, committing the trial or rolling it back. -/
  | fwTrialWindowExpire (checksPassed : Bool)
  /-- FW_RAISE_SVN_FLOOR (R351): The firmware SVN floor is set to the running SVN. -/
  | fwRaiseSvnFloor (path : Path)
  /-- FW_WATCHDOG_EXPIRE (R354): A core misses its watchdog for 100 ms, so the firmware is reloaded or rolled back. -/
  | fwWatchdogExpire (core : Fin 6)
  /-- REQUEST_UPDATE (R349): PLDM RequestUpdate starts a firmware update over the sideband. -/
  | requestUpdate (maxTransfer : Nat)
  /-- PASS_COMPONENT_TABLE (R349): PLDM PassComponentTable describes the one firmware component. -/
  | passComponentTable (components : Nat)
  /-- UPDATE_COMPONENT (R349): PLDM UpdateComponent starts the transfer of the image. -/
  | updateComponent (size : Nat)
  /-- REQUEST_FIRMWARE_DATA (R349): PLDM RequestFirmwareData obtains a part of the image. -/
  | requestFirmwareData (off : Nat) (data : List Byte)
  /-- TRANSFER_COMPLETE (R349): PLDM TransferComplete reports the end of the transfer. -/
  | transferComplete (result : Nat)
  /-- VERIFY_COMPLETE (R349): PLDM VerifyComplete reports the verification of the image. -/
  | verifyComplete (result : Nat)
  /-- APPLY_COMPLETE (R349): PLDM ApplyComplete reports that the image is programmed. -/
  | applyComplete (result : Nat)
  /-- ACTIVATE_FIRMWARE (R349): PLDM ActivateFirmware activates the image and, in Recovery, restarts the boot. -/
  | activateFirmware
  /-- IF_SEL_WRITE (R355): A driver selects its interface version, or the write is refused with event 0xF10A. -/
  | ifSelWrite (path : Path) (f : Fin 256) (v : Nat)
  /-- TILE_POLL_TIMEOUT (R362): A tile does not answer the 100 µs status poll and is retired. -/
  | tilePollTimeout (t : Fin 272) (moverAnswers : Bool)
  /-- UNIT_RESET_REQUEST (R378): HUB_UNIT_RESET ACTION 1 resets a unit through Draining. -/
  | unitResetRequest (path : Path) (cls idx : Nat)
  /-- UNIT_RETIRE_REQUEST (R366): HUB_UNIT_RESET ACTION 2 retires a tile, channel or slice. -/
  | unitRetireRequest (path : Path) (cls idx : Nat)
  /-- CLEAR_HISTORY (R366): HUB_UNIT_RESET ACTION 3 clears a unit's fault history. -/
  | clearHistory (path : Path) (cls idx : Nat)
  /-- UNIT_DRAIN_COMPLETE (R378): A draining unit is reset, increments its generation and enters Ready. -/
  | unitDrainComplete (cls idx : Nat)
  /-- STAR_CHART_WRITE_COMPLETE (R368): The Star chart copy not in force is written, its SEQ is raised and event 0x1109 is recorded. -/
  | starChartWriteComplete
  /-- DEFERRED_RETRY (R379): After the hinted wait, the engine resends a request that a Draining unit deferred. -/
  | deferredRetry (id : Nat)
  /-- PARALLAX_REPLAY_COMPLETE (R383): The replay's output digest is compared, giving agreement or disagreement. -/
  | parallaxReplayComplete (q : Fin 4) (p : Fin 128) (l : Fin 8) (seq digest : Nat) (status : Status)
  /-- ACCUSATION_WINDOW_END (R385): At the end of a 10 ms window, merged accusations are forwarded upward or to the fabric manager. -/
  | accusationWindowEnd
  /-- NOTICE_ACCUSATION (R385): A received accusation is merged per suspect and cause. -/
  | noticeAccusation (rx : Rx)
  /-- NOTICE_MERGED_ACCUSATION (R387): A merged accusation is merged further, or recorded by the suspect module. -/
  | noticeMergedAccusation (rx : Rx)
  /-- NOTICE_POWER_HOLD (R386): A power-hold notice is recorded and forwarded to the fabric manager. -/
  | noticePowerHold (rx : Rx)
  /-- NOTICE_FREEZE (R386): A freeze notice is recorded and forwarded. -/
  | noticeFreeze (rx : Rx)
  /-- NOTICE_RELEASE (R386): A release notice is recorded and forwarded. -/
  | noticeRelease (rx : Rx)
  /-- POLL_FOR_PLATFORM_EVENT_MESSAGE (R391): The fabric manager's poll makes the module send undelivered CPER records again. -/
  | pollForPlatformEventMessage (acked : List Nat)
  /-- POWER_STATE_TICK (R396): Every 1 µs the controller chooses power states by predicted idle. -/
  | powerStateTick (idle : List (Nat × Nat))
  /-- PLANNED_WAKE (R396): A wake starts at the next known event less the wake time. -/
  | plannedWake (p : Option (Fin 128))
  /-- POWER_SAMPLE (R407): Every 10 µs the rails are measured and their energy is apportioned to partitions. -/
  | powerSample (vinMv iMa : Nat) (railsMv railsUj : List Nat) (use : List (Nat × Nat × Nat))
  /-- POWER_LIMIT_TICK (R398): Every 1 ms the budget is computed and the pace cap and duty holds are adjusted. -/
  | powerLimitTick (avgW : Nat)
  /-- REGULATOR_ALERT (R404): A regulator alert forces A4 Nadir with a power-hold notice. -/
  | regulatorAlert (cause : Nat)
  /-- FORCED_NADIR_END (R405): The alert has been clear for 10 ms, so the module wakes, resumes and sends a release notice. -/
  | forcedNadirEnd
  /-- POWER_LOSS (R406): The input is below 40 V for 100 µs; state is lost except acknowledged D writes. -/
  | powerLoss
  /-- DROOP_DETECTOR_MASK (R403): A detector tripped 10 µs with its rail in window is masked as faulty. -/
  | droopDetectorMask (detector : Fin 1088)
  /-- JUNCTION_SAMPLE (R410): A junction or inlet sample enters or leaves thermal trips J1 to J3. -/
  | junctionSample (hub deep : Nat) (quads : List Nat) (inlet outlet : Nat)
  /-- EFF_LIMIT_STEP (R410): Under J1, EFF_LIMIT_W is lowered every 10 ms, or raised every 100 ms after exit. -/
  | effLimitStep
  /-- J3_CLEAR_TIMER (R410): The junction and inlet are below their exit levels for 10 s, so J3 is left. -/
  | j3ClearTimer
  /-- HARDWARE_THERMAL_TRIP (R411): A 125 °C comparator turns off the regulators and asserts THERMTRIP_N. -/
  | hardwareThermalTrip
  /-- COOLANT_CHECK_EXPIRE (R409): The inlet has been high for 1 s or the flow low for 5 s, so event 0x1708 is recorded. -/
  | coolantCheckExpire (flow : Bool)
  /-- RECORD_PROGRAM_COMPLETE (R417): Staged records are programmed into the general or keep ring. -/
  | recordProgramComplete (n : Nat) (genFails keepFails : Nat)
  /-- SECTOR_ERASE_COMPLETE (R417): The sector after a ring head is erased. -/
  | sectorEraseComplete (keep : Bool) (fails : Nat)
  /-- OP_TIME_SAVE (R416): Every 10 minutes the operating time and power-cycle count are saved. -/
  | opTimeSave
  /-- ECL_FREEZE (R422): A write of ECL_CTL.FREEZE freezes the module at a beat boundary. -/
  | eclFreeze (path : Path)
  /-- ECL_RESUME (R424): A write of ECL_CTL.RESUME clears the register and trigger sources and may end the freeze. -/
  | eclResume (path : Path)
  /-- FREEZE_N_ASSERT (R422): FREEZE_N going low, with PIN_EN set, freezes the module. -/
  | freezeNAssert
  /-- FREEZE_N_RELEASE (R424): FREEZE_N going high clears the pin source. -/
  | freezeNRelease
  /-- FREEZE_AT_REACHED (R422): Module time reaches ECL_FREEZE_AT, so the module freezes. -/
  | freezeAtReached
  /-- DEBUG_WINDOW_READ (R425): The fast debug path reads array bytes from ECL_ADDR. -/
  | debugWindowRead (path : Path) (off : Nat)
  /-- DEBUG_WINDOW_WRITE (R427): A fast-path write during a freeze deposits data when DEPOSIT_EN is set. -/
  | debugWindowWrite (path : Path) (off : Nat) (v : Word)
  /-- BYPASS (R426): The JTAG BYPASS instruction. -/
  | bypass (tdi : Bool)
  /-- IDCODE (R426): The JTAG IDCODE instruction returns 0x2720_024B. -/
  | idcode
  /-- SAMPLE_PRELOAD (R426): The JTAG SAMPLE/PRELOAD instruction. -/
  | samplePreload (preload : Nat)
  /-- EXTEST (R426): The JTAG EXTEST instruction, accepted only at the JTAG hold step. -/
  | extest
  /-- JTAG_ECL_ADDR (R426): The private ECL_ADDR instruction sets the array address. -/
  | jtagEclAddr (v : Word)
  /-- JTAG_ECL_DATA (R427): The private ECL_DATA instruction reads or deposits the addressed word and advances the address. -/
  | jtagEclData (write : Option Word)
  /-- JTAG_ECL_CTL (R426): The private ECL_CTL instruction gives FREEZE and RESUME. -/
  | jtagEclCtl (freeze resume : Bool)
  /-- PWR_EN_RISE (R436): The start conditions are met and the power-up sequence runs. -/
  | pwrEnRise
  /-- JTAG_HOLD_RELEASE (R436): JTAG_HOLD_N going high continues the power-up from the JTAG hold step. -/
  | jtagHoldRelease
  /-- PWR_EN_FALL (R437): An orderly power-down enters Nadir, programs the records and ramps the regulators down. -/
  | pwrEnFall
  /-- POWER_DOWN_COMPLETE (R437): The orderly power-down ends with PWR_GOOD low. -/
  | powerDownComplete
  /-- COLD_RESET_N (R438): COLD_RESET_N low resets everything by the power-up sequence. -/
  | coldResetN
  /-- WARM_RESET_N (R439): A warm reset resets firmware, cores and units while keeping contexts and contents. -/
  | warmResetN
  /-- HUB_RESET_WARM (R439): HUB_RESET KIND 1 requests a warm reset. -/
  | hubResetWarm (path : Path)
  /-- HUB_RESET_PARTITION (R440): HUB_RESET KIND 2 resets one partition's work and tiles. -/
  | hubResetPartition (path : Path) (p : Fin 128)
  /-- HUB_RESET_COLD (R438): HUB_RESET KIND 4 from the sideband requests a cold reset. -/
  | hubResetCold (path : Path)
  /-- PACE_REF_LOSS (R432): Ten PACE_REF cycles are missing, so beat tokens are withheld and the internal oscillator takes over. -/
  | paceRefLoss
  /-- PACE_REF_RESUME (R432): Issue resumes 1 ms after PACE_REF returns. -/
  | paceRefResume
  /-- MODULE_INSERTION (R435): The module is mated with VIN live and PWR_EN low. -/
  | moduleInsertion
  /-- MODULE_REMOVAL (R435): The module is removed; with PWR_EN high this is a power loss. -/
  | moduleRemoval
  /-- CONFIGURATION_REQUEST (R349): A PCIe configuration request is answered with Request Retry Status until STATE is Running; otherwise a configuration write takes effect in the capability, such as PF0 raising NumVFs so that a VF exists again. -/
  | configurationRequest (fn : Fin 256) (reg : Nat) (write : Option Word)
  /-- PERST_RELEASE (R436): The release of PERST# lets the PCIe link train from 10 ms after the release or after hub release, whichever is later. -/
  | perstRelease
  /-- MCTP_CONTROL_MESSAGE (R433): An MCTP control message on the management bus is answered, from 5 ms after VIN is in range, including in Recovery and Nadir. -/
  | mctpControlMessage (eid : Nat) (cmd : Nat) (data : List Byte)
  /-- LANE_SIGNAL_LOST (R252): A lane of a port in service stops working, and a port left with fewer than two working lanes enters Quarantine. -/
  | laneSignalLost (port : Fin 32) (lane : Fin 4)
  /-- PRIORITY_FLOW_CONTROL_FRAME (R276): A received 802.1Qbb PFC frame pauses or releases the PCPs of C0 to C2 on an Ethernet port, and a received PAUSE frame is ignored. -/
  | priorityFlowControlFrame (port : Fin 32) (cls pauses : Nat) (pfc : Bool)
  /-- UNIT_STOPS_ANSWERING (R362): A requester's timeout towards a unit that stops answering starts a unit reset through Draining. -/
  | unitStopsAnswering (cls idx : Nat)
  /-- CREDIT_ACCRUAL (R187): Write-governor credit accrues continuously, admitting writes that wait for credit at the accrual rate and taking LIMITED back to 0. -/
  | creditAccrual (us : Nat)
  /-- ALMANAC_PROGRAM_COMPLETE (R62): The flash programming or erasing of an Almanac slot for STORE or ERASE_SLOT ends; the read-back marks the slot Valid, Empty or Bad, and the command completes. -/
  | almanacProgramComplete (ok : Bool)
  /-- PCIE_READ_COMPLETION (R333): A successful PCIe completion returns host or peer data for a P-tier or Q-tier read, which a copy engine writes to its target. -/
  | pcieReadCompletion (req : Nat) (data : List Byte)
  /-- RUN (R120): A RUN entry dispatches to its tile once its conditions hold, loads its program if needed and starts it. -/
  | run (p : Fin 128) (l : Fin 8)
  /-- MERIDIAN (R135): A MERIDIAN entry arrives at the barrier of its scope with its TAG and reports the release payload. -/
  | meridian (p : Fin 128) (l : Fin 8)
  /-- NOTIFY (R119): A NOTIFY entry completes when every earlier entry of its list has completed. -/
  | notify (p : Fin 128) (l : Fin 8)
  /-- ENTRY_COMPLETE (R122): A work-list entry completes; a refusal or an admission, loss or integrity status stops its list. -/
  | entryComplete (p : Fin 128) (l : Fin 8) (seq : Nat)
  /-- FEED_START (R130): A feed starts storing blocks into its stream and issuing run-ahead prefetches before its tile is idle. -/
  | feedStart (p : Fin 128) (l : Fin 8)
  /-- HOST_COPY (R333): A COPY command moves data through a copy engine, sealing or checking blocks. -/
  | hostCopy (c : Fin 4096)
  /-- CTX_CREATE (R40): PF0 creates a context and sets its seed. -/
  | ctxCreate (c : Fin 4096)
  /-- CTX_DESTROY (R447): PF0 moves a context to Closing. -/
  | ctxDestroy (c : Fin 4096)
  /-- CTX_FENCE (R447): PF0 fences an Active context with FENCE_REASON 3. -/
  | ctxFence (c : Fin 4096)
  /-- CTX_UNFENCE (R447): PF0 returns a Fenced context to Active and clears VIOL_COUNT. -/
  | ctxUnfence (c : Fin 4096)
  /-- EXTENT_SET (R446): An extent is created or destroyed. -/
  | extentSet (c : Fin 4096)
  /-- PEER_WINDOW (R338): A peer window is created as DIRECT or VIA_HOST, or destroyed. -/
  | peerWindow (c : Fin 4096) (answers : Bool)
  /-- TABLE_CREATE (R192): An embedding table is created from its descriptor. -/
  | tableCreate (c : Fin 4096)
  /-- TABLE_DESTROY (R332): A table is freed after the descriptors naming it complete. -/
  | tableDestroy (c : Fin 4096)
  /-- TABLE_PARAM (R211): New sparse-rule parameters take effect at the next commit Meridian. -/
  | tableParam (c : Fin 4096)
  /-- TABLE_FLUSH (R178): Every row Dirty at the start is set on course for write-back. -/
  | tableFlush (c : Fin 4096)
  /-- TABLE_CHECKPOINT (R179): A shard file of the last committed step is written for the table. -/
  | tableCheckpoint (c : Fin 4096)
  /-- TABLE_RESTORE (R325): Table shards are loaded, dropping replicas and merge entries. -/
  | tableRestore (c : Fin 4096)
  /-- SHARD_CREATE (R227): A dense shard is created from its descriptor. -/
  | shardCreate (c : Fin 4096)
  /-- SHARD_DESTROY (R332): A shard is freed after the descriptors naming it complete. -/
  | shardDestroy (c : Fin 4096)
  /-- LLM_RANGE (R165): A slice operation is applied to the lines of a context's H range. -/
  | llmRange (c : Fin 4096)
  /-- POOL (R284): A pool of constellation members is requested or released. -/
  | pool (c : Fin 4096)
  /-- STEP_REBASE (R325): COMMITTED_STEP of an idle partition is set to a checkpoint's step. -/
  | stepRebase (c : Fin 4096)
  /-- INTERRUPT_DELAY_EXPIRE (R330): ITR_US microseconds after the first unsignalled completion record, the context's MSI-X vector is raised. -/
  | interruptDelayExpire (c : Fin 4096)
  /-- HALO_GATHER (R203): A Halo engine gathers and pools the rows of each bag into its output. -/
  | haloGather (s : Fin 12) (qp : Fin 32)
  /-- UPDATE (R208): Gradient pairs are sent to their homes and merged exactly per row. -/
  | update (s : Fin 12) (qp : Fin 32)
  /-- HALO_STEP_END (R209): STEP_END marks the end of a step's UPDATE descriptors on a queue pair. -/
  | haloStepEnd (s : Fin 12) (qp : Fin 32)
  /-- LOOKAHEAD (R207): Lookahead promotions are started for the IDs of a future batch. -/
  | lookahead (s : Fin 12) (qp : Fin 32)
  /-- MIGRATE (R217): Owned rows are admitted at a target home and copied there as Outbound. -/
  | migrate (s : Fin 12) (qp : Fin 32)
  /-- SWAP (R221): A table swap is posted for the commit or skip Meridian of a step. -/
  | swap (s : Fin 12) (qp : Fin 32)
  /-- LOAD_STATS (R216): The load counts of the last closed window are written out. -/
  | loadStats (s : Fin 12) (qp : Fin 32)
  /-- OVERRIDE (R219): The override table is replaced at the commit Meridian of a step. -/
  | override (s : Fin 12) (qp : Fin 32)
  /-- GRAD (R232): The Orrery computes a shard's rule into the inactive bank and sets PENDING. -/
  | grad (q : Fin 4) (qp : Fin 16)
  /-- ORR_STEP_END (R240): The Orrery's STEP_END allows its arrival at the check barrier. -/
  | orrStepEnd (q : Fin 4) (qp : Fin 16)
  /-- SET_HYPER (R231): New hyperparameters apply from the next commit or skip Meridian. -/
  | setHyper (q : Fin 4) (qp : Fin 16)
  /-- EXPORT (R246): A shard's active bank is written as a shard file. -/
  | exportOp (q : Fin 4) (qp : Fin 16)
  /-- IMPORT (R248): The overlap of a shard file is written into the shard's active bank. -/
  | importOp (q : Fin 4) (qp : Fin 16)
  /-- SKIP (R244): SKIP requests that the step be skipped, and completes at the skip. -/
  | skip (q : Fin 4) (qp : Fin 16)
  /-- ALL_REDUCE (R299): Each rank's buffer is reduced over all ranks into every rank's DST. -/
  | allReduce (q : Fin 4) (c : Fin 16)
  /-- REDUCE_SCATTER (R291): The reduction is scattered so that each rank receives its own segment. -/
  | reduceScatter (q : Fin 4) (c : Fin 16)
  /-- ALL_GATHER (R291): Each rank's segment is gathered into every rank's DST. -/
  | allGather (q : Fin 4) (c : Fin 16)
  /-- ALL_TO_ALL (R291): Each rank sends segment r to rank r. -/
  | allToAll (q : Fin 4) (c : Fin 16)
  /-- BROADCAST (R291): The root's buffer is copied to every rank. -/
  | broadcast (q : Fin 4) (c : Fin 16)
  /-- ANY_TO_HOME (R296): Key and value pairs are routed to their home rank and merged there. -/
  | anyToHome (q : Fin 4) (c : Fin 16)
  /-- TOKEN_ROUTE (R295): Tokens are admitted to expert slots by global index up to CAPACITY, or returned in reverse. -/
  | tokenRoute (q : Fin 4) (c : Fin 16)
  /-- GROUP_CREATE (R288): A rank posts its group descriptor and sends its CRC to rank 0. -/
  | groupCreate (q : Fin 4) (c : Fin 16)
  /-- GROUP_DESTROY (R289): The group is released on this rank once its last collective has completed. -/
  | groupDestroy (q : Fin 4) (c : Fin 16)
  /-- GROUP_TIMEOUT_EXPIRE (R289): Not every rank has posted within GROUP_TIMEOUT, so GROUP_CREATE completes with TIMEOUT. -/
  | groupTimeoutExpire (q : Fin 4) (c : Fin 16) (gid : Nat)
  /-- FUSION_WATCHDOG_EXPIRE (R297): An open fused set whose next descriptor does not arrive completes with TIMEOUT. -/
  | fusionWatchdogExpire (q : Fin 4) (c : Fin 16)
  /-- COLL_TIMEOUT_EXPIRE (R307): A rank waiting without progress completes with TIMEOUT, sends status and accuses. -/
  | collTimeoutExpire (q : Fin 4) (c : Fin 16) (gid seq : Nat)
  /-- COLL_DIM_PROGRESS_SEND (R307): A rank at T2 or replaying sends progress packets every 10 µs. -/
  | collDimProgressSend (q : Fin 4) (c : Fin 16) (gid seq : Nat)
  /-- NOP (R101): A macro-op with no effect. -/
  | nop (t : Fin 272) (w : Entry)
  /-- END (R97): Issue stops, and the entry completes once every earlier macro-op has completed. -/
  | endOp (t : Fin 272) (w : Entry)
  /-- FENCE (R101): The tile waits until every earlier macro-op has completed. -/
  | fence (t : Fin 272) (w : Entry)
  /-- WAIT (R102): The tile waits until a signal counter reaches a value. -/
  | wait (t : Fin 272) (w : Entry)
  /-- SIGNAL (R102): The tile adds an increment to a signal counter of its own or of a remote tile in the partition. -/
  | signal (t : Fin 272) (w : Entry)
  /-- BARRIER (R134): The tile arrives at the Meridian barrier of a scope and waits for its release. -/
  | barrier (t : Fin 272) (w : Entry)
  /-- LOOP (R102): The tile runs the next 1 to 16 macro-ops repeatedly, adding the strides to their addresses. -/
  | loop (t : Fin 272) (w : Entry)
  /-- LOAD (R103): The block mover moves memory blocks into local slots, checking each seal. -/
  | load (t : Fin 272) (w : Entry) (flt : List FetchFault)
  /-- GATHER (R103): The block mover moves listed memory blocks into local slots. -/
  | gather (t : Fin 272) (w : Entry) (flt : List FetchFault)
  /-- STORE (R103): The block mover moves local slots into memory blocks with their seals. -/
  | store (t : Fin 272) (w : Entry) (chk : TileCheck)
  /-- SCATTER (R103): The block mover moves local slots into listed memory blocks. -/
  | scatter (t : Fin 272) (w : Entry) (chk : TileCheck)
  /-- COPY (R103): The block mover copies local slots to other local slots with their seals. -/
  | copy (t : Fin 272) (w : Entry) (chk : TileCheck)
  /-- SEND (R102): The block mover sends local slots into another tile's local store in the same partition. -/
  | send (t : Fin 272) (w : Entry) (chk : TileCheck)
  /-- PREFETCH (R130): H-tier blocks are brought speculatively into the partition's LLM cache slices. -/
  | prefetch (t : Fin 272) (w : Entry)
  /-- MM (R105): The matrix unit computes D equal to the epilogue of A times the transpose of W, using the exact region as ACC selects. -/
  | mm (t : Fin 272) (w : Entry) (chk : TileCheck)
  /-- MMTA (R105): A matrix multiply with A held K by M, for FP32 and 16-bit operands only. -/
  | mmta (t : Fin 272) (w : Entry) (chk : TileCheck)
  /-- VADD (R112): The vector unit computes D equal to A plus B. -/
  | vadd (t : Fin 272) (w : Entry) (chk : TileCheck)
  /-- VSUB (R112): The vector unit computes D equal to A minus B. -/
  | vsub (t : Fin 272) (w : Entry) (chk : TileCheck)
  /-- VMUL (R112): The vector unit computes D equal to A times B. -/
  | vmul (t : Fin 272) (w : Entry) (chk : TileCheck)
  /-- VFMA (R112): The vector unit computes D equal to A times B plus C with one rounding. -/
  | vfma (t : Fin 272) (w : Entry) (chk : TileCheck)
  /-- VMAX (R112): The vector unit computes the elementwise maximum. -/
  | vmax (t : Fin 272) (w : Entry) (chk : TileCheck)
  /-- VMIN (R112): The vector unit computes the elementwise minimum. -/
  | vmin (t : Fin 272) (w : Entry) (chk : TileCheck)
  /-- VACT (R112): The vector unit applies a FUNC activation to A. -/
  | vact (t : Fin 272) (w : Entry) (chk : TileCheck)
  /-- VCMP (R112): The vector unit writes 1.0 where a comparison holds and +0 elsewhere. -/
  | vcmp (t : Fin 272) (w : Entry) (chk : TileCheck)
  /-- VSEL (R101): The vector unit selects B where the mask is non-zero and A elsewhere. -/
  | vsel (t : Fin 272) (w : Entry) (chk : TileCheck)
  /-- VRSUM (R112): The vector unit sums each row exactly and rounds once. -/
  | vrsum (t : Fin 272) (w : Entry) (chk : TileCheck)
  /-- VRMAX (R101): The vector unit computes the maximum of each row. -/
  | vrmax (t : Fin 272) (w : Entry) (chk : TileCheck)
  /-- VTOPK (R112): The vector unit writes the k largest values of each row and their column indices. -/
  | vtopk (t : Fin 272) (w : Entry) (chk : TileCheck)
  /-- VCVT (R101): The vector unit converts between FP32, BF16 and FP16. -/
  | vcvt (t : Fin 272) (w : Entry) (chk : TileCheck)
  /-- QUANT (R79): A quantising store writes a narrow format from FP32 with dynamic or calibrated scaling. -/
  | quant (t : Fin 272) (w : Entry) (chk : TileCheck)
  /-- DEQUANT (R71): A narrow format is converted exactly to FP32. -/
  | dequant (t : Fin 272) (w : Entry) (chk : TileCheck)
  /-- VTRANS (R101): The vector unit transposes A. -/
  | vtrans (t : Fin 272) (w : Entry) (chk : TileCheck)
  /-- VFILL (R101): The vector unit fills D with SCALAR. -/
  | vfill (t : Fin 272) (w : Entry) (chk : TileCheck)
  /-- VRAND (R310): The vector unit fills D with uniform FP32 values from the counter-based generator. -/
  | vrand (t : Fin 272) (w : Entry) (chk : TileCheck)
  /-- VIDX (R101): The vector unit gathers rows of A by INT32 row indices. -/
  | vidx (t : Fin 272) (w : Entry) (chk : TileCheck)
  /-- XADD (R110): An FP32 vector is added into an exact region. -/
  | xadd (t : Fin 272) (w : Entry) (chk : TileCheck)
  /-- XMERGE (R110): A second exact region is added into the first. -/
  | xmerge (t : Fin 272) (w : Entry) (chk : TileCheck)
  /-- XROUND (R111): An exact region is rounded once to FMT. -/
  | xround (t : Fin 272) (w : Entry) (chk : TileCheck)
  /-- XZERO (R101): An exact region is cleared. -/
  | xzero (t : Fin 272) (w : Entry) (chk : TileCheck)
  /-- SEALCHK (R115): The CRC, TENSOR and format of local slots are checked against their seals. -/
  | sealchk (t : Fin 272) (w : Entry) (chk : TileCheck)
  deriving DecidableEq, Repr

end Sys2Proof
end

