-- ==== Sys2Proof/Decode.lean ====
section
/-!
DEFINITION. The command that a table word spells.  The opcode table of this block gives no row any bits: a command is
an access, a packet, an event or a descriptor, and has no word of its own.
-/

namespace Sys2Proof

/-- The command that a word of the opcode table spells: none, since no row of the table has bits. -/
def decodeTableWord (_nbits _w : Nat) : Option Instr := none

end Sys2Proof
end

