-- ==== Sys2Proof/Config.lean ====
section
/-!
DEFINITION. What the spec leaves open: constants with no body, so that nothing in Lean can evaluate them or prove a
value of them.  A statement about the module holds whatever they are.
-/

namespace Sys2Proof.Config

/-- Whether an image's bytes, as a little-endian number, carry a valid signature by a key of the configuration flash
(R61, R347; log 5). -/
opaque signatureValid : (key image : Nat) → Bool

/-- A VACT function result of FUNC 0x02 to 0x08, by function code and FP32 operand (R112; log 6). -/
opaque actValue : (func x : Nat) → BitVec 32

/-- A value that the spec leaves open where the machine goes on, by the count of free values used before (log 7). -/
opaque freeValue : Nat → BitVec 32

/-- The cache set of a slice that an H block falls in, and the slice among a partition's cache slices (R162; log 8). -/
opaque llmPlace : (slices block : Nat) → Nat

/-- The stack and offset order that a fold's placement map gives a block (R151; log 9). -/
opaque foldPlace : (folds channel block : Nat) → Nat

/-- The granule that the module picks for an extent it places itself, among the free ones (R446; log 10). -/
opaque placeChoice : (free : Nat) → Nat

/-- The NAND spare pool as made, in MiB: 8 TiB less garbage-collection headroom, which the spec does not size (R184;
log 11). -/
opaque sparePoolMiB : Nat

/-- The size of a NAND erase block in MiB, which the spec does not give (R184; log 11). -/
opaque eraseBlockMiB : Nat

/-- The module's serial number, the Platform ID of its error records (R388; log 69). -/
opaque serial : Nat

/-- Of the image that the module was made with, which slot A of the firmware holds before any update: its security version
and its handover versions, lowest and highest taken in and the one handed out, which the spec does not give (R345, R348;
log 77). -/
opaque madeSvn : Nat

/-- The lowest handover version that the image made with takes in (log 77). -/
opaque madeHoMin : Nat

/-- The highest handover version that the image made with takes in (log 77). -/
opaque madeHoMax : Nat

/-- The handover version that the image made with hands out (log 77). -/
opaque madeHoOut : Nat

/-- A byte of a control core's SRAM as a freeze at a module time finds it, by its address (R425; log 87). -/
opaque coreByte : (frozenAt addr : Nat) → BitVec 8

end Sys2Proof.Config
end

