-- ==== Sys2Proof/Machine/Bits.lean ====
section
/-!
DEFINITION. Register fields, the sparse map that holds registers, memory and every other large array, bounded byte
ranges over it, and CRC-32C.
-/

namespace Sys2Proof.Machine

/-- A field of a register: the register's control-space offset and the field's bits [hi:lo]. -/
structure Fld where
  off : Nat
  hi : Nat
  lo : Nat
  deriving DecidableEq, Repr

/-- The access types of register fields (R8). -/
inductive Acc where
  | ro | rw | wo | w1c | w1s | rc | st
  deriving DecidableEq, Repr

/-- One defined field of a register: bits, access type, reset value, and whether a write of it is a command of its
own (so that a plain register write leaves it to that command). -/
structure FieldRow where
  hi : Nat
  lo : Nat
  acc : Acc
  reset : Nat
  own : Bool
  deriving DecidableEq, Repr

/-- One register of the map with up to two instance indices. -/
structure RegRow where
  name : String
  base : Nat
  s1 : Nat
  n1 : Nat
  s2 : Nat
  n2 : Nat
  fields : List FieldRow
  deriving DecidableEq, Repr

/-- Whether `x` is one of `n` instances spaced by `stride`. -/
def instanceAt (stride n x : Nat) : Bool :=
  if stride = 0 then x == 0 else x % stride == 0 && decide (x / stride < n)

/-- Whether a register row has an instance at a control-space offset. -/
def RegRow_at (off : Nat) (r : RegRow) : Bool :=
  decide (r.base ≤ off) &&
    (if r.s1 = 0 then instanceAt r.s2 r.n2 (off - r.base)
     else
      if (off - r.base) / r.s1 < r.n1 then instanceAt r.s2 r.n2 ((off - r.base) % r.s1)
      else false)

/-- A sparse array: the entries that differ from the default, keys strictly rising. -/
abbrev SMap (α : Type) := List (Nat × α)

/-- The entry of a sparse array at a key; `d` gives the entries that are not listed. -/
def smGet {α : Type} (d : Nat → α) : SMap α → Nat → α
  | [], k => d k
  | (j, v) :: m, k => if j = k then v else smGet d m k

/-- A sparse array without its entry at a key. -/
def smErase {α : Type} : SMap α → Nat → SMap α
  | [], _ => []
  | (j, v) :: m, k => if j = k then smErase m k else (j, v) :: smErase m k

/-- A sparse array with an entry put at its place. -/
def smInsert {α : Type} : SMap α → Nat → α → SMap α
  | [], k, x => [(k, x)]
  | (j, v) :: m, k, x =>
    if k < j then (k, x) :: (j, v) :: m
    else if j = k then (k, x) :: m
    else (j, v) :: smInsert m k x

/-- A sparse array with entry `x` at key `k`: an entry equal to the default is not listed. -/
def smSet {α : Type} [DecidableEq α] (d : Nat → α) (m : SMap α) (k : Nat) (x : α) : SMap α :=
  if x = d k then smErase m k else smInsert m k x

/-- The canonical form from a lower bound on: keys strictly rising, no entry equal to its default. -/
def smWfFrom {α : Type} [DecidableEq α] (d : Nat → α) : Nat → SMap α → Bool
  | _, [] => true
  | b, (j, v) :: m => decide (b ≤ j) && decide (v ≠ d j) && smWfFrom d (j + 1) m

/-- The canonical form of a sparse array. -/
def smWf {α : Type} [DecidableEq α] (d : Nat → α) (m : SMap α) : Bool := smWfFrom d 0 m

/-- `n` consecutive entries from key `k` on. -/
def smRange {α : Type} (d : Nat → α) (m : SMap α) (k : Nat) : Nat → List α
  | 0 => []
  | n + 1 => smGet d m k :: smRange d m (k + 1) n

/-- A sparse array with consecutive entries replaced from key `k` on. -/
def smSetList {α : Type} [DecidableEq α] (d : Nat → α) (m : SMap α) (k : Nat) : List α → SMap α
  | [] => m
  | x :: xs => smSetList d (smSet d m k x) (k + 1) xs

/-- One bit step of the reflected CRC-32C division (R359: polynomial 0x1EDC_6F41, reflected 0x82F6_3B78). -/
def crcBit (c : Nat) : Nat := if c % 2 = 1 then (c / 2) ^^^ 0x82F63B78 else c / 2

/-- One byte step of CRC-32C. -/
def crcByte (c : Nat) (b : Byte) : Nat :=
  crcBit (crcBit (crcBit (crcBit (crcBit (crcBit (crcBit (crcBit (c ^^^ b.toNat))))))))

/-- CRC-32C of a byte string: initial value and final XOR all ones (R359). -/
def crc32c (bs : List Byte) : BitVec 32 := BitVec.ofNat 32 (bs.foldl crcByte 0xFFFFFFFF ^^^ 0xFFFFFFFF)

end Sys2Proof.Machine
end

