-- ==== Sys2Proof/Machine/Num.lean ====
section
/-!
DEFINITION. Exact values, the element formats, rounding and the random generator (R67 to R69, R76 to R78, R310).
-/

namespace Sys2Proof.Machine

open Sys2Proof

/-- An exact value: NaN, an infinity, or (−1)^neg × num / den. -/
inductive Val where
  | nan
  | inf (neg : Bool)
  | fin (neg : Bool) (num den : Nat)
  deriving DecidableEq, Repr

/-- +0. -/
def Val_zero : Val := .fin false 0 1

/-- The exponent width of a floating-point format code, 0 for an integer format (R67). -/
def fmtE (f : Nat) : Nat := [8, 8, 5, 4, 5, 3, 2, 2].getD f 0
/-- The mantissa width. -/
def fmtM (f : Nat) : Nat := [23, 7, 10, 3, 2, 2, 3, 1].getD f 0
/-- The exponent bias. -/
def fmtBias (f : Nat) : Nat := [127, 127, 15, 7, 15, 3, 1, 1].getD f 0
/-- The code of the largest finite magnitude. -/
def fmtMax (f : Nat) : Nat := [0x7F7FFFFF, 0x7F7F, 0x7BFF, 0x7E, 0x7B, 0x1F, 0x1F, 0x7].getD f 0
/-- The exponent of the largest normal value, as the quantiser uses it (R67). -/
def fmtEmax (f : Nat) : Nat := [127, 127, 15, 8, 15, 4, 2, 2].getD f 0
/-- The element width in bits. -/
def fmtWidth (f : Nat) : Nat := [32, 16, 16, 8, 8, 6, 6, 4, 8, 4, 4].getD f 32
/-- The canonical quiet NaN of a format that has one (R69). -/
def fmtNaN (f : Nat) : Option Nat :=
  if f = 0 then some 0x7FC00000 else if f = 1 then some 0x7FC0 else if f = 2 then some 0x7E00
  else if f = 3 then some 0x7F else if f = 4 then some 0x7E else none
/-- The format has ±Inf. -/
def fmtInf (f : Nat) : Bool := f ≤ 2 || f == 4
/-- An INT8 or INT4 code. -/
def fmtInt (f : Nat) : Bool := f == 8 || f == 9
/-- A narrow format: one stored in groups of 32. -/
def fmtNarrow (f : Nat) : Bool := 3 ≤ f && f ≤ 10
/-- An MX format. -/
def fmtMX (f : Nat) : Bool := 3 ≤ f && f ≤ 7
/-- A format code that is not reserved. -/
def fmtGood (f : Nat) : Bool := decide (f ≤ 10)
/-- FP32, BF16 or FP16. -/
def fmtFloat (f : Nat) : Bool := decide (f ≤ 2)

/-- The sign of a value. -/
def Val_neg : Val → Bool
  | .nan => false
  | .inf n => n
  | .fin n _ _ => n

/-- A value with its sign flipped. -/
def Val_flip : Val → Val
  | .nan => .nan
  | .inf n => .inf (!n)
  | .fin n a b => .fin (!n) a b

/-- A finite value. -/
def Val_finite : Val → Bool
  | .fin _ _ _ => true
  | _ => false

/-- A zero of either sign. -/
def Val_isZero : Val → Bool
  | .fin _ a _ => a == 0
  | _ => false

/-- The value of a floating-point element (R67). -/
def decodeF (f bits : Nat) : Val :=
  let m := fmtM f
  let sgn := bitsOf (fmtE f + m) (fmtE f + m) bits == 1
  let c := bits % 2 ^ (fmtE f + m)
  let e := c / 2 ^ m
  let man := c % 2 ^ m
  let top := 2 ^ fmtE f - 1
  if f = 3 ∧ c = 0x7F then .nan
  else if fmtInf f ∧ e = top then (if man = 0 then .inf sgn else .nan)
  else if e = 0 then .fin sgn man (2 ^ (fmtBias f + m - 1))
  else .fin sgn ((2 ^ m + man) * 2 ^ (e - 1)) (2 ^ (fmtBias f + m - 1))

/-- The two's-complement integer in the low `w` bits. -/
def signedOf (w v : Nat) : Int :=
  let x := v % 2 ^ w
  if x < 2 ^ (w - 1) then x else (x : Int) - 2 ^ w

/-- An integer as a value. -/
def Val_ofInt (i : Int) : Val := .fin (decide (i < 0)) i.natAbs 1

/-- Whether a rounding of `q` units with remainder `rem` of `d` goes up: RNE, RTZ, or SR with draw `u` (R76, R77). -/
def roundsUp (mode u q rem d : Nat) : Bool :=
  if mode = 0 then decide (d < 2 * rem) || (2 * rem == d && q % 2 == 1)
  else if mode = 2 then decide (u < rem * 65536 / d)
  else false

/-- The magnitude code of num / den rounded to a format as if the exponent range had no upper limit (R78). -/
def roundCode (f mode u num den : Nat) : Nat :=
  let m := fmtM f
  let n := num * 2 ^ (fmtBias f + m - 1)
  let sh := Nat.log2 (n / den) - m
  let d := den * 2 ^ sh
  let k := n / d
  sh * 2 ^ m + (if roundsUp mode u k (n % d) d then k + 1 else k)

/-- A value converted to a floating-point format, with whether it overflowed: the sign and the code (R76, R78).  With
`sat`, an overflow gives the largest finite value. -/
def encodeF (f mode u : Nat) (sat : Bool) (v : Val) : Nat × Bool :=
  let sbit (n : Bool) : Nat := if n then 2 ^ (fmtE f + fmtM f) else 0
  let infCode := if fmtInf f then (2 ^ fmtE f - 1) * 2 ^ fmtM f else fmtMax f
  match v with
  | .nan => ((fmtNaN f).getD 0, false)
  | .inf n => (sbit n + infCode, false)
  | .fin n a b =>
    let c := roundCode f mode u a b
    if c ≤ fmtMax f then (sbit n + c, false)
    else (sbit n + (if sat || !fmtInf f then fmtMax f else infCode), true)

/-- The bits of a value rounded once to FP32 with SAT clear (R78). -/
def fp32Bits (mode : Nat) (v : Val) : Nat := (encodeF 0 mode 0 false v).1

/-- The value of FP32 bits. -/
def ofFp32 (b : Nat) : Val := decodeF 0 b

/-- A value rounded once to FP32. -/
def round32 (mode : Nat) (v : Val) : Val := ofFp32 (fp32Bits mode v)

/-- The value of BF16 bits. -/
def ofBf16 (b : Nat) : Val := decodeF 1 b

/-- The signed numerator of a finite value. -/
def signedNum (n : Bool) (a : Nat) : Int := if n then -(a : Int) else a

/-- The exact sum, with IEEE 754 specials; an exact zero is −0 only when both summands are −0. -/
def Val_add : Val → Val → Val
  | .nan, _ => .nan
  | _, .nan => .nan
  | .inf n, .inf m => if n = m then .inf n else .nan
  | .inf n, _ => .inf n
  | _, .inf n => .inf n
  | .fin n a b, .fin m c d =>
    let (x, y, z) := if b = d then (signedNum n a, signedNum m c, b)
      else (signedNum n (a * d), signedNum m (c * b), b * d)
    let t := x + y
    if t = 0 then .fin (n && m) 0 1 else .fin (decide (t < 0)) t.natAbs z

/-- The exact product, with IEEE 754 specials. -/
def Val_mul : Val → Val → Val
  | .nan, _ => .nan
  | _, .nan => .nan
  | .inf n, .inf m => .inf (n != m)
  | .inf n, .fin m c _ => if c = 0 then .nan else .inf (n != m)
  | .fin n a _, .inf m => if a = 0 then .nan else .inf (n != m)
  | .fin n a b, .fin m c d => .fin (n != m) (a * c) (b * d)

/-- The exact quotient, with IEEE 754 specials. -/
def Val_div : Val → Val → Val
  | .nan, _ => .nan
  | _, .nan => .nan
  | .inf _, .inf _ => .nan
  | .inf n, .fin m _ _ => .inf (n != m)
  | .fin n _ _, .inf m => .fin (n != m) 0 1
  | .fin n a b, .fin m c d =>
    if c = 0 then (if a = 0 then .nan else .inf (n != m)) else .fin (n != m) (a * d) (b * c)

/-- A finite value's magnitude is above another's. -/
def magLt (a b c d : Nat) : Bool := decide (a * d < c * b)

/-- The order of two numbers as IEEE 754 compares them; NaN compares false. -/
def Val_lt : Val → Val → Bool
  | .nan, _ => false
  | _, .nan => false
  | .inf n, .inf m => n && !m
  | .inf n, _ => n
  | _, .inf m => !m
  | .fin n a b, .fin m c d => decide (signedNum n (a * d) < signedNum m (c * b))

/-- Equality as IEEE 754 compares. -/
def Val_eq (x y : Val) : Bool := x != .nan && y != .nan && !Val_lt x y && !Val_lt y x

/-- The greater of two values: NaN if either is, −0 below +0 (R112). -/
def Val_max (x y : Val) : Val :=
  if x = .nan ∨ y = .nan then .nan
  else if Val_lt x y then y else if Val_lt y x then x
  else if Val_neg x then y else x

/-- The lesser of two values. -/
def Val_min (x y : Val) : Val :=
  if x = .nan ∨ y = .nan then .nan
  else if Val_lt x y then x else if Val_lt y x then y
  else if Val_neg x then x else y

/-- The magnitude. -/
def Val_abs : Val → Val
  | .nan => .nan
  | .inf _ => .inf false
  | .fin _ a b => .fin false a b

/-- A value times a power of two. -/
def Val_scale (v : Val) (k : Int) : Val :=
  match v with
  | .fin n a b => if k < 0 then .fin n a (b * 2 ^ k.natAbs) else .fin n (a * 2 ^ k.natAbs) b
  | x => x

/-- floor(log2) of a positive quotient. -/
def log2Floor (a b : Nat) : Int :=
  let l : Int := (Nat.log2 a : Int) - Nat.log2 b
  let ge : Bool := if l < 0 then decide (b ≤ a * 2 ^ l.natAbs) else decide (b * 2 ^ l.natAbs ≤ a)
  if ge then l else l - 1

/-- A value rounded to an integer under a mode. -/
def roundInt (mode u : Nat) : Val → Int
  | .fin n a b =>
    let k := a / b
    let r := if roundsUp mode u k (a % b) b then k + 1 else k
    if n then -(r : Int) else r
  | _ => 0

/-! ## The square root (R233) -/

/-- The integer square root by bisection on the bits of the answer. -/
def isqrtAux (n : Nat) : Nat → Nat → Nat
  | 0, r => r
  | b + 1, r => if (r + 2 ^ b) * (r + 2 ^ b) ≤ n then isqrtAux n b (r + 2 ^ b) else isqrtAux n b r

/-- The integer square root. -/
def isqrt (n : Nat) : Nat := isqrtAux n (Nat.log2 n / 2 + 1) 0

/-- The square root of a value, correctly rounded to FP32 under RNE: 2^60 extra bits and a sticky bit decide. -/
def sqrt32 : Val → Val
  | .nan => .nan
  | .inf n => if n then .nan else .inf false
  | .fin n a b =>
    if a = 0 then .fin n 0 1
    else if n then .nan
    else
      let k := 2 ^ 500
      let q := a * b * k * k
      let r := isqrt q
      round32 0 (.fin false (2 * r + (if r * r = q then 0 else 1)) (2 * b * k))

/-! ## The generator (R310) -/

/-- One of the ten rounds, with the two keys advanced from the second on. -/
def philoxRound (r : Nat) (c : Nat × Nat × Nat × Nat) (k0 k1 : Nat) : Nat × Nat × Nat × Nat :=
  let m := 2 ^ 32
  let a := (k0 + r * 0x9E3779B9) % m
  let b := (k1 + r * 0xBB67AE85) % m
  let p0 := 0xD2511F53 * c.1
  let p1 := 0xCD9E8D57 * c.2.2.1
  ((p1 / m) ^^^ c.2.1 ^^^ a, p1 % m, (p0 / m) ^^^ c.2.2.2 ^^^ b, p0 % m)

/-- out[0] of Philox4x32-10 for a coordinate, step, tensor ID and seed. -/
def philox (coord step tensor seed : Nat) : Nat :=
  let m := 2 ^ 32
  ((List.range 10).foldl (fun c r => philoxRound r c (seed % m) (seed / m % m))
    (coord % m, coord / m % m, step % m, tensor % m)).1

/-- The 16-bit draw of stochastic rounding. -/
def srDraw (coord step tensor seed : Nat) : Nat := philox coord step tensor seed / 65536

end Sys2Proof.Machine
end

