-- ==== Sys2Proof/Machine/Quant.lean ====
section
/-!
DEFINITION. Storage blocks, scales and the quantiser (R70 to R75, R79 to R84, R87).
-/

namespace Sys2Proof.Machine

open Sys2Proof

/-! ## Storage blocks (R72, R73) -/

/-- Groups per block of a narrow format. -/
def blkGroups (f : Nat) : Nat :=
  if f ≤ 4 then 124 else if f ≤ 6 then 163 else if f = 7 then 240 else if f = 8 then 117 else 215

/-- Elements per block. -/
def blkElems (f : Nat) : Nat := if f = 0 then 1024 else if f ≤ 2 then 2048 else 32 * blkGroups f

/-- Bytes of one scale: 1 for E8M0, 2 for BF16. -/
def scaleBytes (f : Nat) : Nat := if fmtMX f then 1 else 2

/-- Byte offset of the scale array. -/
def scaleOff (f : Nat) : Nat := blkGroups f * 4 * fmtWidth f

/-- Byte offset of the zero-point or codebook-index array. -/
def secondOff (f : Nat) : Nat := scaleOff f + 2 * blkGroups f

/-- Blocks of a matrix of `rows` by `cols` elements, groups never spanning rows (R74, R100). -/
def blocksFor (f rows cols : Nat) : Nat :=
  if fmtNarrow f then ceilDiv (rows * ceilDiv cols 32) (blkGroups f) else ceilDiv (rows * cols) (blkElems f)

/-- Element code `i` of a block given as a little-endian number. -/
def elemCode (f b i : Nat) : Nat := (b >>> (fmtWidth f * i)) % 2 ^ fmtWidth f

/-- The scale bits of group `g`. -/
def groupScale (f b g : Nat) : Nat := (b >>> (8 * (scaleOff f + scaleBytes f * g))) % 2 ^ (8 * scaleBytes f)

/-- The zero-point or codebook-index byte of group `g`. -/
def groupSecond (f b g : Nat) : Nat := (b >>> (8 * (secondOff f + g))) % 256

/-- The value of a group's scale: NaN for E8M0 0xFF and for a non-finite BF16 (R70). -/
def scaleVal (f s : Nat) : Val :=
  if fmtMX f then (if s = 0xFF then .nan else Val_scale (.fin false 1 1) ((s : Int) - 127))
  else if Val_finite (ofBf16 s) then ofBf16 s else .nan

/-- The zero point of an integer group: a signed byte, or a signed nibble whose upper bits read as zero (R70). -/
def zeroPoint (f second : Nat) : Int := if f = 8 then signedOf 8 second else signedOf 4 second

/-- An entry of a codebook; a non-finite one makes its elements NaN (R70, R71). -/
def bookVal (book : Nat → Nat → Val) (c k : Nat) : Val := if Val_finite (book c k) then book c k else .nan

/-- The unscaled value of an element of a narrow format: the element value, q − z, or the codebook entry (R71, R84,
R86). -/
def elemVal (f : Nat) (book : Nat → Nat → Val) (code second : Nat) : Val :=
  if fmtInt f then Val_ofInt (signedOf (fmtWidth f) code - zeroPoint f second)
  else if f = 10 then bookVal book second code
  else decodeF f code

/-- The element value and group scale of flat element `i` of a list of blocks; scale 1 in an unquantised format
(R100, R108). -/
def operandAt (f : Nat) (book : Nat → Nat → Val) (blocks : List Nat) (i : Nat) : Val × Val :=
  if fmtNarrow f then
    let g := i / 32
    let b := blocks.getD (g / blkGroups f) 0
    let j := g % blkGroups f
    (elemVal f book (elemCode f b (32 * j + i % 32)) (groupSecond f b j), scaleVal f (groupScale f b j))
  else (decodeF f (elemCode f (blocks.getD (i / blkElems f) 0) (i % blkElems f)), .fin false 1 1)

/-- The dequantised value of flat element `i`, exact (R71). -/
def dequantAt (f : Nat) (book : Nat → Nat → Val) (blocks : List Nat) (i : Nat) : Val :=
  let p := operandAt f book blocks i
  Val_mul p.2 p.1

/-- Element codes packed from the lowest bits up. -/
def packCodes (w : Nat) : List Nat → Nat
  | [] => 0
  | c :: cs => c % 2 ^ w + 2 ^ w * packCodes w cs

/-- A quantised group: its 32 codes, scale and second value. -/
structure QGroup where
  codes : List Nat
  scale : Nat
  second : Nat
  deriving DecidableEq, Repr

/-- The bytes of one block of a narrow format (R72). -/
def narrowBlock (f : Nat) (gs : List QGroup) : List Byte :=
  let es := bytesLE (scaleOff f) (packCodes (fmtWidth f) (gs.flatMap fun g => g.codes))
  let ss := gs.flatMap fun g => bytesLE (scaleBytes f) g.scale
  let ts := if fmtMX f then [] else gs.flatMap fun g => bytesLE 1 (if f = 9 then g.second % 16 else g.second)
  let bs := es ++ ss ++ ts
  bs ++ List.replicate (4096 - bs.length) 0

/-- A list cut into pieces of `n`. -/
def cutList {α : Type} (n : Nat) : Nat → List α → List (List α)
  | 0, _ => []
  | f + 1, l => if l.isEmpty then [] else l.take n :: cutList n f (l.drop n)

/-- The blocks of a list of groups, the last completed with pad groups (R74). -/
def narrowBlocks (f : Nat) (gs : List QGroup) (pad : QGroup) : List (List Byte) :=
  (cutList (blkGroups f) gs.length gs).map fun l =>
    narrowBlock f (l ++ List.replicate (blkGroups f - l.length) pad)

/-- The blocks of a list of codes of an unquantised format, completed with +0. -/
def wideBlocks (f : Nat) (cs : List Nat) : List (List Byte) :=
  (cutList (blkElems f) cs.length cs).map fun l =>
    bytesLE 4096 (packCodes (fmtWidth f) l)

/-! ## The quantiser (R79 to R83) -/

/-- The settings of a quantising store: destination format, rounding mode, SAT, NF, calibrated, asymmetric, codebook
index, the calibration entry of a group, the codebook set, and the draw for a flat element index. -/
structure QPar where
  fmt : Nat
  mode : Nat
  sat : Bool
  nf : Bool
  cal : Bool
  asym : Bool
  qidx : Nat
  entry : Nat → Nat
  book : Nat → Nat → Val
  draw : Nat → Nat

/-- The mark of one counted element: 1 saturated, plus 2 underflowed, plus 4 non-finite (R87). -/
def markElem (x : Val) (zero sat : Bool) : Nat :=
  sat.toNat + 2 * (!Val_isZero x && Val_finite x && zero).toNat + 4 * (!Val_finite x).toNat

/-- What the quantiser made of a group: the group, the marks of its elements, whether an input was non-finite or an element overflowed
to ±Inf. -/
structure QRes where
  grp : QGroup
  cnt : List Nat
  bad : Bool
  deriving DecidableEq, Repr

/-- RNE_BF16 of a quotient within the bounds of R80: never zero, never ±Inf. -/
def bf16Scale (num den : Nat) : Nat :=
  let c := roundCode 1 0 0 num den
  if c = 0 then 1 else if 0x7F7F < c then 0x7F7F else c

/-- The largest magnitude of a list of values, its finite ones (R83). -/
def amaxOf (vs : List Val) : Nat × Nat :=
  vs.foldl (fun m v => match v with
    | .fin _ a b => if magLt m.1 m.2 a b then (a, b) else m
    | _ => m) (0, 1)

/-- The least (or largest) of 0 and the finite values of a list. -/
def edgeOf (up : Bool) (vs : List Val) : Val :=
  vs.foldl (fun m v => match v with
    | .fin _ _ _ => if (if up then Val_lt m v else Val_lt v m) then v else m
    | _ => m) Val_zero

/-- The least integer of an integer format. -/
def qmin (f : Nat) : Int := if f = 8 then -128 else -8
/-- The largest integer of an integer format. -/
def qmax (f : Nat) : Int := if f = 8 then 127 else 7

/-- An integer clamped. -/
def clampI (lo hi v : Int) : Int := if v < lo then lo else if hi < v then hi else v

/-- The codes of a codebook's finite entries. -/
def finiteCodes (book : Nat → Nat → Val) (c : Nat) : List Nat :=
  (List.range 16).filter fun k => Val_finite (book c k)

/-- The KC4 pad code: the finite entry of the smallest magnitude, the lowest on a tie, else 0 (R74). -/
def kcPad (book : Nat → Nat → Val) (c : Nat) : Nat :=
  match finiteCodes book c with
  | [] => 0
  | k :: ks => ks.foldl (fun m j => if Val_lt (Val_abs (book c j)) (Val_abs (book c m)) then j else m) k

/-- The codebook of a group: QIDX, or CB_INDEX of the calibration entry. -/
def QPar_book (p : QPar) (g : Nat) : Nat := if p.cal then bitsOf 31 24 (p.entry g) else p.qidx

/-- The scale bits and zero point of a group (R79 to R82). -/
def groupScaleOf (p : QPar) (g : Nat) (vs : List Val) : Nat × Int :=
  let am := amaxOf vs
  if p.cal then
    (if fmtMX p.fmt then p.entry g % 256 else p.entry g % 65536,
      if fmtInt p.fmt then signedOf 8 (bitsOf 23 16 (p.entry g)) else 0)
  else if fmtMX p.fmt then
    if am.1 = 0 then (127, 0)
    else
      let e := log2Floor am.1 am.2 - fmtEmax p.fmt
      ((clampI (-127) 127 e + 127).toNat, 0)
  else if fmtInt p.fmt then
    if p.asym then
      let lo := edgeOf false vs
      let hi := edgeOf true vs
      match Val_add hi (Val_flip lo) with
      | .fin _ a b =>
        if a = 0 then (0x3F80, 0)
        else
          let s := bf16Scale a (b * (qmax p.fmt - qmin p.fmt).natAbs)
          let z := roundInt 0 0 (Val_add (Val_ofInt (qmin p.fmt)) (Val_flip (Val_div lo (ofBf16 s))))
          (s, clampI (qmin p.fmt) (qmax p.fmt) z)
      | _ => (0x3F80, 0)
    else if am.1 = 0 then (0x3F80, 0)
    else (bf16Scale am.1 (am.2 * (qmax p.fmt).natAbs), 0)
  else
    match amaxOf ((finiteCodes p.book (QPar_book p g)).map fun k => p.book (QPar_book p g) k) with
    | (m, md) => if am.1 = 0 ∨ m = 0 then (0x3F80, 0) else (bf16Scale (am.1 * md) (am.2 * m), 0)

/-- A supplied calibration that makes the store complete with NONFINITE (R82). -/
def calBad (p : QPar) (g : Nat) : Bool :=
  if fmtMX p.fmt then p.entry g % 256 == 0xFF
  else
    let s := ofBf16 (p.entry g % 65536)
    let z := signedOf 8 (bitsOf 23 16 (p.entry g))
    Val_isZero s || !Val_finite s || (p.fmt == 9 && (decide (z < -8) || decide (7 < z))) ||
      (p.fmt == 10 && (finiteCodes p.book (QPar_book p g)).isEmpty)

/-- The nearest finite codebook entry to a scaled value, the lowest code on a tie (R81). -/
def kcNearest (book : Nat → Nat → Val) (c : Nat) (y : Val) : Nat :=
  let dist (k : Nat) : Val := Val_abs (Val_add y (Val_flip (book c k)))
  match finiteCodes book c with
  | [] => 0
  | k :: ks => ks.foldl (fun m j => if Val_lt (dist j) (dist m) then j else m) k

/-- One finite element of a group: its code and mark (R79 to R81, R87). -/
def quantElem (p : QPar) (g i scale : Nat) (z : Int) (x : Val) : Nat × Nat × Bool :=
  if fmtMX p.fmt then
    let y := Val_scale x (127 - (scale : Int))
    let c := (encodeF p.fmt p.mode (p.draw i) true y).1
    let isOver := match y, decodeF p.fmt (fmtMax p.fmt) with
      | .fin _ a b, .fin _ m d => magLt m d a b
      | _, _ => false
    (c, markElem x (Val_isZero (decodeF p.fmt c)) isOver, false)
  else if fmtInt p.fmt then
    let y := Val_div x (ofBf16 scale)
    let q := clampI (qmin p.fmt) (qmax p.fmt) (roundInt p.mode (p.draw i) y + z)
    let yz := Val_add y (Val_ofInt z)
    let isOver := Val_lt yz (Val_ofInt (qmin p.fmt)) || Val_lt (Val_ofInt (qmax p.fmt)) yz
    ((q % 2 ^ fmtWidth p.fmt).toNat, markElem x (decide (q = z)) isOver, false)
  else
    let c := QPar_book p g
    let y := Val_div x (ofBf16 scale)
    let k := kcNearest p.book c y
    let m := amaxOf ((finiteCodes p.book c).map fun j => p.book c j)
    (k, markElem x (Val_isZero (p.book c k)) (Val_lt (.fin false m.1 m.2) (Val_abs y)), false)

/-- The pad code of a group with a zero point (R74). -/
def padCode (p : QPar) (g : Nat) (z : Int) : Nat :=
  if fmtInt p.fmt then (z % 2 ^ fmtWidth p.fmt).toNat
  else if p.fmt = 10 then kcPad p.book (QPar_book p g) else 0

/-- The second value of a group: the zero point or the codebook index. -/
def secondOf (p : QPar) (g : Nat) (z : Int) : Nat :=
  if fmtInt p.fmt then (z % 256).toNat else if p.fmt = 10 then QPar_book p g else 0

/-- A group of a narrow format quantised from at most 32 elements with their flat indices (R79 to R83). -/
def quantGroup (p : QPar) (g : Nat) (xs : List (Nat × Val)) : QRes :=
  let vs := xs.map fun x => x.2
  let (s, z) := groupScaleOf p g vs
  let es := xs.map fun x =>
    if Val_finite x.2 then quantElem p g x.1 s z x.2 else (padCode p g z, markElem x.2 false false, false)
  let bad := vs.any fun v => !Val_finite v
  let cnt := es.map fun e => e.2.1
  let pads (z' : Int) (n : Nat) : List Nat := List.replicate n (padCode p g z')
  if bad then
    match fmtNaN p.fmt with
    | some c =>
      let cs := vs.map fun v => match v with
        | .inf n => if p.fmt = 4 then (encodeF 4 0 0 false (.inf n)).1 else c
        | _ => c
      ⟨⟨cs ++ pads z (32 - xs.length), s, secondOf p g z⟩, cnt, true⟩
    | none => ⟨⟨pads 0 32, if fmtMX p.fmt then 0xFF else 0x7FC0, secondOf p g 0⟩, cnt, true⟩
  else ⟨⟨es.map (fun e => e.1) ++ pads z (32 - xs.length), s, secondOf p g z⟩, cnt, false⟩

/-- The pad group of a store: an all-zero group's scale, or the supplied scale where one entry serves every group
(R74; log 20). -/
def padGroup (p : QPar) (calList : Bool) : QGroup :=
  let p' := if calList then { p with cal := false } else p
  let (s, z) := groupScaleOf p' 0 []
  ⟨List.replicate 32 (padCode p' 0 z), s, secondOf p' 0 z⟩

/-- An element of FP32, BF16 or FP16: its code, its mark where the store quantises, and whether it is ±Inf or NaN. -/
def quantWide (p : QPar) (i : Nat) (x : Val) : Nat × Nat × Bool :=
  let c := (encodeF p.fmt p.mode (p.draw i) p.sat x).1
  let isOver := match x, decodeF p.fmt (fmtMax p.fmt) with
    | .fin _ a b, .fin _ m d => magLt m d a b
    | _, _ => false
  (c, markElem x (Val_isZero (decodeF p.fmt c)) isOver, !Val_finite (decodeF p.fmt c))

/-- What a store writes: its blocks, the marks of its elements, whether it sets the non-finite flag, and whether it completes with
NONFINITE and writes nothing. -/
structure QStore where
  blocks : List (List Byte)
  cnt : List Nat
  flag : Bool
  refuse : Bool

/-- The groups of a matrix, row by row: flat group index and elements with their flat indices (R74, R100). -/
def rowGroups (cols : Nat) (rows : List (List Val)) : List (Nat × List (Nat × Val)) :=
  let gr := ceilDiv cols 32
  rows.zipIdx.flatMap fun r =>
    (List.range gr).map fun j =>
      (r.2 * gr + j, ((r.1.drop (32 * j)).take 32).zipIdx.map fun v => (r.2 * cols + 32 * j + v.2, v.1))

/-- A matrix written in a format: through the quantiser for a narrow one, element by element otherwise (R79 to R83). -/
def quantStore (p : QPar) (calList : Bool) (cols : Nat) (rows : List (List Val)) : QStore :=
  if fmtNarrow p.fmt then
    let gs := rowGroups cols rows
    if p.cal ∧ gs.any (fun g => calBad p g.1) then ⟨[], [], false, true⟩
    else if !p.cal ∧ p.fmt = 10 ∧ (finiteCodes p.book p.qidx).isEmpty then ⟨[], [], true, true⟩
    else
      let rs := gs.map fun g => quantGroup p g.1 g.2
      let bad := rs.any fun r => r.bad
      let cnt := rs.flatMap fun r => r.cnt
      if bad ∧ p.nf then ⟨[], cnt, true, true⟩
      else ⟨narrowBlocks p.fmt (rs.map fun r => r.grp) (padGroup p calList), cnt, bad, false⟩
  else
    let es := (rows.flatMap fun r => r).zipIdx.map fun x => quantWide p x.2 x.1
    let bad := es.any fun e => e.2.2
    let cnt := es.map fun e => e.2.1
    if bad ∧ p.nf then ⟨[], cnt, true, true⟩
    else ⟨wideBlocks p.fmt (es.map fun e => e.1), cnt, bad, false⟩

end Sys2Proof.Machine
end

