-- ==== Sys2Proof/Machine/RegMap.lean ====
section
/-!
DEFINITION. The register map of the module: every register field the chapters' register tables define, by its
control-space offset and bits, and the table of all registers with their access types and reset values (R7, R8,
R10).  Context-page registers (14) are keyed by context, at `pageBase n`, because one page is reached at several
host addresses.
-/

namespace Sys2Proof.Machine

/-- BASE of HUB_BAR0_WIN, bits [31:28], RW (02 R34). -/
def HUB_BAR0_WIN_BASE : Fld := ⟨0x100, 31, 28⟩
/-- LLM_SCRATCH of HUB_PART_CFG, bits [47:40], RO (02 R39). -/
def HUB_PART_CFG_LLM_SCRATCH (p : Nat) : Fld := ⟨0x200000 + p * 0x40, 47, 40⟩
/-- LLM_CACHE of HUB_PART_CFG, bits [39:32], RO (02 R39). -/
def HUB_PART_CFG_LLM_CACHE (p : Nat) : Fld := ⟨0x200000 + p * 0x40, 39, 32⟩
/-- TILE_COUNT of HUB_PART_CFG, bits [31:23], RO (02 R39). -/
def HUB_PART_CFG_TILE_COUNT (p : Nat) : Fld := ⟨0x200000 + p * 0x40, 31, 23⟩
/-- FENCED of HUB_PART_CFG, bits [1:1], RO (02 R39). -/
def HUB_PART_CFG_FENCED (p : Nat) : Fld := ⟨0x200000 + p * 0x40, 1, 1⟩
/-- VALID of HUB_PART_CFG, bits [0:0], ST (02 R39). -/
def HUB_PART_CFG_VALID (p : Nat) : Fld := ⟨0x200000 + p * 0x40, 0, 0⟩
/-- INCARNATION of CTX, bits [47:40], RO (02 R41). -/
def CTX_INCARNATION (n : Nat) : Fld := ⟨0x400000 + n * 0x40, 47, 40⟩
/-- STATE of CTX, bits [39:36], RO (02 R41). -/
def CTX_STATE (n : Nat) : Fld := ⟨0x400000 + n * 0x40, 39, 36⟩
/-- FENCE_REASON of CTX, bits [35:34], RO (02 R41). -/
def CTX_FENCE_REASON (n : Nat) : Fld := ⟨0x400000 + n * 0x40, 35, 34⟩
/-- FUNCTION of CTX, bits [23:16], RO (02 R41). -/
def CTX_FUNCTION (n : Nat) : Fld := ⟨0x400000 + n * 0x40, 23, 16⟩
/-- PARTITION of CTX, bits [6:0], RO (02 R41). -/
def CTX_PARTITION (n : Nat) : Fld := ⟨0x400000 + n * 0x40, 6, 0⟩
/-- PASID of CTX, bits [51:32], RO (02 R41). -/
def CTX_PASID (n : Nat) : Fld := ⟨0x400008 + n * 0x40, 51, 32⟩
/-- PASID_EN of CTX, bits [31:31], RO (02 R41). -/
def CTX_PASID_EN (n : Nat) : Fld := ⟨0x400008 + n * 0x40, 31, 31⟩
/-- PRIV_CTRL of CTX, bits [30:30], RO (02 R41). -/
def CTX_PRIV_CTRL (n : Nat) : Fld := ⟨0x400008 + n * 0x40, 30, 30⟩
/-- JOB_DOMAIN of CTX, bits [15:0], RO (02 R41). -/
def CTX_JOB_DOMAIN (n : Nat) : Fld := ⟨0x400008 + n * 0x40, 15, 0⟩
/-- EXTENTS of CTX, bits [39:32], RO (02 R41). -/
def CTX_EXTENTS (n : Nat) : Fld := ⟨0x400010 + n * 0x40, 39, 32⟩
/-- VIOL_THRESHOLD of CTX, bits [31:16], RO (02 R41). -/
def CTX_VIOL_THRESHOLD (n : Nat) : Fld := ⟨0x400010 + n * 0x40, 31, 16⟩
/-- VIOL_COUNT of CTX, bits [31:0], RO (02 R41). -/
def CTX_VIOL_COUNT (n : Nat) : Fld := ⟨0x400018 + n * 0x40, 31, 0⟩
/-- ARCH_GEN of CFG_CAPS, bits [31:24], RO (03 R51). -/
def CFG_CAPS_ARCH_GEN : Fld := ⟨0x50000000, 31, 24⟩
/-- FMT_MAJOR of CFG_CAPS, bits [23:16], RO (03 R51). -/
def CFG_CAPS_FMT_MAJOR : Fld := ⟨0x50000000, 23, 16⟩
/-- FMT_MINOR_MAX of CFG_CAPS, bits [15:0], RO (03 R51). -/
def CFG_CAPS_FMT_MINOR_MAX : Fld := ⟨0x50000000, 15, 0⟩
/-- APPLY_TAG of CFG_CMD, bits [63:32], WO (03 R51). -/
def CFG_CMD_APPLY_TAG : Fld := ⟨0x50000008, 63, 32⟩
/-- DOMAIN of CFG_CMD, bits [30:24], WO (03 R51). -/
def CFG_CMD_DOMAIN : Fld := ⟨0x50000008, 30, 24⟩
/-- TRIAL of CFG_CMD, bits [23:16], WO (03 R51). -/
def CFG_CMD_TRIAL : Fld := ⟨0x50000008, 23, 16⟩
/-- SCOPE of CFG_CMD, bits [11:11], WO (03 R51). -/
def CFG_CMD_SCOPE : Fld := ⟨0x50000008, 11, 11⟩
/-- SLOT of CFG_CMD, bits [10:8], WO (03 R51). -/
def CFG_CMD_SLOT : Fld := ⟨0x50000008, 10, 8⟩
/-- OP of CFG_CMD, bits [3:0], WO (03 R51). -/
def CFG_CMD_OP : Fld := ⟨0x50000008, 3, 0⟩
/-- CONFIG_GEN of CFG_STATUS, bits [63:48], RO (03 R51). -/
def CFG_STATUS_CONFIG_GEN : Fld := ⟨0x50000010, 63, 48⟩
/-- LAST_STATUS of CFG_STATUS, bits [47:40], RO (03 R51). -/
def CFG_STATUS_LAST_STATUS : Fld := ⟨0x50000010, 47, 40⟩
/-- REPORT_COUNT of CFG_STATUS, bits [35:27], RO (03 R51). -/
def CFG_STATUS_REPORT_COUNT : Fld := ⟨0x50000010, 35, 27⟩
/-- REPORT_FULL of CFG_STATUS, bits [26:26], RO (03 R51). -/
def CFG_STATUS_REPORT_FULL : Fld := ⟨0x50000010, 26, 26⟩
/-- TRIAL_PENDING of CFG_STATUS, bits [25:25], RO (03 R51). -/
def CFG_STATUS_TRIAL_PENDING : Fld := ⟨0x50000010, 25, 25⟩
/-- DIR_PENDING of CFG_STATUS, bits [24:24], RO (03 R51). -/
def CFG_STATUS_DIR_PENDING : Fld := ⟨0x50000010, 24, 24⟩
/-- VOLATILE of CFG_STATUS, bits [23:23], RO (03 R51). -/
def CFG_STATUS_VOLATILE : Fld := ⟨0x50000010, 23, 23⟩
/-- EDITED of CFG_STATUS, bits [22:22], RO (03 R51). -/
def CFG_STATUS_EDITED : Fld := ⟨0x50000010, 22, 22⟩
/-- OWNER of CFG_STATUS, bits [21:20], RO (03 R51). -/
def CFG_STATUS_OWNER : Fld := ⟨0x50000010, 21, 20⟩
/-- PREVIOUS_SLOT of CFG_STATUS, bits [10:8], RO (03 R51). -/
def CFG_STATUS_PREVIOUS_SLOT : Fld := ⟨0x50000010, 10, 8⟩
/-- PREVIOUS_VALID of CFG_STATUS, bits [7:7], RO (03 R51). -/
def CFG_STATUS_PREVIOUS_VALID : Fld := ⟨0x50000010, 7, 7⟩
/-- ACTIVE_SLOT of CFG_STATUS, bits [6:4], RO (03 R51). -/
def CFG_STATUS_ACTIVE_SLOT : Fld := ⟨0x50000010, 6, 4⟩
/-- BUSY of CFG_STATUS, bits [3:3], RO (03 R51). -/
def CFG_STATUS_BUSY : Fld := ⟨0x50000010, 3, 3⟩
/-- STATE of CFG_STATUS, bits [2:0], RO (03 R51). -/
def CFG_STATUS_STATE : Fld := ⟨0x50000010, 2, 0⟩
/-- CODE of CFG_CHECK_FIRST, bits [63:48], RO (03 R51). -/
def CFG_CHECK_FIRST_CODE : Fld := ⟨0x50000018, 63, 48⟩
/-- SECTION of CFG_CHECK_FIRST, bits [47:40], RO (03 R51). -/
def CFG_CHECK_FIRST_SECTION : Fld := ⟨0x50000018, 47, 40⟩
/-- ENTRY of CFG_CHECK_FIRST, bits [31:0], RO (03 R51). -/
def CFG_CHECK_FIRST_ENTRY : Fld := ⟨0x50000018, 31, 0⟩
/-- UFL_THRESH of TILE_QSAT_CTL, bits [51:32], RW (04 R89). -/
def TILE_QSAT_CTL_UFL_THRESH (t : Nat) : Fld := ⟨0x10000400 + t * 0x10000, 51, 32⟩
/-- THRESH of TILE_QSAT_CTL, bits [31:12], RW (04 R89). -/
def TILE_QSAT_CTL_THRESH (t : Nat) : Fld := ⟨0x10000400 + t * 0x10000, 31, 12⟩
/-- WINDOW_LOG of TILE_QSAT_CTL, bits [11:8], RW (04 R89). -/
def TILE_QSAT_CTL_WINDOW_LOG (t : Nat) : Fld := ⟨0x10000400 + t * 0x10000, 11, 8⟩
/-- EN of TILE_QSAT_CTL, bits [0:0], RW (04 R89). -/
def TILE_QSAT_CTL_EN (t : Nat) : Fld := ⟨0x10000400 + t * 0x10000, 0, 0⟩
/-- QUANT of TILE_QSAT_COUNT, bits [63:0], RO (04 R89). -/
def TILE_QSAT_COUNT_QUANT (t : Nat) : Fld := ⟨0x10000408 + t * 0x10000, 63, 0⟩
/-- SAT of TILE_QSAT_COUNT, bits [63:0], RO (04 R89). -/
def TILE_QSAT_COUNT_SAT (t : Nat) : Fld := ⟨0x10000410 + t * 0x10000, 63, 0⟩
/-- UFL of TILE_QSAT_COUNT, bits [63:0], RO (04 R89). -/
def TILE_QSAT_COUNT_UFL (t : Nat) : Fld := ⟨0x10000418 + t * 0x10000, 63, 0⟩
/-- NF of TILE_QSAT_COUNT, bits [63:0], RO (04 R89). -/
def TILE_QSAT_COUNT_NF (t : Nat) : Fld := ⟨0x10000420 + t * 0x10000, 63, 0⟩
/-- SUPPRESSED of TILE_QSAT_STATUS, bits [63:48], RC (04 R89). -/
def TILE_QSAT_STATUS_SUPPRESSED (t : Nat) : Fld := ⟨0x10000428 + t * 0x10000, 63, 48⟩
/-- LAST_TENSOR of TILE_QSAT_STATUS, bits [47:24], RO (04 R89). -/
def TILE_QSAT_STATUS_LAST_TENSOR (t : Nat) : Fld := ⟨0x10000428 + t * 0x10000, 47, 24⟩
/-- LAST_FORMAT of TILE_QSAT_STATUS, bits [4:0], RO (04 R89). -/
def TILE_QSAT_STATUS_LAST_FORMAT (t : Nat) : Fld := ⟨0x10000428 + t * 0x10000, 4, 0⟩
/-- GENERATION of TILE_STATUS, bits [63:48], RO (05 R116). -/
def TILE_STATUS_GENERATION (t : Nat) : Fld := ⟨0x10000000 + t * 0x10000, 63, 48⟩
/-- LAST_STATUS of TILE_STATUS, bits [47:40], RO (05 R116). -/
def TILE_STATUS_LAST_STATUS (t : Nat) : Fld := ⟨0x10000000 + t * 0x10000, 47, 40⟩
/-- LOGICAL_ID of TILE_STATUS, bits [31:24], RO (05 R116). -/
def TILE_STATUS_LOGICAL_ID (t : Nat) : Fld := ⟨0x10000000 + t * 0x10000, 31, 24⟩
/-- PARTITION of TILE_STATUS, bits [23:17], RO (05 R116). -/
def TILE_STATUS_PARTITION (t : Nat) : Fld := ⟨0x10000000 + t * 0x10000, 23, 17⟩
/-- MAPPED of TILE_STATUS, bits [16:16], RO (05 R116). -/
def TILE_STATUS_MAPPED (t : Nat) : Fld := ⟨0x10000000 + t * 0x10000, 16, 16⟩
/-- STATE of TILE_STATUS, bits [11:8], RO (05 R116). -/
def TILE_STATUS_STATE (t : Nat) : Fld := ⟨0x10000000 + t * 0x10000, 11, 8⟩
/-- ENTRY of TILE_PC, bits [63:32], RO (05 R116). -/
def TILE_PC_ENTRY (t : Nat) : Fld := ⟨0x10000008 + t * 0x10000, 63, 32⟩
/-- PC of TILE_PC, bits [22:0], RO (05 R116). -/
def TILE_PC_PC (t : Nat) : Fld := ⟨0x10000008 + t * 0x10000, 22, 0⟩
/-- RESIDUE of TILE_CHECK_COUNT, bits [63:48], RO (05 R116). -/
def TILE_CHECK_COUNT_RESIDUE (t : Nat) : Fld := ⟨0x10000100 + t * 0x10000, 63, 48⟩
/-- SEAL_CRC of TILE_CHECK_COUNT, bits [47:32], RO (05 R116). -/
def TILE_CHECK_COUNT_SEAL_CRC (t : Nat) : Fld := ⟨0x10000100 + t * 0x10000, 47, 32⟩
/-- SEAL_TAG of TILE_CHECK_COUNT, bits [31:16], RO (05 R116). -/
def TILE_CHECK_COUNT_SEAL_TAG (t : Nat) : Fld := ⟨0x10000100 + t * 0x10000, 31, 16⟩
/-- ECC_CORR of TILE_CHECK_COUNT, bits [15:0], RO (05 R116). -/
def TILE_CHECK_COUNT_ECC_CORR (t : Nat) : Fld := ⟨0x10000100 + t * 0x10000, 15, 0⟩
/-- COUNT of TILE_SIGNAL, bits [31:0], RO (05 R116). -/
def TILE_SIGNAL_COUNT (t c : Nat) : Fld := ⟨0x10000200 + t * 0x10000 + c * 8, 31, 0⟩
/-- BASE of HUB_WL_BASE, bits [63:0], RW (06 R118). -/
def HUB_WL_BASE_BASE (p w : Nat) : Fld := ⟨0x300000 + p * 0x400 + w * 0x40, 63, 0⟩
/-- OWNER_CTX of HUB_WL_CTL, bits [43:32], RW (06 R118). -/
def HUB_WL_CTL_OWNER_CTX (p w : Nat) : Fld := ⟨0x300008 + p * 0x400 + w * 0x40, 43, 32⟩
/-- SIZE_LOG of HUB_WL_CTL, bits [28:24], RW (06 R118). -/
def HUB_WL_CTL_SIZE_LOG (p w : Nat) : Fld := ⟨0x300008 + p * 0x400 + w * 0x40, 28, 24⟩
/-- STOP_STATUS of HUB_WL_CTL, bits [23:16], RO (06 R118). -/
def HUB_WL_CTL_STOP_STATUS (p w : Nat) : Fld := ⟨0x300008 + p * 0x400 + w * 0x40, 23, 16⟩
/-- STATE of HUB_WL_CTL, bits [3:2], RO (06 R118). -/
def HUB_WL_CTL_STATE (p w : Nat) : Fld := ⟨0x300008 + p * 0x400 + w * 0x40, 3, 2⟩
/-- RESTART of HUB_WL_CTL, bits [1:1], WO (06 R118). -/
def HUB_WL_CTL_RESTART (p w : Nat) : Fld := ⟨0x300008 + p * 0x400 + w * 0x40, 1, 1⟩
/-- EN of HUB_WL_CTL, bits [0:0], RW (06 R118). -/
def HUB_WL_CTL_EN (p w : Nat) : Fld := ⟨0x300008 + p * 0x400 + w * 0x40, 0, 0⟩
/-- HEAD of HUB_WL_PTR, bits [63:48], RO (06 R118). -/
def HUB_WL_PTR_HEAD (p w : Nat) : Fld := ⟨0x300010 + p * 0x400 + w * 0x40, 63, 48⟩
/-- TAIL of HUB_WL_PTR, bits [47:32], RW (06 R118). -/
def HUB_WL_PTR_TAIL (p w : Nat) : Fld := ⟨0x300010 + p * 0x400 + w * 0x40, 47, 32⟩
/-- NEXT_SEQ of HUB_WL_SEQ, bits [47:0], RW (06 R118). -/
def HUB_WL_SEQ_NEXT_SEQ (p w : Nat) : Fld := ⟨0x300018 + p * 0x400 + w * 0x40, 47, 0⟩
/-- STATE of HUB_STREAM_CNT, bits [63:62], RO (06 R128). -/
def HUB_STREAM_CNT_STATE (i : Nat) : Fld := ⟨0x340000 + i * 0x10, 63, 62⟩
/-- PRODUCED of HUB_STREAM_CNT, bits [47:32], RO (06 R128). -/
def HUB_STREAM_CNT_PRODUCED (i : Nat) : Fld := ⟨0x340000 + i * 0x10, 47, 32⟩
/-- CONSUMED of HUB_STREAM_CNT, bits [31:16], RO (06 R128). -/
def HUB_STREAM_CNT_CONSUMED (i : Nat) : Fld := ⟨0x340000 + i * 0x10, 31, 16⟩
/-- FREED of HUB_STREAM_CNT, bits [15:0], RO (06 R128). -/
def HUB_STREAM_CNT_FREED (i : Nat) : Fld := ⟨0x340000 + i * 0x10, 15, 0⟩
/-- WATCHDOG of HUB_PART_RUN, bits [63:48], RW (06 R138). -/
def HUB_PART_RUN_WATCHDOG (p : Nat) : Fld := ⟨0x300200 + p * 0x400, 63, 48⟩
/-- COMMITTED_STEP of HUB_PART_RUN, bits [31:0], RO (06 R138). -/
def HUB_PART_RUN_COMMITTED_STEP (p : Nat) : Fld := ⟨0x300200 + p * 0x400, 31, 0⟩
/-- TIMEOUT of HUB_MER_CTL, bits [63:48], RW (06 R138). -/
def HUB_MER_CTL_TIMEOUT (p : Nat) : Fld := ⟨0x300208 + p * 0x400, 63, 48⟩
/-- JOB_TIMEOUT of HUB_MER_CTL, bits [47:32], RW (06 R138). -/
def HUB_MER_CTL_JOB_TIMEOUT (p : Nat) : Fld := ⟨0x300208 + p * 0x400, 47, 32⟩
/-- EXPECT_MOD of HUB_MER_CTL, bits [25:16], RW (06 R138). -/
def HUB_MER_CTL_EXPECT_MOD (p : Nat) : Fld := ⟨0x300208 + p * 0x400, 25, 16⟩
/-- EXPECT_PART of HUB_MER_CTL, bits [9:0], RW (06 R138). -/
def HUB_MER_CTL_EXPECT_PART (p : Nat) : Fld := ⟨0x300208 + p * 0x400, 9, 0⟩
/-- CHILDREN of HUB_MER_JOB, bits [63:32], RW (06 R138). -/
def HUB_MER_JOB_CHILDREN (p : Nat) : Fld := ⟨0x300210 + p * 0x400, 63, 32⟩
/-- ROOT of HUB_MER_JOB, bits [31:31], RW (06 R138). -/
def HUB_MER_JOB_ROOT (p : Nat) : Fld := ⟨0x300210 + p * 0x400, 31, 31⟩
/-- PARENT of HUB_MER_JOB, bits [28:24], RW (06 R138). -/
def HUB_MER_JOB_PARENT (p : Nat) : Fld := ⟨0x300210 + p * 0x400, 28, 24⟩
/-- LATE of HUB_MER_JOB, bits [23:16], RC (06 R138). -/
def HUB_MER_JOB_LATE (p : Nat) : Fld := ⟨0x300210 + p * 0x400, 23, 16⟩
/-- LEAD of HUB_MER_JOB, bits [15:0], RW (06 R138). -/
def HUB_MER_JOB_LEAD (p : Nat) : Fld := ⟨0x300210 + p * 0x400, 15, 0⟩
/-- PACE_SET of HUB_PACE_CFG, bits [8:0], RW (06 R142). -/
def HUB_PACE_CFG_PACE_SET : Fld := ⟨0x200, 8, 0⟩
/-- PACE_NOW of HUB_PACE_STATUS, bits [56:48], RO (06 R142). -/
def HUB_PACE_STATUS_PACE_NOW : Fld := ⟨0x208, 56, 48⟩
/-- LIMITER of HUB_PACE_STATUS, bits [35:32], RO (06 R142). -/
def HUB_PACE_STATUS_LIMITER : Fld := ⟨0x208, 35, 32⟩
/-- STRETCH_COUNT of HUB_PACE_STATUS, bits [31:0], RO (06 R142). -/
def HUB_PACE_STATUS_STRETCH_COUNT : Fld := ⟨0x208, 31, 0⟩
/-- BEAT of HUB_BEAT, bits [63:0], RO (06 R142). -/
def HUB_BEAT_BEAT : Fld := ⟨0x210, 63, 0⟩
/-- HELD of HUB_HELD, bits [63:0], RO (06 R142). -/
def HUB_HELD_HELD : Fld := ⟨0x218, 63, 0⟩
/-- REFRESH_WAIT of HUB_PART_TIMING, bits [63:32], RO (06 R144). -/
def HUB_PART_TIMING_REFRESH_WAIT (p : Nat) : Fld := ⟨0x300240 + p * 0x400, 63, 32⟩
/-- RETRY_WAIT of HUB_PART_TIMING, bits [31:0], RO (06 R144). -/
def HUB_PART_TIMING_RETRY_WAIT (p : Nat) : Fld := ⟨0x300240 + p * 0x400, 31, 0⟩
/-- OUTSIDE_WAIT of HUB_PART_TIMING, bits [63:32], RO (06 R144). -/
def HUB_PART_TIMING_OUTSIDE_WAIT (p : Nat) : Fld := ⟨0x300248 + p * 0x400, 63, 32⟩
/-- REPLAYS of HUB_PART_TIMING, bits [31:0], RO (06 R144). -/
def HUB_PART_TIMING_REPLAYS (p : Nat) : Fld := ⟨0x300248 + p * 0x400, 31, 0⟩
/-- TEMP of HBM_STACK_STATUS, bits [57:48], RO (07 R160). -/
def HBM_STACK_STATUS_TEMP (s : Nat) : Fld := ⟨0x20000000 + s * 0x100000, 57, 48⟩
/-- GENERATION of HBM_STACK_STATUS, bits [47:32], RO (07 R160). -/
def HBM_STACK_STATUS_GENERATION (s : Nat) : Fld := ⟨0x20000000 + s * 0x100000, 47, 32⟩
/-- FOLDS of HBM_STACK_STATUS, bits [29:26], RO (07 R160). -/
def HBM_STACK_STATUS_FOLDS (s : Nat) : Fld := ⟨0x20000000 + s * 0x100000, 29, 26⟩
/-- SPARES of HBM_STACK_STATUS, bits [25:24], RO (07 R160). -/
def HBM_STACK_STATUS_SPARES (s : Nat) : Fld := ⟨0x20000000 + s * 0x100000, 25, 24⟩
/-- ACTIVE of HBM_STACK_STATUS, bits [23:18], RO (07 R160). -/
def HBM_STACK_STATUS_ACTIVE (s : Nat) : Fld := ⟨0x20000000 + s * 0x100000, 23, 18⟩
/-- CAP_GIB of HBM_STACK_STATUS, bits [15:8], RO (07 R160). -/
def HBM_STACK_STATUS_CAP_GIB (s : Nat) : Fld := ⟨0x20000000 + s * 0x100000, 15, 8⟩
/-- SELF_REF of HBM_STACK_STATUS, bits [3:3], RO (07 R160). -/
def HBM_STACK_STATUS_SELF_REF (s : Nat) : Fld := ⟨0x20000000 + s * 0x100000, 3, 3⟩
/-- LEVEL of HBM_STACK_STATUS, bits [2:0], RO (07 R160). -/
def HBM_STACK_STATUS_LEVEL (s : Nat) : Fld := ⟨0x20000000 + s * 0x100000, 2, 0⟩
/-- HOLD_MS of HBM_THERM_CTL, bits [63:48], RW (07 R160). -/
def HBM_THERM_CTL_HOLD_MS (s : Nat) : Fld := ⟨0x20000010 + s * 0x100000, 63, 48⟩
/-- COLL_FLOOR of HBM_THERM_CTL, bits [23:16], RW (07 R160). -/
def HBM_THERM_CTL_COLL_FLOOR (s : Nat) : Fld := ⟨0x20000010 + s * 0x100000, 23, 16⟩
/-- T2_BUDGET of HBM_THERM_CTL, bits [15:8], RW (07 R160). -/
def HBM_THERM_CTL_T2_BUDGET (s : Nat) : Fld := ⟨0x20000010 + s * 0x100000, 15, 8⟩
/-- T1_C3 of HBM_THERM_CTL, bits [7:0], RW (07 R160). -/
def HBM_THERM_CTL_T1_C3 (s : Nat) : Fld := ⟨0x20000010 + s * 0x100000, 7, 0⟩
/-- CE of HBM_CH_STATUS, bits [63:48], RO (07 R160). -/
def HBM_CH_STATUS_CE (s c : Nat) : Fld := ⟨0x20001000 + s * 0x100000 + c * 0x40, 63, 48⟩
/-- UE of HBM_CH_STATUS, bits [47:32], RO (07 R160). -/
def HBM_CH_STATUS_UE (s c : Nat) : Fld := ⟨0x20001000 + s * 0x100000 + c * 0x40, 47, 32⟩
/-- SLOT of HBM_CH_STATUS, bits [20:16], RO (07 R160). -/
def HBM_CH_STATUS_SLOT (s c : Nat) : Fld := ⟨0x20001000 + s * 0x100000 + c * 0x40, 20, 16⟩
/-- COPY_PCT of HBM_CH_STATUS, bits [15:8], RO (07 R160). -/
def HBM_CH_STATUS_COPY_PCT (s c : Nat) : Fld := ⟨0x20001000 + s * 0x100000 + c * 0x40, 15, 8⟩
/-- STATE of HBM_CH_STATUS, bits [2:0], RO (07 R160). -/
def HBM_CH_STATUS_STATE (s c : Nat) : Fld := ⟨0x20001000 + s * 0x100000 + c * 0x40, 2, 0⟩
/-- OP of HBM_CH_CMD, bits [1:0], WO (07 R160). -/
def HBM_CH_CMD_OP (s c : Nat) : Fld := ⟨0x20001008 + s * 0x100000 + c * 0x40, 1, 0⟩
/-- CHANNEL of HBM_EXER_CTL, bits [37:32], RW (07 R160). -/
def HBM_EXER_CTL_CHANNEL (s : Nat) : Fld := ⟨0x20004000 + s * 0x100000, 37, 32⟩
/-- PASSES of HBM_EXER_CTL, bits [31:16], RW (07 R160). -/
def HBM_EXER_CTL_PASSES (s : Nat) : Fld := ⟨0x20004000 + s * 0x100000, 31, 16⟩
/-- PATTERN of HBM_EXER_CTL, bits [11:8], RW (07 R160). -/
def HBM_EXER_CTL_PATTERN (s : Nat) : Fld := ⟨0x20004000 + s * 0x100000, 11, 8⟩
/-- MODE of HBM_EXER_CTL, bits [5:4], RW (07 R160). -/
def HBM_EXER_CTL_MODE (s : Nat) : Fld := ⟨0x20004000 + s * 0x100000, 5, 4⟩
/-- ABORT of HBM_EXER_CTL, bits [1:1], WO (07 R160). -/
def HBM_EXER_CTL_ABORT (s : Nat) : Fld := ⟨0x20004000 + s * 0x100000, 1, 1⟩
/-- START of HBM_EXER_CTL, bits [0:0], WO (07 R160). -/
def HBM_EXER_CTL_START (s : Nat) : Fld := ⟨0x20004000 + s * 0x100000, 0, 0⟩
/-- ERRORS of HBM_EXER_RESULT, bits [63:32], RO (07 R160). -/
def HBM_EXER_RESULT_ERRORS (s : Nat) : Fld := ⟨0x20004008 + s * 0x100000, 63, 32⟩
/-- MARGIN_LO of HBM_EXER_RESULT, bits [31:24], RO (07 R160). -/
def HBM_EXER_RESULT_MARGIN_LO (s : Nat) : Fld := ⟨0x20004008 + s * 0x100000, 31, 24⟩
/-- MARGIN_HI of HBM_EXER_RESULT, bits [23:16], RO (07 R160). -/
def HBM_EXER_RESULT_MARGIN_HI (s : Nat) : Fld := ⟨0x20004008 + s * 0x100000, 23, 16⟩
/-- STATUS of HBM_EXER_RESULT, bits [15:8], RO (07 R160). -/
def HBM_EXER_RESULT_STATUS (s : Nat) : Fld := ⟨0x20004008 + s * 0x100000, 15, 8⟩
/-- PASS of HBM_EXER_RESULT, bits [1:1], RO (07 R160). -/
def HBM_EXER_RESULT_PASS (s : Nat) : Fld := ⟨0x20004008 + s * 0x100000, 1, 1⟩
/-- DONE of HBM_EXER_RESULT, bits [0:0], RO (07 R160). -/
def HBM_EXER_RESULT_DONE (s : Nat) : Fld := ⟨0x20004008 + s * 0x100000, 0, 0⟩
/-- DIRTY of LLM_SLICE_STATUS, bits [63:48], RO (07 R167). -/
def LLM_SLICE_STATUS_DIRTY (q i : Nat) : Fld := ⟨0x1400000 + q * 0x1000000 + i * 0x100, 63, 48⟩
/-- ECC_CORR of LLM_SLICE_STATUS, bits [47:32], RO (07 R167). -/
def LLM_SLICE_STATUS_ECC_CORR (q i : Nat) : Fld := ⟨0x1400000 + q * 0x1000000 + i * 0x100, 47, 32⟩
/-- PARTITION of LLM_SLICE_STATUS, bits [24:18], RO (07 R167). -/
def LLM_SLICE_STATUS_PARTITION (q i : Nat) : Fld := ⟨0x1400000 + q * 0x1000000 + i * 0x100, 24, 18⟩
/-- ACTIVE_INDEX of LLM_SLICE_STATUS, bits [11:8], RO (07 R167). -/
def LLM_SLICE_STATUS_ACTIVE_INDEX (q i : Nat) : Fld := ⟨0x1400000 + q * 0x1000000 + i * 0x100, 11, 8⟩
/-- STATE of LLM_SLICE_STATUS, bits [2:0], RO (07 R167). -/
def LLM_SLICE_STATUS_STATE (q i : Nat) : Fld := ⟨0x1400000 + q * 0x1000000 + i * 0x100, 2, 0⟩
/-- STATUS of LLM_OP, bits [15:8], RO (07 R167). -/
def LLM_OP_STATUS (q i : Nat) : Fld := ⟨0x1400008 + q * 0x1000000 + i * 0x100, 15, 8⟩
/-- OP of LLM_OP, bits [1:0], RW (07 R167). -/
def LLM_OP_OP (q i : Nat) : Fld := ⟨0x1400008 + q * 0x1000000 + i * 0x100, 1, 0⟩
/-- HITS of LLM_HITS, bits [63:32], RO (07 R167). -/
def LLM_HITS_HITS (q i : Nat) : Fld := ⟨0x1400010 + q * 0x1000000 + i * 0x100, 63, 32⟩
/-- MISSES of LLM_HITS, bits [31:0], RO (07 R167). -/
def LLM_HITS_MISSES (q i : Nat) : Fld := ⟨0x1400010 + q * 0x1000000 + i * 0x100, 31, 0⟩
/-- L_LIMIT of HUB_CTX_USE, bits [63:32], RO (08 R174). -/
def HUB_CTX_USE_L_LIMIT (n : Nat) : Fld := ⟨0x500000 + n * 0x40, 63, 32⟩
/-- L_USED of HUB_CTX_USE, bits [31:0], RO (08 R174). -/
def HUB_CTX_USE_L_USED (n : Nat) : Fld := ⟨0x500000 + n * 0x40, 31, 0⟩
/-- H_LIMIT of HUB_CTX_USE, bits [63:32], RO (08 R174). -/
def HUB_CTX_USE_H_LIMIT (n : Nat) : Fld := ⟨0x500008 + n * 0x40, 63, 32⟩
/-- H_USED of HUB_CTX_USE, bits [31:0], RO (08 R174). -/
def HUB_CTX_USE_H_USED (n : Nat) : Fld := ⟨0x500008 + n * 0x40, 31, 0⟩
/-- D_LIMIT of HUB_CTX_USE, bits [63:32], RO (08 R174). -/
def HUB_CTX_USE_D_LIMIT (n : Nat) : Fld := ⟨0x500010 + n * 0x40, 63, 32⟩
/-- D_USED of HUB_CTX_USE, bits [31:0], RO (08 R174). -/
def HUB_CTX_USE_D_USED (n : Nat) : Fld := ⟨0x500010 + n * 0x40, 31, 0⟩
/-- N_REFUSED_QUOTA of HUB_CTX_USE, bits [63:32], RO (08 R174). -/
def HUB_CTX_USE_N_REFUSED_QUOTA (n : Nat) : Fld := ⟨0x500018 + n * 0x40, 63, 32⟩
/-- N_DEFERRED of HUB_CTX_USE, bits [31:0], RO (08 R174). -/
def HUB_CTX_USE_N_DEFERRED (n : Nat) : Fld := ⟨0x500018 + n * 0x40, 31, 0⟩
/-- N_REFUSED_CAPACITY of HUB_CTX_USE, bits [63:32], RO (08 R174). -/
def HUB_CTX_USE_N_REFUSED_CAPACITY (n : Nat) : Fld := ⟨0x500020 + n * 0x40, 63, 32⟩
/-- GENERATION of DEEP_STATUS, bits [63:48], RO (08 R190). -/
def DEEP_STATUS_GENERATION : Fld := ⟨0x30000000, 63, 48⟩
/-- LIFE_PCT of DEEP_STATUS, bits [47:40], RO (08 R190). -/
def DEEP_STATUS_LIFE_PCT : Fld := ⟨0x30000000, 47, 40⟩
/-- SPARE_PCT of DEEP_STATUS, bits [39:32], RO (08 R190). -/
def DEEP_STATUS_SPARE_PCT : Fld := ⟨0x30000000, 39, 32⟩
/-- EPOCH of DEEP_STATUS, bits [15:15], RO (08 R190). -/
def DEEP_STATUS_EPOCH : Fld := ⟨0x30000000, 15, 15⟩
/-- REBUILD of DEEP_STATUS, bits [14:14], RO (08 R190). -/
def DEEP_STATUS_REBUILD : Fld := ⟨0x30000000, 14, 14⟩
/-- STATE of DEEP_STATUS, bits [2:0], RO (08 R190). -/
def DEEP_STATUS_STATE : Fld := ⟨0x30000000, 2, 0⟩
/-- BURST_TIB of DEEP_GOV_CFG, bits [47:40], ST (08 R190). -/
def DEEP_GOV_CFG_BURST_TIB : Fld := ⟨0x30800000, 47, 40⟩
/-- ACCRUE of DEEP_GOV_CFG, bits [9:0], ST (08 R190). -/
def DEEP_GOV_CFG_ACCRUE : Fld := ⟨0x30800000, 9, 0⟩
/-- CREDIT_MIB of DEEP_GOV_STATUS, bits [63:32], RO (08 R190). -/
def DEEP_GOV_STATUS_CREDIT_MIB : Fld := ⟨0x30000010, 63, 32⟩
/-- WA_X10 of DEEP_GOV_STATUS, bits [31:24], RO (08 R190). -/
def DEEP_GOV_STATUS_WA_X10 : Fld := ⟨0x30000010, 31, 24⟩
/-- SCALE of DEEP_GOV_STATUS, bits [15:8], RO (08 R190). -/
def DEEP_GOV_STATUS_SCALE : Fld := ⟨0x30000010, 15, 8⟩
/-- LIMITED of DEEP_GOV_STATUS, bits [0:0], RO (08 R190). -/
def DEEP_GOV_STATUS_LIMITED : Fld := ⟨0x30000010, 0, 0⟩
/-- LOGICAL_MIB of DEEP_LIFE, bits [63:0], RO (08 R190). -/
def DEEP_LIFE_LOGICAL_MIB : Fld := ⟨0x30000018, 63, 0⟩
/-- NAND_MIB of DEEP_LIFE, bits [63:0], RO (08 R190). -/
def DEEP_LIFE_NAND_MIB : Fld := ⟨0x30000020, 63, 0⟩
/-- GENERATION of HALO_STATUS, bits [63:48], RO (09 R223). -/
def HALO_STATUS_GENERATION (s : Nat) : Fld := ⟨0x20020000 + s * 0x100000, 63, 48⟩
/-- TABLES of HALO_STATUS, bits [47:39], RO (09 R223). -/
def HALO_STATUS_TABLES (s : Nat) : Fld := ⟨0x20020000 + s * 0x100000, 47, 39⟩
/-- STATE of HALO_STATUS, bits [38:36], RO (09 R223). -/
def HALO_STATUS_STATE (s : Nat) : Fld := ⟨0x20020000 + s * 0x100000, 38, 36⟩
/-- QP_EN of HALO_STATUS, bits [31:0], RO (09 R223). -/
def HALO_STATUS_QP_EN (s : Nat) : Fld := ⟨0x20020000 + s * 0x100000, 31, 0⟩
/-- ROWS_READ of HALO_COUNT, bits [63:0], RO (09 R223). -/
def HALO_COUNT_ROWS_READ (s : Nat) : Fld := ⟨0x20020100 + s * 0x100000, 63, 0⟩
/-- PAIRS_MERGED of HALO_COUNT, bits [63:0], RO (09 R223). -/
def HALO_COUNT_PAIRS_MERGED (s : Nat) : Fld := ⟨0x20020108 + s * 0x100000, 63, 0⟩
/-- ROWS_UPDATED of HALO_COUNT, bits [63:0], RO (09 R223). -/
def HALO_COUNT_ROWS_UPDATED (s : Nat) : Fld := ⟨0x20020110 + s * 0x100000, 63, 0⟩
/-- REPLICA_SERVED of HALO_COUNT, bits [63:0], RO (09 R223). -/
def HALO_COUNT_REPLICA_SERVED (s : Nat) : Fld := ⟨0x20020118 + s * 0x100000, 63, 0⟩
/-- OOB_IDS of HALO_COUNT, bits [63:0], RO (09 R223). -/
def HALO_COUNT_OOB_IDS (s : Nat) : Fld := ⟨0x20020120 + s * 0x100000, 63, 0⟩
/-- APPLY_SAT of HALO_COUNT, bits [63:0], RO (09 R223). -/
def HALO_COUNT_APPLY_SAT (s : Nat) : Fld := ⟨0x20020128 + s * 0x100000, 63, 0⟩
/-- VALID of HALO_QP_CFG, bits [23:23], ST (09 R223). -/
def HALO_QP_CFG_VALID (s qp : Nat) : Fld := ⟨0x20080000 + s * 0x100000 + qp * 8, 23, 23⟩
/-- PARTITION of HALO_QP_CFG, bits [22:16], ST (09 R223). -/
def HALO_QP_CFG_PARTITION (s qp : Nat) : Fld := ⟨0x20080000 + s * 0x100000 + qp * 8, 22, 16⟩
/-- LOOKAHEAD of HALO_QP_CFG, bits [11:8], ST (09 R223). -/
def HALO_QP_CFG_LOOKAHEAD (s qp : Nat) : Fld := ⟨0x20080000 + s * 0x100000 + qp * 8, 11, 8⟩
/-- REPL_EN of HALO_QP_CFG, bits [1:1], ST (09 R223). -/
def HALO_QP_CFG_REPL_EN (s qp : Nat) : Fld := ⟨0x20080000 + s * 0x100000 + qp * 8, 1, 1⟩
/-- LOADFMT of HALO_QP_CFG, bits [0:0], ST (09 R223). -/
def HALO_QP_CFG_LOADFMT (s qp : Nat) : Fld := ⟨0x20080000 + s * 0x100000 + qp * 8, 0, 0⟩
/-- GENERATION of ORR_STATUS, bits [63:48], RO (10 R250). -/
def ORR_STATUS_GENERATION (q : Nat) : Fld := ⟨0x1500000 + q * 0x1000000, 63, 48⟩
/-- SHARDS of ORR_STATUS, bits [47:38], RO (10 R250). -/
def ORR_STATUS_SHARDS (q : Nat) : Fld := ⟨0x1500000 + q * 0x1000000, 47, 38⟩
/-- STATE of ORR_STATUS, bits [37:35], RO (10 R250). -/
def ORR_STATUS_STATE (q : Nat) : Fld := ⟨0x1500000 + q * 0x1000000, 37, 35⟩
/-- QP_EN of ORR_STATUS, bits [15:0], RO (10 R250). -/
def ORR_STATUS_QP_EN (q : Nat) : Fld := ⟨0x1500000 + q * 0x1000000, 15, 0⟩
/-- SHARD_ID of ORR_SHARD, bits [63:48], RO (10 R250). -/
def ORR_SHARD_SHARD_ID (q k : Nat) : Fld := ⟨0x1510000 + q * 0x1000000 + k * 0x10, 63, 48⟩
/-- CONTEXT of ORR_SHARD, bits [47:36], RO (10 R250). -/
def ORR_SHARD_CONTEXT (q k : Nat) : Fld := ⟨0x1510000 + q * 0x1000000 + k * 0x10, 47, 36⟩
/-- PARTITION of ORR_SHARD, bits [35:29], RO (10 R250). -/
def ORR_SHARD_PARTITION (q k : Nat) : Fld := ⟨0x1510000 + q * 0x1000000 + k * 0x10, 35, 29⟩
/-- RULE of ORR_SHARD, bits [28:25], RO (10 R250). -/
def ORR_SHARD_RULE (q k : Nat) : Fld := ⟨0x1510000 + q * 0x1000000 + k * 0x10, 28, 25⟩
/-- EXPORTING of ORR_SHARD, bits [3:3], RO (10 R250). -/
def ORR_SHARD_EXPORTING (q k : Nat) : Fld := ⟨0x1510000 + q * 0x1000000 + k * 0x10, 3, 3⟩
/-- PENDING of ORR_SHARD, bits [2:2], RO (10 R250). -/
def ORR_SHARD_PENDING (q k : Nat) : Fld := ⟨0x1510000 + q * 0x1000000 + k * 0x10, 2, 2⟩
/-- ACTIVE of ORR_SHARD, bits [1:1], RO (10 R250). -/
def ORR_SHARD_ACTIVE (q k : Nat) : Fld := ⟨0x1510000 + q * 0x1000000 + k * 0x10, 1, 1⟩
/-- VALID of ORR_SHARD, bits [0:0], RO (10 R250). -/
def ORR_SHARD_VALID (q k : Nat) : Fld := ⟨0x1510000 + q * 0x1000000 + k * 0x10, 0, 0⟩
/-- BANK_BLOCKS of ORR_SHARD, bits [63:32], RO (10 R250). -/
def ORR_SHARD_BANK_BLOCKS (q k : Nat) : Fld := ⟨0x1510008 + q * 0x1000000 + k * 0x10, 63, 32⟩
/-- T of ORR_SHARD, bits [31:0], RO (10 R250). -/
def ORR_SHARD_T (q k : Nat) : Fld := ⟨0x1510008 + q * 0x1000000 + k * 0x10, 31, 0⟩
/-- VALID of ORR_PART_CFG, bits [48:48], ST (10 R250). -/
def ORR_PART_CFG_VALID (q p : Nat) : Fld := ⟨0x1810000 + q * 0x1000000 + p * 8, 48, 48⟩
/-- SLOT_FIRST of ORR_PART_CFG, bits [47:38], ST (10 R250). -/
def ORR_PART_CFG_SLOT_FIRST (q p : Nat) : Fld := ⟨0x1810000 + q * 0x1000000 + p * 8, 47, 38⟩
/-- SLOT_COUNT of ORR_PART_CFG, bits [37:28], ST (10 R250). -/
def ORR_PART_CFG_SLOT_COUNT (q p : Nat) : Fld := ⟨0x1810000 + q * 0x1000000 + p * 8, 37, 28⟩
/-- QP of ORR_PART_CFG, bits [27:24], ST (10 R250). -/
def ORR_PART_CFG_QP (q p : Nat) : Fld := ⟨0x1810000 + q * 0x1000000 + p * 8, 27, 24⟩
/-- TILE_FIRST of ORR_PART_CFG, bits [23:16], ST (10 R250). -/
def ORR_PART_CFG_TILE_FIRST (q p : Nat) : Fld := ⟨0x1810000 + q * 0x1000000 + p * 8, 23, 16⟩
/-- TILE_COUNT of ORR_PART_CFG, bits [15:11], ST (10 R250). -/
def ORR_PART_CFG_TILE_COUNT (q p : Nat) : Fld := ⟨0x1810000 + q * 0x1000000 + p * 8, 15, 11⟩
/-- PARALLAX_WINDOW of HUB_PART_COMMIT, bits [63:32], RW (10 R250). -/
def HUB_PART_COMMIT_PARALLAX_WINDOW (p : Nat) : Fld := ⟨0x300250 + p * 0x400, 63, 32⟩
/-- LAST_OR of HUB_PART_COMMIT, bits [31:24], RO (10 R250). -/
def HUB_PART_COMMIT_LAST_OR (p : Nat) : Fld := ⟨0x300250 + p * 0x400, 31, 24⟩
/-- LAST_VERDICT_OR of HUB_PART_COMMIT, bits [23:16], RO (10 R250). -/
def HUB_PART_COMMIT_LAST_VERDICT_OR (p : Nat) : Fld := ⟨0x300250 + p * 0x400, 23, 16⟩
/-- LAST_OUTCOME of HUB_PART_COMMIT, bits [4:2], RO (10 R250). -/
def HUB_PART_COMMIT_LAST_OUTCOME (p : Nat) : Fld := ⟨0x300250 + p * 0x400, 4, 2⟩
/-- NONFINITE of HUB_PART_COMMIT, bits [1:1], RO (10 R250). -/
def HUB_PART_COMMIT_NONFINITE (p : Nat) : Fld := ⟨0x300250 + p * 0x400, 1, 1⟩
/-- SUSPECT of HUB_PART_COMMIT, bits [0:0], RO (10 R250). -/
def HUB_PART_COMMIT_SUSPECT (p : Nat) : Fld := ⟨0x300250 + p * 0x400, 0, 0⟩
/-- UPDATES of HUB_PART_COMMIT, bits [63:0], RO (10 R250). -/
def HUB_PART_COMMIT_UPDATES (p : Nat) : Fld := ⟨0x300258 + p * 0x400, 63, 0⟩
/-- SKIPS of HUB_PART_COMMIT, bits [63:32], RO (10 R250). -/
def HUB_PART_COMMIT_SKIPS (p : Nat) : Fld := ⟨0x300260 + p * 0x400, 63, 32⟩
/-- VERDICTS of HUB_PART_COMMIT, bits [31:0], RO (10 R250). -/
def HUB_PART_COMMIT_VERDICTS (p : Nat) : Fld := ⟨0x300260 + p * 0x400, 31, 0⟩
/-- GENERATION of SL_STATUS, bits [63:48], RO (11 R284). -/
def SL_STATUS_GENERATION (p : Nat) : Fld := ⟨0x40000000 + p * 0x10000, 63, 48⟩
/-- PROTO of SL_STATUS, bits [47:44], RO (11 R284). -/
def SL_STATUS_PROTO (p : Nat) : Fld := ⟨0x40000000 + p * 0x10000, 47, 44⟩
/-- LANE_MASK of SL_STATUS, bits [43:40], RO (11 R284). -/
def SL_STATUS_LANE_MASK (p : Nat) : Fld := ⟨0x40000000 + p * 0x10000, 43, 40⟩
/-- ROLE of SL_STATUS, bits [39:37], RO (11 R284). -/
def SL_STATUS_ROLE (p : Nat) : Fld := ⟨0x40000000 + p * 0x10000, 39, 37⟩
/-- CONST of SL_STATUS, bits [36:36], RO (11 R284). -/
def SL_STATUS_CONST (p : Nat) : Fld := ⟨0x40000000 + p * 0x10000, 36, 36⟩
/-- PEER_MODULE of SL_STATUS, bits [31:8], RO (11 R284). -/
def SL_STATUS_PEER_MODULE (p : Nat) : Fld := ⟨0x40000000 + p * 0x10000, 31, 8⟩
/-- STATE of SL_STATUS, bits [3:0], RO (11 R284). -/
def SL_STATUS_STATE (p : Nat) : Fld := ⟨0x40000000 + p * 0x10000, 3, 0⟩
/-- TX_ERR of SL_ERR, bits [63:48], RO (11 R284). -/
def SL_ERR_TX_ERR (p : Nat) : Fld := ⟨0x40000008 + p * 0x10000, 63, 48⟩
/-- RX_ERR of SL_ERR, bits [47:32], RO (11 R284). -/
def SL_ERR_RX_ERR (p : Nat) : Fld := ⟨0x40000008 + p * 0x10000, 47, 32⟩
/-- SHED of SL_ERR, bits [31:24], RO (11 R284). -/
def SL_ERR_SHED (p : Nat) : Fld := ⟨0x40000008 + p * 0x10000, 31, 24⟩
/-- REPLAYS of SL_CNT, bits [63:32], RO (11 R284). -/
def SL_CNT_REPLAYS (p : Nat) : Fld := ⟨0x40000010 + p * 0x10000, 63, 32⟩
/-- LCRC_FAIL of SL_CNT, bits [31:0], RO (11 R284). -/
def SL_CNT_LCRC_FAIL (p : Nat) : Fld := ⟨0x40000010 + p * 0x10000, 31, 0⟩
/-- NOT_READY of SL_CNT, bits [63:32], RO (11 R284). -/
def SL_CNT_NOT_READY (p : Nat) : Fld := ⟨0x40000018 + p * 0x10000, 63, 32⟩
/-- LATE_RSP of SL_CNT, bits [31:0], RO (11 R284). -/
def SL_CNT_LATE_RSP (p : Nat) : Fld := ⟨0x40000018 + p * 0x10000, 31, 0⟩
/-- OP of SL_CMD, bits [2:0], WO (11 R284). -/
def SL_CMD_OP (p : Nat) : Fld := ⟨0x40000020 + p * 0x10000, 2, 0⟩
/-- VLAN_ID of SL_CFG, bits [51:40], ST (11 R284). -/
def SL_CFG_VLAN_ID (p : Nat) : Fld := ⟨0x4000c000 + p * 0x10000, 51, 40⟩
/-- VLAN_EN of SL_CFG, bits [39:39], ST (11 R284). -/
def SL_CFG_VLAN_EN (p : Nat) : Fld := ⟨0x4000c000 + p * 0x10000, 39, 39⟩
/-- CONST_TAG of SL_CFG, bits [38:23], ST (11 R284). -/
def SL_CFG_CONST_TAG (p : Nat) : Fld := ⟨0x4000c000 + p * 0x10000, 38, 23⟩
/-- PEER_CASCADE of SL_CFG, bits [22:20], ST (11 R284). -/
def SL_CFG_PEER_CASCADE (p : Nat) : Fld := ⟨0x4000c000 + p * 0x10000, 22, 20⟩
/-- SELF_CASCADE of SL_CFG, bits [19:17], ST (11 R284). -/
def SL_CFG_SELF_CASCADE (p : Nat) : Fld := ⟨0x4000c000 + p * 0x10000, 19, 17⟩
/-- CONST of SL_CFG, bits [16:16], ST (11 R284). -/
def SL_CFG_CONST (p : Nat) : Fld := ⟨0x4000c000 + p * 0x10000, 16, 16⟩
/-- SHARED of SL_CFG, bits [15:15], ST (11 R284). -/
def SL_CFG_SHARED (p : Nat) : Fld := ⟨0x4000c000 + p * 0x10000, 15, 15⟩
/-- OWNER of SL_CFG, bits [14:8], ST (11 R284). -/
def SL_CFG_OWNER (p : Nat) : Fld := ⟨0x4000c000 + p * 0x10000, 14, 8⟩
/-- ROLE of SL_CFG, bits [2:0], ST (11 R284). -/
def SL_CFG_ROLE (p : Nat) : Fld := ⟨0x4000c000 + p * 0x10000, 2, 0⟩
/-- XT_TIMEOUT of HUB_SL_RCTL, bits [63:48], RW (11 R284). -/
def HUB_SL_RCTL_XT_TIMEOUT : Fld := ⟨0x620000, 63, 48⟩
/-- MODULE_ID of HUB_SL_RCTL, bits [39:16], RW (11 R284). -/
def HUB_SL_RCTL_MODULE_ID : Fld := ⟨0x620000, 39, 16⟩
/-- PENDING of HUB_SL_RCTL, bits [2:2], RO (11 R284). -/
def HUB_SL_RCTL_PENDING : Fld := ⟨0x620000, 2, 2⟩
/-- FLIP of HUB_SL_RCTL, bits [1:1], WO (11 R284). -/
def HUB_SL_RCTL_FLIP : Fld := ⟨0x620000, 1, 1⟩
/-- ACTIVE of HUB_SL_RCTL, bits [0:0], RO (11 R284). -/
def HUB_SL_RCTL_ACTIVE : Fld := ⟨0x620000, 0, 0⟩
/-- MEMBERS of HUB_CONST_STATUS, bits [63:56], RO (11 R284). -/
def HUB_CONST_STATUS_MEMBERS : Fld := ⟨0x300, 63, 56⟩
/-- SELF of HUB_CONST_STATUS, bits [55:53], RO (11 R284). -/
def HUB_CONST_STATUS_SELF : Fld := ⟨0x300, 55, 53⟩
/-- LODESTAR of HUB_CONST_STATUS, bits [52:50], RO (11 R284). -/
def HUB_CONST_STATUS_LODESTAR : Fld := ⟨0x300, 52, 50⟩
/-- IS_LODESTAR of HUB_CONST_STATUS, bits [49:49], RO (11 R284). -/
def HUB_CONST_STATUS_IS_LODESTAR : Fld := ⟨0x300, 49, 49⟩
/-- MINORITY of HUB_CONST_STATUS, bits [48:48], RO (11 R284). -/
def HUB_CONST_STATUS_MINORITY : Fld := ⟨0x300, 48, 48⟩
/-- OFFSET_NS of HUB_CONST_STATUS, bits [44:32], RO (11 R284). -/
def HUB_CONST_STATUS_OFFSET_NS : Fld := ⟨0x300, 44, 32⟩
/-- CONST_TAG of HUB_CONST_STATUS, bits [31:16], RO (11 R284). -/
def HUB_CONST_STATUS_CONST_TAG : Fld := ⟨0x300, 31, 16⟩
/-- TAKEOVERS of HUB_CONST_STATUS, bits [15:0], RO (11 R284). -/
def HUB_CONST_STATUS_TAKEOVERS : Fld := ⟨0x300, 15, 0⟩
/-- TIME of HUB_TIME, bits [63:0], RO (11 R284). -/
def HUB_TIME_TIME : Fld := ⟨0x308, 63, 0⟩
/-- GENERATION of COLL_STATUS, bits [63:48], RO (12 R313). -/
def COLL_STATUS_GENERATION (q : Nat) : Fld := ⟨0x1600000 + q * 0x1000000, 63, 48⟩
/-- GROUPS of COLL_STATUS, bits [47:39], RO (12 R313). -/
def COLL_STATUS_GROUPS (q : Nat) : Fld := ⟨0x1600000 + q * 0x1000000, 47, 39⟩
/-- STATE of COLL_STATUS, bits [38:36], RO (12 R313). -/
def COLL_STATUS_STATE (q : Nat) : Fld := ⟨0x1600000 + q * 0x1000000, 38, 36⟩
/-- CH_EN of COLL_STATUS, bits [15:0], RO (12 R313). -/
def COLL_STATUS_CH_EN (q : Nat) : Fld := ⟨0x1600000 + q * 0x1000000, 15, 0⟩
/-- COLL_TIMEOUT of COLL_CTL, bits [63:48], RW (12 R313). -/
def COLL_CTL_COLL_TIMEOUT (q : Nat) : Fld := ⟨0x1600008 + q * 0x1000000, 63, 48⟩
/-- GROUP_TIMEOUT of COLL_CTL, bits [47:32], RW (12 R313). -/
def COLL_CTL_GROUP_TIMEOUT (q : Nat) : Fld := ⟨0x1600008 + q * 0x1000000, 47, 32⟩
/-- SUMMANDS of COLL_COUNT, bits [63:0], RO (12 R313). -/
def COLL_COUNT_SUMMANDS (q : Nat) : Fld := ⟨0x1600100 + q * 0x1000000, 63, 0⟩
/-- SENT_BYTES of COLL_COUNT, bits [63:0], RO (12 R313). -/
def COLL_COUNT_SENT_BYTES (q : Nat) : Fld := ⟨0x1600108 + q * 0x1000000, 63, 0⟩
/-- DUPLICATES of COLL_COUNT, bits [63:0], RO (12 R313). -/
def COLL_COUNT_DUPLICATES (q : Nat) : Fld := ⟨0x1600110 + q * 0x1000000, 63, 0⟩
/-- RESENDS of COLL_COUNT, bits [63:0], RO (12 R313). -/
def COLL_COUNT_RESENDS (q : Nat) : Fld := ⟨0x1600118 + q * 0x1000000, 63, 0⟩
/-- VALID of COLL_CH_CFG, bits [24:24], ST (12 R313). -/
def COLL_CH_CFG_VALID (q c : Nat) : Fld := ⟨0x1820000 + q * 0x1000000 + c * 8, 24, 24⟩
/-- PARTITION of COLL_CH_CFG, bits [22:16], ST (12 R313). -/
def COLL_CH_CFG_PARTITION (q c : Nat) : Fld := ⟨0x1820000 + q * 0x1000000 + c * 8, 22, 16⟩
/-- MAX_GROUPS of COLL_CH_CFG, bits [6:0], ST (12 R313). -/
def COLL_CH_CFG_MAX_GROUPS (q c : Nat) : Fld := ⟨0x1820000 + q * 0x1000000 + c * 8, 6, 0⟩
/-- SEED of HUB_CTX_SEED, bits [63:0], RO (12 R313). -/
def HUB_CTX_SEED_SEED (n : Nat) : Fld := ⟨0x580000 + n * 8, 63, 0⟩
/-- HB_TIMEOUT of PCIE_FN_CFG, bits [63:48], RW (14 R328). -/
def PCIE_FN_CFG_HB_TIMEOUT (f : Nat) : Fld := ⟨0x700000 + f * 0x40, 63, 48⟩
/-- HOLD_MIN of PCIE_FN_CFG, bits [47:32], RW (14 R328). -/
def PCIE_FN_CFG_HOLD_MIN (f : Nat) : Fld := ⟨0x700000 + f * 0x40, 47, 32⟩
/-- CE_WEIGHT of PCIE_FN_CFG, bits [31:24], RW (14 R328). -/
def PCIE_FN_CFG_CE_WEIGHT (f : Nat) : Fld := ⟨0x700000 + f * 0x40, 31, 24⟩
/-- BAR2_CTX of PCIE_FN_CFG, bits [23:12], RW (14 R328). -/
def PCIE_FN_CFG_BAR2_CTX (f : Nat) : Fld := ⟨0x700000 + f * 0x40, 23, 12⟩
/-- STATE of PCIE_FN_CFG, bits [2:0], RO (14 R328). -/
def PCIE_FN_CFG_STATE (f : Nat) : Fld := ⟨0x700000 + f * 0x40, 2, 0⟩
/-- BAR2_OFFSET of PCIE_FN_CFG, bits [63:0], RW (14 R328). -/
def PCIE_FN_CFG_BAR2_OFFSET (f : Nat) : Fld := ⟨0x700008 + f * 0x40, 63, 0⟩
/-- LAST_HB of PCIE_FN_CFG, bits [63:0], RO (14 R328). -/
def PCIE_FN_CFG_LAST_HB (f : Nat) : Fld := ⟨0x700010 + f * 0x40, 63, 0⟩
/-- GENERATION of FW_STATUS, bits [63:48], RO (15 R356). -/
def FW_STATUS_GENERATION : Fld := ⟨0xd00000, 63, 48⟩
/-- SVN of FW_STATUS, bits [47:32], RO (15 R356). -/
def FW_STATUS_SVN : Fld := ⟨0xd00000, 47, 32⟩
/-- SVN_FLOOR of FW_STATUS, bits [31:16], RO (15 R356). -/
def FW_STATUS_SVN_FLOOR : Fld := ⟨0xd00000, 31, 16⟩
/-- UPD of FW_STATUS, bits [11:8], RO (15 R356). -/
def FW_STATUS_UPD : Fld := ⟨0xd00000, 11, 8⟩
/-- RUN_SLOT of FW_STATUS, bits [5:5], RO (15 R356). -/
def FW_STATUS_RUN_SLOT : Fld := ⟨0xd00000, 5, 5⟩
/-- BOOT_SLOT of FW_STATUS, bits [4:4], RO (15 R356). -/
def FW_STATUS_BOOT_SLOT : Fld := ⟨0xd00000, 4, 4⟩
/-- DRAINING of FW_STATUS, bits [3:3], RO (15 R356). -/
def FW_STATUS_DRAINING : Fld := ⟨0xd00000, 3, 3⟩
/-- STATE of FW_STATUS, bits [2:0], RO (15 R356). -/
def FW_STATUS_STATE : Fld := ⟨0xd00000, 2, 0⟩
/-- SRC of FW_UPD_SRC, bits [63:0], RW (15 R356). -/
def FW_UPD_SRC_SRC : Fld := ⟨0xd00008, 63, 0⟩
/-- LEN of FW_UPD_CMD, bits [63:32], WO (15 R356). -/
def FW_UPD_CMD_LEN : Fld := ⟨0xd00010, 63, 32⟩
/-- SELFCHECK of FW_UPD_CMD, bits [31:20], WO (15 R356). -/
def FW_UPD_CMD_SELFCHECK : Fld := ⟨0xd00010, 31, 20⟩
/-- CONFIRM_REQ of FW_UPD_CMD, bits [19:19], WO (15 R356). -/
def FW_UPD_CMD_CONFIRM_REQ : Fld := ⟨0xd00010, 19, 19⟩
/-- OP of FW_UPD_CMD, bits [3:0], WO (15 R356). -/
def FW_UPD_CMD_OP : Fld := ⟨0xd00010, 3, 0⟩
/-- TRIAL_LEFT of FW_UPD_RESULT, bits [63:48], RO (15 R356). -/
def FW_UPD_RESULT_TRIAL_LEFT : Fld := ⟨0xd00018, 63, 48⟩
/-- LAST_STATUS of FW_UPD_RESULT, bits [47:40], RO (15 R356). -/
def FW_UPD_RESULT_LAST_STATUS : Fld := ⟨0xd00018, 47, 40⟩
/-- REASON of FW_UPD_RESULT, bits [39:32], RO (15 R356). -/
def FW_UPD_RESULT_REASON : Fld := ⟨0xd00018, 39, 32⟩
/-- GENERATION of QD_JOURNAL_STATUS, bits [63:48], RO (16 R391). -/
def QD_JOURNAL_STATUS_GENERATION (q : Nat) : Fld := ⟨0x1700000 + q * 0x1000000, 63, 48⟩
/-- RECORDS of QD_JOURNAL_STATUS, bits [47:31], RO (16 R391). -/
def QD_JOURNAL_STATUS_RECORDS (q : Nat) : Fld := ⟨0x1700000 + q * 0x1000000, 47, 31⟩
/-- PRE_BLOCKS of QD_JOURNAL_STATUS, bits [30:18], RO (16 R391). -/
def QD_JOURNAL_STATUS_PRE_BLOCKS (q : Nat) : Fld := ⟨0x1700000 + q * 0x1000000, 30, 18⟩
/-- PAR_BLOCKS of QD_JOURNAL_STATUS, bits [17:4], RO (16 R391). -/
def QD_JOURNAL_STATUS_PAR_BLOCKS (q : Nat) : Fld := ⟨0x1700000 + q * 0x1000000, 17, 4⟩
/-- STATE of QD_JOURNAL_STATUS, bits [2:0], RO (16 R391). -/
def QD_JOURNAL_STATUS_STATE (q : Nat) : Fld := ⟨0x1700000 + q * 0x1000000, 2, 0⟩
/-- REPLAYS of QD_JOURNAL_COUNT, bits [63:32], RO (16 R391). -/
def QD_JOURNAL_COUNT_REPLAYS (q : Nat) : Fld := ⟨0x1700008 + q * 0x1000000, 63, 32⟩
/-- WAITS of QD_JOURNAL_COUNT, bits [31:0], RO (16 R391). -/
def QD_JOURNAL_COUNT_WAITS (q : Nat) : Fld := ⟨0x1700008 + q * 0x1000000, 31, 0⟩
/-- SEQ of HUB_STAR_STATUS, bits [63:32], RO (16 R391). -/
def HUB_STAR_STATUS_SEQ : Fld := ⟨0x400, 63, 32⟩
/-- WRITE_PENDING of HUB_STAR_STATUS, bits [31:31], RO (16 R391). -/
def HUB_STAR_STATUS_WRITE_PENDING : Fld := ⟨0x400, 31, 31⟩
/-- TILE_SPARES of HUB_STAR_STATUS, bits [30:26], RO (16 R391). -/
def HUB_STAR_STATUS_TILE_SPARES : Fld := ⟨0x400, 30, 26⟩
/-- TILES_RETIRED of HUB_STAR_STATUS, bits [25:17], RO (16 R391). -/
def HUB_STAR_STATUS_TILES_RETIRED : Fld := ⟨0x400, 25, 17⟩
/-- LLM_SPARES of HUB_STAR_STATUS, bits [16:14], RO (16 R391). -/
def HUB_STAR_STATUS_LLM_SPARES : Fld := ⟨0x400, 16, 14⟩
/-- CH_SPARES of HUB_STAR_STATUS, bits [13:8], RO (16 R391). -/
def HUB_STAR_STATUS_CH_SPARES : Fld := ⟨0x400, 13, 8⟩
/-- FOLDS of HUB_STAR_STATUS, bits [7:0], RO (16 R391). -/
def HUB_STAR_STATUS_FOLDS : Fld := ⟨0x400, 7, 0⟩
/-- ACTION of HUB_UNIT_RESET, bits [23:20], WO (16 R391). -/
def HUB_UNIT_RESET_ACTION : Fld := ⟨0x410, 23, 20⟩
/-- CLASS of HUB_UNIT_RESET, bits [19:16], WO (16 R391). -/
def HUB_UNIT_RESET_CLASS : Fld := ⟨0x410, 19, 16⟩
/-- INDEX of HUB_UNIT_RESET, bits [11:0], WO (16 R391). -/
def HUB_UNIT_RESET_INDEX : Fld := ⟨0x410, 11, 0⟩
/-- ACCUSED of HUB_ACCUSE, bits [63:32], RC (16 R391). -/
def HUB_ACCUSE_ACCUSED : Fld := ⟨0x418, 63, 32⟩
/-- CAUSE of HUB_ACCUSE, bits [31:24], RO (16 R391). -/
def HUB_ACCUSE_CAUSE : Fld := ⟨0x418, 31, 24⟩
/-- LAST_REPORTER of HUB_ACCUSE, bits [23:0], RO (16 R391). -/
def HUB_ACCUSE_LAST_REPORTER : Fld := ⟨0x418, 23, 0⟩
/-- SEQ of HUB_CPER_PTR, bits [63:32], RO (16 R391). -/
def HUB_CPER_PTR_SEQ : Fld := ⟨0x420, 63, 32⟩
/-- INDEX of HUB_CPER_PTR, bits [7:0], RO (16 R391). -/
def HUB_CPER_PTR_INDEX : Fld := ⟨0x420, 7, 0⟩
/-- REPLAYED of HUB_PART_PARALLAX, bits [63:48], RO (16 R391). -/
def HUB_PART_PARALLAX_REPLAYED (p : Nat) : Fld := ⟨0x300268 + p * 0x400, 63, 48⟩
/-- AGREED of HUB_PART_PARALLAX, bits [47:32], RO (16 R391). -/
def HUB_PART_PARALLAX_AGREED (p : Nat) : Fld := ⟨0x300268 + p * 0x400, 47, 32⟩
/-- DISAGREED of HUB_PART_PARALLAX, bits [31:16], RO (16 R391). -/
def HUB_PART_PARALLAX_DISAGREED (p : Nat) : Fld := ⟨0x300268 + p * 0x400, 31, 16⟩
/-- UNCHECKED of HUB_PART_PARALLAX, bits [15:0], RO (16 R391). -/
def HUB_PART_PARALLAX_UNCHECKED (p : Nat) : Fld := ⟨0x300268 + p * 0x400, 15, 0⟩
/-- POWER_W of PWR_STATUS, bits [63:48], RO (17 R411). -/
def PWR_STATUS_POWER_W : Fld := ⟨0xc00000, 63, 48⟩
/-- AVG_W of PWR_STATUS, bits [47:32], RO (17 R411). -/
def PWR_STATUS_AVG_W : Fld := ⟨0xc00000, 47, 32⟩
/-- VIN_QV of PWR_STATUS, bits [31:24], RO (17 R411). -/
def PWR_STATUS_VIN_QV : Fld := ⟨0xc00000, 31, 24⟩
/-- TRIP of PWR_STATUS, bits [19:16], RO (17 R411). -/
def PWR_STATUS_TRIP : Fld := ⟨0xc00000, 19, 16⟩
/-- ALERT_CAUSE of PWR_STATUS, bits [11:8], RO (17 R411). -/
def PWR_STATUS_ALERT_CAUSE : Fld := ⟨0xc00000, 11, 8⟩
/-- FORCED of PWR_STATUS, bits [7:7], RO (17 R411). -/
def PWR_STATUS_FORCED : Fld := ⟨0xc00000, 7, 7⟩
/-- STATE of PWR_STATUS, bits [2:0], RO (17 R411). -/
def PWR_STATUS_STATE : Fld := ⟨0xc00000, 2, 0⟩
/-- LIMIT_W of PWR_LIMIT_CFG, bits [63:48], RW (17 R411). -/
def PWR_LIMIT_CFG_LIMIT_W : Fld := ⟨0xc00008, 63, 48⟩
/-- WINDOW_S of PWR_LIMIT_CFG, bits [47:40], RO (17 R411). -/
def PWR_LIMIT_CFG_WINDOW_S : Fld := ⟨0xc00008, 47, 40⟩
/-- EFF_LIMIT_W of PWR_LIMIT_CFG, bits [31:16], RO (17 R411). -/
def PWR_LIMIT_CFG_EFF_LIMIT_W : Fld := ⟨0xc00008, 31, 16⟩
/-- MAX_STATE of PWR_LIMIT_CFG, bits [2:0], RW (17 R411). -/
def PWR_LIMIT_CFG_MAX_STATE : Fld := ⟨0xc00008, 2, 0⟩
/-- THRESH_MV of PWR_DROOP_CFG, bits [31:24], RW (17 R411). -/
def PWR_DROOP_CFG_THRESH_MV : Fld := ⟨0xc00010, 31, 24⟩
/-- MASKED of PWR_DROOP_CFG, bits [10:0], RO (17 R411). -/
def PWR_DROOP_CFG_MASKED : Fld := ⟨0xc00010, 10, 0⟩
/-- INLET of PWR_THERM, bits [63:54], RO (17 R411). -/
def PWR_THERM_INLET : Fld := ⟨0xc00018, 63, 54⟩
/-- OUTLET of PWR_THERM, bits [53:44], RO (17 R411). -/
def PWR_THERM_OUTLET : Fld := ⟨0xc00018, 53, 44⟩
/-- HOTTEST of PWR_THERM, bits [43:34], RO (17 R411). -/
def PWR_THERM_HOTTEST : Fld := ⟨0xc00018, 43, 34⟩
/-- FLOW_DL of PWR_THERM, bits [23:16], RO (17 R411). -/
def PWR_THERM_FLOW_DL : Fld := ⟨0xc00018, 23, 16⟩
/-- WAKE_AT of PWR_PART_CFG, bits [63:0], RW (17 R411). -/
def PWR_PART_CFG_WAKE_AT (p : Nat) : Fld := ⟨0xc01000 + p * 0x10, 63, 0⟩
/-- WAKE_WAIT of PWR_PART_CFG, bits [63:32], RO (17 R411). -/
def PWR_PART_CFG_WAKE_WAIT (p : Nat) : Fld := ⟨0xc01008 + p * 0x10, 63, 32⟩
/-- STATE of PWR_PART_CFG, bits [6:4], RO (17 R411). -/
def PWR_PART_CFG_STATE (p : Nat) : Fld := ⟨0xc01008 + p * 0x10, 6, 4⟩
/-- MAX_STATE of PWR_PART_CFG, bits [2:0], RW (17 R411). -/
def PWR_PART_CFG_MAX_STATE (p : Nat) : Fld := ⟨0xc01008 + p * 0x10, 2, 0⟩
/-- PARTITION of HUB_RESET, bits [14:8], WO (19 R441). -/
def HUB_RESET_PARTITION : Fld := ⟨0x500, 14, 8⟩
/-- KIND of HUB_RESET, bits [3:0], WO (19 R441). -/
def HUB_RESET_KIND : Fld := ⟨0x500, 3, 0⟩
/-- LAST_RESET of HUB_STRAPS, bits [15:12], RO (19 R441). -/
def HUB_STRAPS_LAST_RESET : Fld := ⟨0x508, 15, 12⟩
/-- JTAG_HOLD of HUB_STRAPS, bits [7:7], RO (19 R441). -/
def HUB_STRAPS_JTAG_HOLD : Fld := ⟨0x508, 7, 7⟩
/-- MGMT_MODE of HUB_STRAPS, bits [6:6], RO (19 R441). -/
def HUB_STRAPS_MGMT_MODE : Fld := ⟨0x508, 6, 6⟩
/-- MGMT_ADDR of HUB_STRAPS, bits [5:3], RO (19 R441). -/
def HUB_STRAPS_MGMT_ADDR : Fld := ⟨0x508, 5, 3⟩
/-- LODESTAR_SEL of HUB_STRAPS, bits [0:0], RO (19 R441). -/
def HUB_STRAPS_LODESTAR_SEL : Fld := ⟨0x508, 0, 0⟩
/-- TILES of HUB_PART_TILES0, bits [63:0], ST (02 R39). -/
def HUB_PART_TILES0_TILES (p : Nat) : Fld := ⟨0x200008 + p * 0x40, 63, 0⟩
/-- TILES of HUB_PART_TILES1, bits [63:0], ST (02 R39). -/
def HUB_PART_TILES1_TILES (p : Nat) : Fld := ⟨0x200010 + p * 0x40, 63, 0⟩
/-- TILES of HUB_PART_TILES2, bits [63:0], ST (02 R39). -/
def HUB_PART_TILES2_TILES (p : Nat) : Fld := ⟨0x200018 + p * 0x40, 63, 0⟩
/-- TILES of HUB_PART_TILES3, bits [63:0], ST (02 R39). -/
def HUB_PART_TILES3_TILES (p : Nat) : Fld := ⟨0x200020 + p * 0x40, 63, 0⟩
/-- SLICES of HUB_PART_LLM, bits [63:0], ST (02 R39). -/
def HUB_PART_LLM_SLICES (p : Nat) : Fld := ⟨0x200028 + p * 0x40, 63, 0⟩
/-- VALID of HUB_SL_GROUP, bits [8:8], RW (11 R284). -/
def HUB_SL_GROUP_VALID (b g : Nat) : Fld := ⟨0x600000 + b * 0x10000 + g * 8, 8, 8⟩
/-- RSET of HUB_SL_GROUP, bits [7:0], RW (11 R284). -/
def HUB_SL_GROUP_RSET (b g : Nat) : Fld := ⟨0x600000 + b * 0x10000 + g * 8, 7, 0⟩
/-- VALID of HUB_SL_MEMBER, bits [8:8], RW (11 R284). -/
def HUB_SL_MEMBER_VALID (b m : Nat) : Fld := ⟨0x608000 + b * 0x10000 + m * 8, 8, 8⟩
/-- RSET of HUB_SL_MEMBER, bits [7:0], RW (11 R284). -/
def HUB_SL_MEMBER_RSET (b m : Nat) : Fld := ⟨0x608000 + b * 0x10000 + m * 8, 7, 0⟩
/-- MODE of HUB_SL_RSET, bits [24:24], RW (11 R284). -/
def HUB_SL_RSET_MODE (b r : Nat) : Fld := ⟨0x60c000 + b * 0x10000 + r * 8, 24, 24⟩
/-- PORTS of HUB_SL_RSET, bits [23:0], RW (11 R284). -/
def HUB_SL_RSET_PORTS (b r : Nat) : Fld := ⟨0x60c000 + b * 0x10000 + r * 8, 23, 0⟩
/-- MAC_PREFIX of HUB_SL_ETH, bits [63:40], RW (11 R284). -/
def HUB_SL_ETH_MAC_PREFIX : Fld := ⟨0x620008, 63, 40⟩
/-- ETHERTYPE of HUB_SL_ETH, bits [15:0], RW (11 R284). -/
def HUB_SL_ETH_ETHERTYPE : Fld := ⟨0x620008, 15, 0⟩
/-- CQ_SHADOW of CTX_PAGE, bits [63:0], RW (14 R328). -/
def CTX_PAGE_CQ_SHADOW (n : Nat) : Fld := ⟨0x100000028 + n * 0x10000, 63, 0⟩
/-- ITR_US of CTX_PAGE, bits [63:48], RW (14 R328). -/
def CTX_PAGE_ITR_US (n : Nat) : Fld := ⟨0x100000030 + n * 0x10000, 63, 48⟩
/-- ITR_COUNT of CTX_PAGE, bits [47:32], RW (14 R328). -/
def CTX_PAGE_ITR_COUNT (n : Nat) : Fld := ⟨0x100000030 + n * 0x10000, 47, 32⟩
/-- IRQ_EN of CTX_PAGE, bits [0:0], RW (14 R328). -/
def CTX_PAGE_IRQ_EN (n : Nat) : Fld := ⟨0x100000030 + n * 0x10000, 0, 0⟩
/-- HEARTBEAT of CTX_PAGE, bits [63:0], WO (14 R328). -/
def CTX_PAGE_HEARTBEAT (n : Nat) : Fld := ⟨0x100000038 + n * 0x10000, 63, 0⟩
/-- HANDOVER of CTX_PAGE, bits [1:0], WO (14 R328). -/
def CTX_PAGE_HANDOVER (n : Nat) : Fld := ⟨0x100000040 + n * 0x10000, 1, 0⟩
/-- FUNCTION of PCIE_FN_CMD, bits [15:8], WO (14 R328). -/
def PCIE_FN_CMD_FUNCTION : Fld := ⟨0x704000, 15, 8⟩
/-- HANDOVER of PCIE_FN_CMD, bits [1:0], WO (14 R328). -/
def PCIE_FN_CMD_HANDOVER : Fld := ⟨0x704000, 1, 0⟩
/-- IF_SEL of FW_IF, bits [15:0], RW (15 R356). -/
def FW_IF_IF_SEL (f : Nat) : Fld := ⟨0x200000000 + f * 8, 15, 0⟩
/-- EN of FW_TRACE_EN, bits [63:0], RW (15 R356). -/
def FW_TRACE_EN_EN (k : Nat) : Fld := ⟨0xd00040 + k * 8, 63, 0⟩
/-- SEQ of FW_LOG_PTR, bits [63:32], RO (15 R356). -/
def FW_LOG_PTR_SEQ : Fld := ⟨0xd00060, 63, 32⟩
/-- INDEX of FW_LOG_PTR, bits [9:0], RO (15 R356). -/
def FW_LOG_PTR_INDEX : Fld := ⟨0xd00060, 9, 0⟩
/-- UJ of PWR_RAIL_ENERGY, bits [63:0], RO (17 R411). -/
def PWR_RAIL_ENERGY_UJ (r : Nat) : Fld := ⟨0xc00100 + r * 8, 63, 0⟩
/-- UJ of PWR_PART_ENERGY, bits [63:0], RO (17 R411). -/
def PWR_PART_ENERGY_UJ (p : Nat) : Fld := ⟨0xc02000 + p * 8, 63, 0⟩
/-- UJ of PWR_UNATTRIB, bits [63:0], RO (17 R411). -/
def PWR_UNATTRIB_UJ : Fld := ⟨0xc02400, 63, 0⟩
/-- STAGE_FIRST of EPH_STATUS, bits [59:48], RO (18 R421). -/
def EPH_STATUS_STAGE_FIRST : Fld := ⟨0xf00000, 59, 48⟩
/-- STAGED of EPH_STATUS, bits [44:32], RO (18 R421). -/
def EPH_STATUS_STAGED : Fld := ⟨0xf00000, 44, 32⟩
/-- BAD_SECTORS of EPH_STATUS, bits [31:24], RO (18 R421). -/
def EPH_STATUS_BAD_SECTORS : Fld := ⟨0xf00000, 31, 24⟩
/-- NOTE of EPH_DROPPED, bits [63:48], RC (18 R421). -/
def EPH_DROPPED_NOTE : Fld := ⟨0xf00008, 63, 48⟩
/-- WARNING of EPH_DROPPED, bits [47:32], RC (18 R421). -/
def EPH_DROPPED_WARNING : Fld := ⟨0xf00008, 47, 32⟩
/-- FAULT of EPH_DROPPED, bits [31:16], RC (18 R421). -/
def EPH_DROPPED_FAULT : Fld := ⟨0xf00008, 31, 16⟩
/-- FATAL_LOST of EPH_DROPPED, bits [15:0], RC (18 R421). -/
def EPH_DROPPED_FATAL_LOST : Fld := ⟨0xf00008, 15, 0⟩
/-- WRAPS of EPH_GEN_PTR, bits [63:32], RO (18 R421). -/
def EPH_GEN_PTR_WRAPS : Fld := ⟨0xf00010, 63, 32⟩
/-- HEAD of EPH_GEN_PTR, bits [18:0], RO (18 R421). -/
def EPH_GEN_PTR_HEAD : Fld := ⟨0xf00010, 18, 0⟩
/-- WRAPS of EPH_KEEP_PTR, bits [63:32], RO (18 R421). -/
def EPH_KEEP_PTR_WRAPS : Fld := ⟨0xf00018, 63, 32⟩
/-- HEAD of EPH_KEEP_PTR, bits [16:0], RO (18 R421). -/
def EPH_KEEP_PTR_HEAD : Fld := ⟨0xf00018, 16, 0⟩
/-- SECTOR of EPH_PAGE, bits [7:0], RW (18 R421). -/
def EPH_PAGE_SECTOR : Fld := ⟨0xf00020, 7, 0⟩
/-- OP_TIME of EPH_TIME, bits [63:24], RO (18 R421). -/
def EPH_TIME_OP_TIME : Fld := ⟨0xf00028, 63, 24⟩
/-- POWER_CYCLES of EPH_CYCLES, bits [31:0], RO (18 R421). -/
def EPH_CYCLES_POWER_CYCLES : Fld := ⟨0xf00030, 31, 0⟩
/-- RESUME of ECL_CTL, bits [1:1], WO (18 R427). -/
def ECL_CTL_RESUME : Fld := ⟨0xf80000, 1, 1⟩
/-- FREEZE of ECL_CTL, bits [0:0], WO (18 R427). -/
def ECL_CTL_FREEZE : Fld := ⟨0xf80000, 0, 0⟩
/-- TRIG_CODE of ECL_CFG, bits [31:16], RW (18 R427). -/
def ECL_CFG_TRIG_CODE : Fld := ⟨0xf80008, 31, 16⟩
/-- TRIG_SEV of ECL_CFG, bits [15:12], RW (18 R427). -/
def ECL_CFG_TRIG_SEV : Fld := ⟨0xf80008, 15, 12⟩
/-- TRIG_EN of ECL_CFG, bits [11:11], RW (18 R427). -/
def ECL_CFG_TRIG_EN : Fld := ⟨0xf80008, 11, 11⟩
/-- DEPOSIT_EN of ECL_CFG, bits [2:2], RW (18 R427). -/
def ECL_CFG_DEPOSIT_EN : Fld := ⟨0xf80008, 2, 2⟩
/-- DRIVE_PIN of ECL_CFG, bits [1:1], RW (18 R427). -/
def ECL_CFG_DRIVE_PIN : Fld := ⟨0xf80008, 1, 1⟩
/-- PIN_EN of ECL_CFG, bits [0:0], RW (18 R427). -/
def ECL_CFG_PIN_EN : Fld := ⟨0xf80008, 0, 0⟩
/-- AT of ECL_FREEZE_AT, bits [63:0], RW (18 R427). -/
def ECL_FREEZE_AT_AT : Fld := ⟨0xf80010, 63, 0⟩
/-- FREEZES of ECL_STATUS, bits [63:48], RO (18 R427). -/
def ECL_STATUS_FREEZES : Fld := ⟨0xf80018, 63, 48⟩
/-- SOURCE of ECL_STATUS, bits [35:32], RO (18 R427). -/
def ECL_STATUS_SOURCE : Fld := ⟨0xf80018, 35, 32⟩
/-- DEPOSITED of ECL_STATUS, bits [1:1], RO (18 R427). -/
def ECL_STATUS_DEPOSITED : Fld := ⟨0xf80018, 1, 1⟩
/-- FROZEN of ECL_STATUS, bits [0:0], RO (18 R427). -/
def ECL_STATUS_FROZEN : Fld := ⟨0xf80018, 0, 0⟩
/-- BEAT of ECL_BEAT, bits [63:0], RO (18 R427). -/
def ECL_BEAT_BEAT : Fld := ⟨0xf80020, 63, 0⟩
/-- NS of ECL_FROZEN_NS, bits [63:0], RO (18 R427). -/
def ECL_FROZEN_NS_NS : Fld := ⟨0xf80028, 63, 0⟩
/-- ADDR of ECL_ADDR, bits [63:0], RW (18 R427). -/
def ECL_ADDR_ADDR : Fld := ⟨0xf80030, 63, 0⟩

/-- The registers of a queue of the common queue layout (HALO_QP, ORR_QP, COLL_CH and the command ring): four
consecutive registers at `base` (R199, R231, R287, R332). -/
def QP_SQ_BASE (base : Nat) : Fld := ⟨base, 63, 0⟩
def QP_CQ_BASE (base : Nat) : Fld := ⟨base + 0x8, 63, 0⟩
def QP_OWNER_CTX (base : Nat) : Fld := ⟨base + 0x10, 43, 32⟩
def QP_SIZE_LOG (base : Nat) : Fld := ⟨base + 0x10, 28, 24⟩
def QP_STOP_STATUS (base : Nat) : Fld := ⟨base + 0x10, 23, 16⟩
def QP_STATE (base : Nat) : Fld := ⟨base + 0x10, 3, 2⟩
def QP_EN (base : Nat) : Fld := ⟨base + 0x10, 0, 0⟩
def QP_SQ_HEAD (base : Nat) : Fld := ⟨base + 0x18, 63, 48⟩
def QP_SQ_TAIL (base : Nat) : Fld := ⟨base + 0x18, 47, 32⟩
def QP_CQ_HEAD (base : Nat) : Fld := ⟨base + 0x18, 31, 16⟩
def QP_CQ_TAIL (base : Nat) : Fld := ⟨base + 0x18, 15, 0⟩

/-- Part 1 of the table of registers: name, base offset, the strides and counts of its instances, and its defined fields. -/
def regTable1 : List RegRow := [
  ⟨"HUB_BAR0_WIN", 0x100, 0, 1, 0, 1, [⟨31, 28, .rw, 3, false⟩]⟩,
  ⟨"HUB_PART_CFG", 0x200000, 0x40, 128, 0, 1, [⟨47, 40, .ro, 0, false⟩, ⟨39, 32, .ro, 0, false⟩, ⟨31, 23, .ro, 0, false⟩, ⟨1, 1, .ro, 0, false⟩, ⟨0, 0, .st, 0, false⟩]⟩,
  ⟨"CTX", 0x400000, 0x40, 4096, 0, 1, [⟨47, 40, .ro, 0, false⟩, ⟨39, 36, .ro, 0, false⟩, ⟨35, 34, .ro, 0, false⟩, ⟨23, 16, .ro, 0, false⟩, ⟨6, 0, .ro, 0, false⟩]⟩,
  ⟨"CTX", 0x400008, 0x40, 4096, 0, 1, [⟨51, 32, .ro, 0, false⟩, ⟨31, 31, .ro, 0, false⟩, ⟨30, 30, .ro, 0, false⟩, ⟨15, 0, .ro, 0, false⟩]⟩,
  ⟨"CTX", 0x400010, 0x40, 4096, 0, 1, [⟨39, 32, .ro, 0, false⟩, ⟨31, 16, .ro, 0, false⟩]⟩,
  ⟨"CTX", 0x400018, 0x40, 4096, 0, 1, [⟨31, 0, .ro, 0, false⟩]⟩,
  ⟨"CFG_CAPS", 0x50000000, 0, 1, 0, 1, [⟨31, 24, .ro, 1, false⟩, ⟨23, 16, .ro, 1, false⟩, ⟨15, 0, .ro, 0, false⟩]⟩,
  ⟨"CFG_CMD", 0x50000008, 0, 1, 0, 1, [⟨63, 32, .wo, 0, true⟩, ⟨30, 24, .wo, 0, true⟩, ⟨23, 16, .wo, 0, true⟩, ⟨11, 11, .wo, 0, true⟩, ⟨10, 8, .wo, 0, true⟩, ⟨3, 0, .wo, 0, true⟩]⟩,
  ⟨"CFG_STATUS", 0x50000010, 0, 1, 0, 1, [⟨63, 48, .ro, 0, false⟩, ⟨47, 40, .ro, 0, false⟩, ⟨35, 27, .ro, 0, false⟩, ⟨26, 26, .ro, 0, false⟩, ⟨25, 25, .ro, 0, false⟩, ⟨24, 24, .ro, 0, false⟩, ⟨23, 23, .ro, 0, false⟩, ⟨22, 22, .ro, 0, false⟩, ⟨21, 20, .ro, 0, false⟩, ⟨10, 8, .ro, 0, false⟩, ⟨7, 7, .ro, 0, false⟩, ⟨6, 4, .ro, 0, false⟩, ⟨3, 3, .ro, 0, false⟩, ⟨2, 0, .ro, 0, false⟩]⟩,
  ⟨"CFG_CHECK_FIRST", 0x50000018, 0, 1, 0, 1, [⟨63, 48, .ro, 0, false⟩, ⟨47, 40, .ro, 0, false⟩, ⟨31, 0, .ro, 0, false⟩]⟩,
  ⟨"TILE_QSAT_CTL", 0x10000400, 0x10000, 272, 0, 1, [⟨51, 32, .rw, 0, true⟩, ⟨31, 12, .rw, 0x400, true⟩, ⟨11, 8, .rw, 4, true⟩, ⟨0, 0, .rw, 1, true⟩]⟩,
  ⟨"TILE_QSAT_COUNT", 0x10000408, 0x10000, 272, 0, 1, [⟨63, 0, .ro, 0, false⟩]⟩,
  ⟨"TILE_QSAT_COUNT", 0x10000410, 0x10000, 272, 0, 1, [⟨63, 0, .ro, 0, false⟩]⟩,
  ⟨"TILE_QSAT_COUNT", 0x10000418, 0x10000, 272, 0, 1, [⟨63, 0, .ro, 0, false⟩]⟩,
  ⟨"TILE_QSAT_COUNT", 0x10000420, 0x10000, 272, 0, 1, [⟨63, 0, .ro, 0, false⟩]⟩,
  ⟨"TILE_QSAT_STATUS", 0x10000428, 0x10000, 272, 0, 1, [⟨63, 48, .rc, 0, false⟩, ⟨47, 24, .ro, 0, false⟩, ⟨4, 0, .ro, 0, false⟩]⟩,
  ⟨"TILE_STATUS", 0x10000000, 0x10000, 272, 0, 1, [⟨63, 48, .ro, 0, false⟩, ⟨47, 40, .ro, 0, false⟩, ⟨31, 24, .ro, 0, false⟩, ⟨23, 17, .ro, 0, false⟩, ⟨16, 16, .ro, 0, false⟩, ⟨11, 8, .ro, 5, false⟩]⟩,
  ⟨"TILE_PC", 0x10000008, 0x10000, 272, 0, 1, [⟨63, 32, .ro, 0, false⟩, ⟨22, 0, .ro, 0, false⟩]⟩,
  ⟨"TILE_CHECK_COUNT", 0x10000100, 0x10000, 272, 0, 1, [⟨63, 48, .ro, 0, false⟩, ⟨47, 32, .ro, 0, false⟩, ⟨31, 16, .ro, 0, false⟩, ⟨15, 0, .ro, 0, false⟩]⟩,
  ⟨"TILE_SIGNAL", 0x10000200, 0x10000, 272, 8, 16, [⟨31, 0, .ro, 0, false⟩]⟩]

/-- Part 2 of the table of registers: name, base offset, the strides and counts of its instances, and its defined fields. -/
def regTable2 : List RegRow := [
  ⟨"HUB_WL_BASE", 0x300000, 0x400, 128, 0x40, 8, [⟨63, 0, .rw, 0, false⟩]⟩,
  ⟨"HUB_WL_CTL", 0x300008, 0x400, 128, 0x40, 8, [⟨43, 32, .rw, 0, false⟩, ⟨28, 24, .rw, 6, false⟩, ⟨23, 16, .ro, 0, false⟩, ⟨3, 2, .ro, 0, false⟩, ⟨1, 1, .wo, 0, true⟩, ⟨0, 0, .rw, 0, true⟩]⟩,
  ⟨"HUB_WL_PTR", 0x300010, 0x400, 128, 0x40, 8, [⟨63, 48, .ro, 0, false⟩, ⟨47, 32, .rw, 0, true⟩]⟩,
  ⟨"HUB_WL_SEQ", 0x300018, 0x400, 128, 0x40, 8, [⟨47, 0, .rw, 0, false⟩]⟩,
  ⟨"HUB_STREAM_CNT", 0x340000, 0x10, 1024, 0, 1, [⟨63, 62, .ro, 0, false⟩, ⟨47, 32, .ro, 0, false⟩, ⟨31, 16, .ro, 0, false⟩, ⟨15, 0, .ro, 0, false⟩]⟩,
  ⟨"HUB_PART_RUN", 0x300200, 0x400, 128, 0, 1, [⟨63, 48, .rw, 0x2710, false⟩, ⟨31, 0, .ro, 0, false⟩]⟩,
  ⟨"HUB_MER_CTL", 0x300208, 0x400, 128, 0, 1, [⟨63, 48, .rw, 0x64, false⟩, ⟨47, 32, .rw, 0x3e8, false⟩, ⟨25, 16, .rw, 0, false⟩, ⟨9, 0, .rw, 0, false⟩]⟩,
  ⟨"HUB_MER_JOB", 0x300210, 0x400, 128, 0, 1, [⟨63, 32, .rw, 0, false⟩, ⟨31, 31, .rw, 0, false⟩, ⟨28, 24, .rw, 0, false⟩, ⟨23, 16, .rc, 0, false⟩, ⟨15, 0, .rw, 0, false⟩]⟩,
  ⟨"HUB_PACE_CFG", 0x200, 0, 1, 0, 1, [⟨8, 0, .rw, 0x180, true⟩]⟩,
  ⟨"HUB_PACE_STATUS", 0x208, 0, 1, 0, 1, [⟨56, 48, .ro, 0x180, false⟩, ⟨35, 32, .ro, 0, false⟩, ⟨31, 0, .ro, 0, false⟩]⟩,
  ⟨"HUB_BEAT", 0x210, 0, 1, 0, 1, [⟨63, 0, .ro, 0, false⟩]⟩,
  ⟨"HUB_HELD", 0x218, 0, 1, 0, 1, [⟨63, 0, .ro, 0, false⟩]⟩,
  ⟨"HUB_PART_TIMING", 0x300240, 0x400, 128, 0, 1, [⟨63, 32, .ro, 0, false⟩, ⟨31, 0, .ro, 0, false⟩]⟩,
  ⟨"HUB_PART_TIMING", 0x300248, 0x400, 128, 0, 1, [⟨63, 32, .ro, 0, false⟩, ⟨31, 0, .ro, 0, false⟩]⟩,
  ⟨"HBM_STACK_STATUS", 0x20000000, 0x100000, 12, 0, 1, [⟨57, 48, .ro, 0, false⟩, ⟨47, 32, .ro, 0, false⟩, ⟨29, 26, .ro, 0, false⟩, ⟨25, 24, .ro, 0, false⟩, ⟨23, 18, .ro, 0, false⟩, ⟨15, 8, .ro, 0, false⟩, ⟨3, 3, .ro, 0, false⟩, ⟨2, 0, .ro, 0, false⟩]⟩,
  ⟨"HBM_THERM_CTL", 0x20000010, 0x100000, 12, 0, 1, [⟨63, 48, .rw, 0xc8, false⟩, ⟨23, 16, .rw, 0x19, false⟩, ⟨15, 8, .rw, 0x32, false⟩, ⟨7, 0, .rw, 0x32, false⟩]⟩,
  ⟨"HBM_CH_STATUS", 0x20001000, 0x100000, 12, 0x40, 34, [⟨63, 48, .ro, 0, false⟩, ⟨47, 32, .ro, 0, false⟩, ⟨20, 16, .ro, 0, false⟩, ⟨15, 8, .ro, 0, false⟩, ⟨2, 0, .ro, 0, false⟩]⟩,
  ⟨"HBM_CH_CMD", 0x20001008, 0x100000, 12, 0x40, 34, [⟨1, 0, .wo, 0, true⟩]⟩,
  ⟨"HBM_EXER_CTL", 0x20004000, 0x100000, 12, 0, 1, [⟨37, 32, .rw, 0, false⟩, ⟨31, 16, .rw, 1, false⟩, ⟨11, 8, .rw, 0, false⟩, ⟨5, 4, .rw, 0, false⟩, ⟨1, 1, .wo, 0, true⟩, ⟨0, 0, .wo, 0, true⟩]⟩,
  ⟨"HBM_EXER_RESULT", 0x20004008, 0x100000, 12, 0, 1, [⟨63, 32, .ro, 0, false⟩, ⟨31, 24, .ro, 0, false⟩, ⟨23, 16, .ro, 0, false⟩, ⟨15, 8, .ro, 0, false⟩, ⟨1, 1, .ro, 0, false⟩, ⟨0, 0, .ro, 0, false⟩]⟩]

/-- Part 3 of the table of registers: name, base offset, the strides and counts of its instances, and its defined fields. -/
def regTable3 : List RegRow := [
  ⟨"LLM_SLICE_STATUS", 0x1400000, 0x1000000, 4, 0x100, 17, [⟨63, 48, .ro, 0, false⟩, ⟨47, 32, .ro, 0, false⟩, ⟨24, 18, .ro, 0, false⟩, ⟨11, 8, .ro, 0, false⟩, ⟨2, 0, .ro, 0, false⟩]⟩,
  ⟨"LLM_OP", 0x1400008, 0x1000000, 4, 0x100, 17, [⟨15, 8, .ro, 0, false⟩, ⟨1, 0, .rw, 0, true⟩]⟩,
  ⟨"LLM_HITS", 0x1400010, 0x1000000, 4, 0x100, 17, [⟨63, 32, .ro, 0, false⟩, ⟨31, 0, .ro, 0, false⟩]⟩,
  ⟨"HUB_CTX_USE", 0x500000, 0x40, 4096, 0, 1, [⟨63, 32, .ro, 0, false⟩, ⟨31, 0, .ro, 0, false⟩]⟩,
  ⟨"HUB_CTX_USE", 0x500008, 0x40, 4096, 0, 1, [⟨63, 32, .ro, 0, false⟩, ⟨31, 0, .ro, 0, false⟩]⟩,
  ⟨"HUB_CTX_USE", 0x500010, 0x40, 4096, 0, 1, [⟨63, 32, .ro, 0, false⟩, ⟨31, 0, .ro, 0, false⟩]⟩,
  ⟨"HUB_CTX_USE", 0x500018, 0x40, 4096, 0, 1, [⟨63, 32, .ro, 0, false⟩, ⟨31, 0, .ro, 0, false⟩]⟩,
  ⟨"HUB_CTX_USE", 0x500020, 0x40, 4096, 0, 1, [⟨63, 32, .ro, 0, false⟩]⟩,
  ⟨"DEEP_STATUS", 0x30000000, 0, 1, 0, 1, [⟨63, 48, .ro, 0, false⟩, ⟨47, 40, .ro, 0, false⟩, ⟨39, 32, .ro, 0, false⟩, ⟨15, 15, .ro, 0, false⟩, ⟨14, 14, .ro, 0, false⟩, ⟨2, 0, .ro, 0, false⟩]⟩,
  ⟨"DEEP_GOV_CFG", 0x30800000, 0, 1, 0, 1, [⟨47, 40, .st, 8, false⟩, ⟨9, 0, .st, 0x3e8, false⟩]⟩,
  ⟨"DEEP_GOV_STATUS", 0x30000010, 0, 1, 0, 1, [⟨63, 32, .ro, 0, false⟩, ⟨31, 24, .ro, 0, false⟩, ⟨15, 8, .ro, 0x64, false⟩, ⟨0, 0, .ro, 0, false⟩]⟩,
  ⟨"DEEP_LIFE", 0x30000018, 0, 1, 0, 1, [⟨63, 0, .ro, 0, false⟩]⟩,
  ⟨"DEEP_LIFE", 0x30000020, 0, 1, 0, 1, [⟨63, 0, .ro, 0, false⟩]⟩,
  ⟨"HALO_STATUS", 0x20020000, 0x100000, 12, 0, 1, [⟨63, 48, .ro, 0, false⟩, ⟨47, 39, .ro, 0, false⟩, ⟨38, 36, .ro, 0, false⟩, ⟨31, 0, .ro, 0, false⟩]⟩,
  ⟨"HALO_COUNT", 0x20020100, 0x100000, 12, 0, 1, [⟨63, 0, .ro, 0, false⟩]⟩,
  ⟨"HALO_COUNT", 0x20020108, 0x100000, 12, 0, 1, [⟨63, 0, .ro, 0, false⟩]⟩,
  ⟨"HALO_COUNT", 0x20020110, 0x100000, 12, 0, 1, [⟨63, 0, .ro, 0, false⟩]⟩,
  ⟨"HALO_COUNT", 0x20020118, 0x100000, 12, 0, 1, [⟨63, 0, .ro, 0, false⟩]⟩,
  ⟨"HALO_COUNT", 0x20020120, 0x100000, 12, 0, 1, [⟨63, 0, .ro, 0, false⟩]⟩,
  ⟨"HALO_COUNT", 0x20020128, 0x100000, 12, 0, 1, [⟨63, 0, .ro, 0, false⟩]⟩]

/-- Part 4 of the table of registers: name, base offset, the strides and counts of its instances, and its defined fields. -/
def regTable4 : List RegRow := [
  ⟨"HALO_QP_CFG", 0x20080000, 0x100000, 12, 8, 32, [⟨23, 23, .st, 0, false⟩, ⟨22, 16, .st, 0, false⟩, ⟨11, 8, .st, 0, false⟩, ⟨1, 1, .st, 0, false⟩, ⟨0, 0, .st, 0, false⟩]⟩,
  ⟨"HALO_QP", 0x20021000, 0x100000, 12, 0x40, 32, [⟨63, 0, .rw, 0, false⟩]⟩,
  ⟨"HALO_QP", 0x20021008, 0x100000, 12, 0x40, 32, [⟨63, 0, .rw, 0, false⟩]⟩,
  ⟨"HALO_QP", 0x20021010, 0x100000, 12, 0x40, 32, [⟨43, 32, .rw, 0, false⟩, ⟨28, 24, .rw, 6, false⟩, ⟨23, 16, .ro, 0, false⟩, ⟨3, 2, .ro, 0, false⟩, ⟨1, 1, .wo, 0, true⟩, ⟨0, 0, .rw, 0, true⟩]⟩,
  ⟨"HALO_QP", 0x20021018, 0x100000, 12, 0x40, 32, [⟨63, 48, .ro, 0, false⟩, ⟨47, 32, .rw, 0, true⟩, ⟨31, 16, .rw, 0, true⟩, ⟨15, 0, .ro, 0, false⟩]⟩,
  ⟨"ORR_STATUS", 0x1500000, 0x1000000, 4, 0, 1, [⟨63, 48, .ro, 0, false⟩, ⟨47, 38, .ro, 0, false⟩, ⟨37, 35, .ro, 0, false⟩, ⟨15, 0, .ro, 0, false⟩]⟩,
  ⟨"ORR_QP", 0x1501000, 0x1000000, 4, 0x40, 16, [⟨63, 0, .rw, 0, false⟩]⟩,
  ⟨"ORR_QP", 0x1501008, 0x1000000, 4, 0x40, 16, [⟨63, 0, .rw, 0, false⟩]⟩,
  ⟨"ORR_QP", 0x1501010, 0x1000000, 4, 0x40, 16, [⟨43, 32, .rw, 0, false⟩, ⟨28, 24, .rw, 6, false⟩, ⟨23, 16, .ro, 0, false⟩, ⟨3, 2, .ro, 0, false⟩, ⟨1, 1, .wo, 0, true⟩, ⟨0, 0, .rw, 0, true⟩]⟩,
  ⟨"ORR_QP", 0x1501018, 0x1000000, 4, 0x40, 16, [⟨63, 48, .ro, 0, false⟩, ⟨47, 32, .rw, 0, true⟩, ⟨31, 16, .rw, 0, true⟩, ⟨15, 0, .ro, 0, false⟩]⟩,
  ⟨"ORR_SHARD", 0x1510000, 0x1000000, 4, 0x10, 512, [⟨63, 48, .ro, 0, false⟩, ⟨47, 36, .ro, 0, false⟩, ⟨35, 29, .ro, 0, false⟩, ⟨28, 25, .ro, 0, false⟩, ⟨3, 3, .ro, 0, false⟩, ⟨2, 2, .ro, 0, false⟩, ⟨1, 1, .ro, 0, false⟩, ⟨0, 0, .ro, 0, false⟩]⟩,
  ⟨"ORR_SHARD", 0x1510008, 0x1000000, 4, 0x10, 512, [⟨63, 32, .ro, 0, false⟩, ⟨31, 0, .ro, 0, false⟩]⟩,
  ⟨"ORR_PART_CFG", 0x1810000, 0x1000000, 4, 8, 128, [⟨48, 48, .st, 0, false⟩, ⟨47, 38, .st, 0, false⟩, ⟨37, 28, .st, 0, false⟩, ⟨27, 24, .st, 0, false⟩, ⟨23, 16, .st, 0, false⟩, ⟨15, 11, .st, 0, false⟩]⟩,
  ⟨"HUB_PART_COMMIT", 0x300250, 0x400, 128, 0, 1, [⟨63, 32, .rw, 0x7d0, false⟩, ⟨31, 24, .ro, 0, false⟩, ⟨23, 16, .ro, 0, false⟩, ⟨4, 2, .ro, 0, false⟩, ⟨1, 1, .ro, 0, false⟩, ⟨0, 0, .ro, 0, false⟩]⟩,
  ⟨"HUB_PART_COMMIT", 0x300258, 0x400, 128, 0, 1, [⟨63, 0, .ro, 0, false⟩]⟩,
  ⟨"HUB_PART_COMMIT", 0x300260, 0x400, 128, 0, 1, [⟨63, 32, .ro, 0, false⟩, ⟨31, 0, .ro, 0, false⟩]⟩,
  ⟨"SL_STATUS", 0x40000000, 0x10000, 32, 0, 1, [⟨63, 48, .ro, 0, false⟩, ⟨47, 44, .ro, 0, false⟩, ⟨43, 40, .ro, 0, false⟩, ⟨39, 37, .ro, 0, false⟩, ⟨36, 36, .ro, 0, false⟩, ⟨31, 8, .ro, 0, false⟩, ⟨3, 0, .ro, 0, false⟩]⟩,
  ⟨"SL_ERR", 0x40000008, 0x10000, 32, 0, 1, [⟨63, 48, .ro, 0, false⟩, ⟨47, 32, .ro, 0, false⟩, ⟨31, 24, .ro, 0, false⟩]⟩,
  ⟨"SL_CNT", 0x40000010, 0x10000, 32, 0, 1, [⟨63, 32, .ro, 0, false⟩, ⟨31, 0, .ro, 0, false⟩]⟩,
  ⟨"SL_CNT", 0x40000018, 0x10000, 32, 0, 1, [⟨63, 32, .ro, 0, false⟩, ⟨31, 0, .ro, 0, false⟩]⟩]

/-- Part 5 of the table of registers: name, base offset, the strides and counts of its instances, and its defined fields. -/
def regTable5 : List RegRow := [
  ⟨"SL_CMD", 0x40000020, 0x10000, 32, 0, 1, [⟨2, 0, .wo, 0, true⟩]⟩,
  ⟨"SL_CFG", 0x4000c000, 0x10000, 32, 0, 1, [⟨51, 40, .st, 0, false⟩, ⟨39, 39, .st, 0, false⟩, ⟨38, 23, .st, 0, false⟩, ⟨22, 20, .st, 0, false⟩, ⟨19, 17, .st, 0, false⟩, ⟨16, 16, .st, 0, false⟩, ⟨15, 15, .st, 1, false⟩, ⟨14, 8, .st, 0, false⟩, ⟨2, 0, .st, 1, false⟩]⟩,
  ⟨"HUB_SL_RCTL", 0x620000, 0, 1, 0, 1, [⟨63, 48, .rw, 0x1f4, false⟩, ⟨39, 16, .rw, 0, false⟩, ⟨2, 2, .ro, 0, false⟩, ⟨1, 1, .wo, 0, true⟩, ⟨0, 0, .ro, 0, false⟩]⟩,
  ⟨"HUB_CONST_STATUS", 0x300, 0, 1, 0, 1, [⟨63, 56, .ro, 0, false⟩, ⟨55, 53, .ro, 0, false⟩, ⟨52, 50, .ro, 0, false⟩, ⟨49, 49, .ro, 0, false⟩, ⟨48, 48, .ro, 0, false⟩, ⟨44, 32, .ro, 0, false⟩, ⟨31, 16, .ro, 0, false⟩, ⟨15, 0, .ro, 0, false⟩]⟩,
  ⟨"HUB_TIME", 0x308, 0, 1, 0, 1, [⟨63, 0, .ro, 0, false⟩]⟩,
  ⟨"COLL_STATUS", 0x1600000, 0x1000000, 4, 0, 1, [⟨63, 48, .ro, 0, false⟩, ⟨47, 39, .ro, 0, false⟩, ⟨38, 36, .ro, 0, false⟩, ⟨15, 0, .ro, 0, false⟩]⟩,
  ⟨"COLL_CTL", 0x1600008, 0x1000000, 4, 0, 1, [⟨63, 48, .rw, 0x3e8, false⟩, ⟨47, 32, .rw, 0x3e8, false⟩]⟩,
  ⟨"COLL_COUNT", 0x1600100, 0x1000000, 4, 0, 1, [⟨63, 0, .ro, 0, false⟩]⟩,
  ⟨"COLL_COUNT", 0x1600108, 0x1000000, 4, 0, 1, [⟨63, 0, .ro, 0, false⟩]⟩,
  ⟨"COLL_COUNT", 0x1600110, 0x1000000, 4, 0, 1, [⟨63, 0, .ro, 0, false⟩]⟩,
  ⟨"COLL_COUNT", 0x1600118, 0x1000000, 4, 0, 1, [⟨63, 0, .ro, 0, false⟩]⟩,
  ⟨"COLL_CH_CFG", 0x1820000, 0x1000000, 4, 8, 16, [⟨24, 24, .st, 0, false⟩, ⟨22, 16, .st, 0, false⟩, ⟨6, 0, .st, 0, false⟩]⟩,
  ⟨"HUB_CTX_SEED", 0x580000, 8, 4096, 0, 1, [⟨63, 0, .ro, 0, false⟩]⟩,
  ⟨"PCIE_FN_CFG", 0x700000, 0x40, 256, 0, 1, [⟨63, 48, .rw, 0x3e8, false⟩, ⟨47, 32, .rw, 0x5a0, false⟩, ⟨31, 24, .rw, 0x10, false⟩, ⟨23, 12, .rw, 0, false⟩, ⟨2, 0, .ro, 0, false⟩]⟩,
  ⟨"PCIE_FN_CFG", 0x700008, 0x40, 256, 0, 1, [⟨63, 0, .rw, 0, false⟩]⟩,
  ⟨"PCIE_FN_CFG", 0x700010, 0x40, 256, 0, 1, [⟨63, 0, .ro, 0, false⟩]⟩,
  ⟨"FW_STATUS", 0xd00000, 0, 1, 0, 1, [⟨63, 48, .ro, 0, false⟩, ⟨47, 32, .ro, 0, false⟩, ⟨31, 16, .ro, 0, false⟩, ⟨11, 8, .ro, 0, false⟩, ⟨5, 5, .ro, 0, false⟩, ⟨4, 4, .ro, 0, false⟩, ⟨3, 3, .ro, 0, false⟩, ⟨2, 0, .ro, 0, false⟩]⟩,
  ⟨"FW_UPD_SRC", 0xd00008, 0, 1, 0, 1, [⟨63, 0, .rw, 0, false⟩]⟩,
  ⟨"FW_UPD_CMD", 0xd00010, 0, 1, 0, 1, [⟨63, 32, .wo, 0, true⟩, ⟨31, 20, .wo, 0, true⟩, ⟨19, 19, .wo, 0, true⟩, ⟨3, 0, .wo, 0, true⟩]⟩,
  ⟨"FW_UPD_RESULT", 0xd00018, 0, 1, 0, 1, [⟨63, 48, .ro, 0, false⟩, ⟨47, 40, .ro, 0, false⟩, ⟨39, 32, .ro, 0, false⟩]⟩]

/-- Part 6 of the table of registers: name, base offset, the strides and counts of its instances, and its defined fields. -/
def regTable6 : List RegRow := [
  ⟨"QD_JOURNAL_STATUS", 0x1700000, 0x1000000, 4, 0, 1, [⟨63, 48, .ro, 0, false⟩, ⟨47, 31, .ro, 0, false⟩, ⟨30, 18, .ro, 0, false⟩, ⟨17, 4, .ro, 0, false⟩, ⟨2, 0, .ro, 0, false⟩]⟩,
  ⟨"QD_JOURNAL_COUNT", 0x1700008, 0x1000000, 4, 0, 1, [⟨63, 32, .ro, 0, false⟩, ⟨31, 0, .ro, 0, false⟩]⟩,
  ⟨"HUB_STAR_STATUS", 0x400, 0, 1, 0, 1, [⟨63, 32, .ro, 0, false⟩, ⟨31, 31, .ro, 0, false⟩, ⟨30, 26, .ro, 0, false⟩, ⟨25, 17, .ro, 0, false⟩, ⟨16, 14, .ro, 0, false⟩, ⟨13, 8, .ro, 0, false⟩, ⟨7, 0, .ro, 0, false⟩]⟩,
  ⟨"HUB_UNIT_RESET", 0x410, 0, 1, 0, 1, [⟨23, 20, .wo, 0, true⟩, ⟨19, 16, .wo, 0, true⟩, ⟨11, 0, .wo, 0, true⟩]⟩,
  ⟨"HUB_ACCUSE", 0x418, 0, 1, 0, 1, [⟨63, 32, .rc, 0, false⟩, ⟨31, 24, .ro, 0, false⟩, ⟨23, 0, .ro, 0, false⟩]⟩,
  ⟨"HUB_CPER_PTR", 0x420, 0, 1, 0, 1, [⟨63, 32, .ro, 0, false⟩, ⟨7, 0, .ro, 0, false⟩]⟩,
  ⟨"HUB_PART_PARALLAX", 0x300268, 0x400, 128, 0, 1, [⟨63, 48, .ro, 0, false⟩, ⟨47, 32, .ro, 0, false⟩, ⟨31, 16, .ro, 0, false⟩, ⟨15, 0, .ro, 0, false⟩]⟩,
  ⟨"PWR_STATUS", 0xc00000, 0, 1, 0, 1, [⟨63, 48, .ro, 0, false⟩, ⟨47, 32, .ro, 0, false⟩, ⟨31, 24, .ro, 0, false⟩, ⟨19, 16, .ro, 0, false⟩, ⟨11, 8, .ro, 0, false⟩, ⟨7, 7, .ro, 0, false⟩, ⟨2, 0, .ro, 0, false⟩]⟩,
  ⟨"PWR_LIMIT_CFG", 0xc00008, 0, 1, 0, 1, [⟨63, 48, .rw, 0xaf0, false⟩, ⟨47, 40, .ro, 2, false⟩, ⟨31, 16, .ro, 0xaf0, false⟩, ⟨2, 0, .rw, 2, false⟩]⟩,
  ⟨"PWR_DROOP_CFG", 0xc00010, 0, 1, 0, 1, [⟨31, 24, .rw, 0x2d, false⟩, ⟨10, 0, .ro, 0, false⟩]⟩,
  ⟨"PWR_THERM", 0xc00018, 0, 1, 0, 1, [⟨63, 54, .ro, 0, false⟩, ⟨53, 44, .ro, 0, false⟩, ⟨43, 34, .ro, 0, false⟩, ⟨23, 16, .ro, 0, false⟩]⟩,
  ⟨"PWR_PART_CFG", 0xc01000, 0x10, 128, 0, 1, [⟨63, 0, .rw, 0, false⟩]⟩,
  ⟨"PWR_PART_CFG", 0xc01008, 0x10, 128, 0, 1, [⟨63, 32, .ro, 0, false⟩, ⟨6, 4, .ro, 0, false⟩, ⟨2, 0, .rw, 2, false⟩]⟩,
  ⟨"HUB_RESET", 0x500, 0, 1, 0, 1, [⟨14, 8, .wo, 0, true⟩, ⟨3, 0, .wo, 0, true⟩]⟩,
  ⟨"HUB_STRAPS", 0x508, 0, 1, 0, 1, [⟨15, 12, .ro, 0, false⟩, ⟨7, 7, .ro, 0, false⟩, ⟨6, 6, .ro, 0, false⟩, ⟨5, 3, .ro, 0, false⟩, ⟨0, 0, .ro, 0, false⟩]⟩,
  ⟨"HUB_PART_TILES0", 0x200008, 0x40, 128, 0, 1, [⟨63, 0, .st, 0, false⟩]⟩,
  ⟨"HUB_PART_TILES1", 0x200010, 0x40, 128, 0, 1, [⟨63, 0, .st, 0, false⟩]⟩,
  ⟨"HUB_PART_TILES2", 0x200018, 0x40, 128, 0, 1, [⟨63, 0, .st, 0, false⟩]⟩,
  ⟨"HUB_PART_TILES3", 0x200020, 0x40, 128, 0, 1, [⟨63, 0, .st, 0, false⟩]⟩,
  ⟨"HUB_PART_LLM", 0x200028, 0x40, 128, 0, 1, [⟨63, 0, .st, 0, false⟩]⟩]

/-- Part 7 of the table of registers: name, base offset, the strides and counts of its instances, and its defined fields. -/
def regTable7 : List RegRow := [
  ⟨"HUB_SL_GROUP", 0x600000, 0x10000, 2, 8, 4096, [⟨8, 8, .rw, 0, false⟩, ⟨7, 0, .rw, 0, false⟩]⟩,
  ⟨"HUB_SL_MEMBER", 0x608000, 0x10000, 2, 8, 64, [⟨8, 8, .rw, 0, false⟩, ⟨7, 0, .rw, 0, false⟩]⟩,
  ⟨"HUB_SL_RSET", 0x60c000, 0x10000, 2, 8, 256, [⟨24, 24, .rw, 0, false⟩, ⟨23, 0, .rw, 0, false⟩]⟩,
  ⟨"HUB_SL_ETH", 0x620008, 0, 1, 0, 1, [⟨63, 40, .rw, 0x20000, false⟩, ⟨15, 0, .rw, 0x88b5, false⟩]⟩,
  ⟨"COLL_CH", 0x1601000, 0x1000000, 4, 0x40, 16, [⟨63, 0, .rw, 0, false⟩]⟩,
  ⟨"COLL_CH", 0x1601008, 0x1000000, 4, 0x40, 16, [⟨63, 0, .rw, 0, false⟩]⟩,
  ⟨"COLL_CH", 0x1601010, 0x1000000, 4, 0x40, 16, [⟨43, 32, .rw, 0, false⟩, ⟨28, 24, .rw, 6, false⟩, ⟨23, 16, .ro, 0, false⟩, ⟨3, 2, .ro, 0, false⟩, ⟨1, 1, .wo, 0, true⟩, ⟨0, 0, .rw, 0, true⟩]⟩,
  ⟨"COLL_CH", 0x1601018, 0x1000000, 4, 0x40, 16, [⟨63, 48, .ro, 0, false⟩, ⟨47, 32, .rw, 0, true⟩, ⟨31, 16, .rw, 0, true⟩, ⟨15, 0, .ro, 0, false⟩]⟩,
  ⟨"CMD_RING", 0x100000008, 0x10000, 4096, 0, 1, [⟨63, 0, .rw, 0, false⟩]⟩,
  ⟨"CMD_RING", 0x100000010, 0x10000, 4096, 0, 1, [⟨63, 0, .rw, 0, false⟩]⟩,
  ⟨"CMD_RING", 0x100000018, 0x10000, 4096, 0, 1, [⟨43, 32, .rw, 0, false⟩, ⟨28, 24, .rw, 6, false⟩, ⟨23, 16, .ro, 0, false⟩, ⟨3, 2, .ro, 0, false⟩, ⟨1, 1, .wo, 0, true⟩, ⟨0, 0, .rw, 0, true⟩]⟩,
  ⟨"CMD_RING", 0x100000020, 0x10000, 4096, 0, 1, [⟨63, 48, .ro, 0, false⟩, ⟨47, 32, .rw, 0, true⟩, ⟨31, 16, .rw, 0, true⟩, ⟨15, 0, .ro, 0, false⟩]⟩,
  ⟨"CTX_PAGE", 0x100000028, 0x10000, 4096, 0, 1, [⟨63, 0, .rw, 0, false⟩]⟩,
  ⟨"CTX_PAGE", 0x100000030, 0x10000, 4096, 0, 1, [⟨63, 48, .rw, 0, false⟩, ⟨47, 32, .rw, 1, false⟩, ⟨0, 0, .rw, 0, false⟩]⟩,
  ⟨"CTX_PAGE", 0x100000038, 0x10000, 4096, 0, 1, [⟨63, 0, .wo, 0, true⟩]⟩,
  ⟨"CTX_PAGE", 0x100000040, 0x10000, 4096, 0, 1, [⟨1, 0, .wo, 0, true⟩]⟩,
  ⟨"PCIE_FN_CMD", 0x704000, 0, 1, 0, 1, [⟨15, 8, .wo, 0, false⟩, ⟨1, 0, .wo, 0, true⟩]⟩,
  ⟨"FW_IF", 0x200000000, 8, 256, 0, 1, [⟨15, 0, .rw, 0, true⟩]⟩,
  ⟨"FW_TRACE_EN", 0xd00040, 8, 4, 0, 1, [⟨63, 0, .rw, 0, false⟩]⟩,
  ⟨"FW_LOG_PTR", 0xd00060, 0, 1, 0, 1, [⟨63, 32, .ro, 0, false⟩, ⟨9, 0, .ro, 0, false⟩]⟩]

/-- Part 8 of the table of registers: name, base offset, the strides and counts of its instances, and its defined fields. -/
def regTable8 : List RegRow := [
  ⟨"PWR_RAIL_ENERGY", 0xc00100, 8, 12, 0, 1, [⟨63, 0, .ro, 0, false⟩]⟩,
  ⟨"PWR_PART_ENERGY", 0xc02000, 8, 128, 0, 1, [⟨63, 0, .ro, 0, false⟩]⟩,
  ⟨"PWR_UNATTRIB", 0xc02400, 0, 1, 0, 1, [⟨63, 0, .ro, 0, false⟩]⟩,
  ⟨"EPH_STATUS", 0xf00000, 0, 1, 0, 1, [⟨59, 48, .ro, 0, false⟩, ⟨44, 32, .ro, 0, false⟩, ⟨31, 24, .ro, 0, false⟩]⟩,
  ⟨"EPH_DROPPED", 0xf00008, 0, 1, 0, 1, [⟨63, 48, .rc, 0, false⟩, ⟨47, 32, .rc, 0, false⟩, ⟨31, 16, .rc, 0, false⟩, ⟨15, 0, .rc, 0, false⟩]⟩,
  ⟨"EPH_GEN_PTR", 0xf00010, 0, 1, 0, 1, [⟨63, 32, .ro, 0, false⟩, ⟨18, 0, .ro, 0, false⟩]⟩,
  ⟨"EPH_KEEP_PTR", 0xf00018, 0, 1, 0, 1, [⟨63, 32, .ro, 0, false⟩, ⟨16, 0, .ro, 0, false⟩]⟩,
  ⟨"EPH_PAGE", 0xf00020, 0, 1, 0, 1, [⟨7, 0, .rw, 0, false⟩]⟩,
  ⟨"EPH_TIME", 0xf00028, 0, 1, 0, 1, [⟨63, 24, .ro, 0, false⟩]⟩,
  ⟨"EPH_CYCLES", 0xf00030, 0, 1, 0, 1, [⟨31, 0, .ro, 0, false⟩]⟩,
  ⟨"ECL_CTL", 0xf80000, 0, 1, 0, 1, [⟨1, 1, .wo, 0, true⟩, ⟨0, 0, .wo, 0, true⟩]⟩,
  ⟨"ECL_CFG", 0xf80008, 0, 1, 0, 1, [⟨31, 16, .rw, 0, false⟩, ⟨15, 12, .rw, 0, false⟩, ⟨11, 11, .rw, 0, false⟩, ⟨2, 2, .rw, 0, false⟩, ⟨1, 1, .rw, 0, false⟩, ⟨0, 0, .rw, 1, false⟩]⟩,
  ⟨"ECL_FREEZE_AT", 0xf80010, 0, 1, 0, 1, [⟨63, 0, .rw, 0, false⟩]⟩,
  ⟨"ECL_STATUS", 0xf80018, 0, 1, 0, 1, [⟨63, 48, .ro, 0, false⟩, ⟨35, 32, .ro, 0, false⟩, ⟨1, 1, .ro, 0, false⟩, ⟨0, 0, .ro, 0, false⟩]⟩,
  ⟨"ECL_BEAT", 0xf80020, 0, 1, 0, 1, [⟨63, 0, .ro, 0, false⟩]⟩,
  ⟨"ECL_FROZEN_NS", 0xf80028, 0, 1, 0, 1, [⟨63, 0, .ro, 0, false⟩]⟩,
  ⟨"ECL_ADDR", 0xf80030, 0, 1, 0, 1, [⟨63, 0, .rw, 0, false⟩]⟩]

/-- Every register of the control space with its fields (the register tables of the chapters). -/
def regTable : List RegRow :=
  regTable1 ++ regTable2 ++ regTable3 ++ regTable4 ++ regTable5 ++ regTable6 ++ regTable7 ++ regTable8

/-- The register of the table at a control-space offset, if any. -/
def regRow (off : Nat) : Option RegRow := regTable.find? (RegRow_at off)

/-- The value a register holds after cold reset: the reset values of its fields (R10), zero where no register is
defined (R449). -/
def regReset (off : Nat) : Word :=
  match regRow off with
  | some r => BitVec.ofNat 64 (r.fields.foldl (fun v f => withBits f.hi f.lo f.reset v) 0)
  | none => 0

end Sys2Proof.Machine
end

