-- ==== Sys2Proof/Machine/State.lean ====
section
/-!
DEFINITION. The state of one SKN-7200 module as plain data, the reasons a step can stop, and the state after reset.
Every register of the control space is in `regs`; the other groups hold what the chapters give the machine beside its
registers.  Sparse arrays are in the canonical form of `smWf`.
-/

namespace Sys2Proof.Machine

open Sys2Proof

/-! ## Memory and seals -/

/-- The byte spaces of the module: the memory tiers, the tiles' local stores, the LLM lines held apart from H, the
image buffer, the configuration flash, the journal SRAM and the control cores' SRAM (R25, R91, R425). -/
inductive Space where
  | l | h | d | ls | llm | img | flash | jrn | core
  deriving DecidableEq, Repr

/-- A seal (R358). -/
structure Seal where
  crc : BitVec 32
  tensor : BitVec 24
  fmt : BitVec 5
  poison : Bool
  block : BitVec 32
  step : BitVec 32
  deriving DecidableEq, Repr

/-! ## The recorder and the freeze controller (18) -/

/-- An Ephemeris record (R413). -/
structure EphRec where
  code : Nat
  sev : Nat
  unit : Nat
  opTime : Nat
  temp : Nat
  volt : Nat
  cycles : Nat
  opId : Nat
  p0 : Nat
  p1 : Nat
  p2 : Nat
  deriving DecidableEq, Repr

/-- One entry of the table behind the 10 ms recording limits: the code, its key, the time of the last record and the
occurrences folded since, with the value kept of the first of them (R48). -/
structure EvLimit where
  code : Nat
  key : Nat
  last : Nat
  folded : Nat
  first : Nat
  deriving DecidableEq, Repr

/-- The recorder beside its registers: the staging ring, oldest first, the two flash rings by slot, the bad sectors,
the sector being erased in each ring, the limits, and the values saved in vital product data (R416 to R420). -/
structure Eph where
  staged : List EphRec
  general : SMap (Option EphRec)
  keep : SMap (Option EphRec)
  genErase : Option Nat
  keepErase : Option Nat
  bad : List Nat
  limits : List EvLimit
  drops : Nat × Nat × Nat
  savedOpTime : Nat
  savedCycles : Nat
  opFrac : Nat
  deriving DecidableEq, Repr

/-- The freeze controller beside its registers: whether the freeze still waits for RESUME, the time of the freeze, whether a deposit was
recorded in it, the register snapshot, and the accesses and packets held until resume (R422 to R427). -/
structure Ecl where
  waitsResume : Bool
  frozenAt : Nat
  depositRecorded : Bool
  snapshot : SMap Word
  held : List Instr
  deriving DecidableEq, Repr

/-- The JTAG port: the instruction in force and the shifted-out value (R426). -/
structure Jtag where
  ir : Nat
  tdo : Nat
  boundary : Nat
  deriving DecidableEq, Repr

/-! ## Contexts (02, 08, 14) -/

/-- An extent: tier 0 L, 1 H, 2 D; its context offset and length; its physical pieces (offset, length) in order; its
permissions (R28).  A pooled extent's pieces may lie on other members (R284). -/
structure Extent where
  tier : Nat
  off : Nat
  len : Nat
  phys : List (Nat × Nat)
  r : Bool
  w : Bool
  sealed : Bool
  deriving DecidableEq, Repr

/-- A peer window (R338). -/
structure PeerWin where
  base : Nat
  len : Nat
  hostAlias : Nat
  direct : Bool
  deriving DecidableEq, Repr

/-- An extent change waiting under R29. -/
structure ExtChange where
  destroy : Bool
  ext : Extent
  ring : Nat
  index : Nat
  deriving DecidableEq, Repr

/-- A completion record (R330), with the PHASE it is to carry. -/
structure CqRec where
  seq : Nat
  status : Status
  final : Bool
  queue : Nat
  hint : Nat
  step : Nat
  r0 : Nat
  r1 : Nat
  deriving DecidableEq, Repr

/-- A context beside its table entry: its slot, extents and waiting extent changes, the times that R44 counts from, its peer windows, its mirror and checkpoint (R332, R341), its unsignalled completion
records (R330), and the stale replies discarded (R44). -/
structure CtxData where
  slot : Nat
  extents : List Extent
  changes : List ExtChange
  closingAt : Nat
  lastRetire : Nat
  peers : SMap (Option PeerWin)
  mirrorH : Nat
  mirrorLen : Nat
  mirrorUsed : Nat
  mirrorRecs : Nat
  ckptD : Nat
  unsignalled : Nat
  irqPending : Bool
  stale : Nat
  deriving DecidableEq, Repr

/-- A queue beside its registers: the PHASE of its completion ring, the records held for room or view (R331), the
requests taken and not complete by ring index, and whether it is held behind a full ring. -/
structure QueueData where
  phase : Bool
  heldRecs : List CqRec
  open_ : List Nat
  deriving DecidableEq, Repr

/-! ## Tiles (05) -/

/-- The loop state of a running program (R102): offset of the first body macro-op, body length, iterations done and
total, and the three strides. -/
structure LoopState where
  start : Nat
  body : Nat
  count : Nat
  iter : Nat
  s1 : Nat
  s2 : Nat
  s3 : Nat
  deriving DecidableEq, Repr

/-- What a retiring macro-op adds to the quantisation counters: the marks of its elements in flat order (1 saturated,
2 underflowed, 4 non-finite), its NF policy, tensor and format (R87 to R90). -/
structure QCount where
  marks : List Nat
  nf : Nat
  tensor : Nat
  fmt : Nat
  deriving DecidableEq, Repr

/-- An issued macro-op that has not completed: its number in the run, its unit (0 control, 1 mover, 2 matrix, 3 vector), its status when its
work is done, its signal and its quantiser counts, and the local-store ranges it reads and writes (R95); `waits` is
set while its work still waits (remote blocks, a stream, a barrier), for the transaction `txn`. -/
structure Issued where
  n : Nat
  unit : Nat
  opcode : Nat
  pc : Nat
  status : Status
  waits : Bool
  sig : Option Nat
  q : QCount
  txn : Nat
  reads : List (Nat × Nat)
  writes : List (Nat × Nat)
  deriving DecidableEq, Repr

/-- The entry a tile runs: its list, sequence number, words, dispatching quadrant, step and evaluation mark. -/
structure RunEntry where
  part : Nat
  list : Nat
  seq : Nat
  words : Entry
  ctx : Nat
  step : Nat
  eval : Bool
  corrected : Bool
  replay : Bool
  deriving DecidableEq, Repr

/-- A WAIT in progress: the counter and the value it waits for (R102). -/
structure WaitState where
  ctr : Nat
  value : Nat
  deriving DecidableEq, Repr

/-- A physical tile beside its registers: the program range, the running entry, the loop, the issued macro-ops in
program order, a WAIT, the first failing macro-op and its status, the macro-ops issued, whether issue has ended, the
window of R89, the deliveries and stream blocks of this run and those that a replay skips (R113, R127), the slots
written and the memory blocks read by the entry (R375). -/
structure Tile where
  progStart : Nat
  progLen : Nat
  entry : Option RunEntry
  loop : Option LoopState
  issued : List Issued
  wait : Option WaitState
  failed : Option (Nat × Status)
  count : Nat
  ended : Bool
  finished : Option Status
  winQuant : Nat
  winSat : Nat
  winUfl : Nat
  delivered : Nat
  skipDeliveries : Nat
  produced : Nat
  skipProduced : Nat
  written : List Nat
  memRead : List Nat
  deriving DecidableEq, Repr

/-! ## Work lists, streams, barriers (06) and the journal (16) -/

/-- An entry dispatched and not complete: its number, step and evaluation mark. -/
structure InFlight where
  seq : Nat
  step : Nat
  eval : Bool
  deriving DecidableEq, Repr

/-- A dispatched MERIDIAN entry that has not arrived (R322), by its scope and TAG, or a NOTIFY entry (scope 3) that
waits for the entries before it. -/
structure Later where
  seq : Nat
  scope : Nat
  tag : Nat
  deriving DecidableEq, Repr

/-- A work list beside its registers: the entries dispatched and not complete, and those of them that wait to act. -/
structure WorkList where
  inflight : List InFlight
  later : List Later
  deriving DecidableEq, Repr

/-- A stream of the active image (R124). -/
structure StreamDef where
  part : Nat
  feed : Bool
  cls2 : Bool
  producer : Nat
  consumer : Nat
  depth : Nat
  runahead : Nat
  slice : Nat
  bufOff : Nat
  deriving DecidableEq, Repr

/-- A waiting stream access (R126) of a tile's mover macro-op number `n`: the next slot, the blocks left, the tag,
format and index of the next block, and the time at which the wait began. -/
structure StreamWait where
  stream : Nat
  load : Bool
  tile : Nat
  n : Nat
  slot : Nat
  left : Nat
  tensor : Nat
  fmt : Nat
  block : Nat
  since : Nat
  corrected : Bool
  deriving DecidableEq, Repr

/-- A feed in progress (R130): its entry, stream, next source address and blocks left. -/
structure Feed where
  part : Nat
  list : Nat
  seq : Nat
  ctx : Nat
  stream : Nat
  src : Nat
  left : Nat
  deriving DecidableEq, Repr

/-- Who arrives at a Meridian barrier. -/
inductive Arriver where
  | tile (t : Nat)
  | entry (p w seq : Nat)
  | halo (s : Nat)
  | orrery (q n : Nat)
  | child (port : Nat)
  | module
  deriving DecidableEq, Repr

/-- The barrier of a partition and scope that collects arrivals (R134 to R138): its number, the expected count and job
tree frozen at its first arrival, the arrivals counted and those that wait for the next barrier, the combined payload,
the time of the first arrival, the deadline extensions, whether the job-scope arrival has gone up, T_rel once it is
known; each participant's count of arrivals, the abandoned barriers, the arrivals that they missed of participants not seen
before, and the children that sent a DIM token. -/
structure Barrier where
  part : Nat
  scope : Nat
  number : Nat
  expect : Nat
  job : Nat
  arrived : List Arriver
  next : List (Arriver × Nat × Nat × Option Nat)
  orV : Nat
  andV : Nat
  tag : Option Nat
  first : Nat
  ext : Nat
  sentUp : Bool
  tRel : Option Nat
  counts : List (Arriver × Nat)
  gone : List Nat
  missed : Nat
  dims : List Nat
  deriving DecidableEq, Repr

/-- A journal record (R373 to R375), with the seals digested so far, those of an interrupted run, its pre-images and
its Parallax capture as blocks (memory key, seal, bytes), and the macro-ops whose quantised elements have been
counted. -/
structure JRec where
  quad : Nat
  part : Nat
  list : Nat
  seq : Nat
  entry : Entry
  phys : Nat
  state : Nat
  replays : Nat
  inSeals : List Byte
  firstIn : Option (List Byte)
  outSeals : List Byte
  outDigest : Nat
  produced : Nat
  delivered : Nat
  pre : List (Nat × Seal × List Byte)
  capture : List (Nat × Seal × List Byte)
  tileGen : Nat
  time : Nat
  step : Nat
  eval : Bool
  unchecked : Bool
  counted : List Nat
  compared : Bool
  suspectTile : Nat
  replayTile : Option Nat
  deriving DecidableEq, Repr

/-! ## Halo (09) and Orrery (10) -/

/-- A row of a table on its engine (R176, R196): its state and flags, its forwarding home (stack, module), its load,
version and H slot, its place in the D home region, the version noted at a write-back, whether it migrated in. -/
structure Row where
  row : Nat
  state : Nat
  tentative : Bool
  pin : Bool
  evict : Bool
  repl : Bool
  fwd : Option (Nat × Nat)
  load : Nat
  version : Nat
  slot : Nat
  home : Nat
  wbVersion : Nat
  imported : Bool
  dirty : Bool
  deriving DecidableEq, Repr

/-- An exact accumulator element (R109). -/
structure Exact where
  value : Int
  any : Bool
  nzs : Bool
  ninf : Bool
  pinf : Bool
  nan : Bool
  count : Nat
  deriving DecidableEq, Repr

/-- A merge entry: one row's pending update of a step, with its place in the merge area (R208). -/
structure Merge where
  row : Nat
  step : Nat
  index : Nat
  elems : List Exact
  deriving DecidableEq, Repr

/-- A replica at its holder: state 0 Filling, 1 Valid, 2 Stale; its slot, version and reads in the window (R215). -/
structure Replica where
  row : Nat
  state : Nat
  slot : Nat
  version : Nat
  reads : Nat
  invalidated : Bool
  owner : Nat × Nat
  deriving DecidableEq, Repr

/-- The replica directory of the owner: a row's holders (module, stack) and the acknowledgements still due. -/
structure ReplDir where
  row : Nat
  holders : List (Nat × Nat)
  due : List (Nat × Nat)
  pushDue : List (Nat × Nat)
  deriving DecidableEq, Repr

/-- One entry of a table's override table (R219). -/
structure OverrideEnt where
  first : Nat
  count : Nat
  module : Nat
  stack : Nat
  deriving DecidableEq, Repr

/-- A migration in progress (R217, R218): its rows, target, queue pair and ring index; whether the target has admitted
it, the copy is complete, and the copy has been restarted. -/
structure Migration where
  first : Nat
  count : Nat
  module : Nat
  stack : Nat
  qp : Nat
  index : Nat
  step : Nat
  admitted : Bool
  copied : Bool
  restarted : Bool
  deriving DecidableEq, Repr

/-- Rule parameters of a table (R211): FP32 patterns. -/
structure SparseParams where
  lr : Nat
  eps : Nat
  beta1 : Nat
  beta2 : Nat
  deriving DecidableEq, Repr

/-- The load counts of a closed window (R216): its length and first step, the reads as owner and as replica holder and
the updates by row, and the reads of rows migrated in. -/
structure ClosedWindow where
  length : Nat
  first : Nat
  reads : SMap Nat
  repl : SMap Nat
  updates : SMap Nat
  imported : Nat
  deriving DecidableEq, Repr

/-- An embedding table on a Halo engine (R192 to R221). -/
structure Table where
  key : Nat
  engine : Nat
  tid : Nat
  ctx : Nat
  part : Nat
  desc : Desc
  retired : Bool
  params : SparseParams
  pendingParams : List (Nat × Nat × SparseParams)
  rows : List Row
  incoming : List Row
  merges : List Merge
  replicas : List Replica
  directory : List ReplDir
  overrides : List OverrideEnt
  pendingOverride : List (Nat × Nat × Nat × List OverrideEnt)
  pendingSwap : List (Nat × Nat × Nat × Nat)
  destroying : Option (Nat × Nat)
  migrations : List Migration
  dropFwd : List Nat
  remoteReads : SMap Nat
  remoteWaits : List (Nat × Packet)
  window : Nat
  windowFirst : Nat
  rowReads : SMap Nat
  replReads : SMap Nat
  rowUpdates : SMap Nat
  imported : Nat
  closed : Option ClosedWindow
  epochRow : Bool
  epochRepl : Bool
  rebuildRow : Bool
  rebuildRepl : Bool
  rowsReady : Bool
  replReady : Bool
  deriving DecidableEq, Repr

/-- A Halo descriptor taken and not complete: the queue, ring index, op, words, step, the key of its table, whether a
replay or refetch corrected it, whether its DEFERRED record has gone out, whether its work is done and it waits for a
Meridian, and its status once it is known while earlier
descriptors of its kind are still out. -/
structure HaloOp where
  engine : Nat
  qp : Nat
  index : Nat
  op : Nat
  words : Entry
  step : Nat
  key : Nat
  corrected : Bool
  deferredSent : Bool
  merged : Bool
  status : Option Status
  deriving DecidableEq, Repr

/-- A row fetched for a waiting gather of a queue pair: the status and bytes of its answer. -/
structure RowFetch where
  engine : Nat
  qp : Nat
  index : Nat
  row : Nat
  status : Status
  bytes : List Byte
  deriving DecidableEq, Repr

/-- Hyperparameters of a shard in force (R227, R231): FP32 patterns. -/
structure Hyper where
  lr : Nat
  wd : Nat
  beta1 : Nat
  beta2 : Nat
  eps : Nat
  deriving DecidableEq, Repr

/-- A set of roots of a Kronecker shard (R237): the count T it was computed at, whether the computation is complete, and
the FP32 patterns of its PL and PR blocks in order. -/
structure RootSet where
  count : Nat
  done : Bool
  vals : List Nat
  deriving DecidableEq, Repr

/-- A dense shard beside its ORR_SHARD registers (R225 to R248): its parameters in force, those in force at the last
commit that flipped it, those set for the next Meridian (with queue pair and ring index), the roots not yet copied,
the step of its last GRAD, COMMITTED_STEP and UPDATES of that commit, and the SHARD_DESTROY (ring context, index) that
waits. -/
structure Shard where
  quad : Nat
  slot : Nat
  ctx : Nat
  part : Nat
  desc : Desc
  hyper : Hyper
  commitHyper : Hyper
  pendingHyper : List (Nat × Nat × Hyper)
  roots : List RootSet
  gradStep : Option Nat
  commitStep : Nat
  commitUpdates : Nat
  destroying : Option (Nat × Nat)
  deriving DecidableEq, Repr

/-- An Orrery descriptor taken and not complete (R231): its queue pair, ring index, op, words, step and shard slot;
whether its work is done and it waits for its outcome or its blocks; whether a replay corrected it, its DEFERRED record
has gone out, and since when it waits. -/
structure OrrOp where
  quad : Nat
  qp : Nat
  index : Nat
  op : Nat
  words : Entry
  step : Nat
  slot : Nat
  worked : Bool
  corrected : Bool
  deferredSent : Bool
  since : Nat
  waited : Bool
  status : Option Status
  deriving DecidableEq, Repr

/-- The commit state of a partition beside its registers (R239 to R244): the Halo engines' STEP_ENDs taken and check
arrivals made, the SKIPs taken, and the verdict phase: whether it runs, its check instant, whether the module has
arrived, and what its replays found. -/
structure CommitData where
  haloStepEnds : List (Nat × Nat)
  skips : List (Nat × Nat × Nat)
  verdict : Bool
  checkInstant : Nat
  arrived : Bool
  disagreed : Bool
  nonfinite : Bool
  deriving DecidableEq, Repr

/-! ## Starlane (11) -/

/-- A packet queued on a port, or kept for its acknowledgement: its SEQ, the time of its first send or queueing, its
sends on this port, and its partition (128 for none). -/
structure Kept where
  seq : Nat
  pkt : Packet
  first : Nat
  sends : Nat
  part : Nat
  deriving DecidableEq, Repr

/-- A port beside its registers (R256 to R278): the training step and the lanes still in it (or those that a retrain may
use); when training last started and the steps failed since the port was last Up; the next SEQ, the last good SEQ received, the retry
buffer and the queued packets, oldest first; whether Warning and Degrade are armed; the state that waits for the C0
move; whether the retrain under way sheds a lane; the classes that PFC pauses; the Ethernet packets kept. -/
structure Port where
  step : Nat
  lanes : Nat
  startedAt : Option Nat
  failures : Nat
  nextSeq : Nat
  lastGood : Nat
  retry : List Kept
  queues : List Kept
  warnArmed : Bool
  degradeArmed : Bool
  pending : Option Nat
  degraded : Bool
  pfcPaused : List Nat
  ethUnacked : List Kept
  deriving DecidableEq, Repr

/-- What an outstanding request is for. -/
inductive ReqFor where
  | moverLoad (t slot tensor fmt block : Nat)
  | moverStore (t : Nat)
  | haloRow (s qp index tid row : Nat)
  | pairs (s qp index tid : Nat)
  | look (s : Nat)
  | coll (q c gid seq : Nat)
  | repl (s tid row : Nat)
  | migrate (s tid : Nat)
  deriving DecidableEq, Repr

/-- An outstanding X-tier request (R44, R267): its unit and TXN, context and incarnation, target, the packet kept for
a retry, whether it still waits for a port (R268), whether it has been DEFERRED, its partition, and whether its block
has been fetched again (R115). -/
structure XReq where
  unit : Nat
  txn : Nat
  ctx : Nat
  inc : Nat
  pkt : Packet
  what : ReqFor
  waitingPort : Bool
  deferred : Bool
  part : Nat
  refetched : Bool
  deriving DecidableEq, Repr

/-- A delivered-once packet remembered for 2 ms (R269). -/
structure Delivered where
  module : Nat
  unit : Nat
  txn : Nat
  time : Nat
  deriving DecidableEq, Repr

/-- A pool of constellation members, or a request for one (R284): its members, tag, mode and parameter; the members
that have posted it, with whether all their requests agree and when the first came; whether it is granted or
suspended; and this module's own POOL command (context and ring index) while that is open. -/
structure Pool where
  members : Nat
  kind : Nat
  tag : Nat
  param : Nat
  posted : Nat
  agree : Bool
  since : Nat
  granted : Bool
  suspended : Bool
  own : Option (Nat × Nat)
  deriving DecidableEq, Repr

/-- The constellation beside its registers (R279 to R284): the members that have ever come Up (a bit per CASCADE_ID), their
LODESTAR_SEL straps and modules; the takeover: the members live before the loss, the acknowledgements, whether this
module claims, the µs since the last heartbeat; the Lodestar's parent module; the pools; and the time exchange: the
link delay, the time of the last TIME packet, and the value named for the next epoch edge. -/
structure Const where
  seen : Nat
  straps : Nat
  memberModules : SMap Nat
  liveBefore : Nat
  claimAcks : Nat
  claiming : Bool
  lossUs : Nat
  lodestarParent : Option Nat
  pools : List Pool
  linkDelay : Nat
  lastTime : Nat
  epochValue : Option Nat
  deriving DecidableEq, Repr

/-! ## Host coupling (14) -/

/-- An outstanding PCIe request: a read (or flush read) of `len` bytes at `addr` for a context, and what it is for. -/
inductive PcieFor where
  | copyRead (id : Nat)
  | copySeals (id : Nat)
  | copyFlush (id : Nat)
  | fileRead (id : Nat)
  | fileFlush (id : Nat)
  deriving DecidableEq, Repr

structure PcieReq where
  id : Nat
  ctx : Nat
  addr : Nat
  len : Nat
  window : Option Nat
  what : PcieFor
  deriving DecidableEq, Repr

/-- A COPY taken and not complete (R333 to R336): its command ring context, ring index and words, the bytes written
to the target, whether it goes to the mirror and the offset of its first record there, whether it is held, the seals read for the segment in
progress, and whether that segment has been fetched again. -/
structure Copy where
  id : Nat
  ctx : Nat
  index : Nat
  words : Entry
  written : Nat
  mirrored : Bool
  mirrorFirst : Option Nat
  held : Bool
  corrected : Bool
  seals : List Byte
  refetched : Bool
  deriving DecidableEq, Repr

/-- What a file of R247 on its way is for: an EXPORT or IMPORT (quadrant, queue pair, ring index), a command of a ring
(context, ring index, words), a new shard's master of a command, or the Orphan checkpoint of a context. -/
inductive FileFor where
  | orr (q qp index : Nat)
  | cmd (ctx index : Nat) (words : Entry)
  | master (ctx index : Nat) (words : Entry)
  | orphan (ctx : Nat)
  deriving DecidableEq, Repr

/-- A file on its way to D, P or Q, or from P or Q: what it is for, its context and address there; for a read the bytes
so far and those needed in all (0 until the header is known); whether it is held by Orphan mode (R340). -/
structure FileOp where
  id : Nat
  what : FileFor
  ctx : Nat
  addr : Nat
  got : List Byte
  need : Nat
  held : Bool
  deriving DecidableEq, Repr

/-- A function beside PCIE_FN_CFG (R339 to R343): the Orphan entry's cause and time, C_O per partition, the contexts
whose Orphan checkpoint runs and those whose has ended, with the last status that is not DONE, and whether RESUME (1), TEARDOWN (2)
or the hold's expiry (3) waits for it; the frozen time since its last heartbeat or its Orphan entry
(R423). -/
structure FnData where
  cause : Nat
  orphanAt : Nat
  co : List (Nat × Nat)
  ckptRun : List Nat
  ckptDone : List Nat
  ckptStatus : Nat
  waiting : Nat
  hbFrozen : Nat
  deriving DecidableEq, Repr

/-! ## Outputs -/

/-- What the module sends out: read data, packets on ports, PCIe requests and interrupts, messages on the management
bus, JTAG data and pin levels. -/
inductive Output where
  | readData (v : Nat)
  | readBytes (bs : List Byte)
  | poisonedCompletion
  | retryStatus
  | configData (v : Nat)
  | packet (port seq ack : Nat) (p : Packet)
  | linkWord (port : Nat) (nak : Bool) (ack : Nat)
  | c0Sideband (p : Packet)
  | pcieWrite (ctx addr : Nat) (peer : Bool) (data : List Byte)
  | pcieRead (req ctx addr len : Nat) (peer : Bool)
  | msix (fn vector : Nat)
  | cper (seq : Nat)
  | mctp (kind : Nat) (data : List Byte)
  | failover (cls idx : Nat)
  | jtag (v bits : Nat)
  | pin (name : String) (level : Bool)
  deriving DecidableEq, Repr

/-! ## Configuration and the Almanac (03) -/

/-- A QUOTA entry (R169). -/
structure Quota where
  domain : Nat
  part : Nat
  tier : Nat
  scope : Nat
  guarantee : Nat
  limit : Nat
  c1Share : Nat
  bwShare : Nat
  deriving DecidableEq, Repr

/-- A ROUTE entry (R129). -/
structure Route where
  id : Nat
  part : Nat
  cls : Nat
  src : Nat
  dst : Nat
  hops : List Nat
  reserve : Nat
  deriving DecidableEq, Repr

/-- A configuration beside the ST registers: its tables and module settings, and the image it came from (R51, R53,
R65). -/
structure Config where
  routes : List Route
  streams : SMap (Option StreamDef)
  quotas : List Quota
  scratch : SMap Nat
  ctxPerVf : Nat
  powerWindow : Nat
  armTimeout : Nat
  drainLimit : Nat
  imageSeq : Nat
  fromSlot : Option Nat
  edited : Bool
  deriving DecidableEq, Repr

/-- An armed commit (R57, R58): `voted` once its job vote has gone up, with the last step that each affected partition
still runs. -/
structure Armed where
  voted : Bool
  jobScope : Bool
  domain : Nat
  trial : Nat
  tag : Nat
  affected : List Nat
  lastStep : List (Nat × Nat)
  drained : Bool
  since : Nat
  deriving DecidableEq, Repr

/-- A finding of the consistency check (R55): code, severity (0 failure, 1 note), section index, entry index and
detail. -/
structure Finding where
  code : Nat
  sev : Nat
  sec : Nat
  ent : Nat
  det : Nat
  deriving DecidableEq, Repr

/-- An Almanac slot: 0 Empty, 1 Valid, 2 Active, 3 Previous, 4 Bad, and the IMAGE_SEQ of its image (R62). -/
structure AlmSlot where
  state : Nat
  seq : Nat
  deriving DecidableEq, Repr

/-- The configuration engine beside its registers: the active configuration and the staging set, the staged ST
registers, the loaded image, the check report, the armed commit, the deferred
commands, and the Almanac: the slots as the directory in force names them, the copy of it in flash, and when a trial ends;
and the resets that wait for a commit or a firmware switch to end (R51 to R65, R441). -/
structure Cfg where
  active : Config
  staged : Config
  stagedRegs : SMap Word
  image : List Byte
  edits : List Nat
  report : List Finding
  armed : Option Armed
  deferred : List Instr
  slots : SMap AlmSlot
  slotBytes : SMap (List Byte)
  dirActive : Nat
  dirPrevious : Nat
  dirHasPrevious : Bool
  trialSlot : Option Nat
  trialEnds : Nat
  returning : Bool
  programming : Option (Nat × Bool)
  svnFloor : Nat
  activeSvn : Nat
  signRequired : Bool
  ctxPerVf : Nat
  resets : List Instr
  deriving DecidableEq, Repr

/-! ## Stacks and the LLM (07), tiers (08) -/

/-- A sparing copy or fold in progress on a channel (R149 to R151): 0 retirement, 1 OFFLINE, 2 ONLINE back, 3 fold;
the target channel; whether it started for an unreadable channel. -/
structure Sparing where
  kind : Nat
  target : Nat
  unreadable : Bool
  deriving DecidableEq, Repr

/-- A stack beside its registers: its sparing work, the spare that serves each Offline channel's slot, the fold map's
slots, the time of its T3 entry, whether it is out of service, the exerciser run, and the channels whose retirement
waits for another repair (R365). -/
structure Stack where
  sparing : SMap (Option Sparing)
  replacedBy : SMap (Option Nat)
  folded : List Nat
  t3At : Option Nat
  outOfService : Bool
  exerciser : Bool
  waiting : List Nat
  deriving DecidableEq, Repr

/-- An operation on cache slices (R165): the slices, the operation, the ring command that gave it (context and index)
with its physical blocks, or the register; and whether it runs. -/
structure LlmOp where
  slices : List Nat
  op : Nat
  ring : Option (Nat × Nat)
  blocks : List Nat
  running : Bool
  deriving DecidableEq, Repr

/-- A line of an LLM cache slice (R161 to R164): the physical H block it holds, its flags, its recency and its seal. -/
structure Line where
  slice : Nat
  set : Nat
  block : Nat
  dirty : Bool
  pinned : Bool
  tentative : Bool
  lru : Nat
  deriving DecidableEq, Repr

/-- A request in a deferral queue (R173, R174). -/
structure DeferReq where
  point : Nat
  cls : Nat
  ctx : Nat
  tier : Nat
  amount : Nat
  since : Nat
  ring : QueueId
  index : Nat
  words : Entry
  deriving DecidableEq, Repr

/-- What a D write is for: rows of a table (its key, and the rows), a COPY, or a file on its way. -/
inductive DFor where
  | rows (key : Nat) (rows : List Nat)
  | copy (id : Nat)
  | file (id : Nat)
  deriving DecidableEq, Repr

/-- A D write accepted and not acknowledged (R182, R188): its kind in the order of R188 (0 write-back with EVICT, 1 other
write-back or flush, 2 checkpoint, 3 copy engine), class, physical block, and whether the governor has debited it. -/
structure DWrite where
  id : Nat
  kind : Nat
  cls : Nat
  block : Nat
  data : List Byte
  blkSeal : Seal
  what : DFor
  since : Nat
  credited : Bool
  deriving DecidableEq, Repr

/-- The tiers beside their registers (08): the deferral queues, the scaled H guarantees, the D writes, the governor's
credit in units of 1/8,640,000,000,000,000 of a block (so that a microsecond's accrual is exact), the saved copy of
credit and life, the blocks accepted and the NAND pages programmed, those of the current 24 h window and its start, the
retired erase blocks, the translation rebuild with the blocks that it forwarded and its start, the table flushes (ring
context, index, table key, rows with their versions), and the
requests that a reset of the controller returned. -/
structure Tiers where
  deferrals : List DeferReq
  hScale : Option (Nat × Nat)
  dwrites : List DWrite
  nextWrite : Nat
  credit : Nat
  savedCredit : Nat
  savedLogical : Nat
  savedNand : Nat
  logicalBlocks : Nat
  nandBlocks : Nat
  dayLogical : Nat
  dayNand : Nat
  daySince : Nat
  retiredErase : List Nat
  wear95 : Bool
  rebuilding : Bool
  rebuildReady : Bool
  rebuildSince : Nat
  forwarded : Nat
  flushes : List (Nat × Nat × Nat × List (Nat × Nat))
  resetAt : Nat
  returned : Nat
  deriving DecidableEq, Repr

/-! ## Collectives (12) -/

/-- A collective group on a channel (R288, R289): its rank entries, this rank, the CRC-32C of its descriptor and, at
rank 0, those received; the ring index of its GROUP_CREATE and whether it has formed; the next COLL_SEQ; the ring index
of a GROUP_DESTROY that waits. -/
structure Group where
  quad : Nat
  ch : Nat
  gid : Nat
  ctx : Nat
  part : Nat
  rank : Nat
  ranks : List Nat
  formed : Bool
  crc : Nat
  crcs : List (Nat × Nat)
  index : Nat
  nextSeq : Nat
  destroying : Option Nat
  deriving DecidableEq, Repr

/-- A run of elements of a segment (R303): the ranks [src, src + span) that it covers, its first element, and its
elements as exact elements, or as FP32 patterns, codes or bytes. -/
structure CPart where
  seg : Nat
  src : Nat
  span : Nat
  first : Nat
  ex : List Exact
  raw : List Nat
  deriving DecidableEq, Repr

/-- A collective in progress on this rank (R292 to R308): the descriptors of its set with their ring indices, the
contributions taken, the results known, the resend requests sent, the extensions of R307; whether it waits for its
engine, and its status once that is known. -/
structure CollOp where
  quad : Nat
  ch : Nat
  gid : Nat
  seq : Nat
  op : Nat
  words : List Entry
  indices : List Nat
  step : Nat
  waiting : Bool
  contribs : List CPart
  results : List CPart
  resent : List (Nat × Nat)
  ext : Nat
  corrected : Bool
  status : Option Status
  deriving DecidableEq, Repr

/-- What a home keeps of a forward TOKEN_ROUTE for its reverse (R295): its W5, and the sender, position and DST row of
each admitted token. -/
structure Forward where
  quad : Nat
  ch : Nat
  gid : Nat
  seq : Nat
  w5 : Nat
  admitted : List (Nat × Nat × Nat)
  deriving DecidableEq, Repr

/-- The collective engines beside their registers: the open fused sets (engine, channel, descriptors, ring indices), and the packets
that came before this rank posted. -/
structure Coll where
  groups : List Group
  ops : List CollOp
  fused : List (Nat × Nat × List Entry × List Nat)
  forwards : List Forward
  early : List Packet
  deriving DecidableEq, Repr

/-! ## Firmware (15), faults (16), power (17), reset (19) -/

/-- Firmware beside its registers: the two slots' images and validity, the boot record, the update in progress, the
command journal, the log ring, the times of the reloads, the PLDM session, the update commands deferred, and since when
dispatch is held (R345 to R356). -/
structure Fw where
  slotBytes : SMap (List Byte)
  slotGood : SMap Bool
  bootTrial : Bool
  selfCheck : Nat
  confirmReq : Bool
  staging : List Byte
  journal : List (Nat × Nat)
  log : SMap (Option (Nat × Nat × Nat))
  reloads : List Nat
  switchPending : Bool
  rolling : Bool
  pldm : Nat
  pldmSize : Nat
  pldmGot : Nat
  fromSideband : Bool
  trialStart : Nat
  deferred : List Instr
  heldSince : Nat
  deriving DecidableEq, Repr

/-- One fault in a unit's history (R364). -/
structure FaultHist where
  cls : Nat
  idx : Nat
  kind : Nat
  opTime : Nat
  deriving DecidableEq, Repr

/-- A CPER record (R388, R389). -/
structure Cper where
  seq : Nat
  code : Nat
  sev : Nat
  cls : Nat
  idx : Nat
  action : Nat
  spares : Nat
  time : Nat
  opTime : Nat
  cycles : Nat
  p0 : Nat
  p1 : Nat
  p2 : Nat
  starSeq : Nat
  deriving DecidableEq, Repr

/-- A merged accusation of the current window (R385). -/
structure Accuse where
  suspect : Nat
  cause : Nat
  firstReporter : Nat
  lastReporter : Nat
  count : Nat
  firstTime : Nat
  deriving DecidableEq, Repr

/-- The last time, the pending count and the time of the first pending detection kept per key for the rates of R384 to
R387. -/
structure RateEnt where
  key : Nat
  last : Nat
  count : Nat
  first : Nat
  deriving DecidableEq, Repr

/-- The Star chart copy in force (R367): its tile map, the registers that hold its tile, channel and slice states, the
stacks' repairs and folds (R368). -/
structure Chart where
  tileOf : SMap Nat
  regs : SMap Word
  stks : SMap Stack
  deriving DecidableEq, Repr

/-- Faults and repair beside the registers: histories, the maps in force with the Star chart's copy, units Draining (with the time since when) and out
of service, deferred retries, accusations, the CPER ring (R364 to R391), and the units that fail their boot test, each with
its class and index as in R364 and the margins, low and high, that the exerciser finds for a channel (R160, R369; log 83). -/
structure Faults where
  history : List FaultHist
  tileOf : SMap Nat
  retirements : List (Nat × Nat × Nat × Nat)
  starInForce : Bool
  starPendingSince : Nat
  starPendingCount : Nat
  writeQueued : Nat
  queuedSince : Nat
  draining : List (Nat × Nat)
  outOfService : List (Nat × Nat)
  retries : List (Nat × Nat × Nat)
  nextRetry : Nat
  accusations : List Accuse
  accSent : List RateEnt
  accEvents : List RateEnt
  accusedAt : Option Nat
  cpers : SMap (Option Cper)
  undelivered : List Nat
  chart : Chart
  drainSince : List (Nat × Nat × Nat)
  weak : List (Nat × Nat × Nat × Nat)
  deriving DecidableEq, Repr

/-- The power and thermal controller beside its registers: the cap and the duty share in 64ths, the droop detectors tripped
and masked, the beats held in the current second, its beat slots and its milliseconds, the last measured temperatures (°C, by the
sensors of R414) and rail voltages, the VIN energy below 1 µJ, the watts taken off LIMIT_W, and the input power of the
last 100 samples in mW, newest first, with the count of samples (R393 to R411). -/
structure Power where
  cap : Nat
  duty : Nat
  engaged : Bool
  limiter : Nat
  tripped : List Nat
  masked : List Nat
  holdBeats : Nat
  holdSlots : Nat
  holdMs : Nat
  lastDet : Nat
  thermalLatch : Bool
  forcedAt : Nat
  tempHub : Option Nat
  tempDeep : Option Nat
  tempQuad : SMap (Option Nat)
  volts : SMap Nat
  energyFrac : Nat
  lowered : Nat
  recent : List Nat
  samples : Nat
  j3 : Bool
  deriving DecidableEq, Repr

/-- The pace governor beside its registers: whether a PACE_SET write was clamped since the last boundary, held slots of
the current group, whether a droop holds tokens, whether PACE_REF is present, and HELD at its last loss (R139 to R142,
R432). -/
structure Pace where
  clamped : Bool
  groupHeld : Nat
  drooping : Bool
  refPresent : Bool
  lossHeld : Nat
  deriving DecidableEq, Repr

/-- Where the module is in its power sequence (R435 to R437). -/
inductive Phase where
  | off | jtagHold | on | poweringDown
  deriving DecidableEq, Repr

/-- The pins and the straps as wired (R430, R431). -/
structure Pins where
  pwrEn : Bool
  pwrGood : Bool
  mated : Bool
  perstN : Bool
  freezeN : Bool
  freezeDriven : Bool
  alertN : Bool
  thermtripN : Bool
  jtagHoldN : Bool
  modeStrap : Nat
  addrStraps : Nat
  lodestarStrap : Bool
  deriving DecidableEq, Repr

/-! ## The whole module -/

/-- The state of the module. `pending` is the queue of the commands that wait, first in, first out; `free` is the
model's own counter behind the free values, and `out` everything the module has sent. -/
structure State where
  regs : SMap Word
  mem : SMap Byte
  seals : SMap Seal
  eph : Eph
  ecl : Ecl
  jtag : Jtag
  ctxs : SMap CtxData
  queues : SMap QueueData
  tiles : SMap Tile
  lists : SMap WorkList
  waits : List StreamWait
  feeds : List Feed
  barriers : List Barrier
  journal : List JRec
  tables : List Table
  haloOps : List HaloOp
  fetched : List RowFetch
  shards : List Shard
  orrOps : List OrrOp
  commits : SMap CommitData
  ports : SMap Port
  xreqs : List XReq
  txns : SMap Nat
  seenGen : SMap Nat
  delivered : List Delivered
  spray : SMap Nat
  const : Const
  pcie : List PcieReq
  copies : List Copy
  files : List FileOp
  nextPcie : Nat
  fns : SMap FnData
  numVfs : Nat
  cfgSpace : SMap Nat
  cfg : Cfg
  stks : SMap Stack
  lines : List Line
  llmOps : List LlmOp
  tiers : Tiers
  coll : Coll
  fw : Fw
  flt : Faults
  pwr : Power
  pace : Pace
  phase : Phase
  pins : Pins
  recorded : List (Nat × Nat)
  free : Nat
  out : List Output
  pending : List Instr
  deriving DecidableEq, Repr

/-! ## The state after reset

Every register is at the reset value of its table (an empty `regs`), every memory byte at 0, every seal cleared, and
every other group as below.  The module is mated, its input is in range, and PWR_EN is low: the power-up sequence of
R436 is the command PWR_EN_RISE. -/

/-- The cleared seal (R358): every field 0. -/
def seal0 : Seal := ⟨0, 0, 0, false, 0, 0⟩

/-- The recorder with empty rings. -/
def eph0 : Eph := ⟨[], [], [], none, none, [], [], (0, 0, 0), 0, 0, 0⟩

/-- The freeze controller with no source asserted. -/
def ecl0 : Ecl := ⟨false, 0, false, [], []⟩

/-- The JTAG port: IDCODE is the instruction in force after a test reset. -/
def jtag0 : Jtag := ⟨1, 0, 0⟩

/-- A Free context's data. -/
def ctxData0 : CtxData := ⟨0, [], [], 0, 0, [], 0, 0, 0, 0, 0, 0, false, 0⟩

/-- A queue that never ran. -/
def queue0 : QueueData := ⟨false, [], []⟩

/-- The counts of a macro-op that quantised nothing. -/
def qcount0 : QCount := ⟨[], 0, 0, 0⟩

/-- An idle tile. -/
def tile0 : Tile := ⟨0, 0, none, none, [], none, none, 0, false, none, 0, 0, 0, 0, 0, 0, 0, [], []⟩

/-- A work list with nothing in flight. -/
def workList0 : WorkList := ⟨[], []⟩

/-- The commit state of a partition between steps. -/
def commit0 : CommitData := ⟨[], [], false, 0, false, false, false⟩

/-- A port that has never trained. -/
def port0 : Port := ⟨0, 0, none, 0, 0, 4095, [], [], true, true, none, false, [], []⟩

/-- The constellation of one member. -/
def const0 : Const := ⟨0, 0, [], 0, 0, false, 0, none, [], 0, 0, none⟩

/-- A function with its default view. -/
def fn0 : FnData := ⟨0, 0, [], [], [], 0, 0, 0⟩

/-- The default configuration (R65). -/
def config0 : Config := ⟨[], [], [], [], 1, 2, 1000, 100, 0, none, false⟩

/-- An Empty Almanac slot (R62). -/
def almSlot0 : AlmSlot := ⟨0, 0⟩

/-- The configuration engine with an empty Almanac. -/
def cfg0 : Cfg :=
  ⟨config0, config0, [], [], [], [], none, [], [], [], 0, 0, false, none, 0, false, none, 0, 0, false, 1, []⟩

/-- A stack with every data channel in service. -/
def stack0 : Stack := ⟨[], [], [], none, false, false, []⟩

/-- The tiers with nothing deferred and nothing written. -/
def tiers0 : Tiers :=
  ⟨[], none, [], 0, 0, 0, 0, 0, 0, 0, 0, 0, 0, [], false, false, false, 0, 0, [], 0, 0⟩

/-- The collective engines with no group. -/
def coll0 : Coll := ⟨[], [], [], [], []⟩

/-- The firmware as shipped: both slots empty of updates. -/
def fw0 : Fw := ⟨[], [], false, 0, false, [], [], [], [], false, false, 0, 0, 0, false, 0, [], 0⟩

/-- No fault recorded. -/
def faults0 : Faults :=
  ⟨[], [], [], false, 0, 0, 0, 0, [], [], [], 0, [], [], [], none, [], [], ⟨[], [], []⟩, [], []⟩

/-- The power controller before its first sample. -/
def power0 : Power :=
  ⟨384, 0, false, 0, [], [], 0, 0, 0, 0, false, 0, none, none, [], [], 0, 0, [], 0, false⟩

/-- The governor at rest, PACE_REF present. -/
def pace0 : Pace := ⟨false, 0, false, true, 0⟩

/-- The pins of a mated module with PWR_EN low. -/
def pins0 : Pins := ⟨false, false, true, true, true, false, true, true, true, 0, 0, false⟩

/-- The module right after reset. -/
def State.reset : State where
  regs := []
  mem := []
  seals := []
  eph := eph0
  ecl := ecl0
  jtag := jtag0
  ctxs := []
  queues := []
  tiles := []
  lists := []
  waits := []
  feeds := []
  barriers := []
  journal := []
  tables := []
  haloOps := []
  fetched := []
  shards := []
  orrOps := []
  commits := []
  ports := []
  xreqs := []
  txns := []
  seenGen := []
  delivered := []
  spray := []
  const := const0
  pcie := []
  copies := []
  files := []
  nextPcie := 0
  fns := []
  numVfs := 0
  cfgSpace := []
  cfg := cfg0
  stks := []
  lines := []
  llmOps := []
  tiers := tiers0
  coll := coll0
  fw := fw0
  flt := faults0
  pwr := power0
  pace := pace0
  phase := .off
  pins := pins0
  recorded := []
  free := 0
  out := []
  pending := []

/-- Reasons a step stops with a fault: none of the module's commands ends in one. -/
inductive Fault where
  /-- Raised by no command of this model (safe). -/
  | none
  deriving DecidableEq, Repr

/-- Reasons a step is refused. -/
inductive Refusal where
  /-- Raised for a command that has no meaning yet (safe): its mnemonic. -/
  | notModelled (mnemonic : String)
  deriving DecidableEq, Repr

end Sys2Proof.Machine
end

