-- ==== Sys2Proof/Machine/Exact.lean ====
section
/-!
DEFINITION. The exact accumulator (R109 to R111).
-/

namespace Sys2Proof.Machine

open Sys2Proof

/-- A cleared element. -/
def exact0 : Exact := ⟨0, false, false, false, false, false, 0⟩

/-- The element held in 48 bytes; its reserved bits read as zero (R109, R110). -/
def exactOf (bs : List Byte) : Exact :=
  let w := ofBytesLE bs
  let fl := bitsOf 327 320 w
  { value := signedOf 320 w, any := bitAtN fl 4, nzs := bitAtN fl 3, ninf := bitAtN fl 2, pinf := bitAtN fl 1,
    nan := bitAtN fl 0, count := bitsOf 383 352 w }
where
  bitAtN (v i : Nat) : Bool := v / 2 ^ i % 2 == 1

/-- The 48 bytes of an element (R109). -/
def exactBytes (x : Exact) : List Byte :=
  bytesLE 40 (x.value % 2 ^ 320).toNat ++
    bytesLE 1 (x.any.toNat * 16 + x.nzs.toNat * 8 + x.ninf.toNat * 4 + x.pinf.toNat * 2 + x.nan.toNat) ++
    bytesLE 3 0 ++ bytesLE 4 x.count

/-- One more summand counted. -/
def exactCount (a b : Nat) : Nat := satAdd 0xFFFFFFFF a b

/-- |VALUE × 2^-149| reaches 2^170. -/
def exactOver (v : Int) : Bool := decide (2 ^ 319 ≤ v.natAbs)

/-- A summand added exactly, with whether the sum left the range (R110). -/
def exactAdd (x : Exact) (v : Val) : Exact × Bool :=
  let c := exactCount x.count 1
  match v with
  | .nan => ({ x with any := true, nzs := true, nan := true, count := c }, false)
  | .inf true => ({ x with any := true, nzs := true, ninf := true, count := c }, false)
  | .inf false => ({ x with any := true, nzs := true, pinf := true, count := c }, false)
  | .fin n a b =>
    let t := x.value + signedNum n (a * 2 ^ 149 / b)
    if exactOver t then ({ x with any := true, nzs := true, nan := true, count := c }, true)
    else ({ x with value := t, any := true, nzs := x.nzs || !(n && a == 0), count := c }, false)

/-- The second element merged into the first, with whether the sum left the range (R110). -/
def exactMerge (x y : Exact) : Exact × Bool :=
  let t := x.value + y.value
  let c := exactCount x.count y.count
  let fl : Exact := { x with
    any := x.any || y.any, nzs := x.nzs || y.nzs, ninf := x.ninf || y.ninf, pinf := x.pinf || y.pinf
    nan := x.nan || y.nan, count := c }
  if exactOver t then ({ fl with any := true, nzs := true, nan := true, count := exactCount x.count 1 }, true)
  else ({ fl with value := t }, false)

/-- The value an element stands for before rounding (R111). -/
def exactVal (x : Exact) : Val :=
  if x.nan || (x.pinf && x.ninf) then .nan
  else if x.pinf then .inf false
  else if x.ninf then .inf true
  else if x.value = 0 then .fin (x.any && !x.nzs) 0 1
  else .fin (decide (x.value < 0)) x.value.natAbs (2 ^ 149)

/-- The exact sum of a list of values, rounded once by its reader: with whether it left the range. -/
def exactSum (vs : List Val) : Exact × Bool :=
  vs.foldl (fun a v => let r := exactAdd a.1 v; (r.1, a.2 || r.2)) (exact0, false)

end Sys2Proof.Machine
end

