-- ==== Sys2Proof/Machine/Ops.lean ====
section
/-!
DEFINITION. The named operations over registers, memory, seals and the state's sparse groups, and the outputs of the
module.
-/

namespace Sys2Proof.Machine

open Sys2Proof

/-! ## Registers -/

/-- The 64-bit register at a control-space offset. -/
def State.rd (s : State) (off : Nat) : Nat := (smGet regReset s.regs off).toNat

/-- The state with the 64-bit register at a control-space offset replaced. -/
def State.wr (s : State) (off v : Nat) : State :=
  { s with regs := smSet regReset s.regs off (BitVec.ofNat 64 v) }

/-- The value of a register field. -/
def State.get (s : State) (f : Fld) : Nat := bitsOf f.hi f.lo (s.rd f.off)

/-- The state with a register field replaced by the low bits of `v`. -/
def State.put (s : State) (f : Fld) (v : Nat) : State := s.wr f.off (withBits f.hi f.lo v (s.rd f.off))

/-- The largest value of a field. -/
def fldMax (f : Fld) : Nat := 2 ^ (f.hi + 1 - f.lo) - 1

/-- A saturating counter field raised by `n`. -/
def State.inc (s : State) (f : Fld) (n : Nat) : State := s.put f (satAdd (fldMax f) (s.get f) n)

/-- A wrapping counter field raised by one. -/
def State.next (s : State) (f : Fld) : State := s.put f (s.get f + 1)

/-- The module time in nanoseconds (R281). -/
def State.now (s : State) : Nat := s.get HUB_TIME_TIME

/-- The module's own ID (R264). -/
def State.self (s : State) : Nat := s.get HUB_SL_RCTL_MODULE_ID

/-- The module is powered and out of reset; an orderly power-down still serves what forced Nadir serves (R404, R437). -/
def State.on (s : State) : Bool := decide (s.phase = Phase.on) || decide (s.phase = Phase.poweringDown)

/-- The module is frozen (R422). -/
def State.frozen (s : State) : Bool := s.get ECL_STATUS_FROZEN == 1

/-- The module runs: powered, not frozen, not in forced Nadir (R404, R422, R436). -/
def State.live (s : State) : Bool := s.on && !s.frozen && s.get PWR_STATUS_FORCED == 0

/-- An effect that happens only while the module runs. -/
def whenLive (s : State) (t : State) : State := if s.live then t else s

/-- An effect that happens only while the module is powered. -/
def whenOn (s : State) (t : State) : State := if s.on then t else s

/-- The state with one more output. -/
def State.emit (s : State) (o : Output) : State := { s with out := s.out ++ [o] }

/-- The state with a list of outputs. -/
def State.emits (s : State) (os : List Output) : State := { s with out := s.out ++ os }

/-- The next free value's index, and the state that has used it. -/
def State.useFree (s : State) : State := { s with free := s.free + 1 }

/-! ## Memory and seals -/

/-- The code of a byte space. -/
def spaceCode : Space → Nat
  | .l => 0 | .h => 1 | .d => 2 | .ls => 3 | .llm => 4 | .img => 5 | .flash => 6 | .jrn => 7 | .core => 8

/-- The key of a byte of a space. -/
def memKey (sp : Space) (a : Nat) : Nat := spaceCode sp * 2 ^ 64 + a % 2 ^ 64

/-- What a byte that nothing has written reads as (log 3). -/
def byte0 : Nat → Byte := fun _ => 0

/-- The canonical form of memory: strictly rising keys, and no entry equal to what an unlisted byte reads as. -/
abbrev Memory.wf (m : SMap Byte) : Bool := smWf byte0 m

/-- What the seal of a block that nothing has sealed reads as (R148). -/
def sealAt0 : Nat → Seal := fun _ => seal0

/-- The byte of a space at an address. -/
def State.byte (s : State) (sp : Space) (a : Nat) : Byte := smGet byte0 s.mem (memKey sp a)

/-- `n` bytes of a space from an address on. -/
def State.bytes (s : State) (sp : Space) (a n : Nat) : List Byte := smRange byte0 s.mem (memKey sp a) n

/-- A little-endian number of `n` bytes of a space. -/
def State.num (s : State) (sp : Space) (a n : Nat) : Nat := ofBytesLE (s.bytes sp a n)

/-- The state with bytes of a space replaced from an address on. -/
def State.setBytes (s : State) (sp : Space) (a : Nat) (bs : List Byte) : State :=
  { s with mem := smSetList byte0 s.mem (memKey sp a) bs }

/-- The seal of the 4 KiB block of a space that holds an address. -/
def State.sealOf (s : State) (sp : Space) (a : Nat) : Seal := smGet sealAt0 s.seals (memKey sp (a / 4096))

/-- The state with the seal of the block that holds an address replaced. -/
def State.setSeal (s : State) (sp : Space) (a : Nat) (x : Seal) : State :=
  { s with seals := smSet sealAt0 s.seals (memKey sp (a / 4096)) x }

/-- The 4,096 bytes of the block that holds an address. -/
def State.block (s : State) (sp : Space) (a : Nat) : List Byte := s.bytes sp (a / 4096 * 4096) 4096

/-- A whole block written with its seal: poison clears unless the seal carries it (R360). -/
def State.setBlock (s : State) (sp : Space) (a : Nat) (bs : List Byte) (x : Seal) : State :=
  (s.setBytes sp (a / 4096 * 4096) (bs.take 4096)).setSeal sp a x

/-- The seal of a block with a correct CRC over its present bytes, its tag, format and poison kept (R444). -/
def State.reseal (s : State) (sp : Space) (a : Nat) : State :=
  s.setSeal sp a { s.sealOf sp a with crc := crc32c (s.block sp a) }

/-- The blocks that a byte range touches, by their addresses. -/
def blocksOf (a n : Nat) : List Nat :=
  if n = 0 then [] else (List.range ((a + n - 1) / 4096 - a / 4096 + 1)).map fun i => (a / 4096 + i) * 4096

/-- A write of part of one or more blocks: every block it touches keeps its tag and poison and receives a correct
CRC (R444). -/
def State.partialWrite (s : State) (sp : Space) (a : Nat) (bs : List Byte) : State :=
  (blocksOf a bs.length).foldl (fun t b => t.reseal sp b) (s.setBytes sp a bs)

/-- The 16 bytes of a seal (R358). -/
def sealBytes (x : Seal) : List Byte :=
  bytesLE 4 x.crc.toNat ++
    bytesLE 4 (x.tensor.toNat + x.fmt.toNat * 2 ^ 24 + (if x.poison then 2 ^ 29 else 0)) ++
    bytesLE 4 x.block.toNat ++ bytesLE 4 x.step.toNat

/-- The seal that 16 bytes hold (R358). -/
def sealOfBytes (bs : List Byte) : Seal :=
  let w := ofBytesLE bs
  { crc := BitVec.ofNat 32 w, tensor := BitVec.ofNat 24 (bitsOf 55 32 w), fmt := BitVec.ofNat 5 (bitsOf 60 56 w),
    poison := bitsOf 61 61 w == 1, block := BitVec.ofNat 32 (bitsOf 95 64 w), step := BitVec.ofNat 32 (bitsOf 127 96 w) }

/-- A seal made by a producer for a block's bytes (R92, R359). -/
def mkSeal (bs : List Byte) (tensor fmt block step : Nat) : Seal :=
  { crc := crc32c bs, tensor := BitVec.ofNat 24 tensor, fmt := BitVec.ofNat 5 fmt, poison := false,
    block := BitVec.ofNat 32 block, step := BitVec.ofNat 32 step }

/-- The CRC of a seal is that of its block. -/
def crcGood (x : Seal) (bs : List Byte) : Bool := x.crc == crc32c bs

/-- The local-store key of byte `off` of physical tile `t`. -/
def lsAddr (t off : Nat) : Nat := t * 2 ^ 24 + off

/-! ## The sparse groups of the state -/

/-- A context's data. -/
def State.ctx (s : State) (n : Nat) : CtxData := smGet (fun _ => ctxData0) s.ctxs n

/-- The state with a context's data replaced. -/
def State.setCtx (s : State) (n : Nat) (x : CtxData) : State :=
  { s with ctxs := smSet (fun _ => ctxData0) s.ctxs n x }

/-- A physical tile. -/
def State.tile (s : State) (t : Nat) : Tile := smGet (fun _ => tile0) s.tiles t

/-- The state with a physical tile replaced. -/
def State.setTile (s : State) (t : Nat) (x : Tile) : State := { s with tiles := smSet (fun _ => tile0) s.tiles t x }

/-- A work list of a partition, by 8·p + w. -/
def State.wlist (s : State) (p w : Nat) : WorkList := smGet (fun _ => workList0) s.lists (8 * p + w)

/-- The state with a work list replaced. -/
def State.setWlist (s : State) (p w : Nat) (x : WorkList) : State :=
  { s with lists := smSet (fun _ => workList0) s.lists (8 * p + w) x }

/-- The base of a queue's registers (R118, R199, R231, R287, R332). -/
def queueBase : QueueId → Nat
  | .workList p w => 0x300000 + p * 0x400 + w * 0x40
  | .haloQp q qp => 0x20021000 + q * 0x100000 + qp * 0x40
  | .orrQp q qp => 0x1501000 + q * 0x1000000 + qp * 0x40
  | .collCh q c => 0x1601000 + q * 0x1000000 + c * 0x40
  | .cmdRing n => 0x100000000 + n * 0x10000 + 8

/-- A queue's data beside its registers. -/
def State.queue (s : State) (q : QueueId) : QueueData := smGet (fun _ => queue0) s.queues (queueBase q)

/-- The state with a queue's data replaced. -/
def State.setQueue (s : State) (q : QueueId) (x : QueueData) : State :=
  { s with queues := smSet (fun _ => queue0) s.queues (queueBase q) x }

/-- The commit state of a partition. -/
def State.commit (s : State) (p : Nat) : CommitData := smGet (fun _ => commit0) s.commits p

/-- The state with a partition's commit state replaced. -/
def State.setCommit (s : State) (p : Nat) (x : CommitData) : State :=
  { s with commits := smSet (fun _ => commit0) s.commits p x }

/-- A port. -/
def State.port (s : State) (p : Nat) : Port := smGet (fun _ => port0) s.ports p

/-- The state with a port replaced. -/
def State.setPort (s : State) (p : Nat) (x : Port) : State := { s with ports := smSet (fun _ => port0) s.ports p x }

/-- A function's data. -/
def State.fn (s : State) (f : Nat) : FnData := smGet (fun _ => fn0) s.fns f

/-- The state with a function's data replaced. -/
def State.setFn (s : State) (f : Nat) (x : FnData) : State := { s with fns := smSet (fun _ => fn0) s.fns f x }

/-- A stack. -/
def State.stk (s : State) (k : Nat) : Stack := smGet (fun _ => stack0) s.stks k

/-- The state with a stack replaced. -/
def State.setStk (s : State) (k : Nat) (x : Stack) : State := { s with stks := smSet (fun _ => stack0) s.stks k x }

/-- The physical tile of a logical tile with no retirement: 64 logical on the 68 physical tiles of each quadrant, in
ascending order (R369). -/
def tileOf0 (l : Nat) : Nat := l / 64 * 68 + l % 64

/-- The physical tile that holds a logical tile (R370). -/
def State.physOf (s : State) (l : Nat) : Nat := smGet tileOf0 s.flt.tileOf l

/-- The quadrant of a physical tile. -/
def quadOfTile (t : Nat) : Nat := t / 68

/-- Numbers 0 to 127. -/
def parts : List Nat := List.range 128

/-- The partition exists in the active configuration (R39). -/
def State.partValid (s : State) (p : Nat) : Bool := s.get (HUB_PART_CFG_VALID p) == 1

/-- Bit `i` of a number. -/
def bitAt (v i : Nat) : Bool := v / 2 ^ i % 2 == 1

/-- The owned logical tiles of a partition (R39). -/
def State.partTiles (s : State) (p : Nat) : List Nat :=
  (List.range 256).filter fun l =>
    bitAt (s.rd (0x200008 + p * 0x40 + l / 64 * 8)) (l % 64)

/-- The partition that owns a logical tile. -/
def State.tilePart (s : State) (l : Nat) : Option Nat :=
  parts.find? fun p => s.partValid p && bitAt (s.rd (0x200008 + p * 0x40 + l / 64 * 8)) (l % 64)

/-- The partition that owns an active slice `16q + i` (R39). -/
def State.slicePart (s : State) (k : Nat) : Option Nat :=
  parts.find? fun p => s.partValid p && bitAt (s.rd (0x200028 + p * 0x40)) k

/-- The codes of the completion statuses (R18). -/
def statusCode : Status → Nat
  | .done => 0x00 | .doneCorrected => 0x01 | .deferred => 0x10 | .refusedQuota => 0x11 | .refusedCapacity => 0x12
  | .refusedPartition => 0x13 | .lostGeneration => 0x20 | .portNotReady => 0x21 | .timeout => 0x22
  | .sealMismatch => 0x30 | .poisoned => 0x31 | .nonfinite => 0x32 | .stepSkipped => 0x40 | .cancelled => 0x41

/-- The status that a code names; an unknown code is a failure (R11). -/
def statusOfCode (c : Nat) : Option Status :=
  [Status.done, .doneCorrected, .deferred, .refusedQuota, .refusedCapacity, .refusedPartition, .lostGeneration,
    .portNotReady, .timeout, .sealMismatch, .poisoned, .nonfinite, .stepSkipped, .cancelled].find?
    fun x => statusCode x == c

/-- Whether a status reports completion with a valid result (class 0x0). -/
def Status_ok (x : Status) : Bool := statusCode x < 0x10

end Sys2Proof.Machine
end

