-- ==== Sys2Proof/Machine/Events.lean ====
section
/-!
DEFINITION. Recording events: the staging ring and its full rule, the flash rings, the recording limits, the CPER
ring, the freeze that a trigger starts, and the notices a freeze sends (R384 to R392, R413 to R424).
-/

namespace Sys2Proof.Machine

open Sys2Proof

/-! ## Sending on a port -/

/-- The next transaction number of a source unit (R259). -/
def State.newTxn (s : State) (unit : Nat) : Nat := smGet (fun _ => 0) s.txns unit

/-- The state that has used it. -/
def State.useTxn (s : State) (unit : Nat) : State :=
  { s with txns := smSet (fun _ => 0) s.txns unit ((s.newTxn unit + 1) % 2 ^ 32) }

/-- The bytes that packets take in a retry buffer, each with its link word, header and LCRC (R259, R261). -/
def keptBytes (l : List Kept) : Nat := l.foldl (fun n k => n + 40 + k.pkt.payload.length) 0

/-- A packet may leave its port now: the port is Up; in Ethernet role PFC does not pause its class (R277); otherwise the
retry buffer has room for it (R261). -/
def State.canSend (s : State) (p : Nat) (k : Kept) : Bool :=
  let x := s.port p
  s.get (SL_STATUS_STATE p) == 3 &&
    (if s.get (SL_STATUS_ROLE p) = 2 then !x.pfcPaused.contains k.pkt.cls
     else decide (x.retry.length < 2048) && decide (keptBytes x.retry + 40 + k.pkt.payload.length ≤ 524288))

/-- An answer to a request: nothing acknowledges it (log 40). -/
def isAnswer (ty : Nat) : Bool := ty == 0x02 || ty == 0x04 || ty == 0x06 || ty == 0x09

/-- A packet leaves its port: on a Starlane port it takes the next sequence number and stays in the retry buffer (R261);
on an Ethernet port it is kept until its TXN is acknowledged (R278). -/
def State.sendKept (s : State) (p : Nat) (k : Kept) : State :=
  let x := s.port p
  let k : Kept := { k with seq := x.nextSeq, first := if k.sends = 0 then s.now else k.first, sends := 1 }
  if s.get (SL_STATUS_ROLE p) = 2 then
    (s.setPort p { x with ethUnacked := if isAnswer k.pkt.ty then x.ethUnacked else x.ethUnacked ++ [k] }).emit
      (.packet p 0 0 k.pkt)
  else
    (s.setPort p { x with nextSeq := (x.nextSeq + 1) % 4096, retry := x.retry ++ [k] }).emit
      (.packet p x.nextSeq x.lastGood k.pkt)

/-- The queued packets of a port sent while they may be: C0 first, and each class in order (R262, R263; log 41). -/
def State.pumpN (p : Nat) : Nat → State → State
  | 0, s => s
  | n + 1, s =>
    let x := s.port p
    match [0, 1, 2, 3].findSome? fun c => (x.queues.find? fun k => k.pkt.cls == c).filter fun k => s.canSend p k with
    | some k => State.pumpN p n ((s.setPort p { x with queues := x.queues.erase k }).sendKept p k)
    | none => s

/-- The queued packets of a port sent while they may be. -/
def State.pump (s : State) (p : Nat) : State := State.pumpN p (s.port p).queues.length s

/-- A packet queued on a port, and sent when it may be. -/
def State.enqueue (s : State) (p : Nat) (k : Kept) : State :=
  let x := s.port p
  (s.setPort p { x with queues := x.queues ++ [k] }).pump p

/-- A packet sent on a port; one of the hub itself takes its transaction number (R259). -/
def State.sendOn (s : State) (p part : Nat) (pkt : Packet) : State :=
  if pkt.srcUnit = 0 ∧ pkt.srcModule = s.get HUB_SL_RCTL_MODULE_ID ∧ 0x0A ≤ pkt.ty ∧ pkt.ty ≤ 0x0D then
    (s.useTxn 0).enqueue p ⟨0, { pkt with txn := s.newTxn 0 }, s.now, 0, part⟩
  else s.enqueue p ⟨0, pkt, s.now, 0, part⟩

/-- The ports that are Up (R258). -/
def State.upPorts (s : State) : List Nat := (List.range 32).filter fun p => s.get (SL_STATUS_STATE p) == 3

/-- The module that a constellation member is (R279). -/
def State.memberModule (s : State) (c : Nat) : Nat := smGet (fun _ => 0) s.const.memberModules c

/-- The receivers of a hold notice: the Lodestar and the job parent of each partition, once each, the module itself
left out (R386, R404, R422). -/
def State.noticeTo (s : State) : List Nat :=
  let parents := (parts.filter fun p => s.partValid p && s.get (HUB_MER_JOB_ROOT p) == 0).map fun p =>
    s.get (SL_STATUS_PEER_MODULE (s.get (HUB_MER_JOB_PARENT p)))
  let ls := s.memberModule (s.get HUB_CONST_STATUS_LODESTAR)
  (ls :: parents).eraseDups.filter fun m => m != s.self && m != 0

/-- The 32-byte payload of a hold, freeze or release notice (R386). -/
def noticePayload (kind cause sender time beat held : Nat) : List Byte :=
  bytesLE 1 kind ++ bytesLE 1 cause ++ bytesLE 2 0 ++ bytesLE 4 sender ++ bytesLE 8 time ++ bytesLE 8 beat ++
    bytesLE 8 held

/-- One notice to every receiver on every Up port at C0 (R386). -/
def State.notice (s : State) (payload : List Byte) : State :=
  (s.upPorts.flatMap fun p => s.noticeTo.map fun m => (p, m)).foldl
    (fun t pm => t.sendOn pm.1 128
      { ty := 0x0B, cls := 0, dstModule := pm.2, srcModule := s.self, payload := payload }) s

/-! ## Severity, source unit, sensor and rail -/

/-- The severity that a code's table gives: 0 Note, 1 Warning, 2 Fault, 3 Fatal. -/
def evSev (code : Nat) : Nat :=
  if code ∈ [0x2107, 0x3102, 0x5102, 0x6105, 0x7101, 0x7102, 0x7107, 0x8107, 0x9103, 0x9109, 0xA105, 0xA106, 0xA107,
      0xA108, 0xB102, 0xB103, 0xC101, 0xC10B, 0xC10C, 0xD107, 0xE102, 0xF101, 0xF105, 0xF106, 0x1104, 0x1109, 0x110A,
      0x1701, 0x1702, 0x1907] then 0
  else if code ∈ [0x2106, 0x3105, 0x3106, 0x6103, 0x6104, 0x8103, 0x8104, 0x9105, 0x9108, 0xC105, 0xC106, 0xC10A,
      0xF102, 0xF108, 0x1106, 0x1107, 0x1704, 0x1706, 0x1904, 0x1908] then 2
  else if code ∈ [0x8106, 0xF103, 0x1108, 0x1709] then 3
  else 1

/-- The quadrant whose junction and core rail a unit's record carries, where it has one (R414). -/
def unitQuad (u : Nat) : Option Nat :=
  if 0x001 ≤ u ∧ u ≤ 0x004 then some (u - 1)
  else if 0x020 ≤ u ∧ u ≤ 0x03F then some ((u - 0x20) / 8)
  else if 0x200 ≤ u ∧ u ≤ 0x30F then some ((u - 0x200) / 68)
  else if 0x400 ≤ u ∧ u ≤ 0x443 then some ((u - 0x400) / 17)
  else none

/-- The temperature of a unit's sensor in °C, 0xFF where it has not been measured (R413, R414). -/
def State.unitTemp (s : State) (u : Nat) : Nat :=
  let c (x : Option Nat) : Nat := match x with
    | some v => min v 254
    | none => 0xFF
  match unitQuad u with
  | some q => c (smGet (fun _ => none) s.pwr.tempQuad q)
  | none =>
    if 0x010 ≤ u ∧ u ≤ 0x01B then min (s.get (HBM_STACK_STATUS_TEMP (u - 0x10)) / 4) 254
    else if u = 0x040 then c s.pwr.tempDeep
    else c s.pwr.tempHub

/-- The rail of a unit, by its index of R407 (R414). -/
def unitRail (u : Nat) : Nat :=
  if 0x001 ≤ u ∧ u ≤ 0x004 then u
  else if 0x010 ≤ u ∧ u ≤ 0x01B then 7
  else if 0x020 ≤ u ∧ u ≤ 0x03F then 9
  else if u = 0x040 then 10
  else if 0x200 ≤ u ∧ u ≤ 0x30F then 1 + (u - 0x200) / 68
  else if 0x400 ≤ u ∧ u ≤ 0x443 then 5
  else 6

/-! ## The staging ring (R419) -/

/-- A record of the present time and sensors (R413). -/
def State.mkRec (s : State) (code sev unit op p0 p1 p2 : Nat) : EphRec :=
  ⟨code, sev, unit, s.get EPH_TIME_OP_TIME, s.unitTemp unit, smGet (fun _ => 0) s.pwr.volts (unitRail unit),
    s.get EPH_CYCLES_POWER_CYCLES, op % 2 ^ 32, p0 % 2 ^ 32, p1 % 2 ^ 32, p2 % 2 ^ 32⟩

/-- The staged records replaced, with STAGED kept. -/
def State.setStaged (s : State) (l : List EphRec) : State :=
  { s with eph := { s.eph with staged := l } }.put EPH_STATUS_STAGED l.length

/-- The list without its first element of a severity. -/
def dropFirstSev (sev : Nat) : List EphRec → List EphRec
  | [] => []
  | r :: rs => if r.sev = sev then rs else r :: dropFirstSev sev rs

/-- The drop counter of a severity (R419, R421). -/
def dropFld (sev : Nat) : Fld :=
  if sev = 0 then EPH_DROPPED_NOTE else if sev = 1 then EPH_DROPPED_WARNING else EPH_DROPPED_FAULT

/-- One drop counted, under its own severity (R419). -/
def State.countDrop (s : State) (sev : Nat) : State :=
  let d := s.eph.drops
  { s with eph := { s.eph with drops :=
      if sev = 0 then (d.1 + 1, d.2.1, d.2.2) else if sev = 1 then (d.1, d.2.1 + 1, d.2.2)
      else (d.1, d.2.1, d.2.2 + 1) } }.inc (dropFld sev) 1

/-- The severity of the staged record that an arrival of severity `sev` replaces in a full ring (R419). -/
def victimSev (sev : Nat) (l : List EphRec) : Option Nat :=
  ((List.range 3).filter (· < sev)).find? fun v => l.any fun r => r.sev == v

/-! ## The flash rings (R417, R418, R420) -/

/-- Slots per sector. -/
def secSlots : Nat := 2048

/-- The next sector of a ring of `n` sectors from flash sector `base` on, bad sectors skipped. -/
def nextSector (bad : List Nat) (base n : Nat) : Nat → Nat → Nat
  | 0, k => (k + 1) % n
  | f + 1, k => if (base + (k + 1) % n) ∈ bad then nextSector bad base n f ((k + 1) % n) else (k + 1) % n

/-- The sector after a ring's head. -/
def afterHead (bad : List Nat) (base n head : Nat) : Nat := nextSector bad base n n (head / secSlots)

/-- The slot after a slot, with whether it lies in another sector. -/
def nextSlot (bad : List Nat) (base n head : Nat) : Nat × Bool :=
  if (head + 1) % secSlots = 0 then (nextSector bad base n n (head / secSlots) * secSlots, true) else (head + 1, false)

/-- A record written at the general ring's head (R417): the head moves on, and when it enters a sector the erase of
the sector after it starts. -/
def State.genWrite (s : State) (r : EphRec) : State :=
  let h := s.get EPH_GEN_PTR_HEAD
  let (h', moved) := nextSlot s.eph.bad 0 192 h
  let t := { s with eph := { s.eph with
    general := smSet (fun _ => none) s.eph.general h (some r)
    genErase := if moved then some (afterHead s.eph.bad 0 192 h') else s.eph.genErase } }
  let t := t.put EPH_GEN_PTR_HEAD h'
  if moved ∧ h' ≤ h then t.next EPH_GEN_PTR_WRAPS else t

/-- A record written at the keep ring's head, with whether the head entered a sector. -/
def State.keepPut (s : State) (r : EphRec) : State × Bool :=
  let h := s.get EPH_KEEP_PTR_HEAD
  let (h', moved) := nextSlot s.eph.bad 192 64 h
  let t := { s with eph := { s.eph with keep := smSet (fun _ => none) s.eph.keep h (some r) } }
  let t := t.put EPH_KEEP_PTR_HEAD h'
  (if moved ∧ h' ≤ h then t.next EPH_KEEP_PTR_WRAPS else t, moved)

/-- The Fatal records of a keep sector, in slot order. -/
def State.keepFatals (s : State) (sec : Nat) : List EphRec :=
  s.eph.keep.filterMap fun kv =>
    if kv.1 / secSlots = sec then (match kv.2 with
      | some r => if r.sev = 3 then some r else none
      | none => none) else none

/-- The Fatal records that the keep ring holds. -/
def State.fatalCount (s : State) : Nat :=
  (s.eph.keep.filter fun kv => match kv.2 with
    | some r => r.sev == 3
    | none => false).length

/-- A record put in the staging ring, or the rule of a full ring applied; a Fatal arrival at a ring of 4,096 Fatals
first moves the oldest to flash (R419). -/
def State.stageWith (program : State → EphRec → State) (s : State) (r : EphRec) : State :=
  let l := s.eph.staged
  if l.length < 4096 then s.setStaged (l ++ [r])
  else match victimSev r.sev l with
    | some v => (s.countDrop v).setStaged (dropFirstSev v l ++ [r])
    | none =>
      if r.sev = 3 then
        match l with
        | [] => s.setStaged [r]
        | o :: rest =>
          let t := (program s o).put EPH_STATUS_STAGE_FIRST (s.get EPH_STATUS_STAGE_FIRST + 1)
          t.setStaged (rest ++ [r])
      else s.countDrop r.sev

/-- The Fatal records of the oldest keep sector copied to the head, one after another, before that sector is erased;
a record is lost instead while the ring holds 65,536 Fatal records (R418). Answers the state and the number lost. -/
def State.keepCopies : State → List EphRec → Nat → Nat → State × Nat
  | s, [], _, lost => (s, lost)
  | s, r :: rs, total, lost =>
    if 65536 ≤ total then State.keepCopies (s.inc EPH_DROPPED_FATAL_LOST 1) rs (total - 1) (lost + 1)
    else State.keepCopies (s.keepPut r).1 rs total lost

/-- A record staged in a ring with room; a full ring drops or replaces without programming. -/
def State.stagePlain (s : State) (r : EphRec) : State := s.stageWith (fun t _ => t) r

/-- The keep head has entered a sector: the Fatals of the sector after it are copied, and its erase starts (R418). -/
def State.keepEnter (s : State) : State :=
  let sec := afterHead s.eph.bad 192 64 (s.get EPH_KEEP_PTR_HEAD)
  let (t, lost) := s.keepCopies (s.keepFatals sec) s.fatalCount 0
  let t := { t with eph := { t.eph with keepErase := some sec } }
  if lost = 0 then t else t.stagePlain (t.mkRec 0x1904 2 0 0 lost (t.get EPH_KEEP_PTR_HEAD) 0)

/-- A Fault or Fatal record written to the keep ring (R417). -/
def State.keepWrite (s : State) (r : EphRec) : State :=
  let (t, moved) := s.keepPut r
  if moved ∧ t.eph.keepErase = none then t.keepEnter else t

/-- A record written to flash: every record to the general ring, Fault and Fatal also to the keep ring (R417). -/
def State.programRec (s : State) (r : EphRec) : State :=
  let t := s.genWrite r
  if 2 ≤ r.sev then t.keepWrite r else t

/-- A record staged (R419). -/
def State.stage (s : State) (r : EphRec) : State := s.stageWith State.programRec r

/-! ## The freeze that a source starts (R422) -/

/-- A freeze from a source (1 pin, 2 register, 3 trigger, 4 planned): no effect while FROZEN (R422). -/
def State.freezeFrom (s : State) (src : Nat) : State :=
  if s.frozen then s
  else
    let t := ((((s.put ECL_STATUS_FROZEN 1).put ECL_STATUS_SOURCE src).inc ECL_STATUS_FREEZES 1).put ECL_BEAT_BEAT
      (s.get HUB_BEAT_BEAT))
    let t := { t with ecl := { t.ecl with
      waitsResume := true, frozenAt := s.now, depositRecorded := false, snapshot := t.regs } }
    let t := if s.get ECL_CFG_DRIVE_PIN = 1 then
        { t with pins := { t.pins with freezeDriven := true } }.emit (.pin "FREEZE_N" false) else t
    let t := t.notice (noticePayload 4 src s.self s.now (s.get HUB_BEAT_BEAT) 0)
    t.stage (t.mkRec 0x1906 1 0 0 src (s.get HUB_BEAT_BEAT) (s.get ECL_CFG_TRIG_CODE))

/-- The trigger of a staged record (R422). -/
def State.trigger (s : State) (code sev : Nat) : State :=
  if s.get ECL_CFG_TRIG_EN = 1 ∧ s.get ECL_CFG_TRIG_CODE = code ∧ bitAt (s.get ECL_CFG_TRIG_SEV) sev then
    s.freezeFrom 3
  else s

/-! ## CPER records (R388 to R391) -/

/-- The unit class and index of a source unit (R389). -/
def unitClass (u : Nat) : Nat × Nat :=
  if 0x001 ≤ u ∧ u ≤ 0x004 then (10, u - 1)
  else if 0x010 ≤ u ∧ u ≤ 0x01B then (5, u - 0x10)
  else if 0x020 ≤ u ∧ u ≤ 0x03F then (9, u - 0x20)
  else if u = 0x040 then (8, 0)
  else if 0x200 ≤ u ∧ u ≤ 0x30F then (1, u - 0x200)
  else if 0x400 ≤ u ∧ u ≤ 0x443 then (3, u - 0x400)
  else (12, 0)

/-- A CPER record written to the ring of 256 entries, and sent to the fabric manager (R388, R391). -/
def State.cper (s : State) (code sev cls idx action spares p0 p1 p2 : Nat) : State :=
  let n := s.get HUB_CPER_PTR_SEQ + 1
  let i := s.get HUB_CPER_PTR_INDEX
  let r : Cper := ⟨n, code, sev, cls, idx, action, spares, s.now, s.get EPH_TIME_OP_TIME,
    s.get EPH_CYCLES_POWER_CYCLES, p0 % 2 ^ 32, p1 % 2 ^ 32, p2 % 2 ^ 32,
    if action = 2 ∨ action = 3 then s.get HUB_STAR_STATUS_SEQ + 1 else 0⟩
  (({ s with flt := { s.flt with
      cpers := smSet (fun _ => none) s.flt.cpers i (some r)
      undelivered := (s.flt.undelivered ++ [n]).drop (s.flt.undelivered.length + 1 - 256) } }.put HUB_CPER_PTR_SEQ n).put
    HUB_CPER_PTR_INDEX (i + 1)).emit (.cper n)

/-! ## Recording an event -/

/-- An event recorded with a severity: the record is staged, may trigger a freeze, and from severity Fault on is
written as a CPER record too (R388, R413, R422). -/
def State.evS (s : State) (code sev unit op p0 p1 p2 : Nat) : State :=
  let t := s.stage (s.mkRec code sev unit op p0 p1 p2)
  let t := if 2 ≤ sev then
      t.cper code sev (unitClass unit).1 (unitClass unit).2 (if sev = 3 then 5 else 0) 0 p0 p1 p2 else t
  t.trigger code sev

/-- An event recorded at its table's severity. -/
def State.ev (s : State) (code unit op p0 p1 p2 : Nat) : State := s.evS code (evSev code) unit op p0 p1 p2

/-- The entry of a code and key in the limit table. -/
def findLimit (l : List EvLimit) (code key : Nat) : Option EvLimit := l.find? fun e => e.code == code && e.key == key

/-- The limit table with the entry of a code and key replaced. -/
def setLimit (l : List EvLimit) (e : EvLimit) : List EvLimit :=
  e :: l.filter fun x => !(x.code == e.code && x.key == e.key)

/-- An event recorded at most once per key per `period` nanoseconds; a further occurrence within that time is folded
into the count of the key's next record (R48, R117, R145, R168).  `mk` makes the three parameters from the count and
from the value `first` of the first occurrence that the record covers. -/
def State.evEvery (s : State) (period code sev key unit op n first : Nat) (mk : Nat → Nat → Nat × Nat × Nat) : State :=
  match findLimit s.eph.limits code key with
  | some e =>
    if s.now < e.last + period then
      let e' : EvLimit := ⟨code, key, e.last, e.folded + n, if e.folded = 0 then first else e.first⟩
      { s with eph := { s.eph with limits := setLimit s.eph.limits e' } }
    else
      let f := if e.folded = 0 then first else e.first
      let p := mk (e.folded + n) f
      { s with eph := { s.eph with limits := setLimit s.eph.limits ⟨code, key, s.now, 0, 0⟩ } }.evS code sev unit op
        p.1 p.2.1 p.2.2
  | none =>
    let p := mk n first
    { s with eph := { s.eph with limits := setLimit s.eph.limits ⟨code, key, s.now, 0, 0⟩ } }.evS code sev unit op
      p.1 p.2.1 p.2.2

/-- 10 ms in nanoseconds. -/
def ms10 : Nat := 10000000

/-- An event limited to one per key per 10 ms, with the count of folded occurrences in its third parameter. -/
def State.evLim (s : State) (code key unit op p0 p1 : Nat) : State :=
  s.evEvery ms10 code (evSev code) key unit op 1 0 fun n _ => (p0, p1, n)

/-- An event limited to one per key per 10 ms, with three parameters of its own. -/
def State.evLim3 (s : State) (code key unit op p0 p1 p2 : Nat) : State :=
  s.evEvery ms10 code (evSev code) key unit op 1 0 fun _ _ => (p0, p1, p2)

/-- An isolation event of a context: its ID, the events folded, and the first offending address (R48). -/
def State.evIso (s : State) (code ctx op addr : Nat) : State :=
  s.evEvery ms10 code (evSev code) ctx 0 op 1 addr fun n f => (ctx, n, f)

/-- An event recorded once per power cycle per key (R7, R33). -/
def State.evOnce (s : State) (code key p0 p1 p2 : Nat) : State :=
  if (code, key) ∈ s.recorded then s
  else { s with recorded := (code, key) :: s.recorded }.ev code 0 0 p0 p1 p2

end Sys2Proof.Machine
end

