-- ==== Sys2Proof/Machine/Lines.lean ====
section
/-!
DEFINITION. The lines of the LLM cache slices and their recall (R161 to R164).
-/

namespace Sys2Proof.Machine

open Sys2Proof

/-! ## Cache lines (R161 to R164)

Space h holds what every reader sees; for a block under a dirty line, space llm holds the stack's own older copy. -/

/-- The cache slices of a partition, as 17q + i (R162). -/
def State.cacheSlices (s : State) (p : Nat) : List Nat :=
  (List.range 68).filter fun k =>
    (s.get (LLM_SLICE_STATUS_STATE (k / 17) (k % 17)) == 1 || s.get (LLM_SLICE_STATUS_STATE (k / 17) (k % 17)) == 5) &&
      s.get (LLM_SLICE_STATUS_PARTITION (k / 17) (k % 17)) == p

/-- The line that holds a block. -/
def State.lineOf (s : State) (b : Nat) : Option Line := s.lines.find? fun l => l.block == b

/-- DIRTY of every slice follows its lines. -/
def State.countDirty (s : State) (k : Nat) : State :=
  s.put (LLM_SLICE_STATUS_DIRTY (k / 17) (k % 17)) ((s.lines.filter fun l => l.slice == k && l.dirty).length)

/-- The stack's own copy of a block, kept while a dirty line covers it. -/
def State.saveStale (s : State) (b : Nat) : State :=
  s.setBlock .llm (b * 4096) (s.block .h (b * 4096)) (s.sealOf .h (b * 4096))

/-- The stack's own copy dropped: the line's data is in H. -/
def State.dropStale (s : State) (b : Nat) : State := s.setBlock .llm (b * 4096) (List.replicate 4096 0) seal0

/-- A line written back: clean, its data in H. -/
def State.writeBackLine (s : State) (b : Nat) : State :=
  match s.lineOf b with
  | some l =>
    if l.dirty then
      ({ s with lines := s.lines.map fun (x : Line) => if x.block = b then { x with dirty := false } else x }.dropStale
        b).countDirty l.slice
    else s
  | none => s

/-- A line dropped; dirty data that has not been written back is lost, and H shows the stack's own copy. -/
def State.dropLine (s : State) (b : Nat) : State :=
  match s.lineOf b with
  | some l =>
    let t := if l.dirty then
        (s.setBlock .h (b * 4096) (s.block .llm (b * 4096)) (s.sealOf .llm (b * 4096))).dropStale b else s
    { t with lines := t.lines.filter fun x => x.block != b }.countDirty l.slice
  | none => s

/-- The recall before another agent's write of a block of H (R164). -/
def State.recallWrite (s : State) (a : Nat) : State := (s.writeBackLine (a / 4096)).dropLine (a / 4096)

/-- The recall before another agent's read of a block of H (R164). -/
def State.recallRead (s : State) (a : Nat) : State := s.writeBackLine (a / 4096)

/-- The next recency stamp. -/
def State.stamp (s : State) : Nat := s.lines.foldl (fun m l => max m (l.lru + 1)) 1

/-- The slice and set of a block among a partition's cache slices (R162; log 8). -/
def linePlace (slices : List Nat) (b : Nat) : Nat × Nat :=
  let x := Config.llmPlace slices.length b
  (slices.getD (x % slices.length) 0, x / slices.length % 256)

/-- The line of a full set that a new one may replace: a tentative line first, then the least recently used line that
is not pinned; a prefetch takes no dirty line either (R163). -/
def State.victim (s : State) (k set : Nat) (prefetch : Bool) : Option Line :=
  let ls := s.lines.filter fun l => l.slice == k && l.set == set
  let least (xs : List Line) : Option Line := match xs with
    | [] => none
    | x :: r => some (r.foldl (fun m y => if y.lru < m.lru then y else m) x)
  match least (ls.filter fun l => l.tentative && !l.dirty) with
  | some l => some l
  | none => least (ls.filter fun l => !l.pinned && !(prefetch && l.dirty))

/-- Room made for a line of a block, or none where no way is free. -/
def State.makeRoom (s : State) (k set : Nat) (prefetch : Bool) : Option State :=
  if (s.lines.filter fun l => l.slice == k && l.set == set).length < 16 then some s
  else match s.victim k set prefetch with
    | some l => some ((s.writeBackLine l.block).dropLine l.block)
    | none => none

/-- A demand access of a tile block mover to a block of H through its partition's cache slices, `pin` for work of the
current step: a hit, or a fill where a way is free; a store saves the stack's copy and makes the line dirty (R162 to
R164; log 21). -/
def State.llmAccess (s : State) (p b : Nat) (write pin : Bool) : State :=
  let slices := s.cacheSlices p
  if slices.isEmpty then s
  else
    let (s1, hit) := match s.lineOf b with
      | some l => (s.inc (LLM_HITS_HITS (l.slice / 17) (l.slice % 17)) 1, true)
      | none =>
        let (k, set) := linePlace slices b
        let t := s.inc (LLM_HITS_MISSES (k / 17) (k % 17)) 1
        match t.makeRoom k set false with
        | some u => ({ u with lines := u.lines ++ [Line.mk k set b false false false 0] }, true)
        | none => (t, false)
    if !hit then s1
    else
      let st := s1.stamp
      let wasDirty := match s1.lineOf b with
        | some l => l.dirty
        | none => false
      let s2 := if write && !wasDirty then s1.saveStale b else s1
      let s3 := { s2 with lines := s2.lines.map fun (l : Line) =>
        if l.block = b then { l with dirty := l.dirty || write, pinned := l.pinned || pin, tentative := false, lru := st }
        else l }
      match s3.lineOf b with
      | some l => s3.countDirty l.slice
      | none => s3

/-- A prefetch of a block: filled as a tentative line at the least recently used position, or CANCELLED where no way
is free (R163). -/
def State.llmPrefetch (s : State) (p b : Nat) : State × Bool :=
  let slices := s.cacheSlices p
  if slices.isEmpty || (s.lineOf b).isSome then (s, true)
  else
    let (k, set) := linePlace slices b
    match s.makeRoom k set true with
    | some u => ({ u with lines := u.lines ++ [Line.mk k set b false false true 0] }, true)
    | none => (s, false)

/-- The pinned lines of a partition's slices released at its commit or skip (R163). -/
def State.unpin (s : State) (p : Nat) : State :=
  let slices := s.cacheSlices p
  { s with lines := s.lines.map fun l => if slices.contains l.slice then { l with pinned := false } else l }

end Sys2Proof.Machine
end

