-- ==== Sys2Proof/Machine/Access.lean ====
section
/-!
DEFINITION. Views, isolation violations, rings, completion records and interrupts: what every engine does with an
address, a queue and a finished request (R25 to R48, R118, R199, R329 to R331).
-/

namespace Sys2Proof.Machine

open Sys2Proof

/-! ## Module addresses (R25) -/

/-- The tier code of a module address. -/
def tierOf (a : Nat) : Nat := a / 2 ^ 60 % 16

/-- The offset of a module address. -/
def offOf (a : Nat) : Nat := a % 2 ^ 60

/-- The byte space of tier L, H or D. -/
def tierSpace (t : Nat) : Space := if t = 0 then .l else if t = 1 then .h else .d

/-- The granule of an extent of tier L, H or D. -/
def granule (t : Nat) : Nat := if t = 0 then 65536 else if t = 1 then 2 ^ 21 else 2 ^ 30

/-- The outcome of a view check: the extent and the offset in it, a range of another tier, or the event code of the
refusal (R27, R48). -/
inductive View where
  | extent (e : Extent) (rel : Nat)
  | outside (tier off : Nat)
  | refuse (code : Nat)
  deriving DecidableEq, Repr

/-- The extent of a list that holds the whole of a byte range of a tier (R27). -/
def findExtent (es : List Extent) (t off len : Nat) : Option Extent :=
  es.find? fun e => e.tier == t && decide (e.off ≤ off) && decide (off + len ≤ e.off + e.len)

/-- The peer window of a context that holds the whole of a bus range (R338). -/
def State.findWindow (s : State) (ctx off len : Nat) : Option (Nat × PeerWin) :=
  ((s.ctx ctx).peers.filterMap fun kv => match kv.2 with
    | some w => if w.base ≤ off ∧ off + len ≤ w.base + w.len then some (kv.1, w) else none
    | none => none).head?

/-- A request of a context checked over its whole range before any byte moves, for an engine that accepts the listed
tiers (R26, R27, R28, R34). -/
def State.view (s : State) (ctx addr len : Nat) (write : Bool) (tiers : List Nat) : View :=
  let t := tierOf addr
  let o := offOf addr
  if t ∉ tiers then
    if t = 15 ∧ s.get (CTX_PRIV_CTRL ctx) = 0 then .refuse 0x2105 else .refuse 0x2102
  else if t ≤ 2 then
    if 2 ^ 48 ≤ o then .refuse 0x2101
    else match findExtent (s.ctx ctx).extents t o len with
      | none => .refuse 0x2101
      | some e =>
        if (write && !e.w) || (!write && !e.r) then .refuse 0x2104 else .extent e (o - e.off)
  else if t = 3 then .outside 3 o
  else if t = 4 then
    match s.findWindow ctx o len with
    | some _ => .outside 4 o
    | none => .refuse 0x2101
  else if t = 15 then
    if s.get (CTX_PRIV_CTRL ctx) = 1 then .outside 15 o else .refuse 0x2105
  else .refuse 0x2102

/-- The physical address of byte `rel` of an extent's pieces, in order. -/
def pieceAddr : List (Nat × Nat) → Nat → Nat
  | [], rel => rel
  | (p, n) :: ps, rel => if rel < n then p + rel else pieceAddr ps (rel - n)

/-- The physical address of byte `rel` of an extent. -/
def Extent_phys (e : Extent) (rel : Nat) : Nat := pieceAddr e.phys rel

/-- A byte range cut at 4 KiB boundaries: starts and lengths. -/
def chunks : Nat → Nat → Nat → List (Nat × Nat)
  | 0, _, _ => []
  | f + 1, a, n =>
    if n = 0 then []
    else if n ≤ 4096 - a % 4096 then [(a, n)]
    else (a, 4096 - a % 4096) :: chunks f (a + (4096 - a % 4096)) (n - (4096 - a % 4096))

/-- The chunks of a range. -/
def chunksOf (a n : Nat) : List (Nat × Nat) := chunks (n / 4096 + 2) a n

/-- The bytes of a range of an extent. -/
def State.extRead (s : State) (e : Extent) (rel n : Nat) : List Byte :=
  (chunksOf rel n).flatMap fun c => s.bytes (tierSpace e.tier) (Extent_phys e c.1) c.2

/-- The recalls of a range of an extent of tier H. -/
def State.recallExt (s : State) (e : Extent) (rel n : Nat) (write : Bool) : State :=
  if e.tier = 1 ∧ s.lines ≠ [] then
    (chunksOf rel n).foldl (fun t c =>
      if write then t.recallWrite (Extent_phys e c.1) else t.recallRead (Extent_phys e c.1)) s
  else s

/-- Bytes written into part of an extent: lines over it are recalled, each block keeps its tag and takes a correct CRC
(R164, R444). -/
def State.extWrite (s : State) (e : Extent) (rel : Nat) (bs : List Byte) : State :=
  ((chunksOf rel bs.length).foldl (fun (t : State × List Byte) c =>
    (t.1.partialWrite (tierSpace e.tier) (Extent_phys e c.1) (t.2.take c.2), t.2.drop c.2))
    (s.recallExt e rel bs.length true, bs)).1

/-- The function that holds a context. -/
def State.fnOf (s : State) (ctx : Nat) : Nat := s.get (CTX_FUNCTION ctx)

/-- The contexts that are not Free, by their entries of the context table (R41, R42). -/
def State.liveCtxs (s : State) : List Nat :=
  s.regs.filterMap fun kv =>
    if 0x400000 ≤ kv.1 ∧ kv.1 < 0x440000 ∧ kv.1 % 0x40 = 0 ∧ bitsOf 39 36 kv.2.toNat ≠ 0 then
      some ((kv.1 - 0x400000) / 0x40) else none

/-- The context that a function's slot holds, while its VF exists (R36, R40, R327). -/
def State.ctxOf (s : State) (fn slot : Nat) : Option Nat :=
  if s.numVfs < fn then none else s.liveCtxs.find? fun n => s.get (CTX_FUNCTION n) == fn && (s.ctx n).slot == slot

/-! ## Violations (R42, R47, R48) -/

/-- An Active context whose VIOL_COUNT has reached a non-zero VIOL_THRESHOLD is Fenced (R42). -/
def State.fenceIfOver (s : State) (ctx op addr : Nat) : State :=
  if s.get (CTX_STATE ctx) = 1 ∧ s.get (CTX_VIOL_THRESHOLD ctx) ≠ 0 ∧
      s.get (CTX_VIOL_THRESHOLD ctx) ≤ s.get (CTX_VIOL_COUNT ctx) then
    ((s.put (CTX_STATE ctx) 2).put (CTX_FENCE_REASON ctx) 1).evIso 0x2106 ctx op addr
  else s

/-- One isolation violation of a context: counted, recorded, and the context fenced at its threshold. -/
def State.violate (s : State) (ctx code op addr : Nat) : State :=
  ((s.inc (CTX_VIOL_COUNT ctx) 1).evIso code ctx op addr).fenceIfOver ctx op addr

/-! ## Rings -/

/-- The queue number of a queue (R329). -/
def queueNumber : QueueId → Nat
  | .workList p w => p * 8 + w
  | .haloQp s qp => 0x400 + s * 32 + qp
  | .orrQp q qp => 0x580 + q * 16 + qp
  | .collCh q c => 0x5C0 + q * 16 + c
  | .cmdRing _ => 0x600

/-- The queue that a queue number of a context's page names (R329). -/
def queueOfNumber (ctx qn : Nat) : Option QueueId :=
  if qn < 0x400 then some (.workList (qn / 8) (qn % 8))
  else if qn < 0x580 then some (.haloQp ((qn - 0x400) / 32) ((qn - 0x400) % 32))
  else if qn < 0x5C0 then some (.orrQp ((qn - 0x580) / 16) ((qn - 0x580) % 16))
  else if qn < 0x600 then some (.collCh ((qn - 0x5C0) / 16) ((qn - 0x5C0) % 16))
  else if qn = 0x600 then some (.cmdRing ctx) else none

/-- A queue is a work list: its registers have the layout of R118. -/
def QueueId_isList : QueueId → Bool
  | .workList _ _ => true
  | _ => false

/-- The fields of a queue's registers (R118, R199). -/
def qBase (q : QueueId) : Fld := ⟨queueBase q, 63, 0⟩
/-- OWNER_CTX. -/
def qOwnerF (q : QueueId) : Fld :=
  if QueueId_isList q then ⟨queueBase q + 8, 43, 32⟩ else QP_OWNER_CTX (queueBase q)
/-- SIZE_LOG. -/
def qSizeLog (q : QueueId) : Fld :=
  if QueueId_isList q then ⟨queueBase q + 8, 28, 24⟩ else QP_SIZE_LOG (queueBase q)
/-- STOP_STATUS. -/
def qStopStatus (q : QueueId) : Fld :=
  if QueueId_isList q then ⟨queueBase q + 8, 23, 16⟩ else QP_STOP_STATUS (queueBase q)
/-- STATE: 0 Off, 1 Running, 2 Stopped, 3 Held. -/
def qState (q : QueueId) : Fld :=
  if QueueId_isList q then ⟨queueBase q + 8, 3, 2⟩ else QP_STATE (queueBase q)
/-- EN. -/
def qEn (q : QueueId) : Fld := if QueueId_isList q then ⟨queueBase q + 8, 0, 0⟩ else QP_EN (queueBase q)
/-- HEAD or SQ_HEAD. -/
def qHead (q : QueueId) : Fld := if QueueId_isList q then ⟨queueBase q + 16, 63, 48⟩ else QP_SQ_HEAD (queueBase q)
/-- TAIL or SQ_TAIL. -/
def qTail (q : QueueId) : Fld := if QueueId_isList q then ⟨queueBase q + 16, 47, 32⟩ else QP_SQ_TAIL (queueBase q)

/-- The owner context of a queue; a command ring's is its page's context. -/
def State.owner (s : State) (q : QueueId) : Nat :=
  match q with
  | .cmdRing n => n
  | _ => s.get (qOwnerF q)

/-- The number of entries of a ring. -/
def State.ringSize (s : State) (q : QueueId) : Nat := 2 ^ s.get (qSizeLog q)

/-- The ring holds an entry at its head. -/
def State.ringHas (s : State) (q : QueueId) : Bool := s.get (qHead q) != s.get (qTail q)

/-- The physical address of a ring's head entry and its 64 bytes, while the entry lies in the owner's view. -/
def State.ringEntry (s : State) (q : QueueId) : Option Entry :=
  match s.view (s.owner q) (s.get (qBase q) + 64 * s.get (qHead q)) 64 false [1] with
  | .extent e rel => some (BitVec.ofNat 512 (ofBytesLE (s.extRead e rel 64)))
  | _ => none

/-- The head of a ring moves on by `n` entries, wrapping (R118). -/
def State.advance (s : State) (q : QueueId) (n : Nat) : State :=
  s.put (qHead q) ((s.get (qHead q) + n) % s.ringSize q)

/-- The source unit of a queue's events (R145, R224, R251, R314, R344). -/
def State.queueUnit (s : State) : QueueId → Nat
  | .workList _ _ => 0
  | .haloQp k _ => 0x10 + k
  | .orrQp q _ => 1 + q
  | .collCh q _ => 1 + q
  | .cmdRing n => 0x100 + s.fnOf n

/-- The event of a queue that stopped or was set up wrongly: 0x7105, 0xA101, 0xB106, 0xD101 or 0xE103. -/
def State.queueEvent (s : State) (q : QueueId) (idx status : Nat) : State :=
  match q with
  | .workList p w => s.evLim3 0x7105 0 0 idx (p * 8 + w) idx status
  | .haloQp _ qp => s.ev 0xA101 (s.queueUnit q) (s.get (qHead q)) qp (s.get (qHead q)) status
  | .orrQp _ qp => s.ev 0xB106 (s.queueUnit q) (s.get (qHead q)) qp (s.get (qHead q)) status
  | .collCh _ c => s.ev 0xD101 (s.queueUnit q) (s.get (qHead q)) c (s.get (qHead q)) status
  | .cmdRing n => s.ev 0xE103 (s.queueUnit q) (s.get (qHead q)) n (s.get (qHead q)) status

/-- The queue enters Stopped with a status (R122). -/
def State.stopQueue (s : State) (q : QueueId) (idx : Nat) (st : Status) : State :=
  ((s.put (qState q) 2).put (qStopStatus q) (statusCode st)).queueEvent q idx (statusCode st)

/-- A completion with a status of class 0x1 to 0x3 other than DEFERRED stops its queue (R122, R199). -/
def stops (st : Status) : Bool :=
  decide (0x10 ≤ statusCode st) && decide (statusCode st < 0x40) && decide (st ≠ Status.deferred)

/-! ## Interrupts (R330) -/

/-- The MSI-X vector of a context is raised, unless its function is in Orphan or it is not enabled (R339, R340). -/
def State.raiseIrq (s : State) (ctx : Nat) : State :=
  let t := s.setCtx ctx { s.ctx ctx with unsignalled := 0, irqPending := false }
  if s.get (CTX_PAGE_IRQ_EN ctx) = 1 ∧ s.get (PCIE_FN_CFG_STATE (s.fnOf ctx)) ≠ 2 then
    t.emit (.msix (s.fnOf ctx) (s.ctx ctx).slot) else t

/-- One more unsignalled record: at ITR_COUNT the vector is raised at once. -/
def State.countIrq (s : State) (ctx : Nat) : State :=
  let t := s.setCtx ctx { s.ctx ctx with unsignalled := (s.ctx ctx).unsignalled + 1, irqPending := true }
  if max 1 (s.get (CTX_PAGE_ITR_COUNT ctx)) ≤ (s.ctx ctx).unsignalled + 1 then t.raiseIrq ctx else t

/-! ## Completion rings (R330, R331) -/

/-- The ring that takes a queue's completions: a work list's go to its owner's context completion ring. -/
def State.cqOf (s : State) (q : QueueId) : QueueId :=
  match q with
  | .workList _ _ => .cmdRing (s.owner q)
  | _ => q

/-- CQ_BASE of a completion ring. -/
def cqBase (q : QueueId) : Fld := QP_CQ_BASE (queueBase q)
/-- CQ_HEAD. -/
def cqHead (q : QueueId) : Fld := QP_CQ_HEAD (queueBase q)
/-- CQ_TAIL. -/
def cqTail (q : QueueId) : Fld := QP_CQ_TAIL (queueBase q)

/-- The completion ring holds 2^SIZE_LOG − 1 records not yet consumed (R331). -/
def State.cqFull (s : State) (q : QueueId) : Bool :=
  (s.get (cqTail q) + 1) % s.ringSize q == s.get (cqHead q)

/-- The 32 bytes of a completion record (R330). -/
def recBytes (r : CqRec) (phase : Bool) : List Byte :=
  bytesLE 6 r.seq ++ bytesLE 1 (statusCode r.status) ++
    bytesLE 1 ((if phase then 128 else 0) + (if r.final then 64 else 0)) ++ bytesLE 2 r.queue ++ bytesLE 2 r.hint ++
    bytesLE 4 r.step ++ bytesLE 8 r.r0 ++ bytesLE 8 r.r1

/-- A completion record written at CQ_TAIL of a ring with room, in the owner's view: the tail advances, PHASE inverts
at a wrap, the host copy of the context completion ring follows, and the interrupt is counted. -/
def State.writeRec (s : State) (cq : QueueId) (e : Extent) (rel : Nat) (r : CqRec) : State :=
  let d := s.queue cq
  let i := s.get (cqTail cq)
  let ctx := s.owner cq
  let bs := recBytes r d.phase
  let t := s.extWrite e rel bs
  let t := t.put (cqTail cq) ((i + 1) % s.ringSize cq)
  let t := if i + 1 = s.ringSize cq then t.setQueue cq { d with phase := !d.phase } else t
  let t := match cq with
    | .cmdRing n =>
      if s.get (CTX_PAGE_CQ_SHADOW n) ≠ 0 ∧ s.get (PCIE_FN_CFG_STATE (s.fnOf n)) ≠ 2 then
        t.emit (.pcieWrite n (offOf (s.get (CTX_PAGE_CQ_SHADOW n)) + 32 * i) false bs)
      else t
    | _ => t
  t.countIrq ctx

/-- A record delivered to its completion ring, or held: behind a full ring, behind records already held, or outside
the owner's view, which stops the queue and counts a violation (R331). -/
def State.deliver (s : State) (q : QueueId) (r : CqRec) : State :=
  let cq := s.cqOf q
  let hold (t : State) : State := t.setQueue cq { t.queue cq with heldRecs := (t.queue cq).heldRecs ++ [r] }
  if (s.queue cq).heldRecs ≠ [] ∨ s.cqFull cq then hold s
  else match s.view (s.owner cq) (s.get (cqBase cq) + 32 * s.get (cqTail cq)) 32 true [1] with
    | .extent e rel => s.writeRec cq e rel r
    | _ => hold ((s.stopQueue q r.seq .refusedPartition).violate (s.owner q) 0x2101 r.seq
        (s.get (cqBase cq) + 32 * s.get (cqTail cq)))

/-- The held records of a completion ring written while it has room and lies in the view (R331). -/
def State.drainRecs (s : State) (cq : QueueId) : List CqRec → State
  | [] => s.setQueue cq { s.queue cq with heldRecs := [] }
  | r :: rs =>
    if s.cqFull cq then s.setQueue cq { s.queue cq with heldRecs := r :: rs }
    else match s.view (s.owner cq) (s.get (cqBase cq) + 32 * s.get (cqTail cq)) 32 true [1] with
      | .extent e rel => State.drainRecs (s.writeRec cq e rel r) cq rs
      | _ => s.setQueue cq { s.queue cq with heldRecs := r :: rs }

/-- The record of a finished request. -/
def State.mkCq (_s : State) (q : QueueId) (seq step : Nat) (st : Status) (r0 r1 : Nat) : CqRec :=
  ⟨seq, st, decide (st ≠ Status.deferred), queueNumber q, 0, step, r0, r1⟩

/-- A request completes: its record is delivered, and a stopping status stops its queue (R122, R199, R330). -/
def State.complete (s : State) (q : QueueId) (seq step : Nat) (st : Status) (r0 r1 : Nat) : State :=
  let t := s.deliver q (s.mkCq q seq step st r0 r1)
  let n := t.owner q
  let t := t.setCtx n { t.ctx n with lastRetire := t.now }
  if stops st then t.stopQueue q seq st else t

/-- A request is deferred, with its position hint (R173, R330). -/
def State.deferRec (s : State) (q : QueueId) (seq step hint : Nat) : State :=
  s.deliver q ⟨seq, .deferred, false, queueNumber q, hint % 65536, step, 0, 0⟩

/-- The completion ring may take another request: a full ring holds the requests behind it (R331). -/
def State.cqReady (s : State) (q : QueueId) : Bool := (s.queue (s.cqOf q)).heldRecs.isEmpty

/-- The queue runs: EN set, STATE Running, and its completion ring takes records. -/
def State.qRunning (s : State) (q : QueueId) : Bool :=
  s.get (qEn q) == 1 && s.get (qState q) == 1 && s.cqReady q

end Sys2Proof.Machine
end

