-- ==== Sys2Proof/Machine/Fjoun.lean ====
section
/-!
DEFINITION. Fjoun images: their encoding, their expansion into the staging set, the consistency check, and the staged
registers (R49 to R56, R124, R129, R169, R198, R225, R254, R286).
-/

namespace Sys2Proof.Machine

open Sys2Proof

/-! ## The image (R49, R50) -/

/-- A little-endian number of `n` bytes of an image. -/
def imgNum (im : List Byte) (off n : Nat) : Nat := ofBytesLE ((im.drop off).take n)

/-- The bytes of a range of an image are zero. -/
def imgZero (im : List Byte) (off n : Nat) : Bool := ((im.drop off).take n).all (· == 0)

/-- A directory entry, with its index. -/
structure DirEnt where
  idx : Nat
  kind : Nat
  ver : Nat
  flags : Nat
  off : Nat
  len : Nat
  cnt : Nat
  deriving DecidableEq, Repr

/-- The directory of an image. -/
def imgDir (im : List Byte) : List DirEnt :=
  (List.range (imgNum im 10 2)).map fun i =>
    let b := 64 + 16 * i
    ⟨i, imgNum im b 2, imgNum im (b + 2) 1, imgNum im (b + 3) 1, imgNum im (b + 4) 4, imgNum im (b + 8) 4,
      imgNum im (b + 12) 4⟩

/-- The entry size of a section kind (R50). -/
def entrySize (kind : Nat) : Nat :=
  if kind = 1 then 32 else if kind = 2 then 64 else if kind = 3 then 32 else if kind = 4 then 64
  else if kind = 5 then 32 else 16

/-- The size of an entry in the image: the layout's, or a later minor's longer one. -/
def DirEnt_stride (d : DirEnt) : Nat := if d.cnt = 0 then entrySize d.kind else d.len / d.cnt

/-- A known kind with the known layout version. -/
def DirEnt_known (d : DirEnt) : Bool := decide (1 ≤ d.kind) && decide (d.kind ≤ 9) && d.ver == 1

/-- The signature block's length in an image (R49). -/
def sigLen (im : List Byte) : Nat := if imgNum im 9 1 % 2 = 1 then 128 else 0

/-- The directory keeps the rules of R50. -/
def dirGood (im : List Byte) : Bool :=
  let ds := imgDir im
  let n := imgNum im 10 2
  decide (1 ≤ n) && decide (n ≤ 64) && decide (64 + 16 * n ≤ im.length) &&
  ds.all (fun d =>
    d.off % 8 == 0 && d.len % 8 == 0 && decide (64 + 16 * n ≤ d.off) && decide (d.off + d.len + sigLen im ≤ im.length) &&
    (!DirEnt_known d ||
      (if imgNum im 6 2 = 0 then d.len == d.cnt * entrySize d.kind
       else if d.cnt = 0 then d.len == 0 else d.len % d.cnt == 0 && decide (entrySize d.kind ≤ d.len / d.cnt)))) &&
  ds.all (fun d => ds.all fun e =>
    d.idx == e.idx || decide (d.off + d.len ≤ e.off) || decide (e.off + e.len ≤ d.off))

/-- The image's CRC, computed with the IMAGE_CRC field zero. -/
def imgCrcGood (im : List Byte) : Bool :=
  (crc32c (im.take 28 ++ bytesLE 4 0 ++ im.drop 32)).toNat == imgNum im 28 4

/-- One finding where a rule is broken. -/
def broken (bad : Bool) (code sec ent det : Nat) : List Finding := if bad then [⟨code, 0, sec, ent, det⟩] else []

/-- The findings of the header and directory: after a failure here nothing else is checked (R49, R55). -/
def headerFindings (im : List Byte) (svnFloor : Nat) (signReq : Bool) : List Finding :=
  if imgNum im 0 4 ≠ 0x554F4A46 then [⟨0x0101, 0, 0xFE, 0, 0⟩]
  else if im.length < 4096 ∨ 4194304 < im.length ∨ im.length % 8 ≠ 0 ∨ imgNum im 12 4 ≠ im.length then
    [⟨0x0104, 0, 0xFE, 0, 0⟩]
  else
    broken (imgNum im 4 2 != 1) 0x0102 0xFE 0 0 ++
    broken (imgNum im 8 1 > 1) 0x0103 0xFE 0 0 ++
    broken (!imgCrcGood im) 0x0105 0xFE 0 0 ++
    broken ((signReq || imgNum im 9 1 % 2 == 1) &&
      !(imgNum im 9 1 % 2 == 1 &&
        Config.signatureValid (imgNum im (im.length - 128) 4) (ofBytesLE im))) 0x0106 0xFE 0 0 ++
    broken (!dirGood im) 0x0107 0xFE 0 0 ++
    broken (decide (imgNum im 9 1 / 2 ≠ 0) || !imgZero im 26 2 ||
      (imgDir im).any fun d => decide (d.flags / 2 ≠ 0)) 0x010A 0xFE 0 0 ++
    broken (imgNum im 24 2 < svnFloor) 0x010C 0xFE 0 0

/-- The sections of a kind that the module interprets. -/
def sections (im : List Byte) (kind : Nat) : List DirEnt :=
  (imgDir im).filter fun d => d.kind == kind && d.ver == 1

/-- The entries of a kind: section index, entry index and bytes. -/
def entries (im : List Byte) (kind : Nat) : List (Nat × Nat × List Byte) :=
  (sections im kind).flatMap fun d =>
    (List.range d.cnt).map fun i => (d.idx, i, (im.drop (d.off + i * DirEnt_stride d)).take (DirEnt_stride d))

/-- The findings about which sections an image has (0x0108 to 0x010B, 0x0110). -/
def sectionFindings (im : List Byte) : List Finding :=
  (imgDir im).flatMap (fun d =>
    if 0x8000 ≤ d.kind then broken (d.flags % 2 == 1) 0x0108 d.idx 0 d.kind
    else if d.kind = 0 ∨ 9 < d.kind then
      if d.flags % 2 = 1 then [⟨0x0108, 0, d.idx, 0, d.kind⟩] else [⟨0x0110, 1, d.idx, 0, d.kind⟩]
    else
      (if d.ver ≠ 1 then
        (if d.flags % 2 = 1 then [⟨0x0109, 0, d.idx, 0, d.kind⟩] else [⟨0x0110, 1, d.idx, 0, d.kind⟩])
      else
        broken (d.flags % 2 == 1 && (List.range d.cnt).any fun i =>
          !imgZero im (d.off + i * DirEnt_stride d + entrySize d.kind) (DirEnt_stride d - entrySize d.kind))
          0x0109 d.idx 0 d.kind) ++
      broken ((imgDir im).any fun e => e.kind == d.kind && decide (e.idx < d.idx)) 0x010B d.idx 0 d.kind) ++
  broken ((sections im 1).isEmpty || (sections im 1).any fun d => d.cnt != 1) 0x010B 0xFE 0 1 ++
  broken ((sections im 2).isEmpty) 0x010B 0xFE 0 2

/-! ## The staged registers (R51) -/

/-- The bits of a register that are ST fields, as a list of fields. -/
def stFields (off : Nat) : List FieldRow :=
  match regRow off with
  | some r => r.fields.filter fun f => f.acc == Acc.st
  | none => []

/-- A register has an ST field. -/
def isSt (off : Nat) : Bool := !(stFields off).isEmpty

/-- The active value of a register with its ST fields taken from another value. -/
def mergeSt (off staged active : Nat) : Nat :=
  (stFields off).foldl (fun v f => withBits f.hi f.lo (bitsOf f.hi f.lo staged) v) active

/-- The control offset of the ST register behind a mirror offset (R51). -/
def mirrorTarget (m : Nat) : Option Nat :=
  if 0x51000000 ≤ m ∧ m < 0x51100000 then some (0x00200000 + (m - 0x51000000))
  else if 0x51100000 ≤ m ∧ m < 0x51500000 then
    some (0x01000000 + (m - 0x51100000) / 0x100000 * 0x1000000 + 0x800000 + (m - 0x51100000) % 0x100000)
  else if 0x52000000 ≤ m ∧ m < 0x52000000 + 272 * 0x4000 then
    some (0x10000000 + (m - 0x52000000) / 0x4000 * 0x10000 + 0xC000 + (m - 0x52000000) % 0x4000)
  else if 0x53000000 ≤ m ∧ m < 0x53000000 + 12 * 0x80000 then
    some (0x20000000 + (m - 0x53000000) / 0x80000 * 0x100000 + 0x80000 + (m - 0x53000000) % 0x80000)
  else if 0x54000000 ≤ m ∧ m < 0x54100000 then some (0x30800000 + (m - 0x54000000))
  else if 0x54100000 ≤ m ∧ m < 0x54100000 + 32 * 0x4000 then
    some (0x40000000 + (m - 0x54100000) / 0x4000 * 0x10000 + 0xC000 + (m - 0x54100000) % 0x4000)
  else none

/-- The staged value of an ST register; unlisted, its reset value. -/
def State.staged (s : State) (off : Nat) : Nat := (smGet regReset s.cfg.stagedRegs off).toNat

/-- The staged value of a field. -/
def State.sget (s : State) (f : Fld) : Nat := bitsOf f.hi f.lo (s.staged f.off)

/-- The staging set as a map, with a field written. -/
def stagePut (m : SMap Word) (f : Fld) (v : Nat) : SMap Word :=
  smSet regReset m f.off (BitVec.ofNat 64 (withBits f.hi f.lo v (smGet regReset m f.off).toNat))

/-- The ST registers of the active configuration as a map. -/
def State.activeSt (s : State) : SMap Word := s.regs.filter fun kv => isSt kv.1

/-! ## Expansion -/

/-- The ST registers that an image's entries set (R50, R198, R225, R254, R286). -/
def expandRegs (im : List Byte) : SMap Word :=
  let m := (entries im 2).foldl (fun (m : SMap Word) e =>
    let p := imgNum e.2.2 0 1 % 128
    let m := stagePut m (HUB_PART_CFG_VALID p) 1
    let m := stagePut m (HUB_PART_TILES0_TILES p) (imgNum e.2.2 8 8)
    let m := stagePut m (HUB_PART_TILES1_TILES p) (imgNum e.2.2 16 8)
    let m := stagePut m (HUB_PART_TILES2_TILES p) (imgNum e.2.2 24 8)
    let m := stagePut m (HUB_PART_TILES3_TILES p) (imgNum e.2.2 32 8)
    stagePut m (HUB_PART_LLM_SLICES p) (imgNum e.2.2 40 8)) []
  let m := (entries im 6).foldl (fun (m : SMap Word) e =>
    let b := e.2.2
    let p := imgNum b 0 1 % 32
    let m := stagePut m (SL_CFG_ROLE p) (imgNum b 1 1)
    let m := stagePut m (SL_CFG_OWNER p) (imgNum b 2 1)
    let m := stagePut m (SL_CFG_SHARED p) (imgNum b 2 1 / 128)
    let m := stagePut m (SL_CFG_CONST p) (imgNum b 3 1)
    let m := stagePut m (SL_CFG_SELF_CASCADE p) (imgNum b 3 1 / 2)
    let m := stagePut m (SL_CFG_PEER_CASCADE p) (imgNum b 3 1 / 16)
    let m := stagePut m (SL_CFG_CONST_TAG p) (imgNum b 4 2)
    let m := stagePut m (SL_CFG_VLAN_ID p) (imgNum b 6 2)
    stagePut m (SL_CFG_VLAN_EN p) (imgNum b 6 2 / 2 ^ 15)) m
  let m := (entries im 7).foldl (fun (m : SMap Word) e =>
    let b := e.2.2
    let k := imgNum b 0 1
    let qp := imgNum b 1 1
    let m := stagePut m (HALO_QP_CFG_VALID k qp) 1
    let m := stagePut m (HALO_QP_CFG_PARTITION k qp) (imgNum b 2 1)
    let m := stagePut m (HALO_QP_CFG_LOOKAHEAD k qp) (imgNum b 3 1)
    let m := stagePut m (HALO_QP_CFG_LOADFMT k qp) (imgNum b 4 1)
    stagePut m (HALO_QP_CFG_REPL_EN k qp) (imgNum b 4 1 / 2)) m
  let m := (entries im 8).foldl (fun (m : SMap Word) e =>
    let b := e.2.2
    let q := imgNum b 0 1
    let p := imgNum b 1 1 % 128
    let m := stagePut m (ORR_PART_CFG_VALID q p) 1
    let m := stagePut m (ORR_PART_CFG_SLOT_FIRST q p) (imgNum b 2 2)
    let m := stagePut m (ORR_PART_CFG_SLOT_COUNT q p) (imgNum b 4 2)
    let m := stagePut m (ORR_PART_CFG_QP q p) (imgNum b 6 1)
    let m := stagePut m (ORR_PART_CFG_TILE_FIRST q p) (imgNum b 7 1)
    stagePut m (ORR_PART_CFG_TILE_COUNT q p) (imgNum b 8 1)) m
  (entries im 9).foldl (fun (m : SMap Word) e =>
    let b := e.2.2
    let q := imgNum b 0 1
    let c := imgNum b 1 1
    let m := stagePut m (COLL_CH_CFG_VALID q c) 1
    let m := stagePut m (COLL_CH_CFG_PARTITION q c) (imgNum b 2 1)
    stagePut m (COLL_CH_CFG_MAX_GROUPS q c) (imgNum b 3 1)) m

/-- The tables and module settings that an image sets, with its IMAGE_SEQ (R124, R129, R169). -/
def expandConfig (im : List Byte) : Config :=
  let me := ((entries im 1).map fun e => e.2.2).headD []
  { routes := (entries im 3).map fun e =>
      ⟨imgNum e.2.2 0 2, imgNum e.2.2 2 1, imgNum e.2.2 3 1, imgNum e.2.2 4 2, imgNum e.2.2 6 2,
        ([imgNum e.2.2 8 1, imgNum e.2.2 9 1, imgNum e.2.2 10 1].takeWhile (· != 0xFF)), imgNum e.2.2 12 1⟩
    streams := (entries im 4).foldl (fun m e =>
      smSet (fun _ => none) m (imgNum e.2.2 0 2)
        (some ⟨imgNum e.2.2 2 1 % 128, imgNum e.2.2 3 1 % 2 == 1, imgNum e.2.2 3 1 / 2 % 2 == 1, imgNum e.2.2 4 1,
          imgNum e.2.2 5 1, imgNum e.2.2 6 1, imgNum e.2.2 7 1, imgNum e.2.2 8 1, imgNum e.2.2 12 4⟩)) []
    quotas := (entries im 5).map fun e =>
      ⟨imgNum e.2.2 0 2, imgNum e.2.2 2 1 % 128, imgNum e.2.2 3 1 % 4, imgNum e.2.2 3 1 / 4 % 2, imgNum e.2.2 4 4,
        imgNum e.2.2 8 4, imgNum e.2.2 12 1, imgNum e.2.2 13 1⟩
    scratch := (entries im 2).foldl (fun m e => smSet (fun _ => 0) m (imgNum e.2.2 0 1 % 128) (imgNum e.2.2 48 8)) []
    ctxPerVf := imgNum me 0 1
    powerWindow := imgNum me 1 1
    armTimeout := imgNum me 2 2
    drainLimit := imgNum me 4 2
    imageSeq := imgNum im 16 8
    fromSlot := none
    edited := false }

/-- Scratchpad slices of a partition in a configuration. -/
def Config_scratch (c : Config) (p : Nat) : Nat := smGet (fun _ => 0) c.scratch p

/-- A stream of a configuration. -/
def Config_stream (c : Config) (i : Nat) : Option StreamDef := smGet (fun _ => none) c.streams i

/-! ## The consistency check (R55) -/

/-- Edges with a source that some edge of the list enters. -/
def trimEdges (es : List (Nat × Nat)) : List (Nat × Nat) := es.filter fun e => es.any fun d => d.2 == e.1

/-- A directed graph has no cycle: trimming edges without a predecessor leaves none. -/
def acyclic (es : List (Nat × Nat)) : Bool := ((List.range es.length).foldl (fun l _ => trimEdges l) es).isEmpty

/-- The quadrant of a route endpoint, where it has one (R129). -/
def endpointQuad (e : Nat) : Option Nat :=
  let i := e % 4096
  match e / 4096 with
  | 0 => some (i / 64) | 1 => some (i / 16) | 2 => some (i / 3) | 3 => some i | 4 => some i | 5 => some (i / 8)
  | _ => none

/-- The quadrants that a route passes. -/
def routePath (r : Route) : List Nat :=
  (endpointQuad r.src).toList ++ r.hops ++ (endpointQuad r.dst).toList

/-- The links of a path, as 4a + b, without stays. -/
def pathLinks (l : List Nat) : List Nat := ((l.zip (l.drop 1)).filter fun e => e.1 != e.2).map fun e => 4 * e.1 + e.2

/-- A tile is enabled: an ID below 256 mapped to a physical tile that is not Retired (rule 0x0204). -/
def State.tileEnabled (s : State) (l : Nat) : Bool :=
  decide (l < 256) && s.get (TILE_STATUS_STATE (s.physOf l)) != 4

/-- The staged tile map of a partition owns a logical tile. -/
def State.stagedTile (s : State) (p l : Nat) : Bool :=
  bitAt (s.staged (0x200008 + p * 0x40 + l / 64 * 8)) (l % 64)

/-- Staged partitions that are VALID. -/
def State.stagedParts (s : State) : List Nat := parts.filter fun p => s.sget (HUB_PART_CFG_VALID p) == 1

/-- A slice that the Star chart maps and that has not been removed (rule 0x0205). -/
def State.sliceExists (s : State) (k : Nat) : Bool :=
  (List.range 17).any fun i =>
    let st := s.get (LLM_SLICE_STATUS_STATE (k / 16) i)
    st != 3 && st != 4 && s.get (LLM_SLICE_STATUS_ACTIVE_INDEX (k / 16) i) == k % 16

/-- The place that a finding about a register is reported at: the register itself when it was edited, else its image
entry (R55). -/
def State.place (s : State) (kind : Nat) (isEntry : List Byte → Bool) (off : Nat) : Nat × Nat :=
  if off ∈ s.cfg.edits then (0xFF, 0)
  else match (entries s.cfg.image kind).find? fun e => isEntry e.2.2 with
    | some e => (e.1, e.2.1)
    | none => (0xFF, 0)

/-- A finding about a register. -/
def State.regFinding (s : State) (bad : Bool) (code kind : Nat) (isEntry : List Byte → Bool) (off det : Nat) :
    List Finding :=
  if bad then
    let p := s.place kind isEntry off
    [⟨code, 0, p.1, p.2, if p.1 = 0xFF then off else det⟩]
  else []

/-- The findings about the staged partitions (0x0201 to 0x0205, 0x0209, 0x020A). -/
def State.partFindings (s : State) : List Finding :=
  let es := entries s.cfg.image 2
  es.flatMap (fun e =>
    broken (es.any fun d => decide (d.2.1 < e.2.1) && imgNum d.2.2 0 1 % 128 == imgNum e.2.2 0 1 % 128)
      0x0201 e.1 e.2.1 (imgNum e.2.2 0 1 % 128) ++
    broken (decide (128 ≤ imgNum e.2.2 0 1) || !imgZero e.2.2 1 7 || !imgZero e.2.2 56 8) 0x010A e.1 e.2.1
      (imgNum e.2.2 0 1 % 128) ++
    broken (imgNum e.2.2 48 8 &&& imgNum e.2.2 40 8 != imgNum e.2.2 48 8) 0x0205 e.1 e.2.1 (imgNum e.2.2 0 1 % 128)) ++
  s.stagedParts.flatMap (fun p =>
    let mine (b : List Byte) : Bool := imgNum b 0 1 % 128 == p
    let tiles := (List.range 256).filter fun l => s.stagedTile p l
    let slices := (List.range 64).filter fun k => bitAt (s.staged (0x200028 + p * 0x40)) k
    s.regFinding (decide ((tiles.filter fun l => s.tileEnabled l).length < 2)) 0x0202 2 mine (0x200008 + p * 0x40) p ++
    tiles.flatMap (fun l =>
      s.regFinding (s.stagedParts.any fun q => decide (q < p) && s.stagedTile q l) 0x0203 2 mine
        (0x200008 + p * 0x40 + l / 64 * 8) l ++
      s.regFinding (!s.tileEnabled l) 0x0204 2 mine (0x200008 + p * 0x40 + l / 64 * 8) l) ++
    slices.flatMap (fun k =>
      s.regFinding (!s.sliceExists k ||
        s.stagedParts.any fun q => decide (q < p) && bitAt (s.staged (0x200028 + q * 0x40)) k) 0x0205 2 mine
        (0x200028 + p * 0x40) k)) ++
  (parts.filter fun p => s.partValid p && s.sget (HUB_PART_CFG_VALID p) == 0).flatMap (fun p =>
    broken (s.liveCtxs.any fun n => s.get (CTX_PARTITION n) == p) 0x0209 0xFF 0 p) ++
  s.liveCtxs.flatMap (fun n =>
    (s.ctx n).extents.flatMap fun e =>
      broken (e.tier == 0 && e.phys.any fun c =>
        let k := c.1 / 2 ^ 24
        !(bitAt (s.staged (0x200028 + s.get (CTX_PARTITION n) * 0x40)) k &&
          bitAt (Config_scratch s.cfg.staged (s.get (CTX_PARTITION n))) k)) 0x020A 0xFF 0 (s.get (CTX_PARTITION n)))

/-- The findings about the staged engines: queue pairs, channels and shard slots (0x0206 to 0x0208, 0x0404). -/
def State.engineFindings (s : State) : List Finding :=
  let im := s.cfg.image
  let ps := s.stagedParts
  (entries im 7).flatMap (fun e =>
    let b := e.2.2
    broken (decide (12 ≤ imgNum b 0 1) || decide (32 ≤ imgNum b 1 1) || !(ps.contains (imgNum b 2 1)) ||
      (entries im 7).any fun d => decide (d.2.1 < e.2.1) && imgNum d.2.2 0 2 == imgNum b 0 2) 0x0206 e.1 e.2.1
      (imgNum b 1 1) ++
    broken (decide (imgNum b 3 1 < 1) || decide (8 < imgNum b 3 1)) 0x0404 e.1 e.2.1 (imgNum b 1 1) ++
    broken (decide (4 ≤ imgNum b 4 1) || !imgZero b 5 11) 0x010A e.1 e.2.1 (imgNum b 1 1)) ++
  (entries im 8).flatMap (fun e =>
    let b := e.2.2
    let p := imgNum b 1 1 % 128
    let lo := imgNum b 2 2
    let n := imgNum b 4 2
    let ts := (List.range (imgNum b 8 1)).map (imgNum b 7 1 + ·)
    let others := (entries im 8).filter fun d => d.2.1 != e.2.1 && imgNum d.2.2 0 1 == imgNum b 0 1
    broken (decide (4 ≤ imgNum b 0 1) || !(ps.contains p) || decide (n = 0) || decide (512 < lo + n) ||
      decide (16 ≤ imgNum b 6 1) || decide (16 < imgNum b 8 1) || ts.any (fun t => !s.stagedTile p t) ||
      others.any (fun d => decide (d.2.1 < e.2.1) &&
        (imgNum d.2.2 6 1 == imgNum b 6 1 || imgNum d.2.2 1 1 == imgNum b 1 1 ||
          (decide (lo < imgNum d.2.2 2 2 + imgNum d.2.2 4 2) && decide (imgNum d.2.2 2 2 < lo + n)))) ||
      (entries im 8).any (fun d => decide (d.2.1 < e.2.1) && ts.any fun t =>
        decide (imgNum d.2.2 7 1 ≤ t) && decide (t < imgNum d.2.2 7 1 + imgNum d.2.2 8 1)))
      0x0208 e.1 e.2.1 p ++
    broken (decide (128 ≤ imgNum b 1 1) || !imgZero b 9 7) 0x010A e.1 e.2.1 p) ++
  (entries im 9).flatMap (fun e =>
    let b := e.2.2
    let same := (entries im 9).filter fun d => decide (d.2.1 ≤ e.2.1) && imgNum d.2.2 0 1 == imgNum b 0 1
    broken (decide (4 ≤ imgNum b 0 1) || decide (16 ≤ imgNum b 1 1) || !(ps.contains (imgNum b 2 1 % 128)) ||
      decide (imgNum b 3 1 < 1) || decide (64 < imgNum b 3 1) ||
      decide (256 < same.foldl (fun k d => k + imgNum d.2.2 3 1) 0) ||
      same.any (fun d => decide (d.2.1 < e.2.1) && imgNum d.2.2 1 1 == imgNum b 1 1)) 0x0207 e.1 e.2.1 (imgNum b 1 1) ++
    broken (decide (128 ≤ imgNum b 2 1) || !imgZero b 4 12) 0x010A e.1 e.2.1 (imgNum b 1 1))

/-- A route endpoint belongs to a partition of the staging set, or is shared by role (rule 0x0301). -/
def State.endpointOf (s : State) (p e : Nat) : Bool :=
  let i := e % 4096
  match e / 4096 with
  | 0 => s.stagedTile p i
  | 1 => bitAt (s.staged (0x200028 + p * 0x40)) i
  | 2 => decide (i < 12)
  | 3 => decide (i < 4) && (List.range 16).any fun c =>
      s.sget (COLL_CH_CFG_VALID i c) == 1 && s.sget (COLL_CH_CFG_PARTITION i c) == p
  | 4 => decide (i < 4) && s.sget (ORR_PART_CFG_VALID i p) == 1
  | 5 => decide (i < 32) && (s.sget (SL_CFG_SHARED i) == 1 || s.sget (SL_CFG_OWNER i) == p)
  | 6 => true
  | _ => false

/-- The findings about routes and streams (0x0301 to 0x0303, 0x0401 to 0x0403). -/
def State.fabricFindings (s : State) : List Finding :=
  let c := s.cfg.staged
  let rsec := ((sections s.cfg.image 3).map fun d => d.idx).headD 0xFF
  let ssec := ((sections s.cfg.image 4).map fun d => d.idx).headD 0xFF
  (c.routes.zipIdx.flatMap fun ri =>
    let r := ri.1
    broken (if r.part = 0x80 then
        (endpointQuad r.src).isNone && r.src / 4096 != 6
      else decide (128 < r.part) || !s.endpointOf r.part r.src || !s.endpointOf r.part r.dst) 0x0301 rsec ri.2 r.id ++
    broken (decide (100 < r.reserve)) 0x0303 rsec ri.2 r.id) ++
  ((List.range 4).flatMap fun cl =>
    let links := (c.routes.filter fun r => r.cls == cl).flatMap fun r =>
      let l := pathLinks (routePath r)
      l.zip (l.drop 1)
    broken (!acyclic links) 0x0302 rsec 0 cl) ++
  ((List.range 16).flatMap fun k =>
    broken (decide (100 < ((c.routes.filter fun r => (pathLinks (routePath r)).contains k).map fun r => r.reserve).foldl
      (· + ·) 0)) 0x0303 rsec 0 k) ++
  (c.streams.zipIdx.flatMap fun ki =>
    match ki.1.2 with
    | none => []
    | some d =>
      let id := ki.1.1
      broken (!(s.stagedParts.contains d.part) || (!d.feed && !s.stagedTile d.part d.producer) ||
        !s.stagedTile d.part d.consumer || (!d.feed && d.producer == d.consumer)) 0x0401 ssec ki.2 id ++
      broken (decide (1023 < id) || decide (d.depth < 2) || decide (128 < d.depth) || decide (32 < d.runahead) ||
        (!d.feed && d.runahead != 0) || decide (4096 < d.bufOff + d.depth) ||
        !bitAt (s.staged (0x200028 + d.part * 0x40)) d.slice || !bitAt (Config_scratch c d.part) d.slice ||
        (c.streams.any fun kv => match kv.2 with
          | some e => decide (kv.1 < id) && e.slice == d.slice && decide (e.bufOff < d.bufOff + d.depth) &&
              decide (d.bufOff < e.bufOff + e.depth)
          | none => false)) 0x0403 ssec ki.2 id) ++
  broken (!acyclic (c.streams.filterMap fun kv => match kv.2 with
    | some d => if d.feed then none else some (d.producer, d.consumer)
    | none => none)) 0x0402 ssec 0 0

/-- The capacity of a tier in granules: a partition's scratchpad for L, the stacks' CAP_GIB for H, 32 TiB for D
(R170). -/
def State.tierCapacity (s : State) (c : Config) (p t : Nat) : Nat :=
  if t = 0 then ((List.range 64).filter fun k => bitAt (Config_scratch c p) k).length * 256
  else if t = 1 then ((List.range 12).map fun k => s.get (HBM_STACK_STATUS_CAP_GIB k)).foldl (· + ·) 0 * 512
  else 32768

/-- The use of a context in a tier, in granules (R171). -/
def State.ctxUse (s : State) (n t : Nat) : Nat :=
  ((s.ctx n).extents.filter fun e => e.tier == t).foldl (fun k e => k + e.len / granule t) 0

/-- The use of a partition in a tier, in granules. -/
def State.partUse (s : State) (p t : Nat) : Nat :=
  (s.liveCtxs.filter fun n => s.get (CTX_PARTITION n) == p).foldl (fun k n => k + s.ctxUse n t) 0

/-- The findings about quotas (0x0501 to 0x0503). -/
def State.quotaFindings (s : State) : List Finding :=
  let c := s.cfg.staged
  let sec := ((sections s.cfg.image 5).map fun d => d.idx).headD 0xFF
  let sum (l : List Quota) : Nat := l.foldl (fun k q => k + q.guarantee) 0
  c.quotas.zipIdx.flatMap (fun qi =>
    let q := qi.1
    let zero := c.quotas.find? fun x => x.part == q.part && x.tier == q.tier && x.scope == 0
    broken (decide (2 < q.tier) || decide (q.limit < q.guarantee) || !(s.stagedParts.contains q.part) ||
      (q.scope == 0 && q.domain != 0) || ((q.scope == 1 || q.tier == 0) && q.bwShare != 0) ||
      (c.quotas.zipIdx.any fun x => decide (x.2 < qi.2) && x.1.part == q.part && x.1.tier == q.tier &&
        x.1.scope == q.scope && x.1.domain == q.domain) ||
      (q.scope == 0 && q.tier != 0 &&
        decide (s.tierCapacity c q.part q.tier < sum (c.quotas.filter fun x => x.scope == 0 && x.tier == q.tier))) ||
      (q.scope == 0 && q.tier == 0 && decide (s.tierCapacity c q.part 0 < q.guarantee)) ||
      (q.scope == 1 && (match zero with
        | none => true
        | some z => decide (z.limit < q.limit) || decide (z.guarantee <
            sum (c.quotas.filter fun x => x.scope == 1 && x.part == q.part && x.tier == q.tier))))) 0x0501 sec qi.2
      q.part ++
    broken (if q.scope = 0 ∧ q.tier ≠ 0 then decide (60 < q.c1Share) else q.c1Share != 0) 0x0503 sec qi.2 q.part ++
    broken (if q.scope = 0 then decide (q.limit < s.partUse q.part q.tier)
      else (s.liveCtxs.any fun n => s.get (CTX_PARTITION n) == q.part && s.get (CTX_JOB_DOMAIN n) == q.domain &&
        decide (q.limit < s.ctxUse n q.tier))) 0x0502 sec qi.2 q.part)

/-- The findings about ports (0x0601 to 0x0604) and module settings (0x0701 to 0x0710). -/
def State.portFindings (s : State) : List Finding :=
  let im := s.cfg.image
  let c := s.cfg.staged
  let cons := (entries im 6).filter fun e => imgNum e.2.2 3 1 % 2 == 1
  let msec := ((sections im 1).map fun d => d.idx).headD 0xFF
  (entries im 6).flatMap (fun e =>
    let b := e.2.2
    let peers := (cons.map fun d => imgNum d.2.2 3 1 / 16 % 8).eraseDups
    broken (decide (32 ≤ imgNum b 0 1) || decide (2 < imgNum b 1 1 % 8) ||
      (entries im 6).any fun d => decide (d.2.1 < e.2.1) && imgNum d.2.2 0 1 == imgNum b 0 1) 0x0601 e.1 e.2.1
      (imgNum b 0 1) ++
    broken (imgNum b 3 1 % 2 == 1 && imgNum b 1 1 % 8 != 1) 0x0602 e.1 e.2.1 (imgNum b 0 1) ++
    broken (imgNum b 3 1 % 2 == 1 &&
      (cons.any (fun d => imgNum d.2.2 3 1 / 2 % 8 != imgNum b 3 1 / 2 % 8 || imgNum d.2.2 4 2 != imgNum b 4 2) ||
        imgNum b 3 1 / 16 % 8 == imgNum b 3 1 / 2 % 8 || decide (7 < peers.length))) 0x0603 e.1 e.2.1 (imgNum b 0 1) ++
    broken ((imgNum b 2 1 / 128 == 1 && imgNum b 2 1 % 128 != 0) ||
      (imgNum b 2 1 / 128 == 0 && (entries im 6).any fun d =>
        decide (d.2.1 < e.2.1) && imgNum d.2.2 0 1 == imgNum b 0 1)) 0x0604 e.1 e.2.1 (imgNum b 0 1) ++
    broken (decide (8 ≤ imgNum b 1 1) || decide (128 ≤ imgNum b 3 1) || !imgZero b 8 8 ||
      (imgNum b 1 1 % 8 != 2 && imgNum b 6 2 != 0)) 0x010A e.1 e.2.1 (imgNum b 0 1)) ++
  (if im.isEmpty then [] else
    broken (!([1, 2, 4, 8, 16].contains c.ctxPerVf)) 0x0701 msec 0 c.ctxPerVf ++
    broken (decide (c.powerWindow < 1) || decide (10 < c.powerWindow) || decide (c.armTimeout < 1) ||
      decide (10000 < c.armTimeout) || decide (c.drainLimit < 1) || decide (1000 < c.drainLimit)) 0x0702 msec 0 0 ++
    broken ((entries im 1).any fun e => !imgZero e.2.2 6 26) 0x010A msec 0 0 ++
    (if c.ctxPerVf = s.cfg.ctxPerVf then [] else [⟨0x0710, 1, msec, 0, c.ctxPerVf⟩]))

/-- A finding comes before another in the report: by section index, entry index and code (R55). -/
def findingLe (a b : Finding) : Bool :=
  decide (a.sec < b.sec) || (a.sec == b.sec && (decide (a.ent < b.ent) || (a.ent == b.ent && decide (a.code ≤ b.code))))

/-- A finding put at its place in a sorted report. -/
def insertFinding (f : Finding) : List Finding → List Finding
  | [] => [f]
  | g :: gs => if findingLe f g then f :: g :: gs else g :: insertFinding f gs

/-- The report of the consistency check of the staging set against itself and the live state (R55). -/
def State.checkReport (s : State) : List Finding :=
  let h := if s.cfg.image.isEmpty then [] else headerFindings s.cfg.image s.cfg.svnFloor s.cfg.signRequired
  let l := if h ≠ [] then h
    else (if s.cfg.image.isEmpty then [] else sectionFindings s.cfg.image) ++ s.partFindings ++ s.engineFindings ++
      s.fabricFindings ++ s.quotaFindings ++ s.portFindings
  (l.eraseDups).foldr insertFinding []

/-- The report holds a failure. -/
def reportFails (l : List Finding) : Bool := l.any fun f => f.sev == 0

/-! ## The engine's registers and the staging set -/

/-- The state of the staging set (R53): 0 Idle, 1 Open, 2 Checking, 3 Checked, 4 Armed; an apply is one step, so that
5 Applying is never seen (log 76). -/
def State.stg (s : State) : Nat := s.get CFG_STATUS_STATE

/-- A configuration command ends with a status. -/
def State.cfgDone (s : State) (st : Status) : State := s.put CFG_STATUS_LAST_STATUS (statusCode st)

/-- The owner code of a path that may use the configuration engine: 1 PF0, 2 the sideband (R52). -/
def ownerCode : Path → Nat
  | .pf0 => 1
  | .sideband => 2
  | _ => 0

/-- The path may command the configuration engine now: PF0 or the sideband, with no session of the other open (R52). -/
def State.cfgPath (s : State) (p : Path) : Bool :=
  ownerCode p != 0 && (s.get CFG_STATUS_OWNER == 0 || s.get CFG_STATUS_OWNER == ownerCode p)

/-- The staging set replaced by an expanded image: Open, EDITED 0, the session owned by the path (R53); of an image whose
header or directory fails no section is parsed (R49, R50). -/
def State.loadImage (s : State) (owner : Nat) (im : List Byte) (slot : Option Nat) : State :=
  let bad := headerFindings im s.cfg.svnFloor s.cfg.signRequired != []
  let c := if bad then { config0 with imageSeq := imgNum im 16 8 } else expandConfig im
  let t := { s with cfg := { s.cfg with
    image := im, edits := [], staged := { c with fromSlot := slot }
    stagedRegs := if bad then [] else expandRegs im } }
  (((t.put CFG_STATUS_STATE 1).put CFG_STATUS_EDITED 0).put CFG_STATUS_OWNER owner).cfgDone .done

/-- Every queue that a drain can hold: the work lists, the queue pairs and the channels. -/
def drainQueues : List QueueId :=
  (parts.flatMap fun p => (List.range 8).map fun w => QueueId.workList p w) ++
    ((List.range 12).flatMap fun k => (List.range 32).map fun qp => QueueId.haloQp k qp) ++
    (List.range 4).flatMap fun q => ((List.range 16).map fun i => QueueId.orrQp q i) ++
      (List.range 16).map fun i => QueueId.collCh q i

/-- The queues that a drain holds run again (R57, R59). -/
def State.releaseHeld (s : State) : State :=
  drainQueues.foldl (fun (t : State) q => if t.get (qState q) = 3 then t.put (qState q) 1 else t) s

/-- An armed commit is abandoned: LAST_STATUS CANCELLED and event 0x3103 with its cause (R53). -/
def State.abandonCommit (s : State) (cause : Nat) : State :=
  match s.cfg.armed with
  | none => s
  | some a =>
    let t := { s with cfg := { s.cfg with armed := none } }.releaseHeld
    (t.cfgDone .cancelled).ev 0x3103 0 0 cause a.tag ((s.now - a.since) / 1000)

/-- The session closes (R52, R53): Idle, OWNER 0, the staging set equal to the active configuration. -/
def State.closeSession (s : State) : State :=
  let t := { s with cfg := { s.cfg with
    image := [], edits := [], staged := s.cfg.active, stagedRegs := s.activeSt, armed := none } }
  (t.put CFG_STATUS_STATE 0).put CFG_STATUS_OWNER 0

/-- The value of a 64-bit register after a write of one half or of all of it (R7). -/
def halfWrite (h : Half) (old v : Nat) : Nat :=
  match h with
  | .full => v
  | .low => old / 2 ^ 32 * 2 ^ 32 + v % 2 ^ 32
  | .high => v % 2 ^ 32 * 2 ^ 32 + old % 2 ^ 32

/-- The ST fields of a staged register written (R8, R51): the session opens from Idle as a copy of the active
configuration, EDITED is set, a check result or an armed commit is void (R53); without effect while a trial returns
(R60). -/
def State.stageWrite (s : State) (owner off : Nat) (h : Half) (v : Nat) : State :=
  if s.cfg.returning then s
  else
    let s := if s.stg = 0 then
        ({ s with cfg := { s.cfg with
          image := [], edits := [], staged := s.cfg.active, stagedRegs := s.activeSt } }).put CFG_STATUS_OWNER owner
      else if s.stg = 4 then s.abandonCommit 5 else s
    let old := s.staged off
    let new := mergeSt off (halfWrite h old v) old
    let t := { s with cfg := { s.cfg with
      stagedRegs := smSet regReset s.cfg.stagedRegs off (BitVec.ofNat 64 new)
      edits := if off ∈ s.cfg.edits then s.cfg.edits else s.cfg.edits ++ [off]
      staged := { s.cfg.staged with edited := true } } }
    (t.put CFG_STATUS_STATE 1).put CFG_STATUS_EDITED 1

/-- A live rule of the staged image is broken: checked again while Checked or Armed (R56). -/
def State.liveRuleBroken (s : State) : Bool :=
  s.checkReport.any fun f => f.code == 0x0202 || f.code == 0x0209 || f.code == 0x020A || f.code == 0x0502

/-- The partitions that a commit of the staging set affects (R57). -/
def State.affected (s : State) : List Nat :=
  parts.filter fun p =>
    ((List.range 6).any fun k => mergeSt (0x200000 + p * 0x40 + k * 8) (s.staged (0x200000 + p * 0x40 + k * 8)) 0 !=
        mergeSt (0x200000 + p * 0x40 + k * 8) (s.rd (0x200000 + p * 0x40 + k * 8)) 0) ||
    ((List.range 12).any fun k => (List.range 32).any fun qp =>
      s.sget (HALO_QP_CFG_VALID k qp) != s.get (HALO_QP_CFG_VALID k qp) &&
        (s.sget (HALO_QP_CFG_PARTITION k qp) == p || s.get (HALO_QP_CFG_PARTITION k qp) == p)) ||
    ((List.range 4).any fun q => s.staged (ORR_PART_CFG_VALID q p).off != s.rd (ORR_PART_CFG_VALID q p).off) ||
    ((List.range 4).any fun q => (List.range 16).any fun c =>
      s.staged (COLL_CH_CFG_VALID q c).off != s.rd (COLL_CH_CFG_VALID q c).off &&
        (s.sget (COLL_CH_CFG_PARTITION q c) == p || s.get (COLL_CH_CFG_PARTITION q c) == p)) ||
    ((List.range 32).any fun k => s.staged (SL_CFG_ROLE k).off != mergeSt (SL_CFG_ROLE k).off (s.rd (SL_CFG_ROLE k).off) 0 &&
      ((s.sget (SL_CFG_SHARED k) == 0 && s.sget (SL_CFG_OWNER k) == p) ||
        (s.get (SL_CFG_SHARED k) == 0 && s.get (SL_CFG_OWNER k) == p))) ||
    ((s.cfg.staged.routes.filter fun r => r.part == p) != (s.cfg.active.routes.filter fun r => r.part == p)) ||
    ((s.cfg.staged.quotas.filter fun r => r.part == p) != (s.cfg.active.quotas.filter fun r => r.part == p)) ||
    (Config_scratch s.cfg.staged p != Config_scratch s.cfg.active p) ||
    ((s.cfg.staged.streams.filter fun kv => match kv.2 with
        | some d => d.part == p
        | none => false) != (s.cfg.active.streams.filter fun kv => match kv.2 with
        | some d => d.part == p
        | none => false))

end Sys2Proof.Machine
end

