-- ==== Sys2Proof/Machine/Rings.lean ====
section
/-!
DEFINITION. Starting, stopping and feeding the queues: EN, RESTART, TAIL and CQ_HEAD writes and doorbells (R118, R199,
R329, R331, R340).
-/

namespace Sys2Proof.Machine

open Sys2Proof

/-- A control path may write the control space: PF0 and the management sideband. -/
def ctrlPath : Path → Bool
  | .pf0 => true
  | .sideband => true
  | _ => false

/-- A path may write a queue's registers: PF0 and the sideband all of them, a function its own context pages'
(R36, R328). -/
def State.queuePath (s : State) (p : Path) (q : QueueId) : Bool :=
  match p, q with
  | .vf f, .cmdRing n => s.get (CTX_STATE n) != 0 && s.fnOf n == f
  | .jtag, _ => false
  | .vf _, _ => false
  | _, _ => true

/-- The partition that a queue belongs to, where its registers give one (R118, R199, R287). -/
def State.queuePart (s : State) : QueueId → Option Nat
  | .workList p _ => some p
  | .haloQp k qp => if s.get (HALO_QP_CFG_VALID k qp) = 1 then some (s.get (HALO_QP_CFG_PARTITION k qp)) else none
  | .orrQp q qp => parts.find? fun p => s.get (ORR_PART_CFG_VALID q p) == 1 && s.get (ORR_PART_CFG_QP q p) == qp
  | .collCh q c => if s.get (COLL_CH_CFG_VALID q c) = 1 then some (s.get (COLL_CH_CFG_PARTITION q c)) else none
  | .cmdRing n => some (s.get (CTX_PARTITION n))

/-- The conditions on a queue's setup: size 2^6 to 2^16, the whole ring 4 KiB-aligned inside one readable H extent of
its owner, the owner in the queue's partition, and an interface selected for a command ring (R118, R199, R355). -/
def State.queueSetupGood (s : State) (q : QueueId) : Bool :=
  decide (6 ≤ s.get (qSizeLog q)) && decide (s.get (qSizeLog q) ≤ 16) && s.get (qBase q) % 4096 == 0 &&
  (match s.view (s.owner q) (s.get (qBase q)) (64 * s.ringSize q) false [1] with
    | .extent _ _ => true
    | _ => false) &&
  (match q with
    | .workList _ _ => true
    | .cmdRing n => s.get (FW_IF_IF_SEL (s.fnOf n)) != 0
    | _ => s.queuePart q == some (s.get (CTX_PARTITION (s.owner q))))

/-- The bit of an engine's queue-enable summary that follows a queue's EN (R223, R250). -/
def qSummary : QueueId → Option (Fld × Nat)
  | .haloQp k qp => some (HALO_STATUS_QP_EN k, qp)
  | .orrQp q qp => some (ORR_STATUS_QP_EN q, qp)
  | .collCh q c => some (COLL_STATUS_CH_EN q, c)
  | _ => none

/-- A queue's EN set to a value, with the engine's summary. -/
def State.setEn (s : State) (q : QueueId) (en : Nat) : State :=
  let t := s.put (qEn q) en
  match qSummary q with
  | some (f, i) => t.put f (if en = 1 then s.get f ||| 2 ^ i else s.get f - s.get f / 2 ^ i % 2 * 2 ^ i)
  | none => t

/-- The feeds of a work list cancelled: waits and prefetches of theirs end (R131). -/
def State.cancelFeeds (s : State) (keep : Feed → Bool) : State :=
  { s with feeds := s.feeds.filter keep }

/-- EN written: 1 starts a queue whose setup is valid, with PHASE 1 for the first pass of its completion ring, and
leaves EN at 0 with the refusal event otherwise; 0 stops dispatch and cancels the list's feeds (R118, R131, R199,
R330). -/
def State.writeEn (s : State) (q : QueueId) (en : Bool) : State :=
  if en then
    if s.get (qEn q) = 1 then s
    else if s.queueSetupGood q then
      let t := (s.setEn q 1).put (qState q) 1
      match q with
      | .workList _ _ => t
      | _ => t.setQueue q { t.queue q with phase := true }
    else s.queueEvent q (s.get (qHead q)) (statusCode .refusedPartition)
  else
    let t := (s.setEn q 0).put (qState q) 0
    match q with
    | .workList p w => t.cancelFeeds fun f => !(f.part == p && f.list == w)
    | _ => t

/-! ## Wakes before the planned one (R393, R397) -/

/-- The beats that a wake from a power state takes, at the pace in force. -/
def State.wakeBeats (s : State) (st : Nat) : Nat :=
  let ns := if st = 1 then 200 else if st = 2 then 15000 else if st = 3 then 1500000 else if st = 4 then 3000000 else 0
  ns * s.get HUB_PACE_STATUS_PACE_NOW * 625 / 100000

/-- The module state that PWR_STATUS shows while it is not in A3 or A4: the shallowest of its valid partitions, 0 where
there is none. -/
def State.showPower (s : State) : State :=
  let l := (parts.filter fun p => s.partValid p).map fun p => min 2 (s.get (PWR_PART_CFG_STATE p))
  s.put PWR_STATUS_STATE (match l with
    | [] => 0
    | x :: xs => xs.foldl min x)

/-- The module leaves A3, A4 or forced Nadir: stacks leave self-refresh, and its partitions are in A2 (R393). -/
def State.leaveDusk (s : State) : State :=
  let t := (List.range 12).foldl (fun (t : State) k =>
    if t.get (HBM_STACK_STATUS_LEVEL k) < 3 then t.put (HBM_STACK_STATUS_SELF_REF k) 0 else t) s
  let t := parts.foldl (fun (t : State) p =>
    if 3 ≤ t.get (PWR_PART_CFG_STATE p) then t.put (PWR_PART_CFG_STATE p) 2 else t) t
  t.showPower

/-- Work arrives: the module wakes from A3 or A4. -/
def State.wakeModule (s : State) : State :=
  if 3 ≤ s.get PWR_STATUS_STATE ∧ s.get PWR_STATUS_FORCED = 0 then s.leaveDusk else s

/-- Work arrives for a partition: it wakes at once, the module with it, and the beats of the wake count in WAKE_WAIT. -/
def State.wakePart (s : State) (p : Nat) : State :=
  if s.get PWR_STATUS_FORCED = 1 then s
  else
    let st := max (s.get (PWR_PART_CFG_STATE p)) (if 3 ≤ s.get PWR_STATUS_STATE then s.get PWR_STATUS_STATE else 0)
    if st = 0 then s
    else (((s.wakeModule).put (PWR_PART_CFG_STATE p) 0).inc (PWR_PART_CFG_WAKE_WAIT p) (s.wakeBeats st)).showPower

/-- TAIL written: an index of 2^SIZE_LOG or above is discarded with the event of status REFUSED_CAPACITY (R118). -/
def State.writeTail (s : State) (q : QueueId) (tail : Nat) : State :=
  if tail < s.ringSize q then
    (match s.queuePart q with
      | some p => s.wakePart p
      | none => s).put (qTail q) tail
  else s.queueEvent q (s.get (qHead q)) (statusCode .refusedCapacity)

/-- RESTART in Stopped: the held records are written once the whole completion ring lies in the view again, and
dispatch resumes; in another state it has no effect (R118, R331). -/
def State.restart (s : State) (q : QueueId) : State :=
  if s.get (qState q) = 2 then
    let cq := s.cqOf q
    if (s.queue cq).heldRecs = [] then s.put (qState q) 1
    else match s.view (s.owner cq) (s.get (cqBase cq)) (32 * s.ringSize cq) true [1] with
      | .extent _ _ => (s.drainRecs cq (s.queue cq).heldRecs).put (qState q) 1
      | _ => s
  else s

/-- A command held by a freeze until resume (R423). -/
def State.holdCmd (s : State) (i : Instr) : State := { s with ecl := { s.ecl with held := s.ecl.held ++ [i] } }

/-- A control write: without effect while the module is off, held while it is frozen, else `t` (R423). -/
def State.ctrl (s : State) (i : Instr) (ok : Bool) (t : State) : State :=
  if !s.on || !ok then s else if s.frozen then s.holdCmd i else t

/-- QUEUE_EN_WRITE (R118). -/
def execQueueEnWrite (path : Path) (q : QueueId) (en : Bool) (s : State) : Host.Outcome State Fault Refusal :=
  .next (s.ctrl (.queueEnWrite path q en) (s.queuePath path q) (s.writeEn q en))

/-- QUEUE_RESTART (R118). -/
def execQueueRestart (path : Path) (q : QueueId) (s : State) : Host.Outcome State Fault Refusal :=
  .next (s.ctrl (.queueRestart path q) (s.queuePath path q) (s.restart q))

/-- QUEUE_TAIL_WRITE (R118). -/
def execQueueTailWrite (path : Path) (q : QueueId) (tail : Nat) (s : State) : Host.Outcome State Fault Refusal :=
  .next (s.ctrl (.queueTailWrite path q tail) (s.queuePath path q) (s.writeTail q tail))

/-- COMPLETION_RING_ROOM: CQ_HEAD written, an index below the ring's size, frees room, and held records are written
while there is room (R331). -/
def execCompletionRingRoom (path : Path) (q : QueueId) (head : Nat) (s : State) : Host.Outcome State Fault Refusal :=
  .next (s.ctrl (.completionRingRoom path q head)
    (s.queuePath path q && !QueueId_isList q && decide (head < s.ringSize q))
    (let t := s.put (cqHead q) head
     t.drainRecs q (t.queue q).heldRecs))

/-! ## Doorbells and heartbeats (R329, R339, R340) -/

/-- A heartbeat of a function (R329, R339). -/
def State.beat (s : State) (f : Nat) : State :=
  (s.put (PCIE_FN_CFG_LAST_HB f) s.now).setFn f { s.fn f with hbFrozen := 0 }

/-- DOORBELL (R329): a heartbeat of the function; discarded in Orphan (R340); one violation of the page's context for
a queue of another owner or a number outside the table; otherwise a TAIL write. -/
def execDoorbell (fn : Fin 256) (slot qn tail : Nat) (s : State) : Host.Outcome State Fault Refusal :=
  .next (s.ctrl (.doorbell fn slot qn tail) true
    (match s.ctxOf fn.val slot with
      | none => s
      | some n =>
        let t := s.beat fn.val
        if s.get (PCIE_FN_CFG_STATE fn.val) = 2 then t
        else match queueOfNumber n qn with
          | none => t.violate n 0x2101 0 qn
          | some q => if t.owner q = n then t.writeTail q tail else t.violate n 0x2101 0 qn))

/-- HEARTBEAT (R339): LAST_HB takes the module time. -/
def execHeartbeat (fn : Fin 256) (slot : Nat) (s : State) : Host.Outcome State Fault Refusal :=
  .next (s.ctrl (.heartbeat fn slot) (s.ctxOf fn.val slot).isSome (s.beat fn.val))

/-- INTERRUPT_DELAY_EXPIRE (R330): ITR_US after the first unsignalled record, the context's vector is raised. -/
def execInterruptDelayExpire (c : Fin 4096) (s : State) : Host.Outcome State Fault Refusal :=
  .next (if s.on && (s.ctx c.val).irqPending && s.get (CTX_PAGE_ITR_US c.val) != 0 then s.raiseIrq c.val else s)

end Sys2Proof.Machine
end

