-- ==== Sys2Proof/Machine/Windows.lean ====
section
/-!
DEFINITION. The read-only windows of the hub block: the handover record, the firmware log ring, the error records, and
the staging and flash windows of the recorder (R343, R356, R388 to R391, R413, R421).
-/

namespace Sys2Proof.Machine

open Sys2Proof

/-- The 8 bytes of a little-endian block that start at a multiple of 8. -/
def wordAt (v rel : Nat) : Nat := (v >>> (8 * (rel / 8 * 8))) % 2 ^ 64

/-- The contexts of a function that are not Free. -/
def State.fnCtxs (s : State) (f : Nat) : List Nat := s.liveCtxs.filter fun n => s.fnOf n == f

/-- MIRROR_USED of a function: the bytes in its contexts' mirrors (R341, R343). -/
def State.mirrorUsed (s : State) (f : Nat) : Nat := (s.fnCtxs f).foldl (fun k n => k + (s.ctx n).mirrorUsed) 0

/-- The requests of a function held undispatched (R342, R343). -/
def State.fnHeld (s : State) (f : Nat) : Nat :=
  (s.copies.filter fun c => s.fnOf c.ctx == f && c.held).length + (s.files.filter fun x => s.fnOf x.ctx == f && x.held).length

/-! ## The handover record (R343) -/

/-- CKPT of a handover entry: 0 none, 1 running, 2 complete, 3 ended with another status than DONE. -/
def FnData_ckpt (d : FnData) : Nat :=
  if d.ckptRun ≠ [] then 1 else if d.ckptDone = [] then 0 else if d.ckptStatus = 0 then 2 else 3

/-- The handover entry of a function. -/
def State.handover (s : State) (f : Nat) : List Byte :=
  let d := s.fn f
  let orphan : Bool := s.get (PCIE_FN_CFG_STATE f) == 2
  let ends := d.orphanAt + s.get (PCIE_FN_CFG_HOLD_MIN f) * 60000000000 + d.hbFrozen
  bytesLE 1 (s.get (PCIE_FN_CFG_STATE f)) ++ bytesLE 1 d.cause ++ bytesLE 1 (FnData_ckpt d) ++ bytesLE 1 d.ckptStatus ++
    bytesLE 4 (if orphan then (ends - s.now) / 1000000000 else 0) ++ bytesLE 8 d.orphanAt ++ bytesLE 8 (s.mirrorUsed f) ++
    bytesLE 4 (s.fnCtxs f).length ++ bytesLE 4 (s.fnHeld f)

/-- The header of the handover record: MAGIC and VERSION. -/
def handoverHead : List Byte := bytesLE 4 0x52444E48 ++ bytesLE 2 1 ++ List.replicate 58 0

/-- The place in configuration flash that the copy of the handover record takes, in its region (R345; log 70). -/
def handoverFlash : Nat := 0x05200000

/-- The handover record copied to configuration flash (R343). -/
def State.saveHandover (s : State) : State :=
  s.setBytes .flash handoverFlash (handoverHead ++ (List.range 256).flatMap fun f => s.handover f)

/-! ## Error records (R388 to R391) -/

/-- The error severity of a record (R390): 0 Recoverable, 1 Fatal, 2 Corrected. -/
def cperSeverity (c : Cper) : Nat :=
  if c.action = 1 then 2 else if c.action = 4 ∨ c.action = 5 then 1
  else if c.action = 2 ∨ c.action = 3 ∨ c.code = 0x1103 then 0 else if c.sev = 3 then 1 else 0

/-- The failure-signature section's body (R389). -/
def State.signature (s : State) (c : Cper) : List Byte :=
  bytesLE 2 1 ++ bytesLE 2 c.code ++ bytesLE 1 c.sev ++ bytesLE 1 c.cls ++ bytesLE 2 c.idx ++ bytesLE 1 c.action ++
    bytesLE 1 c.spares ++ bytesLE 2 0 ++ bytesLE 4 s.self ++ bytesLE 8 c.time ++ bytesLE 5 c.opTime ++ bytesLE 3 0 ++
    bytesLE 4 c.cycles ++ bytesLE 4 c.p0 ++ bytesLE 4 c.p1 ++ bytesLE 4 c.p2 ++ bytesLE 4 c.starSeq ++ List.replicate 12 0

/-- A whole record in the layout of the UEFI specification: its header, one section descriptor and the section
(R388; log 69). -/
def State.cperBytes (s : State) (c : Cper) : List Byte :=
  let creator : List Nat := [0x71, 0x6D, 0x4E, 0x2B, 0x5A, 0x0C, 0x3D, 0x4F, 0x9E, 0x21, 0x7A, 0x8B, 0x3C, 0x4D, 0x5E, 0x60]
  let section_ : List Nat := [0x03, 0x9A, 0x1D, 0x5C, 0x46, 0x7E, 0x28, 0x4B, 0xA0, 0xF5, 0x3D, 0x62, 0xE8, 0xB7, 0x19, 0x4C]
  let guid (l : List Nat) : List Byte := l.flatMap fun v => bytesLE 1 v
  bytesLE 4 0x52455043 ++ bytesLE 2 0x0101 ++ bytesLE 4 0xFFFFFFFF ++ bytesLE 2 1 ++ bytesLE 4 (cperSeverity c) ++
    bytesLE 4 1 ++ bytesLE 4 264 ++ bytesLE 8 0 ++ bytesLE 16 Sys2Proof.Config.serial ++ List.replicate 16 0 ++
    guid creator ++ guid creator ++ bytesLE 8 c.seq ++ bytesLE 4 0 ++ bytesLE 8 0 ++ List.replicate 12 0 ++
    bytesLE 4 200 ++ bytesLE 4 64 ++ bytesLE 2 0x0101 ++ bytesLE 2 0 ++ bytesLE 4 1 ++ guid section_ ++ List.replicate 16 0 ++
    bytesLE 4 (cperSeverity c) ++ List.replicate 20 0 ++ s.signature c

/-! ## The recorder's windows (R413, R421) -/

/-- The 32 bytes of a record, as a little-endian number. -/
def recordNum (r : EphRec) : Nat :=
  r.code % 2 ^ 16 + (r.unit % 2 ^ 12 + r.sev % 16 * 2 ^ 12) * 2 ^ 16 + r.opTime % 2 ^ 40 * 2 ^ 32 + r.temp % 256 * 2 ^ 72 +
    r.volt % 2 ^ 16 * 2 ^ 80 + r.cycles % 2 ^ 32 * 2 ^ 96 + r.opId % 2 ^ 32 * 2 ^ 128 + r.p0 % 2 ^ 32 * 2 ^ 160 +
    r.p1 % 2 ^ 32 * 2 ^ 192 + r.p2 % 2 ^ 32 * 2 ^ 224

/-- An empty slot: all ones. -/
def emptyRecord : Nat := 2 ^ 256 - 1

/-- An entry of the staging window: those not staged read as empty (log 71). -/
def State.stagedEntry (s : State) (i : Nat) : Nat :=
  match s.eph.staged[(i + 4096 - s.get EPH_STATUS_STAGE_FIRST) % 4096]? with
  | some r => recordNum r
  | none => emptyRecord

/-- A record of a flash sector: the general ring in sectors 0 to 191, the keep ring in 192 to 255 (R417). -/
def State.flashRecord (s : State) (sector i : Nat) : Nat :=
  let r := if sector < 192 then smGet (fun _ => none) s.eph.general (sector * 2048 + i)
    else smGet (fun _ => none) s.eph.keep ((sector - 192) * 2048 + i)
  match r with
  | some x => recordNum x
  | none => emptyRecord

/-! ## The check report and the firmware's registers (R55, R351, R355) -/

/-- An entry of the check report. -/
def findingNum (f : Finding) : Nat :=
  f.code + f.sev * 2 ^ 16 + f.sec * 2 ^ 24 + f.ent % 2 ^ 32 * 2 ^ 32 + f.det % 2 ^ 64 * 2 ^ 64

/-- A number of a firmware slot's header; of the image that the module was made with, whose bytes are not known, a given
value (log 77). -/
def State.fwNum (s : State) (slot off n dflt : Nat) : Nat :=
  match smGet (fun _ => []) s.fw.slotBytes slot with
  | [] => dflt
  | im => ofBytesLE ((im.drop off).take n)

/-- The slot that runs. -/
def State.runSlot (s : State) : Nat := s.get FW_STATUS_RUN_SLOT

/-- IF_MIN of the running image (R355). -/
def State.ifMin (s : State) : Nat := s.fwNum s.runSlot 14 2 0x0100

/-- IF_MAX of the running image (R355). -/
def State.ifMax (s : State) : Nat := s.fwNum s.runSlot 16 2 0x0100

/-- The seconds left in a firmware trial. -/
def State.trialLeft (s : State) : Nat :=
  if s.get FW_STATUS_UPD = 4 then (s.fw.trialStart + s.fw.selfCheck * 1000000000 - s.now) / 1000000000 else 0

/-! ## All windows -/

/-- The word that a window of the hub block shows at a register key, where the key lies in one: HANDOVER_INFO of a
context page, the handover record, the state Frozen of a tile during a freeze (log 80), the check report, what FW_IF and FW_UPD_RESULT show of the firmware, the log ring, the error records, and the recorder's windows. -/
def State.windowRead (s : State) (k : Nat) : Option Nat :=
  let word (bs : List Byte) (rel : Nat) : Nat := wordAt (ofBytesLE bs) rel
  if 0x780000 ≤ k ∧ k < 0x780000 + 8256 then
    let rel := k - 0x780000
    some (if rel < 64 then word handoverHead rel else word (s.handover ((rel - 64) / 32)) ((rel - 64) % 32))
  else if 0x50001000 ≤ k ∧ k < 0x50002000 then
    some (match s.cfg.report[(k - 0x50001000) / 16]? with
      | some f => wordAt (findingNum f) (k % 16)
      | none => 0)
  else if s.frozen ∧ 0x10000000 ≤ k ∧ k < 0x10000000 + 272 * 0x10000 ∧ k % 0x10000 = 0 ∧ bitsOf 11 8 (s.rd k) ≤ 3 then
    some (withBits 11 8 6 (s.rd k))
  else if k = FW_UPD_RESULT_TRIAL_LEFT.off then some (withBits 63 48 s.trialLeft (s.rd k))
  else if 0x200000000 ≤ k ∧ k < 0x200000800 then some (withBits 63 48 s.ifMin (withBits 47 32 s.ifMax (s.rd k)))
  else if 0xD10000 ≤ k ∧ k < 0xD20000 then
    some (match smGet (fun _ => none) s.fw.log ((k - 0xD10000) / 64) with
      | some e => wordAt (e.1 % 2 ^ 64 + e.2.1 % 2 ^ 32 * 2 ^ 64 + e.2.2 * 2 ^ 96) (k % 64)
      | none => 0)
  else if 0xE00000 ≤ k ∧ k < 0xE20000 then
    some (match smGet (fun _ => none) s.flt.cpers ((k - 0xE00000) / 512) with
      | some c => word (s.cperBytes c) (k % 512)
      | none => 0)
  else if 0xF10000 ≤ k ∧ k < 0xF30000 then some (wordAt (s.stagedEntry ((k - 0xF10000) / 32)) (k % 32))
  else if 0xF40000 ≤ k ∧ k < 0xF50000 then
    some (wordAt (s.flashRecord (s.get EPH_PAGE_SECTOR) ((k - 0xF40000) / 32)) (k % 32))
  else if 0x100000000 ≤ k ∧ k < 0x110000000 ∧ 0x100 ≤ k % 0x10000 ∧ k % 0x10000 < 0x120 then
    some (word (s.handover (s.fnOf ((k - 0x100000000) / 0x10000))) (k % 0x10000 - 0x100))
  else none

end Sys2Proof.Machine
end

