-- ==== Sys2Proof/Machine/RegAccess.lean ====
section
/-!
DEFINITION. Host accesses to control space and to BAR2: the access types, clamps and discards of register writes, and
reads (R7 to R9, R33 to R37, R449).
-/

namespace Sys2Proof.Machine

open Sys2Proof

/-! ## Places -/

/-- A control-space offset lies in a block (R33); of the staging block only its four regions do (R51). -/
def insideBlock (off : Nat) : Bool :=
  decide (off < 0x05000000) || (decide (0x10000000 ≤ off) && decide (off < 0x10000000 + 272 * 0x10000)) ||
  (decide (0x20000000 ≤ off) && decide (off < 0x20000000 + 12 * 0x100000)) ||
  (decide (0x30000000 ≤ off) && decide (off < 0x31000000)) ||
  (decide (0x40000000 ≤ off) && decide (off < 0x40000000 + 32 * 0x10000)) ||
  (decide (0x50000000 ≤ off) && decide (off < 0x50002000)) ||
  (decide (0x50400000 ≤ off) && decide (off < 0x50800000)) || (mirrorTarget off).isSome

/-- The page of a context, keyed by the context. -/
def pageKey (n rel : Nat) : Nat := 0x100000000 + n * 0x10000 + rel

/-- The register key that an access reaches: control space by its offset, a PF0 page of the hub block or a function's
page by the context of its slot (R36). -/
def State.resolve (s : State) (path : Path) (a : RegAddr) : Option Nat :=
  match a, path with
  | .ctrl off, .pf0 =>
    if 0x00800000 ≤ off ∧ off < 0x00C00000 then
      (s.ctxOf 0 ((off - 0x800000) / 0x10000)).map fun n => pageKey n ((off - 0x800000) % 0x10000)
    else if insideBlock off then some off else none
  | .ctrl off, .sideband => if insideBlock off then some off else none
  | .page f slot rel, .vf g => if f = g then (s.ctxOf f slot).map fun n => pageKey n rel else none
  | .page f slot rel, .pf0 => if f = 0 then (s.ctxOf 0 slot).map fun n => pageKey n rel else none
  | _, _ => none

/-! ## Writes (R8) -/

/-- The limits that a written field takes its value within (R89, R155, R267, R339, R393): the nearer limit, or the
value that 0 reads as. -/
def fieldClamp (base hi v : Nat) : Nat :=
  if base = 0x700000 ∧ hi = 63 then clampTo 200 60000 v
  else if base = 0x700000 ∧ hi = 47 then max 1 v
  else if base = 0x700000 ∧ hi = 31 then max 1 v
  else if base = 0x20000010 ∧ hi = 63 then max 1 v
  else if base = 0x20000010 ∧ hi = 23 then min 50 v
  else if base = 0x20000010 ∧ hi = 15 then clampTo 10 90 v
  else if base = 0x20000010 ∧ hi = 7 then min 100 v
  else if base = 0x20004000 ∧ hi = 11 then (if 4 < v then 0 else v)
  else if base = 0x20004000 ∧ hi = 5 then (if v = 3 then 0 else v)
  else if base = 0x300250 ∧ hi = 63 then clampTo 100 100000 v
  else if base = 0x620000 ∧ hi = 63 then max 10 v
  else if base = 0xC00008 ∧ hi = 63 then clampTo 1000 2800 v
  else if base = 0xC00008 ∧ hi = 2 then min 4 v
  else if base = 0xC00010 ∧ hi = 31 then clampTo 20 80 v
  else if base = 0xC01008 ∧ hi = 2 then min 2 v
  else v

/-- The value of a register after a write to one of its fields, by the field's access type (R7, R8). -/
def writeField (base : Nat) (h : Half) (v old : Nat) (acc : Nat) (f : FieldRow) : Nat :=
  let full := halfWrite h old v
  let ones := halfWrite h 0 v
  if f.own then acc
  else match f.acc with
    | .rw => withBits f.hi f.lo (fieldClamp base f.hi (bitsOf f.hi f.lo full)) acc
    | .w1c =>
      let x := bitsOf f.hi f.lo old
      withBits f.hi f.lo (x - (x &&& bitsOf f.hi f.lo ones)) acc
    | .w1s => withBits f.hi f.lo (bitsOf f.hi f.lo old ||| bitsOf f.hi f.lo ones) acc
    | _ => acc

/-- The queue that a register key belongs to: its ring, by the register layouts of R118, R199 and the context page. -/
def queueOfKey (k : Nat) : Option (QueueId × Nat) :=
  if 0x300000 ≤ k ∧ k < 0x320000 ∧ k % 0x400 < 0x200 then
    some (.workList ((k - 0x300000) / 0x400) (k % 0x400 / 0x40), k % 0x40)
  else if 0x20000000 ≤ k ∧ k < 0x20C00000 ∧ 0x21000 ≤ k % 0x100000 ∧ k % 0x100000 < 0x21800 then
    some (.haloQp ((k - 0x20000000) / 0x100000) ((k % 0x100000 - 0x21000) / 0x40), k % 0x40)
  else if 0x1000000 ≤ k ∧ k < 0x5000000 ∧ 0x501000 ≤ k % 0x1000000 ∧ k % 0x1000000 < 0x501400 then
    some (.orrQp (k / 0x1000000 - 1) ((k % 0x1000000 - 0x501000) / 0x40), k % 0x40)
  else if 0x1000000 ≤ k ∧ k < 0x5000000 ∧ 0x601000 ≤ k % 0x1000000 ∧ k % 0x1000000 < 0x601400 then
    some (.collCh (k / 0x1000000 - 1) ((k % 0x1000000 - 0x601000) / 0x40), k % 0x40)
  else if 0x100000000 ≤ k ∧ k < 0x110000000 ∧ 8 ≤ k % 0x10000 ∧ k % 0x10000 < 0x28 then
    some (.cmdRing ((k - 0x100000000) / 0x10000), k % 0x10000 - 8)
  else none

/-- A write that a rule discards: a ring's setup while its EN is 1 (R118, R199), the active bank of the route tables
(R266), a MODULE_ID with reserved bits or while a context is not Free (R264). -/
def State.writeDiscarded (s : State) (k : Nat) : Bool :=
  (match queueOfKey k with
    | some (q, rel) => s.get (qEn q) == 1 && rel != (if QueueId_isList q then 0x10 else 0x18)
    | none => false) ||
  (decide (0x600000 ≤ k) && decide (k < 0x620000) && (k - 0x600000) / 0x10000 == s.get HUB_SL_RCTL_ACTIVE)

/-- EFF_LIMIT_W: LIMIT_W less what thermal action takes off it (R398, R410). -/
def State.setEff (s : State) : State :=
  s.put PWR_LIMIT_CFG_EFF_LIMIT_W (max 1000 (s.get PWR_LIMIT_CFG_LIMIT_W - s.pwr.lowered))

/-- A register after a plain write: every field that is not a command of its own takes its effect, reserved bits are
discarded (R8, R9). -/
def State.writeReg (s : State) (k : Nat) (h : Half) (v : Nat) : State :=
  match regRow k with
  | none => s
  | some r =>
    if s.writeDiscarded k then s
    else
      let old := s.rd k
      let new := r.fields.foldl (fun acc f => writeField r.base h v old acc f) old
      let new :=
        if k = 0x620000 ∧ (bitsOf 39 34 new ≠ 0 ∨ s.liveCtxs ≠ []) then withBits 39 16 (bitsOf 39 16 old) new
        else match queueOfKey k with
          | some (.cmdRing _, 0x10) => withBits 43 32 (bitsOf 43 32 old) new
          | _ => new
      let t := s.wr k new
      if k = 0xC00008 then t.setEff else t

/-- A register of the recorder or the freeze controller: writable while frozen (R423). -/
def eclReg (k : Nat) : Bool := decide (0xF00000 ≤ k) && decide (k < 0x1000000)

/-- The ST fields of a register written in the staging set by a path: refused while the other path's session is open
(R51, R52). -/
def State.mirrorWrite (s : State) (path : Path) (k : Nat) (h : Half) (v : Nat) : State :=
  if !isSt k ∨ ownerCode path = 0 then s
  else if s.cfgPath path then s.stageWrite (ownerCode path) k h v
  else s.cfgDone .refusedPartition

/-- A write of an ST register at its own offset edits its staged copy (R8). -/
def State.writeAny (s : State) (path : Path) (k : Nat) (h : Half) (v : Nat) : State :=
  (s.mirrorWrite path k h v).writeReg k h v

/-- A register written by a path, or held while the module is frozen (R8, R423). -/
def State.registerWrite (s : State) (path : Path) (a : RegAddr) (h : Half) (v : Word) : State :=
  if s.on then
    match s.resolve path a with
    | none => s
    | some k =>
      if s.frozen && !eclReg k then s.holdCmd (.registerWrite path a h v) else s.writeAny path k h v.toNat
  else s

/-! ## Reads -/

/-- The value of a register key as a read returns it: write-only fields are never set, the windows show what they map,
and the context page's first word follows the context table (R8, R41). -/
def State.readReg (s : State) (k : Nat) : Nat :=
  if 0x100000000 ≤ k ∧ k < 0x110000000 ∧ k % 0x10000 = 0 then
    let n := (k - 0x100000000) / 0x10000
    n * 2 ^ 52 + s.get (CTX_STATE n) * 2 ^ 48 + s.get (CTX_INCARNATION n) * 2 ^ 40
  else match s.windowRead k with
    | some v => v
    | none => if (regRow k).isSome then s.rd k else 0

/-- The part of a register that an access carries (R7). -/
def halfRead (h : Half) (v : Nat) : Nat :=
  match h with
  | .full => v
  | .low => v % 2 ^ 32
  | .high => v / 2 ^ 32

/-- An RC field after a read of one half: the bits returned are cleared (R7, R8). -/
def clearRc (h : Half) (old acc : Nat) (f : FieldRow) : Nat :=
  if f.acc = .rc then
    withBits f.hi f.lo (bitsOf f.hi f.lo (halfWrite h old 0)) acc
  else acc

/-- A read of a register with its RC fields cleared. -/
def State.readClear (s : State) (k : Nat) (h : Half) : State :=
  match regRow k with
  | some r => s.wr k (r.fields.foldl (clearRc h (s.rd k)) (s.rd k))
  | none => s

/-- RC_FIELD_READ (R8): the read returns the value and clears the RC bits that it returns. -/
def execRcFieldRead (path : Path) (a : RegAddr) (h : Half) (s : State) : Host.Outcome State Fault Refusal :=
  .next (if s.on then
      match s.resolve path a with
      | none => s.emit (.readData (2 ^ (if h = .full then 64 else 32) - 1))
      | some k => (s.readClear k h).emit (.readData (halfRead h (s.readReg k)))
    else s)

/-! ## Accesses that reach no register (R7, R33) -/

/-- All ones of `size` bytes. -/
def allOnes (size : Nat) : Nat := 2 ^ (8 * size) - 1

/-- An access outside every block: no effect, all ones read, event 0x1902 once per offset (R33). -/
def State.outsideAccess (s : State) (off size : Nat) (write : Bool) (fn : Nat) : State :=
  let t := s.evOnce 0x1902 off off (if write then 1 else 0) fn
  if write then t else t.emit (.readData (allOnes size))

/-- ACCESS_UNSUPPORTED_SIZE (R7): no effect, all ones read, event 0x1901 once per register per power cycle; outside
every block R33 governs. -/
def execAccessUnsupportedSize (off size : Nat) (write : Bool) (fn : Nat) (s : State) :
    Host.Outcome State Fault Refusal :=
  .next (if s.on && !((size == 4 || size == 8) && off % size == 0) then
      if insideBlock off then
        let t := s.evOnce 0x1901 (off / 8 * 8) off size fn
        if write then t else t.emit (.readData (allOnes size))
      else s.outsideAccess off size write fn
    else s)

/-- ACCESS_OUTSIDE_BLOCKS (R33). -/
def execAccessOutsideBlocks (off : Nat) (write : Bool) (fn : Nat) (s : State) : Host.Outcome State Fault Refusal :=
  .next (if s.on && !insideBlock off then s.outsideAccess off 8 write fn else s)

/-- An access at an offset of the sliding part of BAR0 (R35). -/
def State.windowAccess (s : State) (off : Nat) (h : Half) (write : Option Word) : State :=
  if s.on && decide (0x30000000 ≤ off) && decide (off < 0x40000000) then
      let base := s.get HUB_BAR0_WIN_BASE
      let k := base * 0x10000000 + (off - 0x30000000)
      let ones := Output.readData (2 ^ (if h = .full then 64 else 32) - 1)
      if 6 ≤ base then (match write with
        | some _ => s
        | none => s.emit ones)
      else if !insideBlock k then s.outsideAccess k (if h = .full then 8 else 4) write.isSome 0
      else match write with
        | some v =>
          if s.frozen && !eclReg k then s.holdCmd (.bar0WindowAccess off h write)
          else if 0x50400000 ≤ k ∧ k < 0x50800000 then
            s.setBytes .img (k - 0x50400000 + (if h = .high then 4 else 0))
              (bytesLE (if h = .full then 8 else 4) v.toNat)
          else match mirrorTarget k with
            | some x => s.mirrorWrite .pf0 x h v.toNat
            | none => s.writeAny .pf0 k h v.toNat
        | none =>
          if 0x50400000 ≤ k ∧ k < 0x50800000 then s.emit (.readData (s.num .img (k - 0x50400000) 8))
          else match mirrorTarget k with
            | some x => s.emit (.readData (halfRead h (mergeSt x (s.staged x) 0)))
            | none => (s.readClear k h).emit (.readData (halfRead h (s.readReg k)))
  else s

/-! ## BAR2 (R37) -/

/-- The H address of a BAR2 offset in the view of the function's BAR2 context. -/
def State.bar2Addr (s : State) (f off : Nat) : Nat :=
  2 ^ 60 + (s.get (PCIE_FN_CFG_BAR2_OFFSET f) + off) % 2 ^ 48

/-- BAR2_READ (R37): an H access of the BAR2 context; outside the view all ones and one violation; in a sealed extent
the seal is checked, and a mismatch or poison returns the poisoned indication (R360). -/
def execBar2Read (fn : Fin 256) (off len : Nat) (s : State) : Host.Outcome State Fault Refusal :=
  .next (if s.on then
      let n := s.get (PCIE_FN_CFG_BAR2_CTX fn.val)
      let a := s.bar2Addr fn.val off
      match s.view n a len false [1] with
      | .extent e rel =>
        let bad := (blocksOf rel len).any fun b =>
          let x := s.sealOf (tierSpace e.tier) (Extent_phys e b)
          x.poison || (e.sealed && !crcGood x (s.block (tierSpace e.tier) (Extent_phys e b)))
        if bad then s.emit .poisonedCompletion else s.emit (.readBytes (s.extRead e rel len))
      | .refuse c => (s.violate n c 0 (offOf a)).emit (.readBytes (List.replicate len 0xFF))
      | .outside _ _ => s
    else s)

/-- BAR2_WRITE (R37): the bytes change in an unsealed extent, each block taking a correct CRC (R444); outside the view
or in a sealed extent the write is discarded and counts one violation. -/
def execBar2Write (fn : Fin 256) (off : Nat) (data : List Byte) (s : State) : Host.Outcome State Fault Refusal :=
  .next (if !s.on then s
    else if s.frozen then s.holdCmd (.bar2Write fn off data)
    else
      let n := s.get (PCIE_FN_CFG_BAR2_CTX fn.val)
      let a := s.bar2Addr fn.val off
      match s.view n a data.length true [1] with
      | .extent e rel =>
        if e.sealed then s.violate n 0x2104 0 (offOf a) else s.extWrite e rel data
      | .refuse c => s.violate n c 0 (offOf a)
      | .outside _ _ => s)

end Sys2Proof.Machine
end

