-- ==== Sys2Proof/Machine/Commands.lean ====
section
/-!
DEFINITION. Command rings: taking the command at the head of a context's ring (R331, R332), and capacity: quotas,
admission, deferral and the placing of extents (R169 to R174, R446).
-/

namespace Sys2Proof.Machine

open Sys2Proof

/-! ## Taking a command (R332) -/

/-- The OP of a command. -/
def cmdOp (e : Entry) : Nat := Entry_bits e 0 63 56

/-- Who may issue a command: only PF0, PF0 naming CTX or the context itself, or the context. -/
inductive Issuer where
  | pf0 | both | ctx
  deriving DecidableEq, Repr

/-- The issuer of an OP; none for an OP that the command table does not list. -/
def opIssuer (op : Nat) : Option Issuer :=
  if op = 0x14 then some .both
  else if op ∈ [0x10, 0x11, 0x12, 0x13, 0x15, 0x20, 0x21, 0x26, 0x27, 0x29, 0x2A] then some .pf0
  else if op ∈ [0x01, 0x22, 0x23, 0x24, 0x25, 0x28] then some .ctx
  else none

/-- The bits that a command defines in each of its words W0 to W7, as masks; every other bit is reserved. -/
def opMasks (op : Nat) : List Nat :=
  let w0 := 0xFFFE0FFF00000000
  let all := 2 ^ 64 - 1
  match op with
  | 0x01 => [w0, all, all, all, 0xFFFFFFF8FFFFFFFF, all, all, all]
  | 0x10 => [w0, 0x3F7FFF0FFF, 0xFFFFFFFF003FFFFF, all, all, 0xFFFFFFFF, all, 0]
  | 0x14 => [w0, 0x3F3F, all, all, 0, 0, 0, 0]
  | 0x15 => [w0, 0x1F, all, all, all, 0, 0, 0]
  | 0x20 => [w0, 0, all, 0, 0, 0, 0, 0]
  | 0x21 => [w0, 0xF00FFFF, 0, 0, 0, 0, 0, 0]
  | 0x22 => [w0, 0xF00FFFF, all, all, 0, 0, 0, 0]
  | 0x23 => [w0, 0xF00FFFF, 0, 0, 0, 0, 0, 0]
  | 0x24 => [w0, 0xF00FFFF, all, 0, 0, 0, 0, 0]
  | 0x25 => [w0, 0xF00FFFF, all, 0, 0, 0, 0, 0]
  | 0x26 => [w0, 0, all, all, 0, 0, 0, 0]
  | 0x27 => [w0, 0x7FFFF, 0, 0, 0, 0, 0, 0]
  | 0x28 => [w0, 0x3, all, all, 0, 0, 0, 0]
  | 0x29 => [w0, 0xFFFF, all, all, 0, 0, 0, 0]
  | 0x2A => [w0, 0x7F, 0xFFFFFFFF, 0, 0, 0, 0, 0]
  | _ => [w0, 0, 0, 0, 0, 0, 0, 0]

/-- Every bit of a 64-byte entry outside a list of word masks is zero. -/
def reservedZero (e : Entry) (masks : List Nat) : Bool :=
  masks.zipIdx.all fun m => Entry_bits e m.2 63 0 &&& m.1 == Entry_bits e m.2 63 0

/-- The context accepts new work of its own: Active, or Orphan for what its ring already holds (R43, R340). -/
def State.accepts (s : State) (n : Nat) : Bool := s.get (CTX_STATE n) == 1 || s.get (CTX_STATE n) == 3

/-- The common refusals of a command at the head of a ring: an unknown OP, a VERSION other than 1, a reserved bit, a
context that accepts no work, a CTX field outside a PF0 command (R43, R202, R332). -/
def State.cmdBad (s : State) (n : Nat) (e : Entry) : Bool :=
  match opIssuer (cmdOp e) with
  | none => true
  | some w =>
    Entry_bits e 0 55 52 != 1 || !reservedZero e (opMasks (cmdOp e)) || !s.accepts n ||
    ((w == .ctx || s.fnOf n != 0) && Entry_bits e 0 43 32 != 0)

/-- The target context of a command: CTX of a PF0 command, the issuing context otherwise. -/
def State.cmdTarget (s : State) (n : Nat) (e : Entry) : Nat :=
  match opIssuer (cmdOp e) with
  | some .ctx => n
  | _ => if s.fnOf n = 0 then Entry_bits e 0 43 32 else n

/-- A command with FENCE waits for every earlier command; a COPY without it for none, and another for every earlier
command other than COPY. -/
def State.cmdWaits (s : State) (n : Nat) (e : Entry) : Bool :=
  let fence := Entry_bits e 0 49 49 == 1
  ((fence || cmdOp e != 1) && !(s.queue (.cmdRing n)).open_.isEmpty) || (fence && s.copies.any fun k => k.ctx == n)

/-- The head of a ring taken: the state with the head advanced, and the index it had. -/
def State.take (s : State) (q : QueueId) : State × Nat := (s.advance q 1, s.get (qHead q))

/-- A refused head entry: it completes REFUSED_PARTITION without effect, and the ring stops (R122, R332). -/
def State.refuseHead (s : State) (q : QueueId) : State :=
  let (t, i) := s.take q
  t.complete q i 0 .refusedPartition 0 0

/-- The head entry lies outside the owner's view: one violation, and the entry completes with the refusal. -/
def State.headOutside (s : State) (q : QueueId) : State :=
  (s.violate (s.owner q) 0x2101 (s.get (qHead q)) (s.get (qBase q))).refuseHead q

/-- The mark that a command ring's head has been answered DEFERRED during a firmware switch. -/
def switchMark (n head : Nat) : Nat × Nat := (0xF1052, n * 65536 + head)

/-- A new command during a firmware switch: answered DEFERRED once, with a retry hint of 10 ms, and served after it
(R352, R379). -/
def State.switchDefer (s : State) (n : Nat) : State :=
  let q := QueueId.cmdRing n
  let m := switchMark n (s.get (qHead q))
  if s.recorded.contains m then s
  else ({ s with recorded := m :: s.recorded }).deferRec q (s.get (qHead q)) 0 (0x8000 + 1000)

/-- The command of OP `op` at the head of a context's ring runs `body` on the state that has taken it, with its index
and words; common refusals come first, and a PF0 command of another function counts one violation (R332). -/
def State.command (s : State) (n op : Nat) (body : State → Nat → Entry → State) : State :=
  let q := QueueId.cmdRing n
  if !(s.live && s.qRunning q && s.ringHas q) then s
  else if s.get FW_STATUS_DRAINING = 1 then s.switchDefer n
  else if s.get FW_STATUS_STATE ≠ 2 ∧ s.get FW_STATUS_STATE ≠ 4 then s
  else match s.ringEntry q with
    | none => s.headOutside q
    | some e =>
      if opIssuer (cmdOp e) = none then s.refuseHead q
      else if cmdOp e ≠ op then s
      else if s.cmdWaits n e then s
      else if opIssuer op = some .pf0 ∧ s.fnOf n ≠ 0 then
        (s.violate n 0x2101 (s.get (qHead q)) 0).refuseHead q
      else if s.cmdBad n e then s.refuseHead q
      else if s.get FW_STATUS_STATE = 4 then
        (s.take q).1.complete q (s.get (qHead q)) 0 .refusedCapacity 0 0
      else body (s.take q).1 (s.take q).2 e

/-- A command completes. -/
def State.cmdDone (s : State) (n i : Nat) (st : Status) (r0 : Nat) : State := s.complete (.cmdRing n) i 0 st r0 0

/-- A command taken that completes later: later commands other than COPY wait for it. -/
def State.cmdOpen (s : State) (n i : Nat) : State :=
  let q := QueueId.cmdRing n
  s.setQueue q { s.queue q with open_ := (s.queue q).open_ ++ [i] }

/-- A command that was open completes; one that a new firmware image executed again reports DONE_CORRECTED instead of
DONE (R350). -/
def State.cmdClose (s : State) (n i : Nat) (st : Status) (r0 r1 : Nat) : State :=
  let q := QueueId.cmdRing n
  let again := s.fw.journal.contains (n, i)
  let st := if again ∧ st = .done then Status.doneCorrected else st
  let t := { s with fw := { s.fw with journal := s.fw.journal.filter (· != (n, i)) } }
  (t.setQueue q { t.queue q with open_ := (t.queue q).open_.filter (· != i) }).complete q i 0 st r0 r1

/-- A status with no reservations about the target: Active, Fenced or Orphan (R447). -/
def State.manageable (s : State) (n : Nat) : Bool :=
  s.get (CTX_STATE n) == 1 || s.get (CTX_STATE n) == 2 || s.get (CTX_STATE n) == 3

/-! ## Limits and guarantees (R171, R172) -/

/-- The scope-0 entry of a partition and tier. -/
def partQuota (c : Config) (p t : Nat) : Option Quota :=
  c.quotas.find? fun q => q.part == p && q.tier == t && q.scope == 0

/-- The scope-1 entry of a job domain. -/
def ctxQuota (c : Config) (p t d : Nat) : Option Quota :=
  c.quotas.find? fun q => q.part == p && q.tier == t && q.scope == 1 && q.domain == d

/-- The limit of a configuration for a context in a tier, in granules (R171). -/
def State.limitIn (s : State) (c : Config) (n t : Nat) : Nat :=
  let p := s.get (CTX_PARTITION n)
  let pl := match partQuota c p t with
    | some q => q.limit
    | none => 0
  match ctxQuota c p t (s.get (CTX_JOB_DOMAIN n)) with
  | some q => q.limit
  | none => pl

/-- The partition limit in force. -/
def partLimit (c : Config) (p t : Nat) : Nat :=
  match partQuota c p t with
  | some q => q.limit
  | none => 0

/-- The staged quotas bind too while the staging set is Checked or Armed (R56). -/
def State.stagedBinds (s : State) : Bool := s.stg == 3 || s.stg == 4

/-- An H guarantee scaled after a fold (R172). -/
def State.scaledGuar (s : State) (t g : Nat) : Nat :=
  match s.tiers.hScale with
  | some (a, b) => if t = 1 then g * a / b else g
  | none => g

/-- A partition's guarantee in a tier. -/
def State.partGuar (s : State) (p t : Nat) : Nat :=
  match partQuota s.cfg.active p t with
  | some q => s.scaledGuar t q.guarantee
  | none => 0

/-- A context's guarantee in a tier. -/
def State.ctxGuar (s : State) (n t : Nat) : Nat :=
  match ctxQuota s.cfg.active (s.get (CTX_PARTITION n)) t (s.get (CTX_JOB_DOMAIN n)) with
  | some q => s.scaledGuar t q.guarantee
  | none => 0

/-- The use of a context in a tier with its admitted creations that wait to take effect. -/
def State.ctxHeld (s : State) (n t : Nat) : Nat :=
  s.ctxUse n t + ((s.ctx n).changes.filter fun c => !c.destroy && c.ext.tier == t).foldl
    (fun k c => k + c.ext.len / granule t) 0

/-- The use of a partition in a tier, admitted creations included. -/
def State.partHeld (s : State) (p t : Nat) : Nat :=
  (s.liveCtxs.filter fun n => s.get (CTX_PARTITION n) == p).foldl (fun k n => k + s.ctxHeld n t) 0

/-- The capacity free to a request of a context in a tier, in granules (R171). -/
def State.freeTo (s : State) (n t : Nat) : Nat :=
  let p := s.get (CTX_PARTITION n)
  let others := (s.liveCtxs.filter fun m => m != n && s.get (CTX_PARTITION m) == p).foldl
    (fun k m => k + (s.ctxGuar m t - s.ctxHeld m t)) 0
  if t = 0 then s.tierCapacity s.cfg.active p 0 - s.partHeld p 0 - others
  else
    let used := s.liveCtxs.foldl (fun k m => k + s.ctxHeld m t) 0
    let rest := (parts.filter fun r => r != p).foldl (fun k r => k + (s.partGuar r t - s.partHeld r t)) 0
    s.tierCapacity s.cfg.active p t - used - others - rest

/-- The outcome of admission (R173). -/
inductive Admission where
  | admitted | deferred | refused (st : Status)
  deriving DecidableEq, Repr

/-- Admission of a request of `k` granules; `fits` says whether the named place has room too (R173, R446). -/
def State.admission (s : State) (n t k queued limit : Nat) (spec fits : Bool) : Admission :=
  let p := s.get (CTX_PARTITION n)
  let above (c : Config) : Bool :=
    decide (s.limitIn c n t < s.ctxHeld n t + k) || decide (partLimit c p t < s.partHeld p t + k)
  let room := fits && decide (k ≤ s.freeTo n t)
  if spec && !room then .refused .cancelled
  else if above s.cfg.active || (s.stagedBinds && above s.cfg.staged) then .refused .refusedQuota
  else if !room then (if limit ≤ queued then .refused .refusedCapacity else .deferred)
  else .admitted

/-! ## Use counters -/

/-- The fields of HUB_CTX_USE that follow a context's use and limits. -/
def State.refreshUse (s : State) (n : Nat) : State :=
  let lim (t : Nat) : Nat := s.limitIn s.cfg.active n t
  (((((s.put (HUB_CTX_USE_L_LIMIT n) (lim 0)).put (HUB_CTX_USE_L_USED n) (s.ctxHeld n 0)).put (HUB_CTX_USE_H_LIMIT n)
    (lim 1)).put (HUB_CTX_USE_H_USED n) (s.ctxHeld n 1)).put (HUB_CTX_USE_D_LIMIT n) (lim 2)).put
    (HUB_CTX_USE_D_USED n) (s.ctxHeld n 2)

/-- A refused request counted and recorded: 0x9101 for a quota, 0x9102 for capacity at an admission point (R191). -/
def State.countRefusal (s : State) (n t point : Nat) (st : Status) : State :=
  if st = .refusedQuota then
    (s.inc (HUB_CTX_USE_N_REFUSED_QUOTA n) 1).evLim 0x9101 n 0 0 n t
  else if st = .refusedCapacity then
    (s.inc (HUB_CTX_USE_N_REFUSED_CAPACITY n) 1).evLim 0x9102 n 0 0 n point
  else s

/-! ## Placing granules (R446) -/

/-- The physical granules of a tier that a request may be placed on: the named stack or slice, or any of the tier's
(L: the partition's scratchpad slices), less what extents hold and stream buffers cover (R124). -/
def State.freeGranules (s : State) (n t place : Nat) : List Nat :=
  let g := granule t
  let p := s.get (CTX_PARTITION n)
  let all : List Nat :=
    if t = 0 then
      ((List.range 64).filter fun k => bitAt (Config_scratch s.cfg.active p) k && (place == 0x3F || place == k)).flatMap
        fun k => (List.range 256).map fun i => k * 256 + i
    else if t = 1 then
      ((List.range 12).filter fun k => place == 0x3F || place == k).flatMap fun k =>
        (List.range (s.get (HBM_STACK_STATUS_CAP_GIB k) * 512)).map fun i => k * 32768 + i
    else List.range 32768
  let held := s.liveCtxs.flatMap fun m =>
    ((s.ctx m).extents ++ ((s.ctx m).changes.filter fun c => !c.destroy).map fun c => c.ext).filter fun e => e.tier == t
  let streams := s.cfg.active.streams.filterMap fun kv => kv.2
  all.filter fun i =>
    !(held.any fun e => e.phys.any fun c => decide (c.1 < (i + 1) * g) && decide (i * g < c.1 + c.2)) &&
    !(t == 0 && streams.any fun d =>
      decide (d.slice * 2 ^ 24 + d.bufOff * 4096 < (i + 1) * g) &&
      decide (i * g < d.slice * 2 ^ 24 + (d.bufOff + d.depth) * 4096))

/-- `k` granules picked from a list of free ones, each where the module chooses (R446). -/
def pickGranules : Nat → List Nat → Nat → List Nat
  | 0, _, _ => []
  | k + 1, fs, c =>
    let i := fs.getD (Config.placeChoice c % fs.length) 0
    i :: pickGranules k (fs.filter (· != i)) (c + 1)

/-- The slice or stack named by PLACE may hold an extent of the tier (R28, R56, R446). -/
def State.placeGood (s : State) (n t place len : Nat) : Bool :=
  if t = 2 ∨ place = 0x3F then true
  else if t = 1 then decide (place < 12)
  else
    bitAt (Config_scratch s.cfg.active (s.get (CTX_PARTITION n))) place && decide (len ≤ 2 ^ 24) &&
    !(s.stagedBinds && !bitAt (Config_scratch s.cfg.staged (s.get (CTX_PARTITION n))) place)

/-! ## EXTENT_SET (R28, R29, R446) -/

/-- The extents of a context with its waiting creations. -/
def State.extentsSoon (s : State) (n : Nat) : List Extent :=
  (s.ctx n).extents ++ ((s.ctx n).changes.filter fun c => !c.destroy).map fun c => c.ext

/-- The refusal of a creation, where a rule of R28, R125 or R446 refuses it. -/
def State.extentRefusal (s : State) (n t place off len : Nat) : Option Status :=
  let g := granule t
  if 2 < t ∨ off % g ≠ 0 ∨ len % g ≠ 0 ∨ len = 0 ∨ 2 ^ 48 < off + len ∨ (t = 0 ∧ 0x800000000000 < off + len) ∨
      !s.placeGood n t place len ∨
      (s.extentsSoon n).any (fun e => e.tier == t && decide (e.off < off + len) && decide (off < e.off + e.len)) then
    some .refusedPartition
  else if 32 ≤ (s.extentsSoon n).length then some .refusedCapacity
  else none

/-- The context has a request outstanding that was issued under its present extents (R29, R44): an issued macro-op of
its entries, an engine's descriptor, a copy, a PCIe or X-tier request, a collective or a deferred request. -/
def State.ctxBusy (s : State) (n : Nat) : Bool :=
  (s.tiles.any fun kv => match kv.2.entry with
    | some r => r.ctx == n && !kv.2.issued.isEmpty
    | none => false) ||
  (s.haloOps.any fun o => s.owner (.haloQp o.engine o.qp) == n) || (s.copies.any fun c => c.ctx == n) ||
  (s.pcie.any fun r => r.ctx == n) || (s.xreqs.any fun r => r.ctx == n) ||
  (s.coll.ops.any fun o => s.owner (.collCh o.quad o.ch) == n) || (s.tiers.deferrals.any fun d => d.ctx == n) ||
  (s.orrOps.any fun o => s.owner (.orrQp o.quad o.qp) == n) || (s.files.any fun f => f.ctx == n)

/-- An extent change takes effect: created or released, the use counters follow, and its command completes (R29). -/
def State.applyChange (s : State) (n : Nat) (c : ExtChange) : State :=
  let d := s.ctx n
  let es := if c.destroy then d.extents.filter fun e => e != c.ext else d.extents ++ [c.ext]
  let t := (s.setCtx n { d with extents := es, changes := d.changes.filter fun x => x != c })
  let t := (t.put (CTX_EXTENTS n) es.length).refreshUse n
  t.cmdClose c.ring c.index .done (if c.destroy then 0 else (c.ext.phys.map fun p => p.1).headD 0) 0

/-- An extent change requested: at once when nothing is outstanding, else when it has completed (R29). -/
def State.requestChange (s : State) (n : Nat) (c : ExtChange) : State :=
  let t := (s.setCtx n { s.ctx n with changes := (s.ctx n).changes ++ [c] }).cmdOpen c.ring c.index
  if s.ctxBusy n || !(s.ctx n).changes.isEmpty then t.refreshUse n else t.applyChange n c

/-- The requests waiting at an admission point. -/
def State.deferredAt (s : State) (point : Nat) : List DeferReq := s.tiers.deferrals.filter fun d => d.point == point

/-- A creation that has passed the rules of R28 and R446 goes through admission at point 1 of its tier: 256 deferred
requests per tier (R173). -/
def State.admitExtent (s : State) (ring i n : Nat) (e : Entry) (again : Bool) : State :=
  let t := Entry_bits e 1 1 0
  let off := Entry_bits e 2 63 0
  let len := Entry_bits e 3 63 0
  let k := len / granule t
  let free := s.freeGranules n t (Entry_bits e 1 13 8)
  let point := 1 + 16 * t
  match s.admission n t k (s.deferredAt point).length 256 false (decide (k ≤ free.length)) with
  | .refused st => (s.countRefusal n t 1 st).cmdClose ring i st 0 0
  | .deferred =>
    if again then s
    else
      let d : DeferReq := ⟨point, Entry_bits e 0 51 50, n, t, k, s.now, .cmdRing ring, i, e⟩
      let u := { s with tiers := { s.tiers with deferrals := s.tiers.deferrals ++ [d] } }
      ((u.inc (HUB_CTX_USE_N_DEFERRED n) 1).deferRec (.cmdRing ring) i 0 (s.deferredAt point).length)
  | .admitted =>
    let g := granule t
    let ps := (pickGranules k free s.free).map fun j => (j * g, g)
    let x : Extent := ⟨t, off, len, ps, Entry_bits e 1 3 3 == 1, Entry_bits e 1 4 4 == 1, Entry_bits e 1 5 5 == 1⟩
    ({ s with free := s.free + k }).requestChange n ⟨false, x, ring, i⟩

/-- EXTENT_SET: an extent is created through admission, or destroyed by its exact offset and length (R28, R446). -/
def State.extentSet (s : State) (ring i : Nat) (e : Entry) : State :=
  let n := s.cmdTarget ring e
  let t := Entry_bits e 1 1 0
  let off := Entry_bits e 2 63 0
  let len := Entry_bits e 3 63 0
  if !s.manageable n then s.cmdDone ring i .refusedPartition 0
  else if Entry_bits e 1 2 2 = 1 then
    match (s.ctx n).extents.filter fun x => x.tier == t && x.off == off && x.len == len with
    | [x] => s.requestChange n ⟨true, x, ring, i⟩
    | _ => s.cmdDone ring i .refusedPartition 0
  else match s.extentRefusal n t (Entry_bits e 1 13 8) off len with
    | some st => s.cmdDone ring i st 0
    | none => (s.cmdOpen ring i).admitExtent ring i n e false

/-- EXTENT_SET (R446). -/
def execExtentSet (c : Fin 4096) (s : State) : Host.Outcome State Fault Refusal :=
  .next (s.command c.val 0x14 fun t i e => t.extentSet c.val i e)

/-- EXTENT_CHANGE_TAKES_EFFECT (R29): every request issued under the old extents has completed. -/
def execExtentChangeTakesEffect (ctx : Fin 4096) (s : State) : Host.Outcome State Fault Refusal :=
  .next (if s.live && !s.ctxBusy ctx.val then
      match (s.ctx ctx.val).changes with
      | [] => s
      | c :: _ => s.applyChange ctx.val c
    else s)

/-! ## The deferral queues (R174) -/

/-- The head of an admission point's queue: C1 before C2 and C3, in arrival order within a class. -/
def State.deferHead (s : State) (point : Nat) : Option DeferReq :=
  match (s.deferredAt point).find? fun d => d.cls == 1 with
  | some d => some d
  | none => (s.deferredAt point).head?

/-- The state without a deferred request. -/
def State.dropDeferral (s : State) (d : DeferReq) : State :=
  { s with tiers := { s.tiers with deferrals := s.tiers.deferrals.erase d } }

/-- A deferred head passes admission again from step 2, when capacity has freed (R174): it is admitted, refused over
quota, or stays. -/
def State.readmitExtent (s : State) (d : DeferReq) : State :=
  match d.ring with
  | .cmdRing ring =>
    let free := s.freeGranules d.ctx d.tier (Entry_bits d.words 1 13 8)
    match s.admission d.ctx d.tier d.amount 0 256 false (decide (d.amount ≤ free.length)) with
    | .deferred => s
    | _ => (s.dropDeferral d).admitExtent ring d.index d.ctx d.words true
  | _ => s

end Sys2Proof.Machine
end

