-- ==== Sys2Proof/Machine/Contexts.lean ====
section
/-!
DEFINITION. Contexts and functions: the context-state commands, peer windows, Orphan mode and its ends, and the resets
of the PCIe function layer (R40 to R44, R327, R328, R338 to R343, R447).
-/

namespace Sys2Proof.Machine

open Sys2Proof

/-! ## Context states (R42, R447) -/

/-- A context enters Closing (R42, R44). -/
def State.toClosing (s : State) (n : Nat) : State :=
  (s.put (CTX_STATE n) 4).setCtx n { s.ctx n with closingAt := s.now }

/-- The slots of a function: CTX_PER_VF of a VF, 64 of PF0 (R40). -/
def State.slotsOf (s : State) (f : Nat) : Nat := if f = 0 then 64 else s.cfg.ctxPerVf

/-- The refusal of a CTX_CREATE, where R31, R34, R40, R41 or R56 refuses it. -/
def State.createRefusal (s : State) (e : Entry) : Option Status :=
  let n := Entry_bits e 1 11 0
  let f := Entry_bits e 1 23 16
  let p := Entry_bits e 1 30 24
  let k := Entry_bits e 1 37 32
  let en := Entry_bits e 2 20 20
  let live := s.liveCtxs
  if s.get (CTX_STATE n) ≠ 0 ∨ !s.partValid p ∨ (s.stagedBinds ∧ s.sget (HUB_PART_CFG_VALID p) = 0) ∨
      (Entry_bits e 2 21 21 = 1 ∧ f ≠ 0) ∨ live.any (fun m => s.fnOf m == f && (s.ctx m).slot == k) then
    some .refusedPartition
  else if s.slotsOf f ≤ k ∨ 4096 ≤ live.length then some .refusedCapacity
  else if live.any (fun m => s.get (CTX_JOB_DOMAIN m) == Entry_bits e 2 47 32) ∨
      (en = 1 ∧ live.any (fun m => s.fnOf m == f && s.get (CTX_PASID_EN m) == 1 &&
        s.get (CTX_PASID m) == Entry_bits e 2 19 0)) ∨
      (en = 0 ∧ live.any (fun m => s.fnOf m == f && s.get (CTX_PASID_EN m) == 0)) then some .refusedPartition
  else none

/-- The context table entry of a new Active context; its INCARNATION stays (R41, R42). -/
def State.createCtx (s : State) (e : Entry) : State :=
  let n := Entry_bits e 1 11 0
  let f := Entry_bits e 1 23 16
  let en := Entry_bits e 2 20 20
  let t := ((s.put (CTX_STATE n) 1).put (CTX_FENCE_REASON n) 0).put (CTX_FUNCTION n) f
  let t := (t.put (CTX_PARTITION n) (Entry_bits e 1 30 24)).put (CTX_PASID n)
    (if en = 1 then Entry_bits e 2 19 0 else 0)
  let t := ((t.put (CTX_PASID_EN n) en).put (CTX_PRIV_CTRL n) (Entry_bits e 2 21 21)).put (CTX_JOB_DOMAIN n)
    (Entry_bits e 2 47 32)
  let t := (((t.put (CTX_EXTENTS n) 0).put (CTX_VIOL_THRESHOLD n) (Entry_bits e 2 63 48)).put (CTX_VIOL_COUNT n) 0).put
    (HUB_CTX_SEED_SEED n) (Entry_bits e 3 63 0)
  let t := t.setCtx n { ctxData0 with
    slot := Entry_bits e 1 37 32, mirrorH := Entry_bits e 4 63 0, mirrorLen := Entry_bits e 5 31 0
    ckptD := Entry_bits e 6 63 0 }
  let t := ((t.put (HUB_CTX_USE_N_REFUSED_QUOTA n) 0).put (HUB_CTX_USE_N_DEFERRED n) 0).put
    (HUB_CTX_USE_N_REFUSED_CAPACITY n) 0
  let t := if t.get (PCIE_FN_CFG_STATE f) = 0 then (t.put (PCIE_FN_CFG_STATE f) 1).put (PCIE_FN_CFG_LAST_HB f) t.now
    else t
  t.refreshUse n

/-- CTX_CREATE (R40): Free to Active, SEED into HUB_CTX_SEED; the completion reports INCARNATION (R330). -/
def execCtxCreate (c : Fin 4096) (s : State) : Host.Outcome State Fault Refusal :=
  .next (s.command c.val 0x10 fun t i e =>
    match t.createRefusal e with
    | some st => t.cmdDone c.val i st 0
    | none => (t.createCtx e).cmdDone c.val i .done (t.get (CTX_INCARNATION (Entry_bits e 1 11 0))))

/-- CTX_DESTROY (R447): Active, Fenced and Orphan to Closing; DONE without effect on the way to Free. -/
def execCtxDestroy (c : Fin 4096) (s : State) : Host.Outcome State Fault Refusal :=
  .next (s.command c.val 0x11 fun t i e =>
    let n := t.cmdTarget c.val e
    (if t.manageable n then t.toClosing n else t).cmdDone c.val i .done 0)

/-- CTX_FENCE (R447): Active to Fenced with FENCE_REASON 3; DONE without effect when Fenced; else refused. -/
def execCtxFence (c : Fin 4096) (s : State) : Host.Outcome State Fault Refusal :=
  .next (s.command c.val 0x12 fun t i e =>
    let n := t.cmdTarget c.val e
    if t.get (CTX_STATE n) = 1 then
      ((t.put (CTX_STATE n) 2).put (CTX_FENCE_REASON n) 3).cmdDone c.val i .done 0
    else t.cmdDone c.val i (if t.get (CTX_STATE n) = 2 then .done else .refusedPartition) 0)

/-- CTX_UNFENCE (R447): Fenced to Active with VIOL_COUNT cleared; DONE without effect when Active; else refused. -/
def execCtxUnfence (c : Fin 4096) (s : State) : Host.Outcome State Fault Refusal :=
  .next (s.command c.val 0x13 fun t i e =>
    let n := t.cmdTarget c.val e
    if t.get (CTX_STATE n) = 2 then
      (((t.put (CTX_STATE n) 1).put (CTX_FENCE_REASON n) 0).put (CTX_VIOL_COUNT n) 0).cmdDone c.val i .done 0
    else t.cmdDone c.val i (if t.get (CTX_STATE n) = 1 then .done else .refusedPartition) 0)

/-! ## Peer windows (R338) -/

/-- A peer window of a context set or cleared. -/
def State.setPeer (s : State) (n w : Nat) (x : Option PeerWin) : State :=
  s.setCtx n { s.ctx n with peers := smSet (fun _ => none) (s.ctx n).peers w x }

/-- PEER_WINDOW (R338): a window whose base answers the 4-byte read is DIRECT unless FORCE_HOST; otherwise VIA_HOST
where HOST_ALIAS is given; otherwise refused. -/
def execPeerWindow (c : Fin 4096) (answers : Bool) (s : State) : Host.Outcome State Fault Refusal :=
  .next (s.command c.val 0x15 fun t i e =>
    let n := t.cmdTarget c.val e
    let w := Entry_bits e 1 2 0
    let alias_ := Entry_bits e 4 63 0
    if !t.manageable n then t.cmdDone c.val i .refusedPartition 0
    else if Entry_bits e 1 3 3 = 1 then (t.setPeer n w none).cmdDone c.val i .done 0
    else
      let x (direct : Bool) : PeerWin := ⟨Entry_bits e 2 63 0, Entry_bits e 3 63 0, alias_, direct⟩
      let u := t.emit (.pcieRead t.nextPcie n (Entry_bits e 2 63 0) 4 true)
      if answers && Entry_bits e 1 4 4 == 0 then (u.setPeer n w (some (x true))).cmdDone c.val i .done 0
      else if alias_ ≠ 0 then (u.setPeer n w (some (x false))).cmdDone c.val i .done 0
      else u.cmdDone c.val i .refusedPartition 0)

/-! ## Function events -/

/-- The vector of a function's own events: 64 of PF0, 16 of a VF. -/
def State.fnVector (s : State) (f : Nat) : State := s.emit (.msix f (if f = 0 then 64 else 16))

/-- An attached function enters Orphan: its Active contexts move to Orphan, C_O of each of its partitions is fixed,
its mirrors start empty, and event 0xE101 is recorded (R339, R340). -/
def State.orphan (s : State) (f cause : Nat) : State :=
  if s.get (PCIE_FN_CFG_STATE f) ≠ 1 then s
  else
    let ns := s.fnCtxs f
    let ps := (ns.map fun n => s.get (CTX_PARTITION n)).eraseDups
    let t := ns.foldl (fun (t : State) n =>
      let t := t.setCtx n { t.ctx n with mirrorUsed := 0, mirrorRecs := 0 }
      if t.get (CTX_STATE n) = 1 then t.put (CTX_STATE n) 3 else t) s
    let t := t.setFn f { s.fn f with
      cause := cause, orphanAt := s.now, hbFrozen := 0, ckptRun := [], ckptDone := [], ckptStatus := 0, waiting := 0
      co := ps.map fun p => (p, s.get (HUB_PART_RUN_COMMITTED_STEP p)) }
    ((t.put (PCIE_FN_CFG_STATE f) 2).ev 0xE101 (0x100 + f) 0 cause ns.length
      ((s.now - s.get (PCIE_FN_CFG_LAST_HB f)) / 1000000)).saveHandover

/-- HB_TIMEOUT_EXPIRE (R339): HB_TIMEOUT has passed since LAST_HB. -/
def execHbTimeoutExpire (f : Fin 256) (s : State) : Host.Outcome State Fault Refusal :=
  .next (if s.on && !s.frozen &&
      decide (s.get (PCIE_FN_CFG_LAST_HB f.val) + s.get (PCIE_FN_CFG_HB_TIMEOUT f.val) * 1000000 +
        (s.fn f.val).hbFrozen ≤ s.now) then
    s.orphan f.val 1 else s)

/-! ## Resets of the function layer (R327) -/

/-- The PCIe function layer is reset: its configuration space, BARs, NumVFs and MSI-X tables; every attached function
enters Orphan with CAUSE 2 (R327, R339). -/
def State.linkReset (s : State) : State :=
  let t := (List.range 256).foldl (fun (t : State) f => t.orphan f 2) s
  { t with numVfs := 0, cfgSpace := [] }

/-- PCIE_LINK_RESET (R327). -/
def execPcieLinkReset (s : State) : Host.Outcome State Fault Refusal := .next (whenOn s s.linkReset)

/-- The registers of configuration space that the model names (log 17): 0 NumVFs, 1 Max payload size, 2 Max read
request size, 3 Relaxed Ordering enable, 4 BAR2 size in GiB, 5 completion timeout range. -/
def cfgSpaceWrite (reg v : Nat) : Option Nat :=
  match reg with
  | 1 => some (if v ≤ 128 then 128 else if v ≤ 256 then 256 else 512)
  | 2 => some (min v 4096)
  | 3 => some (v % 2)
  | 4 => if v ∈ [1, 2, 4, 8, 16, 32, 64] then some v else none
  | 5 => some v
  | _ => none

/-- CONFIGURATION_REQUEST (R349): Request Retry Status until STATE is Running; then a read returns the register and a
write takes effect in the capability, so that NumVFs up to 255 makes VFs exist (R326, R327). -/
def execConfigurationRequest (fn : Fin 256) (reg : Nat) (write : Option Word) (s : State) :
    Host.Outcome State Fault Refusal :=
  .next (if !s.on then s
    else if s.get FW_STATUS_STATE ≠ 2 then s.emit .retryStatus
    else
      let k := fn.val * 8 + reg % 8
      match write with
      | none => s.emit (.configData (if reg = 0 then s.numVfs else smGet (fun _ => 0) s.cfgSpace k))
      | some v =>
        if reg = 0 then (if fn.val = 0 ∧ s.numVfs ≤ v.toNat ∧ v.toNat ≤ 255 then { s with numVfs := v.toNat } else s)
        else match cfgSpaceWrite reg v.toNat with
          | some x => { s with cfgSpace := smSet (fun _ => 0) s.cfgSpace k x }
          | none => s)

/-- PERST_RELEASE (R436): the pin is released, and the link trains from 10 ms later or from hub release. -/
def execPerstRelease (s : State) : Host.Outcome State Fault Refusal :=
  .next { s with pins := { s.pins with perstN := true } }

/-! ## Closing to Free (R42, R44) -/

/-- A context's shards and tables end with it. -/
def State.dropOwned (s : State) (n : Nat) : State :=
  let mine := s.shards.filter fun d => s.get (ORR_SHARD_CONTEXT d.quad d.slot) == n
  let t := mine.foldl (fun (t : State) d =>
    ((t.wr (ORR_SHARD_VALID d.quad d.slot).off 0).wr (ORR_SHARD_T d.quad d.slot).off 0).put (ORR_STATUS_SHARDS d.quad)
      (t.get (ORR_STATUS_SHARDS d.quad) - 1)) s
  let t := (s.tables.filter fun d => d.ctx == n).foldl (fun (t : State) d =>
    t.put (HALO_STATUS_TABLES d.engine) (t.get (HALO_STATUS_TABLES d.engine) - 1)) t
  { t with
    shards := t.shards.filter fun d => s.get (ORR_SHARD_CONTEXT d.quad d.slot) != n
    tables := t.tables.filter fun d => d.ctx != n }

/-- A context becomes Free: INCARNATION is incremented, the rest of its entry reads zero, and its extents are
released; the last context of a function that tears down takes it to Absent (R41, R42, R342, R355). -/
def State.freeCtx (s : State) (n : Nat) : State :=
  let f := s.fnOf n
  let inc := s.get (CTX_INCARNATION n) + 1
  let t := s.dropOwned n
  let t := (((t.wr (CTX_STATE n).off 0).put (CTX_INCARNATION n) inc).wr (CTX_PASID n).off 0).wr (CTX_EXTENTS n).off 0
  let t := (t.wr (CTX_VIOL_COUNT n).off 0).setCtx n ctxData0
  let t := (List.range 5).foldl (fun (t : State) k => t.wr (0x500000 + n * 0x40 + k * 8) 0) t
  if s.get (PCIE_FN_CFG_STATE f) = 4 ∧ t.fnCtxs f = [] then
    ((t.put (PCIE_FN_CFG_STATE f) 0).put (FW_IF_IF_SEL f) 0).fnVector f
  else t

/-- CONTEXT_FREE (R44): every request of a Closing context has retired, and 10 ms have passed since the later of its
entry into Closing and the retirement of its last request. -/
def execContextFree (ctx : Fin 4096) (s : State) : Host.Outcome State Fault Refusal :=
  .next (if s.live && s.get (CTX_STATE ctx.val) == 4 && !s.ctxBusy ctx.val &&
      decide (max (s.ctx ctx.val).closingAt (s.ctx ctx.val).lastRetire + ms10 ≤ s.now) then
    s.freeCtx ctx.val else s)

end Sys2Proof.Machine
end

