-- ==== Sys2Proof/Machine/Faults.lean ====
section
/-!
DEFINITION. Fault histories, the Star chart's pending writes, the work journal, the replay of an entry and the
replacement of a tile (R362 to R376, R381).
-/

namespace Sys2Proof.Machine

open Sys2Proof

/-! ## Recording without a CPER record of its own -/

/-- An event staged with its trigger, whose CPER record is written by the caller. -/
def State.recOnly (s : State) (code sev unit op p0 p1 p2 : Nat) : State :=
  (s.stage (s.mkRec code sev unit op p0 p1 p2)).trigger code sev

/-! ## Fault histories (R364) -/

/-- The kinds of fault that a unit's history counts: 0 the faults of limit 2 (residue, uncorrectable word, Parallax
disagreement, uncorrectable unit), 1 corrected errors, 2 no answer to the poll, 3 resets caused by a fault. -/
def faultLimit (cls kind : Nat) : Nat :=
  if kind = 0 then 2
  else if kind = 1 then (if cls = 1 then 64 else if cls = 2 then 4096 else 1024)
  else if kind = 2 then 1 else 3

/-- The window of a kind in units of 1/16 s of operating time: 24 h, or 1 h for unit resets. -/
def faultWindow (kind : Nat) : Nat := if kind = 3 then 57600 else 1382400

/-- A fault entered in a unit's history, with the count of its kind within the window (R364). -/
def State.countFault (s : State) (cls idx kind : Nat) : State × Nat :=
  let now := s.get EPH_TIME_OP_TIME
  let live := s.flt.history.filter fun h =>
    !(h.cls == cls && h.idx == idx && h.kind == kind && decide (h.opTime + faultWindow kind ≤ now))
  let l := live ++ [⟨cls, idx, kind, now⟩]
  ({ s with flt := { s.flt with history := l } },
    (l.filter fun h => h.cls == cls && h.idx == idx && h.kind == kind).length)

/-- A fault entered, with whether it is permanent. -/
def State.faultAt (s : State) (cls idx kind : Nat) : State × Bool :=
  let r := s.countFault cls idx kind
  (r.1, decide (faultLimit cls kind ≤ r.2))

/-! ## The Star chart (R368) -/

/-- A retirement recorded: a copy write starts, or the retirement waits for the next one. -/
def State.starRetire (s : State) (cls idx spare : Nat) : State :=
  let t := { s with flt := { s.flt with
    retirements := (s.flt.retirements ++ [(cls, idx, s.get EPH_TIME_OP_TIME, spare)]).drop
      (s.flt.retirements.length + 1 - 1024) } }
  if t.get HUB_STAR_STATUS_WRITE_PENDING = 1 then
    { t with flt := { t.flt with
        writeQueued := t.flt.writeQueued + 1
        queuedSince := if t.flt.writeQueued = 0 then t.now else t.flt.queuedSince } }
  else
    { t.put HUB_STAR_STATUS_WRITE_PENDING 1 with flt := { t.flt with starPendingSince := t.now, starPendingCount := 1 } }

/-- The class and index word of events 0x1101, 0x1102 and 0x1108. -/
def unitWord (cls idx : Nat) : Nat := cls * 2 ^ 16 + idx

/-- A unit retired: event 0x1101 of severity `sev`, a CPER record and a Star chart write; a free value stands for the
spare where none was used (R364, R388, R392; log 7). -/
def State.retired (s : State) (cls idx action sev : Nat) (spare : Option Nat) (left : Nat) : State :=
  let (t, sp) := match spare with
    | some k => (s, k)
    | none => (s.useFree, (Config.freeValue s.free).toNat)
  ((t.recOnly 0x1101 sev 0 0 (unitWord cls idx) sp left).cper 0x1101 sev cls idx action left (unitWord cls idx) sp
    left).starRetire cls idx sp

/-- A unit out of service: event 0x1108 and its CPER record with failover requested (R365, R388). -/
def State.unitOut (s : State) (cls idx n : Nat) : State :=
  let t := { s with flt := { s.flt with outOfService := (cls, idx) :: s.flt.outOfService.filter (· != (cls, idx)) } }
  ((t.recOnly 0x1108 3 0 0 (unitWord cls idx) n 0).cper 0x1108 3 cls idx 5 0 (unitWord cls idx) n 0).emit
    (.failover cls idx)

/-- A unit is out of service. -/
def State.isOut (s : State) (cls idx : Nat) : Bool := s.flt.outOfService.contains (cls, idx)

/-! ## The journal (R373 to R375) -/

/-- The record of an entry. -/
def State.jrec (s : State) (p w seq : Nat) : Option JRec :=
  s.journal.find? fun r => r.part == p && r.list == w && r.seq == seq

/-- The journal's use counts of a quadrant: records, pre-image blocks and Parallax blocks. -/
def State.journalUse (s : State) (q : Nat) : State :=
  let rs := s.journal.filter fun r => r.quad == q
  let pre := rs.foldl (fun n r => n + r.pre.length) 0
  let par := rs.foldl (fun n r => n + ceilDiv (r.capture.length * 4112) 4096) 0
  ((s.put (QD_JOURNAL_STATUS_RECORDS q) rs.length).put (QD_JOURNAL_STATUS_PRE_BLOCKS q) pre).put
    (QD_JOURNAL_STATUS_PAR_BLOCKS q) par

/-- A record changed. -/
def State.mapRec (s : State) (p w seq : Nat) (f : JRec → JRec) : State :=
  { s with journal := s.journal.map fun r => if r.part = p ∧ r.list = w ∧ r.seq = seq then f r else r }

/-- A record added at dispatch. -/
def State.addRec (s : State) (r : JRec) : State := ({ s with journal := s.journal ++ [r] }).journalUse r.quad

/-- Records freed: those of a partition that a predicate names. -/
def State.freeRecs (s : State) (gone : JRec → Bool) : State :=
  (List.range 4).foldl (fun t q => t.journalUse q) { s with journal := s.journal.filter fun r => !gone r }

/-- The memory key of the block that holds a byte of a space. -/
def blockKey (sp : Space) (a : Nat) : Nat := memKey sp (a / 4096 * 4096)

/-- A block of memory, by its key, put back with its seal. -/
def State.restoreBlock (s : State) (b : Nat × Seal × List Byte) : State :=
  { s with
    mem := smSetList byte0 s.mem b.1 b.2.2
    seals := smSet sealAt0 s.seals (b.1 / 2 ^ 64 * 2 ^ 64 + b.1 % 2 ^ 64 / 4096) b.2.1 }

/-- The pre-image of a block of a space. -/
def State.image (s : State) (sp : Space) (a : Nat) : Nat × Seal × List Byte :=
  (blockKey sp a, s.sealOf sp a, s.block sp a)

/-- The blocks of a space saved to the pre-image area of an entry's record, each once (R375); none where the entry
would exceed 8 MiB. -/
def State.savePre (s : State) (p w seq : Nat) (blocks : List (Space × Nat)) : Option State :=
  match s.jrec p w seq with
  | none => some s
  | some r =>
    let fresh := blocks.foldl (fun (l : List (Nat × Seal × List Byte)) b =>
      if (r.pre ++ l).any (fun x => x.1 == blockKey b.1 b.2) then l else l ++ [s.image b.1 b.2]) []
    if 2048 < r.pre.length + fresh.length then none
    else some ((s.mapRec p w seq fun x => { x with pre := x.pre ++ fresh }).journalUse r.quad)

/-- The save fits the quadrant's pre-image area of 6,144 blocks. -/
def State.preFits (s : State) (q n : Nat) : Bool := decide (s.get (QD_JOURNAL_STATUS_PRE_BLOCKS q) + n ≤ 6144)

/-! ## Replay (R376) -/

/-- The streams that a tile consumes in a partition (R127). -/
def State.consumes (s : State) (p l : Nat) : List Nat :=
  s.cfg.active.streams.filterMap fun kv => match kv.2 with
    | some d => if d.part = p ∧ d.consumer = l then some kv.1 else none
    | none => none

/-- The streams that a tile or a feed produces in a partition. -/
def State.produces (s : State) (p l : Nat) : List Nat :=
  s.cfg.active.streams.filterMap fun kv => match kv.2 with
    | some d => if d.part = p ∧ !d.feed ∧ d.producer = l then some kv.1 else none
    | none => none

/-- A tile ready to run an entry from its first macro-op. -/
def Tile_start (x : Tile) (e : RunEntry) (skip skipProduced : Nat) : Tile :=
  { x with
    progStart := Entry_bits e.words 4 54 32
    progLen := (Entry_bits e.words 4 15 0 + 1) * 64
    entry := some e, loop := none, issued := [], wait := none, failed := none, count := 0, ended := false, finished := none
    delivered := 0, skipDeliveries := skip, produced := 0, skipProduced := skipProduced, written := [], memRead := [] }

/-- An entry replayed on a physical tile from its first macro-op: its pre-images are restored, its streams set back,
and the deliveries already made are skipped (R127, R376). -/
def State.replayEntry (s : State) (r : JRec) (phys : Nat) : State :=
  let l := Entry_bits r.entry 0 7 0
  let t := r.pre.foldl (fun u b => u.restoreBlock b) s
  let t := (t.consumes r.part l).foldl (fun u i => u.put (HUB_STREAM_CNT_CONSUMED i) (u.get (HUB_STREAM_CNT_FREED i))) t
  let t := { t with waits := t.waits.filter fun x => x.tile != phys && x.tile != r.phys }
  let first := match r.firstIn with
    | some b => some b
    | none => some r.inSeals
  let t := t.mapRec r.part r.list r.seq fun x =>
    { x with phys := phys, state := if x.state = 4 then 4 else 3, replays := satAdd 255 x.replays 1, inSeals := [], firstIn := first, outSeals := [] }
  let e : RunEntry :=
    ⟨r.part, r.list, r.seq, r.entry, Entry_bits r.entry 0 43 32, r.step, r.eval, true, true⟩
  let t := t.setTile phys (Tile_start (t.tile phys) e r.delivered r.produced)
  let t := (t.put (TILE_PC_PC phys) (Entry_bits r.entry 4 54 32)).put (TILE_STATUS_STATE phys) 1
  t.evEvery ms10 0x1104 0 r.quad (1 + r.quad) r.seq 1 0 fun n _ => (r.part, r.seq % 2 ^ 32, n)

/-- The record of the entry that a tile runs. -/
def State.tileRec (s : State) (t : Nat) : Option JRec :=
  match (s.tile t).entry with
  | some e => s.jrec e.part e.list e.seq
  | none => none

/-! ## Replacing a tile (R370) -/

/-- The spare tiles, by physical number. -/
def State.spareTiles (s : State) : List Nat :=
  (List.range 272).filter fun t => s.get (TILE_STATUS_STATE t) == 5

/-- The spares of a quadrant. -/
def State.sparesOf (s : State) (q : Nat) : List Nat := s.spareTiles.filter fun t => quadOfTile t == q

/-- The spare that replaces a tile: of its own quadrant first, then of the quadrant with the most spares. -/
def State.chooseSpare (s : State) (t : Nat) : Option Nat :=
  match s.sparesOf (quadOfTile t) with
  | x :: _ => some x
  | [] =>
    let best := (List.range 4).foldl (fun b q =>
      if (s.sparesOf b).length < (s.sparesOf q).length then q else b) 0
    (s.sparesOf best).head?

/-- The local store and seal table of a tile copied to another (R370 step 3). -/
def State.copyStore (s : State) (t u : Nat) : State :=
  let lo (x : Nat) : Nat := memKey .ls (lsAddr x 0)
  let slo (x : Nat) : Nat := memKey .ls (lsAddr x 0 / 4096)
  let outside (a n k : Nat) : Bool := decide (k < a) || decide (a + n ≤ k)
  let src := s.mem.filter fun kv => !outside (lo t) (2 ^ 24) kv.1
  let ssrc := s.seals.filter fun kv => !outside (slo t) 4096 kv.1
  { s with
    mem := src.foldl (fun m kv => smSet byte0 m (kv.1 - lo t + lo u) kv.2)
      (s.mem.filter fun kv => outside (lo u) (2 ^ 24) kv.1)
    seals := ssrc.foldl (fun m kv => smSet sealAt0 m (kv.1 - slo t + slo u) kv.2)
      (s.seals.filter fun kv => outside (slo u) 4096 kv.1) }

/-- A partition loses a tile for want of a spare: one tile fewer, and it is fenced when one is left (R39). -/
def State.loseTile (s : State) (p : Nat) : State :=
  let n := s.get (HUB_PART_CFG_TILE_COUNT p)
  let t := s.put (HUB_PART_CFG_TILE_COUNT p) (n - 1)
  if n - 1 ≤ 1 then t.put (HUB_PART_CFG_FENCED p) 1 else t

/-- A mapped tile handed over to a spare: the store copied, the logical ID, partition and signal counters taken, and
the spare's generation raised (R370). -/
def State.moveTile (s : State) (t u : Nat) : State :=
  let a := s.copyStore t u
  let a := (a.put (TILE_STATUS_LOGICAL_ID u) (s.get (TILE_STATUS_LOGICAL_ID t))).put (TILE_STATUS_PARTITION u)
    (s.get (TILE_STATUS_PARTITION t))
  let a := ((a.put (TILE_STATUS_MAPPED u) 1).put (TILE_STATUS_STATE u) 0).next (TILE_STATUS_GENERATION u)
  let a := (List.range 16).foldl (fun b c => b.put (TILE_SIGNAL_COUNT u c) (s.get (TILE_SIGNAL_COUNT t c))) a
  let a := a.setTile u { tile0 with
    progStart := (s.tile t).progStart, progLen := (s.tile t).progLen, entry := (s.tile t).entry }
  { a with flt := { a.flt with tileOf := smSet tileOf0 a.flt.tileOf (s.get (TILE_STATUS_LOGICAL_ID t)) u } }

/-- A tile retired: a mapped one is replaced by a spare that replays its stopped entry; without a spare its partition
runs with one tile fewer; an unmapped one only leaves the spares (R39, R370). -/
def State.retireTile (s : State) (t : Nat) : State :=
  if s.get (TILE_STATUS_STATE t) = 4 then s
  else
    let mapped := s.get (TILE_STATUS_MAPPED t) == 1
    let r := s.tileRec t
    let a := match r with
      | some x => x.pre.foldl (fun (u : State) b => u.restoreBlock b) s
      | none => s
    let a := a.put (TILE_STATUS_STATE t) 4
    let spare := if mapped then a.chooseSpare t else none
    let a := match spare with
      | some u => a.moveTile t u
      | none => if mapped then a.loseTile (s.get (TILE_STATUS_PARTITION t)) else a
    let a := (a.put (TILE_STATUS_MAPPED t) 0).setTile t tile0
    let left := a.spareTiles.length
    let a := (a.put HUB_STAR_STATUS_TILE_SPARES left).inc HUB_STAR_STATUS_TILES_RETIRED 1
    let a := if mapped then (if spare.isSome then a.retired 1 t 2 1 spare left else a.retired 1 t 4 2 none left)
      else a.retired 1 t 0 1 none left
    match r, spare with
    | some x, some u => a.replayEntry x u
    | _, _ => a

/-! ## A tile fault during an entry (R114, R381) -/

/-- The entry's record pinned and its inputs captured in the Parallax area, or marked Unchecked where they do not fit
(R381). -/
def State.capture (s : State) (t : Nat) : State :=
  match s.tileRec t with
  | none => s
  | some r =>
    let blocks := (List.range 1536).map fun j => s.image .ls (lsAddr t (4096 * j))
    let fits := s.get (QD_JOURNAL_STATUS_PAR_BLOCKS r.quad) + 1542 ≤ 8192
    let u := s.mapRec r.part r.list r.seq fun x =>
      if fits then { x with state := 4, capture := blocks, suspectTile := t }
      else { x with state := 4, unchecked := true, suspectTile := t }
    (if fits then u else u.inc (HUB_PART_PARALLAX_UNCHECKED r.part) 1).journalUse r.quad

/-- The partition's step is suspect (R239). -/
def State.markSuspect (s : State) (p : Nat) : State := s.put (HUB_PART_COMMIT_SUSPECT p) 1

/-- A residue mismatch at a tile: recorded, the step suspect, the inputs captured after the pre-images are restored,
one fault counted, and the entry replayed on the tile or, when the fault is permanent, on its spare (R114, R364,
R381). -/
def State.residueFault (s : State) (t unit : Nat) : State :=
  let a := (s.inc (TILE_CHECK_COUNT_RESIDUE t) 1).evLim 0x6102 t (0x200 + t) 0 unit (s.get (TILE_PC_PC t))
  match a.tileRec t with
  | none => a
  | some r =>
    let a := r.pre.foldl (fun u b => u.restoreBlock b) (a.markSuspect r.part)
    let a := a.capture t
    let (a, perm) := a.faultAt 1 t 0
    match a.tileRec t with
    | none => a
    | some x => if perm then a.retireTile t else a.replayEntry x t

/-- An uncorrectable local-store word: its slot is poisoned, event 0x6104 recorded, and one fault counted; a
permanent one retires the tile (R116, R364). Answers whether the tile was retired. -/
def State.storeFault (s : State) (t slot word : Nat) : State × Bool :=
  let a := s.setSeal .ls (lsAddr t (4096 * slot)) { s.sealOf .ls (lsAddr t (4096 * slot)) with poison := true }
  let a := a.evLim 0x6104 t (0x200 + t) 0 slot word
  let (a, perm) := a.faultAt 1 t 0
  if perm then (a.retireTile t, true) else (a, false)

/-- Corrected local-store words counted; the one that reaches the limit retires the tile (R116, R364). -/
def State.storeCorrected (s : State) (t n : Nat) : State × Bool :=
  (List.range n).foldl (fun a _ =>
    if a.2 then a
    else
      let (b, perm) := (a.1.inc (TILE_CHECK_COUNT_ECC_CORR t) 1).faultAt 1 t 1
      if perm then (b.retireTile t, true) else (b, false)) (s, false)

end Sys2Proof.Machine
end

