-- ==== Sys2Proof/Machine/Net.lean ====
section
/-!
DEFINITION. What every engine uses of Starlane: route sets and outgoing requests (R255, R264 to R268), and accusations
(R384, R385).
-/

namespace Sys2Proof.Machine

open Sys2Proof

/-! ## Route sets (R255, R264, R265) -/

/-- The route set of a destination module, where its entry is valid (R264). -/
def State.routeSet (s : State) (dst : Nat) : Option Nat :=
  let b := s.get HUB_SL_RCTL_ACTIVE
  if dst / 64 = s.self / 64 then
    if s.get (HUB_SL_MEMBER_VALID b (dst % 64)) = 1 then some (s.get (HUB_SL_MEMBER_RSET b (dst % 64))) else none
  else if s.get (HUB_SL_GROUP_VALID b (dst / 64 % 4096)) = 1 then
    some (s.get (HUB_SL_GROUP_RSET b (dst / 64 % 4096))) else none

/-- A port may carry a packet of a partition: Up or Calibrating, in role Starlane or Ethernet, and admitted by its
owner; transit and C0 packets (no partition) use any port (R255, R264). -/
def State.portUsable (s : State) (part : Option Nat) (p : Nat) : Bool :=
  (s.get (SL_STATUS_STATE p) == 3 || s.get (SL_STATUS_STATE p) == 4) &&
  (s.get (SL_STATUS_ROLE p) == 1 || s.get (SL_STATUS_ROLE p) == 2) &&
  (match part with
    | none => true
    | some q => s.get (SL_CFG_SHARED p) == 1 || s.get (SL_CFG_OWNER p) == q)

/-- The ports of a route set in preference order, usable for a packet. -/
def State.setPorts (s : State) (r : Nat) (part : Option Nat) : List Nat :=
  let w := s.get (HUB_SL_RSET_PORTS (s.get HUB_SL_RCTL_ACTIVE) r)
  ((List.range 4).filterMap fun i =>
    if bitsOf (6 * i + 5) (6 * i + 5) w = 1 then some (bitsOf (6 * i + 4) (6 * i) w) else none).filter
    fun p => s.portUsable part p

/-- The lanes of a port. -/
def State.laneCount (s : State) (p : Nat) : Nat :=
  ((List.range 4).filter fun i => bitAt (s.get (SL_STATUS_LANE_MASK p)) i).length

/-- The port that serves turn `k` of a round robin weighted by lanes. -/
def State.sprayPort (s : State) : List Nat → Nat → Option Nat
  | [], _ => none
  | p :: ps, k => if k < s.laneCount p then some p else s.sprayPort ps (k - s.laneCount p)

/-- The port of a packet, and the state that has taken its turn (R265); ports of `avoid` are left out, and for a C0
packet those whose C0 is being moved away (R271). -/
def State.choosePort (s : State) (dst cls : Nat) (part : Option Nat) (avoid : List Nat) : Option (Nat × State) :=
  match s.routeSet dst with
  | none => none
  | some r =>
    let ps := (s.setPorts r (if cls = 0 then none else part)).filter fun p =>
      !avoid.contains p && (cls != 0 || (s.port p).pending.isNone)
    if cls ≠ 0 ∧ s.get (HUB_SL_RSET_MODE (s.get HUB_SL_RCTL_ACTIVE) r) = 1 then
      let total := ps.foldl (fun n p => n + s.laneCount p) 0
      let k := smGet (fun _ => 0) s.spray r
      match s.sprayPort ps (k % max 1 total) with
      | some p => some (p, { s with spray := smSet (fun _ => 0) s.spray r ((k + 1) % max 1 total) })
      | none => none
    else match ps with
      | p :: _ => some (p, s)
      | [] => none

/-- A packet sent over its route set, or none while no port of the set is usable. -/
def State.route (s : State) (part : Option Nat) (pkt : Packet) : Option State :=
  match s.choosePort pkt.dstModule pkt.cls part [] with
  | some (p, t) => some (t.sendOn p (part.getD 128) pkt)
  | none => none

/-- The first port that the route set of a destination names, for the unit of an event. -/
def State.eventPort (s : State) (dst : Nat) : Nat :=
  match s.routeSet dst with
  | some r =>
    let w := s.get (HUB_SL_RSET_PORTS (s.get HUB_SL_RCTL_ACTIVE) r)
    match (List.range 4).find? fun i => bitsOf (6 * i + 5) (6 * i + 5) w == 1 with
    | some i => 0x20 + bitsOf (6 * i + 4) (6 * i) w
    | none => 0
  | none => 0

/-- A C0 packet with no usable port: over the management sideband, with event 0xC106 (R271). -/
def State.c0ToSideband (s : State) (unit : Nat) (pkt : Packet) : State :=
  (s.emit (.c0Sideband pkt)).ev 0xC106 unit 0 pkt.dstModule 1 0

/-- A C0 packet sent over its route set, or over the management sideband where no port is usable (R271). -/
def State.sendC0 (s : State) (pkt : Packet) : State :=
  match s.route none pkt with
  | some t => t
  | none => s.c0ToSideband (s.eventPort pkt.dstModule) pkt

/-- A C0 packet sent on a port while that is usable, and otherwise over its route set (R271). -/
def State.sendC0On (s : State) (p : Nat) (pkt : Packet) : State :=
  if s.portUsable none p ∧ (s.port p).pending.isNone then s.sendOn p 128 pkt else s.sendC0 pkt

/-- A packet not delivered: no usable port (1) or no hops left (2) (R260, R268). -/
def State.notDelivered (s : State) (unit cause dst : Nat) : State := s.evLim 0xC108 unit unit 0 cause dst

/-- A packet sent over its route set, dropped where no port is usable: a reply, whose requester ends the request
(R267; log 42). -/
def State.sendReply (s : State) (part : Nat) (pkt : Packet) : State :=
  match s.route (some part) pkt with
  | some t => t
  | none => s.notDelivered (s.eventPort pkt.dstModule) 1 pkt.dstModule

/-! ## Outgoing requests (R259, R267, R268) -/

/-- The generation of a unit of another module as this module last saw it. -/
def State.genSeen (s : State) (m unit : Nat) : Nat := smGet (fun _ => 0) s.seenGen (m * 256 + unit)

/-- The generation of a unit as seen in an answer. -/
def State.seeGen (s : State) (m unit g : Nat) : State :=
  { s with seenGen := smSet (fun _ => 0) s.seenGen (m * 256 + unit) (g % 65536) }

/-- A request of a context to another module: numbered, kept until it is answered, and sent or waiting for a usable
port (R267, R268).  Its transaction number is `newTxn` of the unit before. -/
def State.request (s : State) (unit ctx : Nat) (pkt : Packet) (what : ReqFor) : State :=
  let n := s.newTxn unit
  let part := s.get (CTX_PARTITION ctx)
  let k : Packet := { pkt with
    srcModule := s.self, srcUnit := unit, jobDomain := s.get (CTX_JOB_DOMAIN ctx), srcInc := s.get (CTX_INCARNATION ctx)
    targetGen := s.genSeen pkt.dstModule pkt.dstUnit, txn := n }
  let t := s.useTxn unit
  let r : XReq := ⟨unit, n, ctx, s.get (CTX_INCARNATION ctx), k, what, false, false, part, false⟩
  match t.route (some part) k with
  | some u => { u with xreqs := u.xreqs ++ [r] }
  | none => { t with xreqs := t.xreqs ++ [{ r with waitingPort := true }] }

/-! ## Accusations (R384, R385) -/

/-- The 32-byte payload of an accusation. -/
def accusePayload (kind : Nat) (a : Accuse) : List Byte :=
  bytesLE 1 kind ++ bytesLE 1 a.cause ++ bytesLE 2 0 ++ bytesLE 4 a.suspect ++ bytesLE 4 a.firstReporter ++
    bytesLE 4 a.lastReporter ++ bytesLE 4 a.count ++ bytesLE 4 0 ++ bytesLE 8 a.firstTime

/-- A module is a member of this module's constellation. -/
def State.isMember (s : State) (m : Nat) : Bool :=
  (List.range 8).any fun c => bitAt (s.get HUB_CONST_STATUS_MEMBERS) c && s.memberModule c == m

/-- This module is a final aggregator: a Lodestar or the root of a job tree (R385). -/
def State.aggregates (s : State) : Bool :=
  s.get HUB_CONST_STATUS_IS_LODESTAR == 1 || parts.any fun p => s.partValid p && s.get (HUB_MER_JOB_ROOT p) == 1

/-- A NOTICE packet to a module, on a given port or over its route set. -/
def State.sendNotice (s : State) (port : Option Nat) (dst : Nat) (payload : List Byte) : State :=
  let k : Packet := { ty := 0x0B, cls := 0, dstModule := dst, srcModule := s.self, payload := payload }
  match port with
  | some p => s.sendC0On p k
  | none => s.sendC0 k

/-- A merged accusation names a unit of this module (R387): event 0x1106 for the first within 60 s, and a further one counts in
ACCUSED. -/
def State.accused (s : State) (a : Accuse) : State :=
  let t := (s.put HUB_ACCUSE_CAUSE a.cause).put HUB_ACCUSE_LAST_REPORTER a.lastReporter
  let again := s.flt.accEvents.any fun r => r.key == 0 && decide (s.now < r.last + 60000000000)
  if again then t.inc HUB_ACCUSE_ACCUSED 1
  else ({ t with flt := { t.flt with accEvents := [⟨0, s.now, 0, 0⟩] } }.inc HUB_ACCUSE_ACCUSED 1).ev 0x1106 0 0 a.cause
    a.firstReporter a.count

/-- An accusation that a final aggregator delivers: to the fabric manager, to the suspect, and as event 0x1105 at most
once per suspect per second (R385). -/
def State.deliverAccusation (s : State) (a : Accuse) : State :=
  let t := s.emit (.mctp 1 (accusePayload 2 a))
  let t := if a.suspect % 2 ^ 24 = s.self then t.accused a
    else t.sendNotice none (a.suspect % 2 ^ 24) (accusePayload 2 a)
  t.evEvery 1000000000 0x1105 1 a.suspect 0 a.lastReporter a.count 0 fun n _ => (a.suspect, n, a.firstReporter)

/-- An accusation sent upward: to the Lodestar when the suspect is a member of the constellation, otherwise to the
parent in the job tree of a partition (R384). -/
def State.sendUp (s : State) (kind part : Nat) (a : Accuse) : State :=
  if s.isMember (a.suspect % 2 ^ 24) then
    s.sendNotice none (s.memberModule (s.get HUB_CONST_STATUS_LODESTAR)) (accusePayload kind a)
  else
    let p := s.get (HUB_MER_JOB_PARENT part)
    s.sendNotice (some p) (s.get (SL_STATUS_PEER_MODULE p)) (accusePayload kind a)

/-- A partition of the module with a parent, for accusations passed on. -/
def State.childPart (s : State) : Nat :=
  (parts.find? fun p => s.partValid p && s.get (HUB_MER_JOB_ROOT p) == 0).getD 0

/-- One accusation merged into another of the same suspect and cause. -/
def mergeAccuse (a b : Accuse) : Accuse :=
  { a with
    firstReporter := if b.firstTime < a.firstTime then b.firstReporter else a.firstReporter
    lastReporter := b.lastReporter, count := a.count + b.count, firstTime := min a.firstTime b.firstTime }

/-- An accusation received, merged in the table of the current window, or passed on unmerged when the table of 256
suspects is full (R385). -/
def State.takeAccusation (s : State) (a : Accuse) : State :=
  let l := s.flt.accusations
  let t := if s.flt.accusedAt.isNone then { s with flt := { s.flt with accusedAt := some s.now } } else s
  if l.any fun x => x.suspect == a.suspect && x.cause == a.cause then
    { t with flt := { t.flt with accusations := l.map fun x =>
        if x.suspect = a.suspect ∧ x.cause = a.cause then mergeAccuse x a else x } }
  else if 256 ≤ ((l.map fun x => x.suspect).eraseDups).length ∧ !(l.any fun x => x.suspect == a.suspect) then
    if t.aggregates then t.deliverAccusation a else t.sendUp 1 t.childPart a
  else { t with flt := { t.flt with accusations := l ++ [a] } }

/-- A suspect accused with a cause by a partition of this module: at most one accusation per suspect per 10 ms, later
detections added to the next one's COUNT (R384). -/
def State.accuse (s : State) (cause suspect part : Nat) : State :=
  let old := s.flt.accSent.find? fun r => r.key == suspect
  let rest := s.flt.accSent.filter fun r => r.key != suspect
  let pend := match old with
    | some r => if r.count = 0 then (0, s.now) else (r.count, r.first)
    | none => (0, s.now)
  match old with
  | some r =>
    if s.now < r.last + ms10 then
      { s with flt := { s.flt with accSent := ⟨suspect, r.last, pend.1 + 1, pend.2⟩ :: rest } }
    else send pend rest
  | none => send pend rest
where
  /-- The accusation sent with its count. -/
  send (pend : Nat × Nat) (rest : List RateEnt) : State :=
    let t := { s with flt := { s.flt with accSent := ⟨suspect, s.now, 0, 0⟩ :: rest } }
    let a : Accuse := ⟨suspect, cause, s.self, s.self, pend.1 + 1, pend.2⟩
    if s.aggregates then t.takeAccusation a else t.sendUp 1 part a

end Sys2Proof.Machine
end

