-- ==== Sys2Proof/Machine/Tile.lean ====
section
/-!
DEFINITION. Running a tile program: issue, malformed macro-ops, retirement, the quantisation counters, and the control
macro-ops but BARRIER (R88 to R102, R113 to R117).
-/

namespace Sys2Proof.Machine

open Sys2Proof

/-! ## Encoding (R94, R99) -/

/-- OPCODE. -/
def opCode (w : Entry) : Nat := Entry_bits w 0 63 56

/-- The unit of an opcode: 0 control, 1 block mover, 2 matrix, 3 vector; none for an unassigned one (R101). -/
def opUnit (c : Nat) : Option Nat :=
  if c ≤ 0x06 then some 0
  else if (0x10 ≤ c ∧ c ≤ 0x16) ∨ c = 0x50 then some 1
  else if c = 0x20 ∨ c = 0x21 then some 2
  else if (0x30 ≤ c ∧ c ≤ 0x42) ∨ (0x48 ≤ c ∧ c ≤ 0x4B) then some 3
  else none

/-- The header's defined bits. -/
def hdrMask : Nat := 0xFFF08F0000000000

/-- The defined bits of a local view. -/
def lvMask : Nat := 0xF800FFFFFF7FFFFF

/-- The defined bits of each word of a macro-op (R94, R101). -/
def macroMasks (c : Nat) : List Nat :=
  let all := 2 ^ 64 - 1
  let h (imm : Nat) : Nat := hdrMask + imm
  if c = 0x03 then [h 0xF000FFFF, 0xFFFFFFFF, 0, 0, 0, 0, 0, 0]
  else if c = 0x04 then [h 0xF0FF8000, 0xFFFFFFFF, 0, 0, 0, 0, 0, 0]
  else if c = 0x05 then [h 3, 0, 0, 0, 0, 0, 0, 0]
  else if c = 0x06 then [h 0xFFFFF000, all, 0xFFFFFFFF00000000, 0, 0, 0, 0, 0]
  else if c = 0x50 then [h 0xFFFFE000, 0, lvMask, 0, 0, 0, 0, 0]
  else if c = 0x14 then [h 0xFFFFE000, 0x7FFFFF, lvMask, 0xFFFFFFFF00000000, all, 0xFFFFFFFF007FFFFF, 0, 0]
  else if c = 0x15 then [h 0xFFFFE000, 0x7FFFFF, lvMask, 0xFFFFFFFF00000000, 0xFF, 0xFFFFFFFF007FFFFF, 0, 0]
  else if 0x10 ≤ c ∧ c ≤ 0x16 then
    [h 0xFFFFE000, all, lvMask, 0xFFFFFFFF00000000, all, 0xFFFFFFFF007FFFFF, 0, 0]
  else if c = 0x20 ∨ c = 0x21 then
    [h 0xFFFFFFFF, lvMask, lvMask, lvMask, 0xFFFFFFFFFFFFF0FC, 0x3FFFFFFFFFFF, 0x3FFFFFFFFFFF, 0xFFFFFFFF00FFFFFF]
  else if 0x30 ≤ c then
    [h 0xFFFFFFFF, lvMask, lvMask, lvMask, 0xFFFFFFFFFFFF03FC, 0xFFFFFFFF007FFFFF, all, all]
  else [hdrMask, 0, 0, 0, 0, 0, 0, 0]

/-- FMT of a local view in word `k`. -/
def lvFmt (w : Entry) (k : Nat) : Nat := Entry_bits w k 63 59
/-- TENSOR of a local view. -/
def lvTensor (w : Entry) (k : Nat) : Nat := Entry_bits w k 47 24
/-- ADDR of a local view. -/
def lvAddr (w : Entry) (k : Nat) : Nat := Entry_bits w k 22 0

/-- A local-store range of a macro-op: offset, bytes, read, written, and the TENSOR and format that its slots are
checked against. -/
structure Reg where
  off : Nat
  len : Nat
  rd : Bool
  wr : Bool
  tensor : Option Nat
  fmt : Option Nat
  deriving DecidableEq, Repr

/-- Two ranges overlap. -/
def rangesMeet (a n b m : Nat) : Bool := decide (a < b + m) && decide (b < a + n)

/-- The slots of a range. -/
def slotsOfRange (off len : Nat) : List Nat :=
  if len = 0 then [] else (List.range ((off + len - 1) / 4096 - off / 4096 + 1)).map fun i => off / 4096 + i

/-- A range misaligned or beyond the local store (R91). -/
def Reg_bad (align : Nat) (r : Reg) : Bool := r.off % align != 0 || decide (0x600000 < r.off + r.len)

/-! ## The next macro-op (R93, R102) -/

/-- A number of `w` bits advanced by `i` strides of a signed 32-bit stride. -/
def strideAdd (w v i stride : Nat) : Nat := (((v : Int) + i * signedOf 32 stride) % 2 ^ w).toNat

/-- An entry with bits [hi:lo] of word `k` replaced. -/
def Entry_set (e : Entry) (k hi lo x : Nat) : Entry := BitVec.ofNat 512 (withBits (64 * k + hi) (64 * k + lo) x e.toNat)

/-- The words of W1 to W3 that hold an address in an opcode, with the field's width: a memory address of 60 bits, or a
local ADDR of 23; an operand that is zero in the program is unused and stays zero (R102; log 22). -/
def addrFields (w : Entry) : List (Nat × Nat) :=
  let c := opCode w
  match opUnit c with
  | some 1 =>
    if c = 0x50 then [(2, 23)]
    else if c = 0x14 ∨ c = 0x15 then [(1, 23), (2, 23)] else [(1, 60), (2, 23)]
  | some 0 => []
  | none => []
  | some _ => [1, 2, 3].filterMap fun k => if Entry_bits w k 63 0 = 0 then none else some (k, 23)

/-- A body macro-op in iteration `i` of a loop: its addresses advanced, and D_BLOCK_BASE by the blocks that each
iteration writes (R102). -/
def strided (l : LoopState) (blocks : Nat) (w : Entry) : Entry :=
  let st (k : Nat) : Nat := if k = 1 then l.s1 else if k = 2 then l.s2 else l.s3
  let v := (addrFields w).foldl (fun e f =>
    Entry_set e f.1 (f.2 - 1) 0 (strideAdd f.2 (Entry_bits w f.1 (f.2 - 1) 0) l.iter (st f.1))) w
  if (opUnit (opCode w)).getD 0 < 2 then v
  else Entry_set v 4 63 32 ((Entry_bits w 4 63 32 + l.iter * blocks) % 2 ^ 32)

/-- The 64 bytes at an offset of a tile's local store. -/
def State.rawAt (s : State) (t off : Nat) : Entry := BitVec.ofNat 512 (s.num .ls (lsAddr t off) 64)

/-- The macro-op at the head of issue. -/
def State.raw (s : State) (t : Nat) : Entry := s.rawAt t (s.get (TILE_PC_PC t))

/-- The tile issues: Running, no WAIT or barrier in progress, no failure, no END yet (R95, R97). -/
def State.canIssue (s : State) (t : Nat) : Bool :=
  let x := s.tile t
  s.live && s.get (TILE_STATUS_STATE t) == 1 && x.entry.isSome && !x.ended && x.wait.isNone && x.failed.isNone &&
    x.finished.isNone && !(x.issued.any fun i => i.unit == 0 && i.waits)

/-- The next issue offset after the macro-op at the head, with the loop moved on (R102). -/
def Tile_advance (x : Tile) (pc : Nat) : Nat × Option LoopState :=
  match x.loop with
  | some l =>
    if pc + 64 = l.start + l.body then
      if l.iter + 1 < l.count then (l.start, some { l with iter := l.iter + 1 }) else (pc + 64, none)
    else (pc + 64, some l)
  | none => (pc + 64, none)

/-! ## Completion of the program (R97) -/

/-- The program ends when issue has stopped and nothing issued is left: with the earliest failure's status, else with
DONE_CORRECTED or DONE. -/
def State.tryFinish (s : State) (t : Nat) : State :=
  let x := s.tile t
  if x.issued ≠ [] ∨ x.finished.isSome then s
  else match x.failed, x.entry with
    | some f, _ => s.setTile t { x with finished := some f.2 }
    | none, some e =>
      if x.ended then s.setTile t { x with finished := some (if e.corrected then .doneCorrected else .done) } else s
    | none, none => s

/-- A failure noted: the earliest in program order gives the entry its status, and issue stops (R97). -/
def State.noteFailure (s : State) (t n : Nat) (st : Status) : State :=
  let x := s.tile t
  let f := match x.failed with
    | some (m, q) => if n < m then (n, st) else (m, q)
    | none => (n, st)
  (s.setTile t { x with failed := some f }).put (TILE_STATUS_STATE t) 2

/-- A malformed macro-op: REFUSED_PARTITION without effect, event 0x6101 (R98). -/
def State.malform (s : State) (t reason : Nat) (w : Entry) : State :=
  let n := (s.tile t).count
  let pc := s.get (TILE_PC_PC t)
  ((s.evLim3 0x6101 t (0x200 + t) 0 reason pc (opCode w)).noteFailure t n .refusedPartition).tryFinish t

/-! ## Issue (R95, R96) -/

/-- The unit holds four macro-ops that have not completed. -/
def State.unitFull (s : State) (t u : Nat) : Bool := decide (4 ≤ ((s.tile t).issued.filter fun i => i.unit == u).length)

/-- An earlier incomplete macro-op writes what these ranges read or write, or reads what they write. -/
def State.hazard (s : State) (t : Nat) (rs : List Reg) : Bool :=
  (s.tile t).issued.any fun i => rs.any fun r =>
    (i.writes.any fun x => rangesMeet x.1 x.2 r.off r.len) ||
      (r.wr && i.reads.any fun x => rangesMeet x.1 x.2 r.off r.len)

/-- A macro-op issued with the status it will complete with. -/
def State.issueOp (s : State) (t : Nat) (w : Entry) (st : Status) (waits : Bool) (txn : Nat) (q : QCount)
    (rs : List Reg) : State :=
  let x := s.tile t
  let pc := s.get (TILE_PC_PC t)
  let (pc', l) := Tile_advance x pc
  let i : Issued := ⟨x.count, (opUnit (opCode w)).getD 0, opCode w, pc, st, waits,
    if Entry_bits w 0 47 47 = 1 then some (Entry_bits w 0 43 40) else none, q, txn,
    (rs.filter fun r => r.rd).map fun r => (r.off, r.len), (rs.filter fun r => r.wr).map fun r => (r.off, r.len)⟩
  (s.setTile t { x with issued := x.issued ++ [i], loop := l, count := x.count + 1 }).put (TILE_PC_PC t) pc'

/-- A macro-op issued that is done. -/
def State.issueDone (s : State) (t : Nat) (w : Entry) (st : Status) (rs : List Reg) : State :=
  s.issueOp t w st false 0 qcount0 rs

/-- The macro-op `op` at the head of a tile's issue: the malformed checks of R98 in the order of their reasons, then
the conditions of R95 and R96, then its body with the strides of its loop applied. -/
def State.macroOp (s : State) (t op : Nat) (w : Entry) (chk : Entry → Option Nat) (regs : Entry → List Reg)
    (blocks : Entry → Nat) (body : State → Entry → List Reg → State) : State :=
  let x := s.tile t
  let pc := s.get (TILE_PC_PC t)
  if !s.canIssue t then s
  else if x.progStart + x.progLen ≤ pc then s.malform t 0x0A 0
  else if s.raw t ≠ w then s
  else if opUnit (opCode w) = none then s.malform t 0x01 w
  else if opCode w ≠ op then s
  else if Entry_bits w 0 55 52 ≠ 1 then s.malform t 0x02 w
  else if !reservedZero w (macroMasks op) then s.malform t 0x03 w
  else
    let v := match x.loop with
      | some l => strided l (blocks w) w
      | none => w
    match chk v with
    | some r => s.malform t r w
    | none =>
      let rs := regs v
      if rs.any fun r => r.wr && rangesMeet r.off r.len x.progStart x.progLen then s.malform t 0x07 w
      else if s.unitFull t ((opUnit op).getD 0) || s.hazard t rs then s
      else body s v rs

/-- The partition and logical tile of the entry that a tile runs. -/
def State.tileCtx (s : State) (t : Nat) : RunEntry :=
  ((s.tile t).entry).getD ⟨0, 0, 0, 0, 0, 0, false, false, false⟩

/-! ## Signals and deliveries (R102, R113) -/

/-- A delivery made once: a replay skips those already made (R113). -/
def State.deliverOnce (s : State) (t : Nat) (eff : State → State) : State :=
  let x := s.tile t
  let u := s.setTile t { x with delivered := x.delivered + 1 }
  if x.delivered < x.skipDeliveries then u
  else
    let e := s.tileCtx t
    (eff u).mapRec e.part e.list e.seq fun r => { r with delivered := r.delivered + 1 }

/-- A WAIT's condition: (count − value) mod 2^32 is below 2^31. -/
def waitMet (count value : Nat) : Bool := decide ((count + 2 ^ 32 - value) % 2 ^ 32 < 2 ^ 31)

/-- The control macro-op that waits on a tile ends with a status. -/
def State.endWait (s : State) (t : Nat) (st : Status) : State :=
  let x := s.tile t
  s.setTile t { x with wait := none, issued := x.issued.map fun i =>
    if i.unit = 0 ∧ i.waits then { i with waits := false, status := st } else i }

/-- A WAIT whose counter has reached its value completes. -/
def State.checkWait (s : State) (t : Nat) : State :=
  match (s.tile t).wait with
  | some v => if waitMet (s.get (TILE_SIGNAL_COUNT t v.ctr)) v.value then s.endWait t .done else s
  | none => s

/-- A signal counter of a tile raised, modulo 2^32. -/
def State.signal (s : State) (t c n : Nat) : State :=
  (s.put (TILE_SIGNAL_COUNT t c) (s.get (TILE_SIGNAL_COUNT t c) + n)).checkWait t

/-! ## The quantisation counters (R87 to R90) -/

/-- Whether an event of a code and key would be folded now. -/
def State.folded (s : State) (code key : Nat) : Bool :=
  match findLimit s.eph.limits code key with
  | some e => decide (s.now < e.last + ms10)
  | none => false

/-- A breach of a threshold: the last tensor and format, and the event or SUPPRESSED (R89, R90). -/
def State.breach (s : State) (t code fmt tensor n : Nat) : State :=
  let u := (s.put (TILE_QSAT_STATUS_LAST_TENSOR t) tensor).put (TILE_QSAT_STATUS_LAST_FORMAT t) fmt
  if s.folded code t then u.inc (TILE_QSAT_STATUS_SUPPRESSED t) 1
  else u.evLim3 code t (0x200 + t) 0 (fmt * 2 ^ 24 + tensor) n (s.get (TILE_STATUS_LOGICAL_ID t))

/-- The window restarted (R89). -/
def State.restartWindow (s : State) (t : Nat) : State :=
  s.setTile t { s.tile t with winQuant := 0, winSat := 0, winUfl := 0 }

/-- The window closed: the shares are compared, and it restarts (R89). -/
def State.closeWindow (s : State) (t fmt tensor : Nat) : State :=
  let x := s.tile t
  let th := s.get (TILE_QSAT_CTL_THRESH t)
  let uth := s.get (TILE_QSAT_CTL_UFL_THRESH t)
  let u := if th ≠ 0 ∧ th * x.winQuant ≤ x.winSat * 2 ^ 20 then s.breach t 0x5101 fmt tensor x.winSat else s
  let u := if uth ≠ 0 ∧ uth * x.winQuant ≤ x.winUfl * 2 ^ 20 then u.breach t 0x5102 fmt tensor x.winUfl else u
  u.restartWindow t

/-- The window advanced by the marks of quantised elements, in order (R89; log 23). -/
def State.window (s : State) (t fmt tensor : Nat) : List Nat → State
  | [] => s
  | m :: ms =>
    let x := s.tile t
    let u := s.setTile t { x with
      winQuant := x.winQuant + 1, winSat := x.winSat + m % 2, winUfl := x.winUfl + m / 2 % 2 }
    let u := if x.winQuant + 1 = 2 ^ (16 + s.get (TILE_QSAT_CTL_WINDOW_LOG t)) then u.closeWindow t fmt tensor else u
    State.window u t fmt tensor ms

/-- The elements of a retired macro-op counted (R87 to R90). -/
def State.countQuant (s : State) (t : Nat) (q : QCount) : State :=
  if q.marks = [] then s
  else
    let n (b : Nat) : Nat := (q.marks.filter fun m => m / b % 2 == 1).length
    let u := (((s.inc (TILE_QSAT_COUNT_QUANT t) q.marks.length).inc (TILE_QSAT_COUNT_SAT t) (n 1)).inc
      (TILE_QSAT_COUNT_UFL t) (n 2)).inc (TILE_QSAT_COUNT_NF t) (n 4)
    if s.get (TILE_QSAT_CTL_EN t) = 0 then u
    else
      let u := if n 4 = 0 then u
        else u.evLim3 0x5103 t (0x200 + t) 0 (q.fmt * 2 ^ 24 + q.tensor) (n 4) q.nf
      u.window t q.fmt q.tensor q.marks

/-! ## Retirement (R92, R97) -/

/-- A macro-op retires: its elements are counted once per entry, its signal is delivered, and its status noted (R88,
R94, R97). -/
def State.retireOp (s : State) (t : Nat) (i : Issued) : State :=
  let x := s.tile t
  let e := s.tileCtx t
  let u := s.setTile t { x with issued := x.issued.filter fun y => y.n != i.n }
  let seen := match s.jrec e.part e.list e.seq with
    | some r => r.counted.contains i.n
    | none => false
  let u := if seen then u
    else (u.countQuant t i.q).mapRec e.part e.list e.seq fun r => { r with counted := r.counted ++ [i.n] }
  let u := if Status_ok i.status then
      match i.sig with
      | some c => u.deliverOnce t fun v => v.signal t c 1
      | none => u
    else u.noteFailure t i.n i.status
  let y := u.tile t
  let u := if i.status = .doneCorrected then
      u.setTile t { y with entry := y.entry.map fun r => { r with corrected := true } } else u
  u.tryFinish t

/-- MACRO_OP_COMPLETE (R97): the first issued macro-op whose work is done retires. -/
def execMacroOpComplete (t : Fin 272) (s : State) : Host.Outcome State Fault Refusal :=
  .next (if s.live then
      match (s.tile t.val).issued.find? fun i => !i.waits with
      | some i => s.retireOp t.val i
      | none => s
    else s)

/-! ## Slot checks (R115, R116, R448) -/

/-- The tag and format of every slot read against its local view, then its poison: the first failure, with the state
that has counted and recorded it. -/
def State.slotCheck (s : State) (t : Nat) (rs : List Reg) : Option (State × Status) :=
  let reads := rs.filter fun r => r.rd
  let sealAtSlot (j : Nat) : Seal := s.sealOf .ls (lsAddr t (4096 * j))
  let bad := reads.filterMap fun r =>
    (slotsOfRange r.off r.len).findSome? fun j =>
      if r.tensor.any (fun x => x != (sealAtSlot j).tensor.toNat) then some (1, j)
      else if r.fmt.any (fun f => f != (sealAtSlot j).fmt.toNat || !fmtGood (sealAtSlot j).fmt.toNat) then some (2, j)
      else none
  match bad with
  | (k, j) :: _ =>
    some ((s.inc (TILE_CHECK_COUNT_SEAL_TAG t) 1).evLim 0x6103 t (0x200 + t) 0 k j, .sealMismatch)
  | [] =>
    if reads.any fun r => (slotsOfRange r.off r.len).any fun j => (sealAtSlot j).poison then some (s, .poisoned)
    else none

/-- The outcome of the physical checks of a macro-op before its effect: none where it goes on, else the state in which
it has stopped (R114, R116). -/
def State.checked (s : State) (t : Nat) (chk : TileCheck) (k : State → State) : State :=
  match chk with
  | .pass => k s
  | .residue u => s.residueFault t u
  | .uncorrectable j wd =>
    let (a, gone) := s.storeFault t j wd
    if gone then a else k a
  | .corrected n =>
    let (a, gone) := s.storeCorrected t n
    if gone then a else k a

/-- The non-finite flag of a partition set, but by evaluation work (R239). -/
def State.setNonfinite (s : State) (p : Nat) (eval : Bool) : State :=
  if eval then s else s.put (HUB_PART_COMMIT_NONFINITE p) 1

/-- The pre-images of the slots of written ranges that the entry has not itself written (R113, R375): the state that
has saved them, or none where the entry would exceed 8 MiB. -/
def State.preSlots (s : State) (t : Nat) (rs : List Reg) : Option State :=
  let e := s.tileCtx t
  let slots := ((rs.filter fun r => r.wr).flatMap fun r => slotsOfRange r.off r.len).filter fun j =>
    !(s.tile t).written.contains j
  s.savePre e.part e.list e.seq (slots.map fun j => (Space.ls, lsAddr t (4096 * j)))

/-- Slots marked as written by the entry. -/
def State.noteSlots (s : State) (t : Nat) (slots : List Nat) : State :=
  s.setTile t { s.tile t with written := ((s.tile t).written ++ slots).eraseDups }

/-- Blocks written to consecutive slots and sealed with the destination's tag, format and the entry's step (R92). -/
def State.writeSlots (s : State) (t addr tensor fmt base : Nat) (bs : List (List Byte)) : State :=
  let st := (s.tileCtx t).step
  let u := bs.zipIdx.foldl (fun (a : State) b =>
    a.setBlock .ls (lsAddr t (addr + 4096 * b.2)) b.1 (mkSeal b.1 tensor fmt ((base + b.2) % 2 ^ 32) st)) s
  u.noteSlots t ((List.range bs.length).map fun j => addr / 4096 + j)

/-- Bytes written into part of the local store: each slot keeps its tag and takes a correct CRC (R92, R444; log 24). -/
def State.writeRange (s : State) (t off : Nat) (bs : List Byte) : State :=
  (s.partialWrite .ls (lsAddr t off) bs).noteSlots t (slotsOfRange off bs.length)

/-! ## Control macro-ops (R101, R102) -/

/-- NOP (R101). -/
def execNop (t : Fin 272) (w : Entry) (s : State) : Host.Outcome State Fault Refusal :=
  .next (s.macroOp t.val 0x00 w (fun _ => none) (fun _ => []) (fun _ => 0) fun u v _ => u.issueDone t.val v .done [])

/-- END (R97): issue stops. -/
def execEndOp (t : Fin 272) (w : Entry) (s : State) : Host.Outcome State Fault Refusal :=
  .next (s.macroOp t.val 0x01 w (fun _ => none) (fun _ => []) (fun _ => 0) fun u v _ =>
    let a := u.issueDone t.val v .done []
    a.setTile t.val { a.tile t.val with ended := true })

/-- FENCE (R101): it issues once every earlier macro-op has completed. -/
def execFence (t : Fin 272) (w : Entry) (s : State) : Host.Outcome State Fault Refusal :=
  .next (s.macroOp t.val 0x02 w (fun _ => none) (fun _ => []) (fun _ => 0) fun u v _ =>
    if (u.tile t.val).issued = [] then u.issueDone t.val v .done [] else u)

/-- WAIT (R102). -/
def execWait (t : Fin 272) (w : Entry) (s : State) : Host.Outcome State Fault Refusal :=
  .next (s.macroOp t.val 0x03 w (fun _ => none) (fun _ => []) (fun _ => 0) fun u v _ =>
    let a := u.issueOp t.val v .done true 0 qcount0 []
    (a.setTile t.val { a.tile t.val with wait := some ⟨Entry_bits v 0 31 28, Entry_bits v 1 31 0⟩ }).checkWait t.val)

/-- WAIT_TIMEOUT (R102). -/
def execWaitTimeout (t : Fin 272) (s : State) : Host.Outcome State Fault Refusal :=
  .next (if s.live && (s.tile t.val).wait.isSome then s.endWait t.val .timeout else s)

/-- SIGNAL (R102): it issues once every earlier macro-op has completed; a REMOTE target outside the partition is
refused without a violation. -/
def execSignal (t : Fin 272) (w : Entry) (s : State) : Host.Outcome State Fault Refusal :=
  .next (s.macroOp t.val 0x04 w (fun _ => none) (fun _ => []) (fun _ => 0) fun u v _ =>
    if (u.tile t.val).issued ≠ [] then u
    else
      let c := Entry_bits v 0 31 28
      let n := Entry_bits v 1 31 0
      let l := Entry_bits v 0 23 16
      if Entry_bits v 0 15 15 = 1 then
        if u.tilePart l = some (u.tileCtx t.val).part then
          (u.issueDone t.val v .done []).deliverOnce t.val fun a => a.signal (a.physOf l) c n
        else u.issueDone t.val v .refusedPartition []
      else (u.issueDone t.val v .done []).deliverOnce t.val fun a => a.signal t.val c n)

/-- The malformed LOOP: inside a body, or with a body that holds an END or reaches past the program (R98). -/
def State.loopBad (s : State) (t : Nat) (w : Entry) : Bool :=
  let x := s.tile t
  let pc := s.get (TILE_PC_PC t)
  let n := Entry_bits w 0 15 12 + 1
  x.loop.isSome || decide (x.progStart + x.progLen < pc + 64 * (n + 1)) ||
    (List.range n).any fun j => let c := opCode (s.rawAt t (pc + 64 * (j + 1))); c == 0x01 || c == 0x06

/-- LOOP (R102). -/
def execLoop (t : Fin 272) (w : Entry) (s : State) : Host.Outcome State Fault Refusal :=
  .next (s.macroOp t.val 0x06 w (fun v => if s.loopBad t.val v then some 0x09 else none) (fun _ => []) (fun _ => 0)
    fun u v _ =>
      let pc := u.get (TILE_PC_PC t.val)
      let a := u.issueDone t.val v .done []
      let l : LoopState := ⟨pc + 64, 64 * (Entry_bits v 0 15 12 + 1), Entry_bits v 0 31 16 + 1, 0, Entry_bits v 1 63 32,
        Entry_bits v 1 31 0, Entry_bits v 2 63 32⟩
      a.setTile t.val { a.tile t.val with loop := some l })

/-- QSAT_CTL_WRITE (R89): the thresholds are set and the window restarts. -/
def execQsatCtlWrite (path : Path) (t : Fin 272) (h : Half) (v : Word) (s : State) : Host.Outcome State Fault Refusal :=
  .next (s.ctrl (.qsatCtlWrite path t h v) (ctrlPath path)
    ((s.writeAny path (0x10000400 + t.val * 0x10000) h v.toNat).restartWindow t.val))

end Sys2Proof.Machine
end

