-- ==== Sys2Proof/Machine/Stacks.lean ====
section
/-!
DEFINITION. The stacks' channels: sparing, folds, the exerciser, refresh and poisoned units; and the LLM slices:
operations, retirement (R146 to R154, R159, R160, R165 to R168).
-/

namespace Sys2Proof.Machine

open Sys2Proof

/-! ## Places (R146, R147) -/

/-- The stack of a physical H offset. -/
def stackOf (a : Nat) : Nat := a / 2 ^ 36

/-- The logical channel slot of a stack offset. -/
def slotOf (o : Nat) : Nat := bitsOf 13 9 o ^^^ bitsOf 18 14 o

/-- The channel that serves a slot of a stack: Active or Sparing in it. -/
def State.channelOf (s : State) (k slot : Nat) : Nat :=
  ((List.range 34).find? fun c =>
    (s.get (HBM_CH_STATUS_STATE k c) == 1 || s.get (HBM_CH_STATUS_STATE k c) == 3) &&
      s.get (HBM_CH_STATUS_SLOT k c) == slot).getD 0

/-- The stack serves requests: it is neither at T3 nor out of service (R157). -/
def State.stackServes (s : State) (k : Nat) : Bool := s.get (HBM_STACK_STATUS_LEVEL k) < 3

/-- A byte of a tier is served now. -/
def State.serves (s : State) (t a : Nat) : Bool := t != 1 || s.stackServes (stackOf a)

/-! ## Channels (R149 to R151) -/

/-- The counts of a stack's status follow its channels. -/
def State.countChannels (s : State) (k : Nat) : State :=
  let n (p : Nat → Bool) : Nat := ((List.range 34).filter fun c => p (s.get (HBM_CH_STATUS_STATE k c))).length
  (s.put (HBM_STACK_STATUS_ACTIVE k) (n fun x => x == 1 || x == 3)).put (HBM_STACK_STATUS_SPARES k) (n fun x => x == 2)

/-- A channel's state set. -/
def State.setChannel (s : State) (k c st : Nat) : State := (s.put (HBM_CH_STATUS_STATE k c) st).countChannels k

/-- The sparing work of a channel. -/
def State.sparing (s : State) (k c : Nat) : Option Sparing := smGet (fun _ => none) (s.stk k).sparing c

/-- The sparing work of a channel set. -/
def State.setSparing (s : State) (k c : Nat) (x : Option Sparing) : State :=
  s.setStk k { s.stk k with sparing := smSet (fun _ => none) (s.stk k).sparing c x }

/-- A Spare channel of a stack that no copy fills. -/
def State.freeSpare (s : State) (k : Nat) : Option Nat :=
  (List.range 34).find? fun c => s.get (HBM_CH_STATUS_STATE k c) == 2 &&
    !((List.range 34).any fun d => match s.sparing k d with
      | some x => x.kind != 3 && x.target == c
      | none => false)

/-- The spares of the stacks' channels left in the module. -/
def State.channelSpares (s : State) : Nat := (List.range 12).foldl (fun n k => n + s.get (HBM_STACK_STATUS_SPARES k)) 0

/-- A copy or fold of a stack is in progress. -/
def State.repairing (s : State) (k : Nat) : Bool := (List.range 34).any fun c => (s.sparing k c).isSome

/-- A stack that its channels no longer serve is out of service, as at T3 (R151). -/
def State.stackOut (s : State) (k : Nat) : State :=
  let t := ((s.put (HBM_STACK_STATUS_LEVEL k) 4).put (HBM_STACK_STATUS_SELF_REF k) 1).next
    (HBM_STACK_STATUS_GENERATION k)
  t.setStk k { t.stk k with outOfService := true }

/-- A fold of a channel's slot starts: 0x8103, or the stack leaves service at the ninth (R151). -/
def State.foldStart (s : State) (k c : Nat) (unreadable : Bool) : State :=
  if 8 ≤ s.get (HBM_STACK_STATUS_FOLDS k) then s.stackOut k
  else
    ((s.setChannel k c 3).setSparing k c (some ⟨3, 0, unreadable⟩)).ev 0x8103 (0x10 + k) 0 0
      (s.get (HBM_STACK_STATUS_FOLDS k)) c

/-- The retirement of a channel starts: a copy to a spare, or a fold; it waits while another repair of its stack runs
(R149, R365). -/
def State.retireChannel (s : State) (k c : Nat) : State :=
  if s.get (HBM_CH_STATUS_STATE k c) ≠ 1 then s
  else if s.repairing k then s.setStk k { s.stk k with waiting := (s.stk k).waiting ++ [c] }
  else match s.freeSpare k with
    | some d => ((s.setChannel k c 3).setSparing k c (some ⟨0, d, false⟩)).put (HBM_CH_STATUS_COPY_PCT k c) 0
    | none => s.foldStart k c false

/-- The next waiting retirement of a stack starts once its repair has ended. -/
def State.nextRepair (s : State) (k : Nat) : State :=
  match (s.stk k).waiting with
  | [] => s
  | c :: cs => (s.setStk k { s.stk k with waiting := cs }).retireChannel k c

/-- A channel retired: 0x8102 and the retirement's records (R149, R364, R388). -/
def State.channelRetired (s : State) (k c action : Nat) (spare : Option Nat) : State :=
  let t := (s.setChannel k c 5).setSparing k c none
  let t := t.evLim3 0x8102 (0x10 + k) (0x10 + k) 0 c (s.get (HBM_CH_STATUS_SLOT k c)) (s.get (HBM_CH_STATUS_CE k c))
  t.retired 2 (34 * k + c) action 1 spare t.channelSpares

/-- An event 0x8104 of a stack for `n` blocks from one on (R168). -/
def State.poisonEvent (s : State) (k o c n : Nat) : State :=
  s.evEvery ms10 0x8104 2 (0x10 + k) (0x10 + k) 0 n 0 fun m _ => (o / 4096, c, m)

/-- The blocks of a stack that a slot holds part of, by their stack offsets. -/
def slotBlocks (cap slot : Nat) : List Nat :=
  (List.range (cap * 262144)).filterMap fun b =>
    if (List.range 8).any fun i => slotOf (b * 4096 + i * 512) == slot then some (b * 4096) else none

/-- The poison of a block set. -/
def State.poison (s : State) (sp : Space) (a : Nat) : State := s.setSeal sp a { s.sealOf sp a with poison := true }

/-- Every block of a slot poisoned, with an event for each (R149). -/
def State.poisonSlot (s : State) (k slot c : Nat) : State :=
  let bs := slotBlocks (s.get (HBM_STACK_STATUS_CAP_GIB k)) slot
  let t := bs.foldl (fun (t : State) o => t.poison .h (k * 2 ^ 36 + o)) s
  match bs with
  | [] => t
  | o :: rest =>
    let t := t.poisonEvent k o c 1
    if rest = [] then t else t.poisonEvent k o c rest.length

/-- An uncorrectable unit of a block of H: the block is poisoned, counted, recorded, and one fault entered for the
channel, which is retired at its limit (R148, R364; log 27). -/
def State.hUncorrectable (s : State) (a : Nat) : State :=
  let k := stackOf a
  let o := a % 2 ^ 36 / 4096 * 4096
  let c := s.channelOf k (slotOf o)
  let t := ((s.poison .h a).inc (HBM_CH_STATUS_UE k c) 1).poisonEvent k o c 1
  let (t, perm) := t.faultAt 2 (34 * k + c) 0
  if perm then t.retireChannel k c else t

/-- OFFLINE (R149): an Active channel with a Spare channel available starts its copy; otherwise no change. -/
def execOffline (k : Fin 12) (c : Fin 34) (s : State) : Host.Outcome State Fault Refusal :=
  .next (s.ctrl (.offline k c) (s.get (HBM_CH_STATUS_STATE k.val c.val) == 1)
    (match s.freeSpare k.val with
      | some d => ((s.setChannel k.val c.val 3).setSparing k.val c.val (some ⟨1, d, false⟩)).put
          (HBM_CH_STATUS_COPY_PCT k.val c.val) 0
      | none => s))

/-- ONLINE (R149): an Offline channel's copy back starts; otherwise no change. -/
def execOnline (k : Fin 12) (c : Fin 34) (s : State) : Host.Outcome State Fault Refusal :=
  .next (s.ctrl (.online k c) (s.get (HBM_CH_STATUS_STATE k.val c.val) == 4)
    (((s.setChannel k.val c.val 3).setSparing k.val c.val (some ⟨2, c.val, false⟩)).put
      (HBM_CH_STATUS_COPY_PCT k.val c.val) 0))

/-- SPARING_COPY_COMPLETE (R149, R150): the target is Active in the slot; the channel becomes Retired or Offline, or
after ONLINE Active, with its spare back in Spare. -/
def execSparingCopyComplete (kk : Fin 12) (cc : Fin 34) (s : State) : Host.Outcome State Fault Refusal :=
  .next (if s.live then
      let k := kk.val
      let c := cc.val
      let slot := s.get (HBM_CH_STATUS_SLOT k c)
      match s.sparing k c with
      | none => s
      | some x =>
        if x.kind = 3 then s
        else if x.kind = 2 then
          let d := smGet (fun _ => none) (s.stk k).replacedBy c
          let t := (((s.setChannel k c 1).put (HBM_CH_STATUS_COPY_PCT k c) 100).setSparing k c none)
          let t := t.setStk k { t.stk k with replacedBy := smSet (fun _ => none) (t.stk k).replacedBy c none }
          (match d with
            | some d => t.setChannel k d 2
            | none => t).nextRepair k
        else
          let t := ((s.put (HBM_CH_STATUS_SLOT k x.target) slot).setChannel k x.target 1).put
            (HBM_CH_STATUS_COPY_PCT k c) 100
          if x.kind = 0 then (t.channelRetired k c 2 (some x.target)).nextRepair k
          else
            let t := (t.setChannel k c 4).setSparing k c none
            (t.setStk k { t.stk k with
              replacedBy := smSet (fun _ => none) (t.stk k).replacedBy c (some x.target) }).nextRepair k
    else s)

/-- CHANNEL_UNREADABLE (R149, R150): the blocks of an Active channel are poisoned; a Spare takes the slot at once, or
a fold starts; a source unreadable during its copy poisons the blocks, and the copy goes on. -/
def execChannelUnreadable (kk : Fin 12) (cc : Fin 34) (s : State) : Host.Outcome State Fault Refusal :=
  .next (if s.live then
      let k := kk.val
      let c := cc.val
      let slot := s.get (HBM_CH_STATUS_SLOT k c)
      if s.get (HBM_CH_STATUS_STATE k c) = 1 then
        let t := s.poisonSlot k slot c
        match s.freeSpare k with
        | some d => ((t.put (HBM_CH_STATUS_SLOT k d) slot).setChannel k d 1).channelRetired k c 2 (some d)
        | none => t.foldStart k c true
      else if s.get (HBM_CH_STATUS_STATE k c) = 3 then s.poisonSlot k slot c
      else s
    else s)

/-! ### Folds (R151, R172) -/

/-- The granules of H free to an extent that a fold moves: outside the withdrawn range of its stack. -/
def State.freeH (s : State) (k lim : Nat) : List Nat :=
  let held := s.liveCtxs.flatMap fun m => (s.ctx m).extents.filter fun e => e.tier == 1
  ((List.range 12).flatMap fun q =>
    (List.range (if q = k then lim else s.get (HBM_STACK_STATUS_CAP_GIB q) * 512)).map fun i => q * 32768 + i).filter
    fun i => !(held.any fun e => e.phys.any fun c => decide (c.1 < (i + 1) * 2 ^ 21) && decide (i * 2 ^ 21 < c.1 + c.2))

/-- A granule of H moved, with its seals. -/
def State.moveGranule (s : State) (src dst : Nat) : State :=
  (List.range 512).foldl (fun (t : State) i =>
    t.setBlock .h (dst + 4096 * i) (s.block .h (src + 4096 * i)) (s.sealOf .h (src + 4096 * i))) s

/-- The pieces of an extent with every granule in the withdrawn range moved to a free one (log 9). -/
def State.movePieces (s : State) (lo hi : Nat) : List (Nat × Nat) → List Nat → Nat → State × List (Nat × Nat) × List Nat
  | [], fs, _ => (s, [], fs)
  | (p, n) :: ps, fs, c =>
    if lo ≤ p + n - 1 ∧ p < hi ∧ n ≠ 0 then
      let r := (List.range (n / 2 ^ 21)).foldl (fun (a : State × List (Nat × Nat) × List Nat) i =>
        let x := p + i * 2 ^ 21
        if lo ≤ x then
          let g := a.2.2.getD (Config.foldPlace (s.get (HBM_STACK_STATUS_FOLDS (stackOf lo))) c i % max 1 a.2.2.length) 0
          (a.1.moveGranule x (g * 2 ^ 21), a.2.1 ++ [(g * 2 ^ 21, 2 ^ 21)], a.2.2.filter (· != g))
        else (a.1, a.2.1 ++ [(x, 2 ^ 21)], a.2.2)) (s, [], fs)
      let q := State.movePieces r.1 lo hi ps r.2.2 (c + 1)
      (q.1, r.2.1 ++ q.2.1, q.2.2)
    else
      let q := State.movePieces s lo hi ps fs (c + 1)
      (q.1, (p, n) :: q.2.1, q.2.2)

/-- The extents of the contexts that reach into a range of H. -/
def State.extentsIn (s : State) (lo hi : Nat) : Nat :=
  s.liveCtxs.foldl (fun k n => k + ((s.ctx n).extents.filter fun e => e.tier == 1).foldl (fun j e =>
    j + e.phys.foldl (fun i c => i + (min hi (c.1 + c.2) - max lo c.1) / 2 ^ 21) 0) 0) 0

/-- Every extent in the withdrawn range moved out of it (R29, R151). -/
def State.evacuate (s : State) (k lim : Nat) : State :=
  let lo := k * 2 ^ 36 + lim * 2 ^ 21
  let hi := (k + 1) * 2 ^ 36
  s.liveCtxs.foldl (fun (t : State) n =>
    let r := (t.ctx n).extents.foldl (fun (a : State × List Extent) e =>
      if e.tier = 1 then
        let m := a.1.movePieces lo hi e.phys (a.1.freeH k lim) 0
        (m.1, a.2 ++ [{ e with phys := m.2.1 }])
      else (a.1, a.2 ++ [e])) (t, [])
    r.1.setCtx n { r.1.ctx n with extents := r.2 }) s

/-- A fold that lowers H below the sum of its guarantees scales them, with event 0x9107 (R172). -/
def State.scaleGuarantees (s : State) : State :=
  let sum := (s.cfg.active.quotas.filter fun q => q.scope == 0 && q.tier == 1).foldl (fun k q => k + q.guarantee) 0
  let cap := s.tierCapacity s.cfg.active 0 1
  if cap < sum then { s with tiers := { s.tiers with hScale := some (cap, sum) } }.evLim3 0x9107 0 0 0 1 cap sum else s

/-- FOLD_COMPLETE (R151): once the extents of the withdrawn range have free H space, they move there, the fold map
takes effect, and the channel is Retired; until then nothing changes. -/
def execFoldComplete (kk : Fin 12) (cc : Fin 34) (s : State) : Host.Outcome State Fault Refusal :=
  .next (if s.live then
      let k := kk.val
      let c := cc.val
      match s.sparing k c with
      | none => s
      | some x =>
        let n := s.get (HBM_STACK_STATUS_FOLDS k) + 1
        let lim := (64 - 2 * n) * 512
        if x.kind ≠ 3 then s
        else if (s.freeH k lim).length < s.extentsIn (k * 2 ^ 36 + lim * 2 ^ 21) ((k + 1) * 2 ^ 36) then s
        else
          let t := s.evacuate k lim
          let t := (t.put (HBM_STACK_STATUS_FOLDS k) n).put (HBM_STACK_STATUS_CAP_GIB k) (64 - 2 * n)
          let t := t.setStk k { t.stk k with folded := (t.stk k).folded ++ [s.get (HBM_CH_STATUS_SLOT k c)] }
          let t := (t.channelRetired k c 3 none).ev 0x8103 (0x10 + k) 0 1 n c
          t.scaleGuarantees.nextRepair k
    else s)

/-- REFRESH (R154): each beat that a partition's request waits on it is counted. -/
def execRefresh (_k : Fin 12) (_pc : Nat) (waits : List (Nat × Nat)) (s : State) : Host.Outcome State Fault Refusal :=
  .next (if s.on then
      waits.foldl (fun (t : State) w => if w.1 < 128 then t.inc (HUB_PART_TIMING_REFRESH_WAIT w.1) w.2 else t) s
    else s)

/-! ## The exerciser (R159) -/

/-- EXERCISER_START (R159): a run on a Spare, Offline or Retired channel; another channel refuses the start. -/
def execExerciserStart (k : Fin 12) (s : State) : Host.Outcome State Fault Refusal :=
  .next (s.ctrl (.exerciserStart k) true
    (let c := s.get (HBM_EXER_CTL_CHANNEL k.val)
     let st := s.get (HBM_CH_STATUS_STATE k.val c)
     if (s.stk k.val).exerciser then s
     else if c ≤ 33 ∧ (st = 2 ∨ st = 4 ∨ st = 5) then
       (s.put (HBM_EXER_RESULT_DONE k.val) 0).setStk k.val { s.stk k.val with exerciser := true }
     else (s.put (HBM_EXER_RESULT_DONE k.val) 1).put (HBM_EXER_RESULT_STATUS k.val) (statusCode .refusedPartition)))

/-- EXERCISER_ABORT (R159): the run stops with DONE set and the errors so far, which the spec does not fix (log 7). -/
def execExerciserAbort (k : Fin 12) (s : State) : Host.Outcome State Fault Refusal :=
  .next (s.ctrl (.exerciserAbort k) (s.stk k.val).exerciser
    ((((s.useFree.useFree.setStk k.val { s.stk k.val with exerciser := false }).put (HBM_EXER_RESULT_ERRORS k.val)
      (Config.freeValue s.free).toNat).put (HBM_EXER_RESULT_STATUS k.val) (Config.freeValue (s.free + 1)).toNat).put
      (HBM_EXER_RESULT_DONE k.val) 1))

/-- EXERCISER_RUN_COMPLETE (R159): the errors and margins found, PASS and DONE. -/
def execExerciserRunComplete (k : Fin 12) (errors marginLo marginHi : Nat) (s : State) :
    Host.Outcome State Fault Refusal :=
  .next (if s.on && (s.stk k.val).exerciser then
      let mode := s.get (HBM_EXER_CTL_MODE k.val)
      let good := if mode = 0 then errors == 0 else decide (8 ≤ marginLo) && decide (8 ≤ marginHi)
      let t := s.setStk k.val { s.stk k.val with exerciser := false }
      let t := ((t.put (HBM_EXER_RESULT_ERRORS k.val) (min errors 0xFFFFFFFF)).put (HBM_EXER_RESULT_MARGIN_LO k.val)
        (min marginLo 255)).put (HBM_EXER_RESULT_MARGIN_HI k.val) (min marginHi 255)
      ((t.put (HBM_EXER_RESULT_STATUS k.val) 0).put (HBM_EXER_RESULT_PASS k.val) (if good then 1 else 0)).put
        (HBM_EXER_RESULT_DONE k.val) 1
    else s)

/-! ## Slice operations (R165) -/

/-- The blocks of the lines of a slice. -/
def State.sliceBlocks (s : State) (k : Nat) : List Nat := (s.lines.filter fun l => l.slice == k).map fun l => l.block

/-- A slice runs an operation. -/
def State.sliceBusy (s : State) (k : Nat) : Bool := s.llmOps.any fun o => o.running && o.slices.contains k

/-- An operation waits behind a slice. -/
def State.sliceQueued (s : State) (k : Nat) : Bool := s.llmOps.any fun o => !o.running && o.slices.contains k

/-- One line under FLUSH, INVALIDATE or FLUSH_INVALIDATE. -/
def State.lineOp (s : State) (op b : Nat) : State :=
  let t := if op = 2 then s else s.writeBackLine b
  if op = 1 then t else t.dropLine b

/-- The blocks that an operation visits now: those of its range or of its slices. -/
def State.opBlocks (s : State) (o : LlmOp) : List Nat :=
  ((s.lines.filter fun l => o.slices.contains l.slice).map fun l => l.block).filter fun b =>
    o.ring.isNone || o.blocks.contains b

/-- A write-back of an operation would reach a stack out of service (R165). -/
def State.opBlocked (s : State) (o : LlmOp) : Bool :=
  o.op != 2 && (s.opBlocks o).any fun b => (s.lineOf b).any fun l => l.dirty && !s.stackServes (stackOf (b * 4096))

/-- An operation started: its slices show it running. -/
def State.startOp (s : State) (o : LlmOp) : State :=
  o.slices.foldl (fun (t : State) k =>
    (t.put (LLM_SLICE_STATUS_STATE (k / 17) (k % 17)) 5).put (LLM_OP_OP (k / 17) (k % 17)) o.op)
    { s with llmOps := s.llmOps.filter (· != o) ++ [{ o with running := true }] }

/-- An operation ended with a status. -/
def State.endOp (s : State) (o : LlmOp) (st : Status) : State :=
  let t := o.slices.foldl (fun (t : State) k =>
    ((t.put (LLM_SLICE_STATUS_STATE (k / 17) (k % 17)) 1).put (LLM_OP_OP (k / 17) (k % 17)) 0).put
      (LLM_OP_STATUS (k / 17) (k % 17)) (statusCode st)) { s with llmOps := s.llmOps.filter (· != o) }
  match o.ring with
  | some r => t.cmdClose r.1 r.2 st 0 0
  | none => t

/-- An operation given: it starts, is queued behind a running one and DEFERRED, or is refused as the third (R165). -/
def State.giveOp (s : State) (o : LlmOp) : State × Status :=
  if o.slices.any fun k => s.sliceQueued k then (s, .refusedCapacity)
  else if o.slices.any fun k => s.sliceBusy k then
    ({ s with llmOps := s.llmOps ++ [{ o with running := false }] }, .deferred)
  else (s.startOp o, .done)

/-- An operation of LLM_OP on a slice. -/
def State.regOp (s : State) (q i op : Nat) : State :=
  let k := 17 * q + i
  if s.get (LLM_SLICE_STATUS_STATE q i) ≠ 1 ∧ s.get (LLM_SLICE_STATUS_STATE q i) ≠ 5 then
    s.put (LLM_OP_STATUS q i) (statusCode .refusedPartition)
  else
    let (t, st) := s.giveOp ⟨[k], op, none, [], false⟩
    if st = .done then t else t.put (LLM_OP_STATUS q i) (statusCode st)

/-- LLM_FLUSH (R165). -/
def execLlmFlush (q : Fin 4) (i : Fin 17) (s : State) : Host.Outcome State Fault Refusal :=
  .next (s.ctrl (.llmFlush q i) true (s.regOp q.val i.val 1))

/-- LLM_INVALIDATE (R165). -/
def execLlmInvalidate (q : Fin 4) (i : Fin 17) (s : State) : Host.Outcome State Fault Refusal :=
  .next (s.ctrl (.llmInvalidate q i) true (s.regOp q.val i.val 2))

/-- LLM_FLUSH_INVALIDATE (R165). -/
def execLlmFlushInvalidate (q : Fin 4) (i : Fin 17) (s : State) : Host.Outcome State Fault Refusal :=
  .next (s.ctrl (.llmFlushInvalidate q i) true (s.regOp q.val i.val 3))

/-- LLM_OP_COMPLETE (R165): the operation that runs on a slice has visited its lines and completes DONE, unless a
write-back waits for a stack out of service; the queued operation starts. -/
def execLlmOpComplete (q : Fin 4) (i : Fin 17) (s : State) : Host.Outcome State Fault Refusal :=
  .next (if s.live then
      let k := 17 * q.val + i.val
      match s.llmOps.find? fun o => o.running && o.slices.contains k with
      | none => s
      | some o =>
        if s.opBlocked o then s
        else
          let t := ((s.opBlocks o).foldl (fun (t : State) b => t.lineOp o.op b) s).endOp o .done
          match t.llmOps.find? fun x => !x.running && x.slices.contains k with
          | some x => if x.slices.any fun j => t.sliceBusy j then t else t.startOp x
          | none => t
    else s)

/-- LLM_RANGE (R165, R332): the operation acts on the lines of a range of the context's H view in its partition's
cache slices; a range outside the view is refused with a violation, and a partition without cache slices has no line
to visit. -/
def execLlmRange (c : Fin 4096) (s : State) : Host.Outcome State Fault Refusal :=
  .next (s.command c.val 0x28 fun t i e =>
    let op := Entry_bits e 1 1 0
    let a := Entry_bits e 2 63 0
    let n := Entry_bits e 3 63 0
    if op = 0 then t.cmdDone c.val i .refusedPartition 0
    else match t.view c.val a n false [1] with
      | .extent x rel =>
        let bs := (blocksOf rel n).map fun b => Extent_phys x b / 4096
        let ks := t.cacheSlices (t.get (CTX_PARTITION c.val))
        if ks = [] then t.cmdDone c.val i .done 0
        else
          let (u, st) := t.giveOp ⟨ks, op, some (c.val, i), bs, false⟩
          if st = .done then u.cmdOpen c.val i
          else if st = .deferred then (u.cmdOpen c.val i).deferRec (.cmdRing c.val) i 0 1
          else u.cmdDone c.val i st 0
      | .refuse code => (t.violate c.val code i a).cmdDone c.val i .refusedPartition 0
      | .outside _ _ => t.cmdDone c.val i .refusedPartition 0)

/-! ## Retired slices (R167) -/

/-- The spare slice of a quadrant. -/
def State.spareSlice (s : State) (q : Nat) : Option Nat :=
  (List.range 17).find? fun i => s.get (LLM_SLICE_STATUS_STATE q i) == 3

/-- The spare slices of the module. -/
def State.sliceSpares (s : State) : Nat :=
  ((List.range 68).filter fun k => s.get (LLM_SLICE_STATUS_STATE (k / 17) (k % 17)) == 3).length

/-- A slice's active index, partition and role handed to another slice. -/
def State.remapSlice (s : State) (q i d : Nat) : State :=
  let t := ((s.put (LLM_SLICE_STATUS_STATE q d) (s.get (LLM_SLICE_STATUS_STATE q i))).put (LLM_SLICE_STATUS_PARTITION q d)
    (s.get (LLM_SLICE_STATUS_PARTITION q i))).put (LLM_SLICE_STATUS_ACTIVE_INDEX q d)
    (s.get (LLM_SLICE_STATUS_ACTIVE_INDEX q i))
  t.put (LLM_SLICE_STATUS_STATE q i) 4

/-- A slice removed from its partition, which runs without it. -/
def State.removeSlice (s : State) (q i : Nat) : State :=
  let p := s.get (LLM_SLICE_STATUS_PARTITION q i)
  let k := 16 * q + s.get (LLM_SLICE_STATUS_ACTIVE_INDEX q i)
  let f := if s.get (LLM_SLICE_STATUS_STATE q i) = 2 then HUB_PART_CFG_LLM_SCRATCH p else HUB_PART_CFG_LLM_CACHE p
  let v := s.get (HUB_PART_LLM_SLICES p)
  let t := if s.get (LLM_SLICE_STATUS_STATE q i) = 1 ∨ s.get (LLM_SLICE_STATUS_STATE q i) = 2 then
      (s.put f (s.get f - 1)).put (HUB_PART_LLM_SLICES p) (if bitAt v k then v - 2 ^ k else v) else s
  t.put (LLM_SLICE_STATUS_STATE q i) 4

/-- The retirement of a slice recorded: 0x8108 and the retirement's records. -/
def State.sliceRetired (s : State) (q i idx written poisoned : Nat) (spare : Option Nat) : State :=
  let sev := if spare.isSome then 1 else 2
  let t := s.evEvery ms10 0x8108 sev (17 * q + i) (0x400 + 17 * q + i) 0 1 0 fun _ _ => (idx, written, poisoned)
  t.retired 3 (17 * q + i) (if spare.isSome then 2 else 4) sev (spare.map fun d => 17 * q + d) t.sliceSpares

/-- A slice retired: a cache slice is flush-invalidated and remapped, a scratchpad slice starts its copy to the spare,
an unowned one is remapped, and without a spare the slice is removed (R167). -/
def State.retireSlice (s : State) (q i : Nat) : State :=
  let k := 17 * q + i
  let st := s.get (LLM_SLICE_STATUS_STATE q i)
  let idx := s.get (LLM_SLICE_STATUS_ACTIVE_INDEX q i)
  if st = 4 ∨ s.flt.draining.contains (3, k) then s
  else if st = 3 then (s.put (LLM_SLICE_STATUS_STATE q i) 4).sliceRetired q i idx 0 0 (some i)
  else
    let bs := s.sliceBlocks k
    let dirty := (s.lines.filter fun l => l.slice == k && l.dirty).length
    let t := if st = 1 ∨ st = 5 then bs.foldl (fun (t : State) b => t.lineOp 3 b) s else s
    let t := if st = 5 then t.put (LLM_SLICE_STATUS_STATE q i) 1 else t
    let t := { t with llmOps := t.llmOps.filter fun o => !(o.slices == [k]) }
    match t.spareSlice q with
    | none => (t.removeSlice q i).sliceRetired q i idx dirty 0 none
    | some d =>
      if st = 2 then { t with flt := { t.flt with draining := t.flt.draining ++ [(3, k)] } }
      else (t.remapSlice q i d).sliceRetired q i idx dirty 0 (some d)

/-- LLM_SLICE_COPY_COMPLETE (R167): the spare takes the active index of a retired scratchpad slice. -/
def execLlmSliceCopyComplete (q : Fin 4) (i : Fin 17) (s : State) : Host.Outcome State Fault Refusal :=
  .next (if s.live && s.flt.draining.contains (3, 17 * q.val + i.val) then
      let t := { s with flt := { s.flt with draining := s.flt.draining.filter (· != (3, 17 * q.val + i.val)) } }
      let idx := s.get (LLM_SLICE_STATUS_ACTIVE_INDEX q.val i.val)
      match t.spareSlice q.val with
      | some d => (t.remapSlice q.val i.val d).sliceRetired q.val i.val idx 0 0 (some d)
      | none => (t.removeSlice q.val i.val).sliceRetired q.val i.val idx 0 0 none
    else s)

end Sys2Proof.Machine
end

