-- ==== Sys2Proof/Machine/WorkList.lean ====
section
/-!
DEFINITION. Streams and feeds, work-list entries, their dispatch and completion, and the Meridian barriers up to the
check barrier's release (R118 to R138, R373 to R376).
-/

namespace Sys2Proof.Machine

open Sys2Proof

/-! ## Seal checks of arriving blocks (R115, R448) -/

/-- What a seal check decides: the block is taken, perhaps after a refetch, or the operation stops. -/
inductive Arrive where
  | ok (corrected : Bool)
  | stop (st : Status)
  deriving DecidableEq, Repr

/-- A block on its way into or out of a tile's slot is checked: tag and format where the consumer names them, then
POISON, then the CRC with one refetch; `once` and `twice` say that the first copy, or both, arrived damaged. -/
def State.checkArrival (s : State) (t slot : Nat) (x : Seal) (bs : List Byte) (named : Option (Nat × Nat × Nat))
    (once twice : Bool) : State × Arrive :=
  let event (u : State) (k : Nat) : State := u.evLim 0x6103 t (0x200 + t) 0 k slot
  let tag := named.any fun n => x.tensor.toNat != n.1 || x.block.toNat != n.2.1
  let fmt := named.any fun n => x.fmt.toNat != n.2.2 || !fmtGood x.fmt.toNat
  if tag then (event (s.inc (TILE_CHECK_COUNT_SEAL_TAG t) 1) 1, .stop .sealMismatch)
  else if fmt then (event (s.inc (TILE_CHECK_COUNT_SEAL_TAG t) 1) 2, .stop .sealMismatch)
  else if x.poison then (s, .ok false)
  else if crcGood x bs && !once && !twice then (s, .ok false)
  else
    let u := s.inc (TILE_CHECK_COUNT_SEAL_CRC t) 1
    if crcGood x bs && !twice then (u.evLim 0x6105 t (0x200 + t) 0 slot x.block.toNat, .ok true)
    else (event (u.inc (TILE_CHECK_COUNT_SEAL_CRC t) 1) 0, .stop .sealMismatch)

/-- A seal read by the entry of a tile, for its INPUT_DIGEST (R373). -/
def State.noteIn (s : State) (t : Nat) (x : Seal) : State :=
  let e := s.tileCtx t
  s.mapRec e.part e.list e.seq fun r => { r with inSeals := r.inSeals ++ sealBytes x }

/-- A seal of a block that the entry of a tile sent to a tier, for its OUTPUT_DIGEST (R373). -/
def State.noteOut (s : State) (t : Nat) (x : Seal) : State :=
  let e := s.tileCtx t
  s.mapRec e.part e.list e.seq fun r => { r with outSeals := r.outSeals ++ sealBytes x }

/-- The issued macro-op `n` of a tile that waited ends with a status. -/
def State.endIssued (s : State) (t n : Nat) (st : Status) : State :=
  let x := s.tile t
  s.setTile t { x with issued := x.issued.map fun (i : Issued) => if i.n = n then { i with waits := false, status := st } else i }

/-! ## Streams (R124 to R128) -/

/-- The active definition of a stream. -/
def State.stream (s : State) (i : Nat) : Option StreamDef := Config_stream s.cfg.active i

/-- The address in tier L of slot `k` of a stream's ring. -/
def streamAddr (d : StreamDef) (k : Nat) : Nat := d.slice * 2 ^ 24 + (d.bufOff + k % d.depth) * 4096

/-- A stream has room for a block (R126). -/
def State.streamRoom (s : State) (i : Nat) (d : StreamDef) : Bool :=
  decide ((s.get (HUB_STREAM_CNT_PRODUCED i) + 65536 - s.get (HUB_STREAM_CNT_FREED i)) % 65536 < d.depth)

/-- A stream holds a block not yet consumed. -/
def State.streamData (s : State) (i : Nat) : Bool :=
  s.get (HUB_STREAM_CNT_PRODUCED i) != s.get (HUB_STREAM_CNT_CONSUMED i)

/-- A block stored at PRODUCED. -/
def State.streamPut (s : State) (i : Nat) (d : StreamDef) (bs : List Byte) (x : Seal) : State :=
  (s.setBlock .l (streamAddr d (s.get (HUB_STREAM_CNT_PRODUCED i))) bs x).put (HUB_STREAM_CNT_PRODUCED i)
    (s.get (HUB_STREAM_CNT_PRODUCED i) + 1)

/-- One block of a tile's stream access, or none while it waits: a producer that replays skips the blocks already
produced (R127). -/
def State.streamBlock (s : State) (d : StreamDef) (w : StreamWait) : Option (State × Arrive) :=
  let i := w.stream
  let ls := lsAddr w.tile (4096 * w.slot)
  if w.load then
    if !s.streamData i then none
    else
      let a := streamAddr d (s.get (HUB_STREAM_CNT_CONSUMED i))
      let x := s.sealOf .l a
      let bs := s.block .l a
      let (u, r) := s.checkArrival w.tile w.slot x bs (some (w.tensor, w.block, w.fmt)) false false
      match r with
      | .stop st => some (u, .stop st)
      | .ok c =>
        let v := ((u.setBlock .ls ls bs x).noteSlots w.tile [w.slot]).noteIn w.tile x
        some (v.put (HUB_STREAM_CNT_CONSUMED i) (s.get (HUB_STREAM_CNT_CONSUMED i) + 1), .ok c)
  else
    let x := s.sealOf .ls ls
    let bs := s.block .ls ls
    let y := s.tile w.tile
    let skip := y.produced < y.skipProduced
    if !skip && !s.streamRoom i d then none
    else
      let (u, r) := s.checkArrival w.tile w.slot x bs (some (w.tensor, w.block, w.fmt)) false false
      match r with
      | .stop st => some (u, .stop st)
      | .ok c =>
        let v := u.setTile w.tile { u.tile w.tile with produced := (u.tile w.tile).produced + 1 }
        let v := v.noteOut w.tile x
        if skip then some (v, .ok c)
        else
          let e := v.tileCtx w.tile
          some ((v.streamPut i d bs x).mapRec e.part e.list e.seq fun r => { r with produced := r.produced + 1 }, .ok c)

/-- A tile's stream access carried on while it can move blocks: the state and the access that still waits, or the
status it ends with. -/
def State.streamRun (d : StreamDef) : Nat → State → StreamWait → State × (StreamWait ⊕ Status)
  | 0, s, w => (s, .inl w)
  | f + 1, s, w =>
    if w.left = 0 then (s, .inr (if w.corrected then .doneCorrected else .done))
    else match s.streamBlock d w with
      | none => (s, .inl w)
      | some (u, .stop st) => (u, .inr st)
      | some (u, .ok c) => State.streamRun d f u
          { w with slot := w.slot + 1, left := w.left - 1, block := (w.block + 1) % 2 ^ 32, corrected := w.corrected || c }

/-- A waiting stream access tried again. -/
def State.streamResume (s : State) (w : StreamWait) : State :=
  match s.stream w.stream with
  | none => s
  | some d =>
    let (u, r) := State.streamRun d (w.left + 1) s w
    match r with
    | .inl v =>
      let since := if v.left = w.left then w.since else s.now
      { u with waits := u.waits.map fun x => if x = w then { v with since := since } else x }
    | .inr st => { u with waits := u.waits.filter (· != w) }.endIssued w.tile w.n st

/-- The accesses waiting on a stream end with a status. -/
def State.endWaits (s : State) (i : Nat) (st : Status) : State :=
  (s.waits.filter fun w => w.stream == i).foldl (fun (t : State) w => t.endIssued w.tile w.n st)
    { s with waits := s.waits.filter fun w => w.stream != i }

/-- A stream reset: its counts 0, its ring empty (R128). -/
def State.resetStream (s : State) (i : Nat) : State :=
  (((s.put (HUB_STREAM_CNT_PRODUCED i) 0).put (HUB_STREAM_CNT_CONSUMED i) 0).put (HUB_STREAM_CNT_FREED i) 0).put
    (HUB_STREAM_CNT_STATE i) (if (s.stream i).isSome then 1 else 0)

/-- An entry runs at an end of a stream, or its feed does. -/
def State.streamBusy (s : State) (i : Nat) (d : StreamDef) : Bool :=
  (s.tile (s.physOf d.consumer)).entry.isSome || (!d.feed && (s.tile (s.physOf d.producer)).entry.isSome) ||
    s.feeds.any fun f => f.stream == i

/-- A Stopped stream reset once no entry of either end runs. -/
def State.settleStream (s : State) (i : Nat) : State :=
  match s.stream i with
  | some d => if s.get (HUB_STREAM_CNT_STATE i) = 2 ∧ !s.streamBusy i d then s.resetStream i else s
  | none => s

/-- A stream stopped: its waiting accesses and its feeds are cancelled (R128, R131). -/
def State.stopStream (s : State) (i : Nat) : State :=
  ((s.put (HUB_STREAM_CNT_STATE i) 2).endWaits i .cancelled).cancelFeeds fun f => f.stream != i

/-- The streams of a partition reset at its commit or skip, with event 0x7103 for each that is not empty. -/
def State.drainStreams (s : State) (p step : Nat) : State :=
  (s.cfg.active.streams.filterMap fun kv => match kv.2 with
    | some d => if d.part = p then some kv.1 else none
    | none => none).foldl (fun (t : State) i =>
      let n := (t.get (HUB_STREAM_CNT_PRODUCED i) + 65536 - t.get (HUB_STREAM_CNT_FREED i)) % 65536
      if n = 0 then t else (t.resetStream i).evLim3 0x7103 0 0 0 i n step) s

/-! ## Feeds (R130, R131) -/

/-- The blocks of a feed stored while its stream has room; a finished feed ends. -/
def State.feedRun (d : StreamDef) : Nat → State → Feed → State × Option Feed
  | 0, s, f => (s, if f.left = 0 then none else some f)
  | n + 1, s, f =>
    if f.left = 0 then (s, none)
    else if !s.streamRoom f.stream d then (s, some f)
    else match s.view f.ctx f.src 4096 false [0, 1] with
      | .extent e rel =>
        let a := Extent_phys e rel
        if !s.serves e.tier a then (s, some f)
        else
          let sp := tierSpace e.tier
          let t := if e.tier = 1 then s.llmAccess f.part (a / 4096) false true else s
          State.feedRun d n (t.streamPut f.stream d (t.block sp a) (t.sealOf sp a))
            { f with src := f.src + 4096, left := f.left - 1 }
      | _ => (s, none)

/-- A feed carried on. -/
def State.feedResume (s : State) (f : Feed) : State :=
  match s.stream f.stream with
  | none => s
  | some d =>
    let (u, r) := State.feedRun d (f.left + 1) s f
    match r with
    | some g => { u with feeds := u.feeds.map fun x => if x = f then g else x }
    | none => { u with feeds := u.feeds.filter (· != f) }

/-- The run-ahead prefetches of a feed: blocks of H in the context's view are brought into the partition's cache
slices, others dropped (R130). -/
def State.runAhead (s : State) (p ctx src n : Nat) : State :=
  (List.range n).foldl (fun (t : State) i =>
    match t.view ctx (src + 4096 * i) 4096 false [1] with
    | .extent e rel => (t.llmPrefetch p (Extent_phys e rel / 4096)).1
    | _ => t) s

/-- STREAM_ACCESS_RESUME (R126): the feeds and accesses that wait on a stream proceed while there is room or data. -/
def execStreamAccessResume (i : Fin 1024) (s : State) : Host.Outcome State Fault Refusal :=
  .next (if s.live then
      let t := (s.feeds.filter fun f => f.stream == i.val).foldl (fun (t : State) f => t.feedResume f) s
      (t.waits.filter fun w => w.stream == i.val).foldl (fun (t : State) w => t.streamResume w) t
    else s)

/-- The watchdog of a partition in microseconds. -/
def State.watchdog (s : State) (p : Nat) : Nat :=
  if s.get (HUB_PART_RUN_WATCHDOG p) = 0 then 65536 else s.get (HUB_PART_RUN_WATCHDOG p)

/-- STREAM_WATCHDOG_EXPIRE (R126): the first access that has waited on a stream for WATCHDOG ends with TIMEOUT and
event 0x7106. -/
def execStreamWatchdogExpire (i : Fin 1024) (s : State) : Host.Outcome State Fault Refusal :=
  .next (if s.live then
      match s.stream i.val, s.waits.find? fun w => w.stream == i.val with
      | some d, some w =>
        if s.now < w.since + s.watchdog d.part * 1000 then s
        else ({ s with waits := s.waits.filter (· != w) }.endIssued w.tile w.n .timeout).evLim 0x7106 i.val 0 0 i.val
          (if w.load then 1 else 0)
      | _, _ => s
    else s)

/-! ## Work-list entries (R119 to R122) -/

/-- KIND. -/
def weKind (e : Entry) : Nat := Entry_bits e 0 63 56
/-- SEQ. -/
def weSeq (e : Entry) : Nat := Entry_bits e 1 47 0
/-- STEP. -/
def weStep (e : Entry) : Nat := Entry_bits e 2 63 32
/-- EVAL. -/
def weEval (e : Entry) : Bool := Entry_bits e 0 47 47 == 1
/-- CONTEXT. -/
def weCtx (e : Entry) : Nat := Entry_bits e 0 43 32
/-- TILE. -/
def weTile (e : Entry) : Nat := Entry_bits e 0 7 0

/-- The defined bits of an entry's words, by kind (log 26). -/
def weMasks (kind : Nat) : List Nat :=
  let all := 2 ^ 64 - 1
  [0xFFF0CFFFFFFF00FF, 0xFFFFFFFFFFFF, 0xFFFFFFFFF0000000, 0xFFFFFFFFFFFF, 0x7FFFFF0000FFFF,
    if kind = 2 then 0xFFFFFFFF else all, 0xFFF00000FFFFFFFF, all]

/-- The reserved tiles of a partition (R225, R226). -/
def State.reservedTile (s : State) (p l : Nat) : Bool :=
  (List.range 4).any fun q => s.get (ORR_PART_CFG_VALID q p) == 1 &&
    decide (s.get (ORR_PART_CFG_TILE_FIRST q p) ≤ l) &&
    decide (l < s.get (ORR_PART_CFG_TILE_FIRST q p) + s.get (ORR_PART_CFG_TILE_COUNT q p))

/-- A feed names a feed stream of its tile, 1 to DEPTH blocks and an aligned source of tier L or H (R119; log 26). -/
def State.feedGood (s : State) (p : Nat) (e : Entry) : Bool :=
  let n := Entry_bits e 6 31 0
  let src := Entry_bits e 7 63 0
  (match s.stream (Entry_bits e 6 63 52) with
    | some d => d.part == p && d.feed && d.consumer == weTile e && decide (1 ≤ n) && decide (n ≤ d.depth)
    | none => false) && src % 4096 == 0 && decide (tierOf src ≤ 1)

/-- The rule of R122 that an entry at the head of a list breaks: none, a refusal, or a refusal that also counts one
violation. -/
def State.entryBad (s : State) (p w : Nat) (e : Entry) : Option Bool :=
  let k := weKind e
  let off := Entry_bits e 4 54 32
  let n := (Entry_bits e 4 15 0 + 1) * 64
  let src := Entry_bits e 5 63 0
  if k < 1 ∨ 3 < k ∨ Entry_bits e 0 55 52 ≠ 1 ∨ !reservedZero e (weMasks k) ∨ weSeq e ≠ s.get (HUB_WL_SEQ_NEXT_SEQ p w) ∨
      (k = 2 ∧ Entry_bits e 4 1 0 = 3) ∨
      (k = 1 ∧ (off % 64 ≠ 0 ∨ 0x600000 < off + n ∨ (src ≠ 0 ∧ (src % 4096 ≠ 0 ∨ off % 4096 ≠ 0)))) ∨
      (k = 1 ∧ Entry_bits e 0 46 46 = 1 ∧ !s.feedGood p e) then some false
  else if (k = 1 ∧ s.tilePart (weTile e) ≠ some p) ∨ s.get (CTX_STATE (weCtx e)) ≠ 1 ∨
      s.get (CTX_PARTITION (weCtx e)) ≠ p then some true
  else if k = 1 ∧ s.reservedTile p (weTile e) then some false
  else none

/-- `a` is at or before `b`, modulo 2^32 (R102, R121). -/
def stepLe (a b : Nat) : Bool := decide ((b + 2 ^ 32 - a) % 2 ^ 32 < 2 ^ 31)

/-- COMMITTED_STEP of a partition. -/
def State.committed (s : State) (p : Nat) : Nat := s.get (HUB_PART_RUN_COMMITTED_STEP p)

/-- The step gate: none where it waits, else whether the entry is cancelled (R121). -/
def gate (c step : Nat) (eval : Bool) : Option Bool :=
  if eval then (if step = c then some false else if stepLe step c then some true else none)
  else if stepLe step c then some true
  else if step = (c + 1) % 2 ^ 32 then some false else none

/-- The list dispatches an entry of a step: Running, or Held with the step not after the last that its drain lets
finish (R57, R120, R121). -/
def State.listRuns (s : State) (p w step : Nat) : Bool :=
  let q := QueueId.workList p w
  s.live && s.get (qEn q) == 1 && s.cqReady q && s.get (HUB_PART_CFG_FENCED p) == 0 && s.get FW_STATUS_DRAINING == 0 &&
  (s.get (qState q) == 1 || (s.get (qState q) == 3 && match s.cfg.armed with
    | some a => (a.lastStep.find? fun x => x.1 == p).any fun x => stepLe step x.2
    | none => true))

/-- The head entry of a list consumed: HEAD and NEXT_SEQ advance. -/
def State.consume (s : State) (p w : Nat) : State :=
  (s.advance (.workList p w) 1).put (HUB_WL_SEQ_NEXT_SEQ p w) (s.get (HUB_WL_SEQ_NEXT_SEQ p w) + 1)

/-- An entry in flight. -/
def State.isInflight (s : State) (p w seq : Nat) : Bool := (s.wlist p w).inflight.any fun i => i.seq == seq

/-- The first entries of a list that are NOTIFY entries complete (R119). -/
def State.notifyHeads : Nat → State → Nat → Nat → State
  | 0, s, _, _ => s
  | f + 1, s, p, w =>
    let l := s.wlist p w
    match l.inflight with
    | [] => s
    | i :: rest =>
      if l.later.any fun x => x.seq == i.seq && x.scope == 3 then
        State.notifyHeads f ((s.setWlist p w ⟨rest, l.later.filter fun x => x.seq != i.seq⟩).complete (.workList p w) i.seq
          i.step .done 0 0) p w
      else s

/-- An entry of a list completes with a status and result words (R122, R330); NOTIFY entries that waited for it
follow. -/
def State.completeEntry (s : State) (p w seq : Nat) (st : Status) (r0 : Nat) : State :=
  let l := s.wlist p w
  match l.inflight.find? fun i => i.seq == seq with
  | none => s
  | some i =>
    let t := s.setWlist p w ⟨l.inflight.filter fun x => x.seq != seq, l.later.filter fun x => x.seq != seq⟩
    State.notifyHeads (l.later.length + 1) (t.complete (.workList p w) seq i.step st r0 0) p w

/-- The entry at a list's head of kind `kind` passes conditions 1 to 4 of R120 in order: a refused or cancelled one
completes at once; else `body` goes on with it. -/
def State.wlHead (s : State) (p w kind : Nat) (body : Entry → State) : State :=
  let q := QueueId.workList p w
  if !s.ringHas q then s
  else match s.ringEntry q with
    | none =>
      if s.listRuns p w (s.committed p) then
        let seq := s.get (HUB_WL_SEQ_NEXT_SEQ p w)
        ((s.violate (s.owner q) 0x2101 seq (s.get (qBase q))).consume p w).complete q seq 0 .refusedPartition 0 0
      else s
    | some e =>
      if !s.listRuns p w (weStep e) then s
      else match s.entryBad p w e with
        | some v =>
          let t := if v then s.violate (s.owner q) 0x2101 (weSeq e) (weTile e) else s
          (t.consume p w).complete q (weSeq e) (weStep e) .refusedPartition 0 0
        | none =>
          let d := Entry_bits e 2 30 28
          let dep := Entry_bits e 3 47 0
          if weKind e ≠ kind then s
          else if Entry_bits e 2 31 31 = 1 ∧ (s.get (HUB_WL_SEQ_NEXT_SEQ p d) ≤ dep ∨ s.isInflight p d dep) then s
          else match gate (s.committed p) (weStep e) (weEval e) with
            | none => s
            | some true => (s.consume p w).complete q (weSeq e) (weStep e) .cancelled 0 0
            | some false => body e

/-- An entry dispatched: HEAD and NEXT_SEQ advance, and it is in flight. -/
def State.dispatch (s : State) (p w : Nat) (e : Entry) : State :=
  let t := s.consume p w
  let l := t.wlist p w
  t.setWlist p w { l with inflight := l.inflight ++ [⟨weSeq e, weStep e, weEval e⟩] }

/-! ## RUN (R120, R123, R130, R373) -/

/-- The feed of the head entry started: its run-ahead prefetches go out, and its blocks move while there is room; a
range outside the view is refused with one violation. -/
def State.startFeed (s : State) (p w : Nat) (e : Entry) : Option State :=
  let i := Entry_bits e 6 63 52
  let n := Entry_bits e 6 31 0
  let src := Entry_bits e 7 63 0
  match s.view (weCtx e) src (4096 * n) false [0, 1], s.stream i with
  | .extent _ _, some d =>
    let f : Feed := ⟨p, w, weSeq e, weCtx e, i, src, n⟩
    let t := { s with feeds := s.feeds ++ [f] }
    some ((t.runAhead p (weCtx e) (src + 4096 * n) d.runahead).feedResume f)
  | _, _ => none

/-- The feed of an entry has started. -/
def State.feedStarted (s : State) (p w seq : Nat) (i : Nat) : Bool :=
  (s.feeds.any fun f => f.part == p && f.list == w && f.seq == seq) || s.recorded.contains (0x7130 + i, seq * 1024 + p * 8 + w)

/-- The mark that the feed of an entry has started, kept until the entry completes. -/
def State.markFeed (s : State) (p w seq i : Nat) : State :=
  { s with recorded := (0x7130 + i, seq * 1024 + p * 8 + w) :: s.recorded }

/-- The mark of a feed removed. -/
def State.unmarkFeed (s : State) (p w seq : Nat) : State :=
  { s with recorded := s.recorded.filter fun x => !(decide (0x7130 ≤ x.1) && decide (x.1 < 0x7530) &&
      x.2 == seq * 1024 + p * 8 + w) }

/-- The head entry refused for its feed's range: one violation of its context (R47). -/
def State.refuseFeed (s : State) (p w : Nat) (e : Entry) : State :=
  ((s.violate (weCtx e) 0x2101 (weSeq e) (Entry_bits e 7 63 0)).consume p w).complete (.workList p w) (weSeq e)
    (weStep e) .refusedPartition 0 0

/-- FEED_START (R130): the feed of a RUN entry at the head starts once conditions 1 to 4 of R120 hold. -/
def execFeedStart (p : Fin 128) (l : Fin 8) (s : State) : Host.Outcome State Fault Refusal :=
  .next (s.wlHead p.val l.val 1 fun e =>
    let i := Entry_bits e 6 63 52
    if Entry_bits e 0 46 46 = 0 ∨ s.feedStarted p.val l.val (weSeq e) i then s
    else match s.startFeed p.val l.val e with
      | some t => t.markFeed p.val l.val (weSeq e) i
      | none => s.refuseFeed p.val l.val e)

/-- The program blocks of an entry moved into the slots from PROG_OFF, each with its CRC checked (R123): the state and
the status of a load that failed, with whether a refetch was needed. -/
def State.loadProgram (s : State) (t : Nat) (e : Entry) (ext : Extent) (rel : Nat) : State × Option Status :=
  let n := ceilDiv ((Entry_bits e 4 15 0 + 1) * 64) 4096
  let slot := Entry_bits e 4 54 32 / 4096
  (List.range n).foldl (fun (a : State × Option Status) j =>
    match a.2 with
    | some _ => a
    | none =>
      let x := Extent_phys ext (rel + 4096 * j)
      let sp := tierSpace ext.tier
      let u := if ext.tier = 1 then a.1.llmAccess (a.1.tileCtx t).part (x / 4096) false true else a.1
      let (v, r) := u.checkArrival t (slot + j) (u.sealOf sp x) (u.block sp x) none false false
      match r with
      | .ok _ => (v.setBlock .ls (lsAddr t (4096 * (slot + j))) (v.block sp x) (v.sealOf sp x), none)
      | .stop st => (v, some st)) (s, none)

/-- The dispatch of a RUN entry to its idle tile: the record is written, the counters of SIG_RESET are zeroed, the
program is loaded, and the tile runs. -/
def State.startRun (s : State) (p w : Nat) (e : Entry) (t : Nat) : State :=
  let off := Entry_bits e 4 54 32
  let q := quadOfTile t
  let a := s.dispatch p w e
  let r : JRec := ⟨q, p, w, weSeq e, e, t, 1, 0, [], none, [], 0, 0, 0, [], [], s.get (TILE_STATUS_GENERATION t), s.now,
    weStep e, weEval e, false, [], false, 0, none⟩
  let a := a.addRec r
  let a := (List.range 16).foldl (fun (u : State) c =>
    if bitAt (Entry_bits e 0 31 16) c then u.put (TILE_SIGNAL_COUNT t c) 0 else u) a
  let a := a.setTile t (Tile_start (a.tile t) ⟨p, w, weSeq e, e, weCtx e, weStep e, weEval e, false, false⟩ 0 0)
  let a := ((a.put (TILE_STATUS_STATE t) 1).put (TILE_PC_ENTRY t) (weSeq e)).put (TILE_PC_PC t) off
  let stop (u : State) (st : Status) : State :=
    (u.setTile t { u.tile t with finished := some st }).put (TILE_STATUS_STATE t) 2
  let src := Entry_bits e 5 63 0
  if src = 0 then a
  else match a.view (weCtx e) src (4096 * ceilDiv ((Entry_bits e 4 15 0 + 1) * 64) 4096) false [0, 1] with
    | .extent x rel =>
      let (b, st) := a.loadProgram t e x rel
      match st with
      | some st => stop b st
      | none => b
    | .refuse c => stop (a.violate (weCtx e) c (weSeq e) src) .refusedPartition
    | .outside _ _ => stop a .refusedPartition

/-- A program source lies on a stack that serves, so that its load can run. -/
def State.sourceServes (s : State) (e : Entry) : Bool :=
  let src := Entry_bits e 5 63 0
  src == 0 || match s.view (weCtx e) src 4096 false [0, 1] with
    | .extent x rel => s.serves x.tier (Extent_phys x rel)
    | _ => true

/-- RUN (R120): the entry at the head dispatches to its tile once its conditions hold; while the journal has no free
record the wait is counted once (R374). -/
def execRun (pp : Fin 128) (ll : Fin 8) (s : State) : Host.Outcome State Fault Refusal :=
  .next (
    let p := pp.val
    let w := ll.val
    s.wlHead p w 1 fun e =>
      let t := s.physOf (weTile e)
      let q := quadOfTile t
      let i := Entry_bits e 6 63 52
      if 65536 ≤ s.get (QD_JOURNAL_STATUS_RECORDS q) then s.inc (QD_JOURNAL_COUNT_WAITS q) 1
      else if s.get (TILE_STATUS_STATE t) ≠ 0 ∨ s.flt.draining.contains (10, q) ∨ !s.sourceServes e then s
      else if Entry_bits e 0 46 46 = 1 ∧ !s.feedStarted p w (weSeq e) i then
        match s.startFeed p w e with
        | some u => (u.markFeed p w (weSeq e) i).startRun p w e t
        | none => s.refuseFeed p w e
      else s.startRun p w e t)

/-- NOTIFY (R119): the entry completes when every earlier entry of its list has completed. -/
def execNotify (p : Fin 128) (l : Fin 8) (s : State) : Host.Outcome State Fault Refusal :=
  .next (s.wlHead p.val l.val 3 fun e =>
    let t := s.dispatch p.val l.val e
    let x := t.wlist p.val l.val
    State.notifyHeads (x.inflight.length + 1) (t.setWlist p.val l.val { x with later := x.later ++ [⟨weSeq e, 3, 0⟩] })
      p.val l.val)

/-! ## The Meridian barriers (R132 to R138) -/

/-- The barrier of a partition and scope, empty before its first arrival. -/
def State.barrier (s : State) (p sc : Nat) : Barrier :=
  (s.barriers.find? fun b => b.part == p && b.scope == sc).getD
    ⟨p, sc, 0, 0, 0, [], [], 0, 0xFF, none, 0, 0, false, none, [], [], 0, []⟩

/-- A barrier replaced. -/
def State.setBarrier (s : State) (b : Barrier) : State :=
  { s with barriers := (s.barriers.filter fun x => !(x.part == b.part && x.scope == b.scope)) ++ [b] }

/-- The participant that an arrival belongs to: a list, whatever the entry. -/
def party : Arriver → Arriver
  | .entry p w _ => .entry p w 0
  | a => a

/-- The Halo engines that join a partition's barriers: those with an enabled queue pair of it (R209; log 29). -/
def State.haloJoins (s : State) (p k : Nat) : Bool :=
  (List.range 32).any fun qp => s.get (HALO_QP_CFG_VALID k qp) == 1 && s.get (HALO_QP_CFG_PARTITION k qp) == p &&
    s.get (qEn (.haloQp k qp)) == 1

/-- The arrivals of an Orrery at a partition's check barrier: one for its queue pair and one for each reserved tile
(R240; log 29). -/
def State.orrJoins (s : State) (p q : Nat) : Nat :=
  if s.get (ORR_PART_CFG_VALID q p) = 1 ∧ s.get (qEn (.orrQp q (s.get (ORR_PART_CFG_QP q p)))) = 1 then
    1 + s.get (ORR_PART_CFG_TILE_COUNT q p) else 0

/-- The expected count of a barrier that opens now (R134, R226, R240). -/
def State.expected (s : State) (p sc : Nat) : Nat :=
  let given := if sc = 0 then s.get (HUB_MER_CTL_EXPECT_PART p) else s.get (HUB_MER_CTL_EXPECT_MOD p)
  let tiles := ((s.partTiles p).filter fun l => s.tileEnabled l && !s.reservedTile p l).length
  let lists := ((List.range 8).filter fun w => s.get (qEn (.workList p w)) == 1).length
  let halos := ((List.range 12).filter fun k => s.haloJoins p k).length
  let orrs := (List.range 4).foldl (fun n q => n + s.orrJoins p q) 0
  max 1 (if given ≠ 0 then given else if sc = 0 then tiles else if sc = 1 then lists + halos else lists + halos + orrs)

/-- An arrival counted in a barrier's payload (R135). -/
def Barrier_take (b : Barrier) (a : Arriver) (o n : Nat) (tag : Option Nat) : Barrier :=
  let bad := match tag, b.tag with
    | some x, some y => x != y
    | _, _ => false
  { b with
    arrived := b.arrived ++ [a]
    orV := (b.orV ||| o % 256) ||| (if bad then 0x80 else 0)
    andV := if bad then 0 else b.andV &&& n % 256
    tag := match b.tag with
      | some y => some y
      | none => tag
    counts := (party a, b.number + 1) :: b.counts.filter fun c => c.1 != party a }

/-- The kinds of MERIDIAN packets and their 24-byte payload (log 25): 0 arrival, 1 release, 2 DIM token, 3 arrival with a
commit vote. -/
def merPayload (kind part o n number : Nat) (tag : Option Nat) (tRel : Nat) : List Byte :=
  bytesLE 1 kind ++ bytesLE 1 part ++ bytesLE 1 o ++ bytesLE 1 n ++ bytesLE 4 number ++
    bytesLE 4 (if tag.isSome then 1 else 0) ++ bytesLE 4 (tag.getD 0) ++ bytesLE 8 tRel

/-- A MERIDIAN packet sent on a port to its peer at C0. -/
def State.sendMer (s : State) (port : Nat) (dim : Bool) (payload : List Byte) : State :=
  s.sendC0On port {
    ty := 0x0A, cls := 0, dim := dim, srcModule := s.self, payload := payload
    dstModule := s.get (SL_STATUS_PEER_MODULE port) }

/-- The ports of a job register's CHILDREN. -/
def childPorts (job : Nat) : List Nat := (List.range 32).filter fun i => bitAt (bitsOf 63 32 job) i

/-- The barrier tag of the check barrier of a partition's step in progress (R240). -/
def State.checkTag (s : State) (p : Nat) : Nat := (s.committed p + 1) % 2 ^ 32

/-- The OR bits that a module's arrival at the check barrier adds (R240). -/
def State.checkOr (s : State) (p : Nat) : Nat :=
  s.get (HUB_PART_COMMIT_NONFINITE p) + 2 * s.get (HUB_PART_COMMIT_SUSPECT p) +
    (if (s.commit p).skips = [] then 0 else 8)

/-- The local arrivals of a barrier are complete. -/
def Barrier_local (b : Barrier) : Bool :=
  let n := (b.arrived.filter fun a => match a with
    | .child _ => false
    | _ => true).length
  decide (b.expect ≤ n) || b.arrived.contains .module

/-- A job-scope barrier carries the vote of a configuration commit: the module itself has arrived at it outside the verdict
phase (R58). -/
def State.isVote (s : State) (b : Barrier) : Bool := b.arrived.contains .module && !(s.commit b.part).verdict

/-- A job-scope barrier whose local and child arrivals are complete: the root fixes T_rel and sends it down, another
module sends its arrival up (R136). -/
def State.climb (s : State) (b : Barrier) : State :=
  if b.sentUp ∨ !Barrier_local b ∨ !((childPorts b.job).all fun i => b.arrived.contains (.child i)) then s.setBarrier b
  else
    let b := { b with
      sentUp := true
      orV := if b.tag = some (s.checkTag b.part) then b.orV ||| s.checkOr b.part else b.orV }
    if bitsOf 31 31 b.job = 1 then
      let tRel := s.now + bitsOf 15 0 b.job
      (childPorts b.job).foldl (fun (t : State) i =>
        t.sendMer i false (merPayload 1 b.part b.orV b.andV b.number b.tag tRel)) (s.setBarrier { b with tRel := some tRel })
    else (s.setBarrier b).sendMer (bitsOf 28 24 b.job) false
      (merPayload (if s.isVote b then 3 else 0) b.part b.orV b.andV b.number b.tag 0)

/-- A participant resumes after a barrier's end, with the status and the payload of the release (R135 to R137). -/
def State.resumeArriver (s : State) (st : Status) (o n tag : Nat) : Arriver → State
  | .tile l => s.endWait (s.physOf l) st
  | .entry p w seq => s.completeEntry p w seq st (o + n * 256 + tag * 2 ^ 32)
  | _ => s

/-- A barrier closed: the next one collects, its early arrivals still to be counted. -/
def Barrier_close (b : Barrier) : Barrier :=
  { b with
    number := b.number + 1, arrived := [], next := [], orV := 0, andV := 0xFF, tag := none, first := 0, ext := 0
    sentUp := false, tRel := none, dims := [] }

/-- An arrival taken by the barrier that it belongs to: the k-th of a participant goes to barrier k, an early one
waits, and one of an abandoned barrier ends with TIMEOUT (R134, R137).  Partition and module barriers that become
complete are closed and answered with what they release. -/
def State.join (s : State) (p sc : Nat) (a : Arriver) (o n : Nat) (tag : Option Nat) : State × Option Barrier :=
  let b := s.barrier p sc
  let who := party a
  let known := b.counts.find? fun c => c.1 == who
  let local_ : Bool := match a with
    | .child _ => false
    | .module => false
    | _ => true
  let late (k : Nat) : Bool := decide (k < b.number) && b.gone.any fun g => decide (k ≤ g)
  let k := match known with
    | some c => c.2
    | none => b.number
  let timeout (b : Barrier) (k : Nat) : State × Option Barrier :=
    ((s.setBarrier { b with counts := (who, k) :: b.counts.filter fun c => c.1 != who }).resumeArriver .timeout 0 0 0 a, none)
  if known.isNone && local_ && decide (0 < b.missed) then timeout { b with missed := b.missed - 1 } b.number
  else if local_ && late k then timeout b ((b.gone.foldl (fun m g => max m (g + 1)) k))
  else if b.number < k ∨ b.sentUp ∨ (b.tRel).isSome then (s.setBarrier { b with next := b.next ++ [(a, o, n, tag)] }, none)
  else
    let b := if b.arrived = [] then
        { b with expect := s.expected p sc, job := s.rd (HUB_MER_JOB_LEAD p).off, first := s.now } else b
    let b := Barrier_take b a o n tag
    if sc = 2 then (s.climb b, none)
    else if Barrier_local b then (s.setBarrier (Barrier_close b), some b)
    else (s.setBarrier b, none)

/-- The participants of a finished barrier resume, and the arrivals that waited for the next one are counted in it. -/
def State.finishBarrier (s : State) (b : Barrier) (st : Status) : State :=
  let t := b.arrived.foldl (fun (t : State) a => t.resumeArriver st b.orV b.andV (b.tag.getD 0) a) s
  b.next.foldl (fun (t : State) x => (t.join b.part b.scope x.1 x.2.1 x.2.2.1 x.2.2.2).1) t

/-- An arrival, with the release of a partition or module barrier that it completes (R136). -/
def State.arrive (s : State) (p sc : Nat) (a : Arriver) (o n : Nat) (tag : Option Nat) : State :=
  match s.join p sc a o n tag with
  | (t, some b) => t.finishBarrier b .done
  | (t, none) => t

/-- The Halo engines that join arrive at a module barrier of the partition with the first of its other participants
(R209; log 29). -/
def State.haloArrive (s : State) (p sc : Nat) : State :=
  if sc = 1 ∧ (s.barrier p 1).arrived = [] then
    (List.range 12).foldl (fun (t : State) k => if t.haloJoins p k then t.arrive p 1 (.halo k) 0 0xFF none else t) s
  else s

/-- Dispatched evaluation work of a partition that has not completed, but one entry (R322). -/
def State.evalRunning (s : State) (p : Nat) : Bool :=
  ((List.range 8).any fun w => (s.wlist p w).inflight.any fun i => i.eval) ||
  (s.haloOps.any fun o => s.get (HALO_QP_CFG_PARTITION o.engine o.qp) == p && Entry_bits o.words 0 49 49 == 1) ||
  s.coll.ops.any fun o => s.get (COLL_CH_CFG_PARTITION o.quad o.ch) == p &&
    Entry_bits (o.words.headD 0) 0 49 49 == 1

/-- The MERIDIAN entries of a partition that waited for evaluation work arrive, in the order of their list. -/
def State.arriveLater (s : State) (p : Nat) : State :=
  (List.range 8).foldl (fun (t : State) w =>
    ((t.wlist p w).later.filter fun x => x.scope != 3).foldl (fun (t : State) x =>
      if x.scope = 2 ∧ x.tag = t.checkTag p ∧ t.evalRunning p then t
      else if ((t.wlist p w).later.find? fun y => y.scope == x.scope) ≠ some x then t
      else
        let l := t.wlist p w
        (t.setWlist p w { l with later := l.later.filter (· != x) }).arrive p x.scope (.entry p w x.seq) 0 0xFF (some x.tag))
      t) s

/-- MERIDIAN (R135, R240, R322): the entry dispatches and arrives at the barrier of its scope with its TAG; at the
check barrier only once the dispatched evaluation work has completed. -/
def execMeridian (p : Fin 128) (l : Fin 8) (s : State) : Host.Outcome State Fault Refusal :=
  .next (s.wlHead p.val l.val 2 fun e =>
    let t := s.dispatch p.val l.val e
    let x := t.wlist p.val l.val
    let sc := Entry_bits e 4 1 0
    let t := t.setWlist p.val l.val { x with later := x.later ++ [⟨weSeq e, sc, Entry_bits e 5 31 0⟩] }
    (t.haloArrive p.val sc).arriveLater p.val)

/-- BARRIER (R101, R134): the tile arrives with a neutral payload and waits; a replay does not arrive again, and waits
only while its arrival is still counted in an open barrier (R113). -/
def execBarrier (t : Fin 272) (w : Entry) (s : State) : Host.Outcome State Fault Refusal :=
  .next (s.macroOp t.val 0x05 w (fun v => if Entry_bits v 0 1 0 = 3 then some 0x08 else none) (fun _ => [])
    (fun _ => 0) fun u v _ =>
      let sc := Entry_bits v 0 1 0
      let l := u.get (TILE_STATUS_LOGICAL_ID t.val)
      let p := (u.tileCtx t.val).part
      let x := u.tile t.val
      let again := x.delivered < x.skipDeliveries
      let open_ := (u.barrier p sc).arrived.contains (.tile l)
      let a := u.issueOp t.val v .done (!again || open_) 0 qcount0 []
      (a.deliverOnce t.val fun b => (b.haloArrive p sc).arrive p sc (.tile l) 0 0xFF none).arriveLater p)

/-! ## Completion of RUN entries (R122, R126, R128, R374 to R376) -/

/-- The OUTPUT_DIGEST of an entry: the seals of the slots it wrote, in ascending slot order, then of the blocks it
sent (R373). -/
def State.outputDigest (s : State) (t : Nat) (r : JRec) : Nat :=
  let slots := (List.range 1536).filter fun j => (s.tile t).written.contains j
  (crc32c ((slots.flatMap fun j => sealBytes (s.sealOf .ls (lsAddr t (4096 * j)))) ++ r.outSeals)).toNat

/-- The inputs of a replay differ from those that the interrupted run had read (R376). -/
def inputChanged (r : JRec) : Bool :=
  match r.firstIn with
  | some f => f != r.inSeals.take f.length
  | none => false

/-- The journal's part of an entry's completion: its digest, its pre-images freed unless it is pinned, and the record
of evaluation work freed (R374, R375). -/
def State.closeRec (s : State) (t : Nat) (r : JRec) : State :=
  if r.eval ∧ r.state ≠ 4 then s.freeRecs fun x => x.part == r.part && x.list == r.list && x.seq == r.seq
  else
    (s.mapRec r.part r.list r.seq fun x =>
      { x with
        outDigest := s.outputDigest t r
        state := if x.state = 4 then 4 else 2
        pre := if x.state = 4 then x.pre else [] }).journalUse r.quad

/-- The streams at the ends of a finished tile: what it consumed is freed, a failure stops those at either end, and a
Stopped stream without a running entry is reset (R126, R128). -/
def State.closeStreams (s : State) (p l : Nat) (st : Status) : State :=
  let ins := s.consumes p l
  let outs := s.produces p l
  let t := ins.foldl (fun (t : State) i => t.put (HUB_STREAM_CNT_FREED i) (t.get (HUB_STREAM_CNT_CONSUMED i))) s
  let t := if Status_ok st then t else (ins ++ outs).foldl (fun (t : State) i => t.stopStream i) t
  (ins ++ outs).foldl (fun (t : State) i => t.settleStream i) t

/-- A finished RUN entry on a tile completes. -/
def State.finishRun (s : State) (p w seq t : Nat) (st : Status) : State :=
  let l := s.get (TILE_STATUS_LOGICAL_ID t)
  let st : Status := match s.jrec p w seq with
    | some r => if Status_ok st ∧ r.replays ≠ 0 ∧ inputChanged r then .sealMismatch else st
    | none => st
  let a := match s.jrec p w seq with
    | some r =>
      let u := s.closeRec t r
      if st = Status.doneCorrected then
        (u.inc (HUB_PART_TIMING_REPLAYS p) 1).inc (QD_JOURNAL_COUNT_REPLAYS r.quad) (if r.replays = 0 then 0 else 1)
      else u
    | none => s
  let x := a.tile t
  let a := a.setTile t { x with entry := none, loop := none, wait := none, failed := none, ended := false, finished := none }
  let a := (a.put (TILE_STATUS_STATE t) 0).put (TILE_STATUS_LAST_STATUS t) (statusCode st)
  let a := ((a.cancelFeeds fun f => !(f.part == p && f.list == w && f.seq == seq)).unmarkFeed p w seq)
  ((a.closeStreams p l st).completeEntry p w seq st 0).arriveLater p

/-- ENTRY_COMPLETE (R122): a RUN entry whose program has finished completes; the completion waits while its control
core restarts (R380); an entry whose tile was lost without a spare ends with LOST_GENERATION (log 28). -/
def execEntryComplete (p : Fin 128) (l : Fin 8) (seq : Nat) (s : State) : Host.Outcome State Fault Refusal :=
  .next (if s.live && s.isInflight p.val l.val seq then
      match s.tiles.find? fun kv => kv.2.entry.any fun e => e.part == p.val && e.list == l.val && e.seq == seq with
      | some kv => match kv.2.finished with
        | some st =>
          if s.flt.draining.contains (10, quadOfTile kv.1) then s else s.finishRun p.val l.val seq kv.1 st
        | none => s
      | none => match s.jrec p.val l.val seq with
        | some r =>
          if r.state = 1 ∨ r.state = 3 then
            ((s.cancelFeeds fun f => !(f.part == p.val && f.list == l.val && f.seq == seq)).completeEntry p.val l.val seq
              .lostGeneration 0).arriveLater p.val
          else s
        | none => s
    else s)

/-! ## Pace (R139 to R142) -/

/-- PACE_SET_WRITE (R140): clamped to 16 to 384; a clamped write is recorded at the next group boundary. -/
def execPaceSetWrite (path : Path) (v : Nat) (s : State) : Host.Outcome State Fault Refusal :=
  .next (s.ctrl (.paceSetWrite path v) (ctrlPath path)
    (let t := s.put HUB_PACE_CFG_PACE_SET (clampTo 16 384 v)
     if clampTo 16 384 v = v then t else { t with pace := { t.pace with clamped := true } }))

/-- The pace that takes effect at a boundary, with its limiter: the lower of PACE_SET and the power controller's cap
(R140). -/
def State.paceNext (s : State) : Nat × Nat :=
  let set := s.get HUB_PACE_CFG_PACE_SET
  if s.pwr.engaged ∧ s.pwr.cap < set then (s.pwr.cap, s.pwr.limiter)
  else (set, if set < 384 then 1 else 0)

/-- PACE_GROUP_BOUNDARY (R139, R140): `groups` groups of 16 PACE_REF cycles end; the beats that were not held are
counted, the time counter advances, and at the boundary a new pace takes effect with one record of 0x7102.  BEAT and the pace stand still while the module
is frozen, in A3, A4 or forced Nadir, or without PACE_REF, whose missing slots are held (R393, R432). -/
def execPaceGroupBoundary (groups : Nat) (s : State) : Host.Outcome State Fault Refusal :=
  .next (if s.on then
      let old := s.get HUB_PACE_STATUS_PACE_NOW
      let dt := 160 * groups
      let frac := s.eph.opFrac + dt
      let t := s.put HUB_TIME_TIME (s.now + dt)
      let t := { t with eph := { t.eph with opFrac := frac % 62500000 } }.put EPH_TIME_OP_TIME
        (s.get EPH_TIME_OP_TIME + frac / 62500000)
      if s.frozen ∨ s.get PWR_STATUS_FORCED = 1 ∨ 3 ≤ s.get PWR_STATUS_STATE then t
      else if !s.pace.refPresent then t.put HUB_HELD_HELD (s.get HUB_HELD_HELD + old * groups)
      else
        let held := min s.pace.groupHeld (old * groups)
        let t := t.put HUB_BEAT_BEAT (s.get HUB_BEAT_BEAT + (old * groups - held))
        let (new, lim) := s.paceNext
        let clamped := s.pace.clamped
        let t := { t with pace := { t.pace with groupHeld := s.pace.groupHeld - held, clamped := false } }
        let t := (t.put HUB_PACE_STATUS_PACE_NOW new).put HUB_PACE_STATUS_LIMITER lim
        if clamped then t.evLim3 0x7102 0 0 0 old new (1 + 2 ^ 31)
        else if new ≠ old then t.evLim3 0x7102 0 0 0 old new lim else t
    else s)

/-- DROOP_TRIP (R141): tokens are withheld across the module, unless the detector is masked (R403). -/
def execDroopTrip (d : Fin 1088) (s : State) : Host.Outcome State Fault Refusal :=
  .next (if s.on && !s.pwr.masked.contains d.val then
      { s with
        pace := { s.pace with drooping := true }
        pwr := { s.pwr with tripped := d.val :: s.pwr.tripped.filter (· != d.val), lastDet := d.val } }
    else s)

/-- A contiguous run of held beats recorded with its detector: the longest of those folded and their count (R141, R145). -/
def State.stretchEvent (s : State) (slots det : Nat) : State :=
  match findLimit s.eph.limits 0x7101 0 with
  | some e =>
    let most := if e.folded = 0 then slots else max e.first slots
    if s.now < e.last + ms10 then
      { s with eph := { s.eph with limits := setLimit s.eph.limits ⟨0x7101, 0, e.last, e.folded + 1, most⟩ } }
    else
      { s with eph := { s.eph with limits := setLimit s.eph.limits ⟨0x7101, 0, s.now, 0, 0⟩ } }.ev 0x7101 0 0 most det
        (e.folded + 1)
  | none =>
    { s with eph := { s.eph with limits := setLimit s.eph.limits ⟨0x7101, 0, s.now, 0, 0⟩ } }.ev 0x7101 0 0 slots det 1

/-- DROOP_CLEAR (R141): every detector has been clear for 4 beat slots, and tokens resume after `slots` held ones,
which count in HELD and as one stretch. -/
def execDroopClear (slots : Nat) (s : State) : Host.Outcome State Fault Refusal :=
  .next (if s.on && s.pace.drooping then
      let t := { s with
        pace := { s.pace with drooping := false, groupHeld := s.pace.groupHeld + slots }
        pwr := { s.pwr with
          tripped := [], holdBeats := s.pwr.holdBeats + slots } }
      let t := (t.put HUB_HELD_HELD (s.get HUB_HELD_HELD + slots)).inc HUB_PACE_STATUS_STRETCH_COUNT 1
      t.stretchEvent slots s.pwr.lastDet
    else s)

/-- PACE_EPOCH (R142, R281): BEAT becomes 0, and the time counter takes the value that the Lodestar named. -/
def execPaceEpoch (s : State) : Host.Outcome State Fault Refusal :=
  .next (if s.on then
      let t := s.put HUB_BEAT_BEAT 0
      match s.const.epochValue with
      | some v => { t with const := { t.const with epochValue := none } }.put HUB_TIME_TIME v
      | none => t
    else s)

end Sys2Proof.Machine
end

