-- ==== Sys2Proof/Machine/Mover.lean ====
section
/-!
DEFINITION. References to memory of this and other modules (R26 to R32), and the block mover's macro-ops (R101 to R104,
R115, R116, R125, R130, R360, R375, R448).
-/

namespace Sys2Proof.Machine

open Sys2Proof

/-! ## Where a reference leads (R26 to R32) -/

/-- The place of a byte range: physical bytes of a tier of this module, or a context offset on another module. -/
inductive Place where
  | here (tier addr : Nat)
  | there (module tier off : Nat)
  deriving DecidableEq, Repr

/-- The outcome of a reference's check: its place, or the code of its refusal. -/
inductive Ref where
  | at_ (p : Place)
  | refuse (code : Nat)
  deriving DecidableEq, Repr

/-- An address whose tier is L, H or D checked in the context's view. -/
def State.refHere (s : State) (ctx addr len : Nat) (write : Bool) (tiers : List Nat) : Ref :=
  match s.view ctx addr len write tiers with
  | .extent e rel => .at_ (.here e.tier (Extent_phys e rel))
  | .refuse c => .refuse c
  | .outside _ _ => .refuse 0x2102

/-- A reference checked over its whole range: L, H and D through the view, X by R30, on the own module by R32. -/
def State.ref (s : State) (ctx addr len word : Nat) (write : Bool) (tiers remote : List Nat) : Ref :=
  if tierOf addr ≠ 8 ∨ 8 ∉ tiers then s.refHere ctx addr len write (tiers.filter (· != 8))
  else
    let rt := bitsOf 59 56 addr
    if 2 ^ 18 ≤ word ∨ 2 < rt ∨ bitsOf 55 48 addr ≠ 0 then .refuse 0x2103
    else if rt ∉ remote then .refuse 0x2102
    else if word = s.self then s.refHere ctx (rt * 2 ^ 60 + addr % 2 ^ 48) len write remote
    else .at_ (.there word rt (addr % 2 ^ 48))

/-- The place `n` bytes on: through the extent on this module. -/
def Place_plus (p : Place) (n : Nat) : Place :=
  match p with
  | .here t a => .here t (a + n)
  | .there m t o => .there m t (o + n)

/-! ## Checks and pre-images -/

/-- The mover has no adder to check: a residue outcome does not apply to it. -/
def moverChk : TileCheck → TileCheck
  | .residue _ => .pass
  | c => c

/-- The mover runs its macro-ops in program order: one that waits holds the next (R104). -/
def State.moverBusy (s : State) (t : Nat) : Bool := (s.tile t).issued.any fun i => i.unit == 1 && i.waits

/-- A macro-op goes on with the pre-images of its written ranges and of memory blocks saved: it waits while they do
not fit, and completes REFUSED_CAPACITY where the entry's would exceed 8 MiB (R113, R375). -/
def State.withPre (s : State) (t : Nat) (w : Entry) (rs pre : List Reg) (blocks : List (Space × Nat))
    (k : State → State) : State :=
  let e := s.tileCtx t
  match s.preSlots t pre with
  | none => s.issueDone t w .refusedCapacity rs
  | some u => match u.savePre e.part e.list e.seq blocks with
    | none => s.issueDone t w .refusedCapacity rs
    | some v =>
      let q := match s.jrec e.part e.list e.seq with
        | some r => r.quad
        | none => quadOfTile t
      if 6144 < v.get (QD_JOURNAL_STATUS_PRE_BLOCKS q) then s else k v

/-! ## Fields (R102) -/

/-- Blocks of a mover macro-op. -/
def moBlocks (w : Entry) : Nat := Entry_bits w 0 31 16 + 1
/-- CLASS. -/
def moClass (w : Entry) : Nat := Entry_bits w 0 15 14
/-- MADDR. -/
def moAddr (w : Entry) : Nat := Entry_bits w 1 63 0
/-- BLOCK_BASE + j. -/
def moBlock (w : Entry) (j : Nat) : Nat := (Entry_bits w 3 63 32 + j) % 2 ^ 32
/-- The first slot. -/
def moSlot (w : Entry) : Nat := lvAddr w 2 / 4096
/-- The index list of a GATHER or SCATTER. -/
def moList (w : Entry) : Nat := Entry_bits w 5 22 0

/-- The local slots of a mover macro-op. -/
def moSlots (w : Entry) (rd wr : Bool) : Reg := ⟨lvAddr w 2, 4096 * moBlocks w, rd, wr, none, none⟩

/-- The index list as a range read. -/
def moListReg (w : Entry) : Reg := ⟨moList w, 4 * moBlocks w, true, false, none, none⟩

/-- The malformed mover macro-ops (R98): format, local ranges, overlap, block count or address, class and SPEC. -/
def moBad (w : Entry) (rs : List Reg) (memory spec : Bool) (dst : Option Nat) : Option Nat :=
  let src := moSlots w true false
  if !fmtGood (lvFmt w 2) then some 0x05
  else if Reg_bad 4096 src ∨ (rs.any fun r => Reg_bad 1 r) ∨ (dst.any fun a => Reg_bad 4096 ⟨a, src.len, false, true, none, none⟩)
    then some 0x06
  else if rs.any (fun a => a.wr && rs.any fun b => b.rd && !b.wr && rangesMeet a.off a.len b.off b.len) then some 0x07
  else if 1536 < moBlocks w ∨ (memory ∧ moAddr w % 4096 ≠ 0) then some 0x08
  else if moClass w = 0 ∨ (Entry_bits w 0 13 13 == 1) ≠ spec then some 0x0B
  else none

/-- The signed block offsets of a mover macro-op from MADDR (R102). -/
def State.moOffsets (s : State) (t : Nat) (w : Entry) (listed : Bool) : List Int :=
  (List.range (moBlocks w)).map fun j =>
    if listed then (s.num .ls (lsAddr t (moList w + 4 * j)) 4 : Int)
    else
      let d := signedOf 32 (Entry_bits w 5 63 32)
      j * (if d = 0 then 1 else d)

/-- The offset of block `o` of a mover macro-op, where it stays in the tier. -/
def moOff (w : Entry) (o : Int) : Option Nat :=
  let x : Int := (offOf (moAddr w) : Int) + o * 4096
  if x < 0 ∨ 2 ^ 60 ≤ x then none else some x.toNat

/-- A block of the macro-op lies in the stream window (R125). -/
def inStreamWindow (w : Entry) (os : List Int) : Bool :=
  tierOf (moAddr w) == 0 && os.any fun o => match moOff w o with
    | some x => decide (2 ^ 47 ≤ x) && decide (x < 2 ^ 48)
    | none => false

/-- The places of all blocks, or the refusal with its address (R26, R27, R103): consecutive blocks through one extent,
others one by one. -/
def State.moPlaces (s : State) (t : Nat) (w : Entry) (os : List Int) (write : Bool) (tiers : List Nat) :
    List Place × Option (Nat × Nat) :=
  let ctx := (s.tileCtx t).ctx
  let word := Entry_bits w 4 63 0
  let remote : List Nat := [0, 1]
  let whole := match os.zipIdx.all fun o => o.1 == (o.2 : Int) with
    | true => s.ref ctx (moAddr w) (4096 * os.length) word write tiers remote
    | false => .refuse 0
  match whole, os.zipIdx.all fun o => o.1 == (o.2 : Int) with
  | .at_ (.here _ _), true =>
    let a := if tierOf (moAddr w) = 8 then bitsOf 59 56 (moAddr w) * 2 ^ 60 + moAddr w % 2 ^ 48 else moAddr w
    ((List.range os.length).filterMap fun j => match s.refHere ctx (a + 4096 * j) 4096 write tiers with
      | .at_ p => some p
      | .refuse _ => none, none)
  | .at_ p, true => ((List.range os.length).map fun j => Place_plus p (4096 * j), none)
  | .refuse c, true => ([], some (c, moAddr w))
  | _, false =>
    os.foldl (fun (a : List Place × Option (Nat × Nat)) o =>
      match a.2, moOff w o with
      | some _, _ => a
      | none, none => (a.1, some (0x2101, moAddr w))
      | none, some x =>
        let addr := tierOf (moAddr w) * 2 ^ 60 + x
        match s.ref ctx addr 4096 word write tiers remote with
        | .at_ p => (a.1 ++ [p], none)
        | .refuse c => (a.1, some (c, addr))) ([], none)

/-! ## Requests to other modules (R104, R267) -/

/-- A request packet for a block: its tier and offset in ARG (R259). -/
def blockPacket (ty cls m tier off : Nat) (payload : List Byte) : Packet :=
  { ty := ty, cls := cls, dstModule := m, arg := tier * 2 ^ 60 + off % 2 ^ 48, payload := payload }

/-- The statuses of a macro-op's blocks combined: the first failure stands, a correction shows. -/
def joinStatus (a b : Status) : Status :=
  if !Status_ok a then a else if !Status_ok b then b else if a = .doneCorrected then a else b

/-- The mover requests that a tile has out. -/
def State.moverOut (s : State) (t : Nat) : Bool :=
  s.xreqs.any fun r => match r.what with
    | .moverLoad u _ _ _ _ => u == t
    | .moverStore u => u == t
    | _ => false

/-- The answer to one block request of a tile's waiting mover macro-op; it completes with its last answer (R104). -/
def State.moverAnswer (s : State) (t txn : Nat) (st : Status) : State :=
  let x := s.tile t
  let hit (i : Issued) : Bool := i.unit == 1 && i.waits && decide ((txn + 2 ^ 32 - i.txn) % 2 ^ 32 < 1536)
  let l := x.issued.map fun (i : Issued) =>
    if hit i then { i with status := joinStatus i.status st, waits := s.moverOut t } else i
  s.setTile t { x with issued := l }

/-- A macro-op of the tile waits for a transaction. -/
def State.moverWaits (s : State) (t txn : Nat) : Bool :=
  (s.tile t).issued.any fun i => i.unit == 1 && i.waits && decide ((txn + 2 ^ 32 - i.txn) % 2 ^ 32 < 1536)

/-! ## Loads (R103, R125) -/

/-- What happened to fetched block `j`: its first copy, or both, arrived damaged. -/
def fetchOnce (flt : List FetchFault) (j : Nat) : Bool := flt.contains (.once j)
/-- Both copies arrived damaged. -/
def fetchTwice (flt : List FetchFault) (j : Nat) : Bool := flt.contains (.twice j)

/-- The tile's access to a block of H or L of this module before it is read or written: through its cache slices, or
past them for an X-tier reference (R162, R164). -/
def State.touch (s : State) (t tier a : Nat) (x write : Bool) : State :=
  let e := s.tileCtx t
  if tier ≠ 1 then s
  else if x then (if write then s.recallWrite a else s.recallRead a)
  else s.llmAccess e.part (a / 4096) write (!e.eval)

/-- Block `j` of a load fetched from memory of this module, checked and put in its slot. -/
def State.loadBlock (s : State) (t : Nat) (w : Entry) (flt : List FetchFault) (j tier a : Nat) : State × Arrive :=
  let sp := tierSpace tier
  let u := if tier = 1 ∧ flt.contains (.uncorrectable j) then s.hUncorrectable a else s
  let u := u.touch t tier a (tierOf (moAddr w) == 8) false
  let bs := u.block sp a
  let x := u.sealOf sp a
  let slot := moSlot w + j
  let (v, r) := u.checkArrival t slot x bs (some (lvTensor w 2, moBlock w j, lvFmt w 2)) (fetchOnce flt j)
    (fetchTwice flt j)
  match r with
  | .stop st => (v, .stop st)
  | .ok c =>
    let v := ((v.setBlock .ls (lsAddr t (4096 * slot)) bs x).noteSlots t [slot]).noteIn t x
    (v.setTile t { v.tile t with memRead := blockKey sp a :: (v.tile t).memRead }, .ok c)

/-- The blocks of a macro-op moved in ascending order until one stops it: the state and the status. -/
def runBlocks (f : State → Nat → Place → State × Arrive) (s : State) (ps : List Place) : State × Status :=
  let r := ps.zipIdx.foldl (fun (a : State × Status) p =>
    if !Status_ok a.2 then a
    else match f a.1 p.2 p.1 with
      | (u, .stop st) => (u, st)
      | (u, .ok c) => (u, if c then .doneCorrected else a.2)) (s, .done)
  r

/-- A stream access of a tile's LOAD or STORE started (R125, R126). -/
def State.streamAccess (s : State) (t : Nat) (w : Entry) (rs : List Reg) (load : Bool) : State :=
  let x := offOf (moAddr w) - 2 ^ 47
  let i := x / 4096
  let l := s.get (TILE_STATUS_LOGICAL_ID t)
  let refuse := s.issueDone t w .refusedPartition rs
  match s.stream i with
  | none => refuse
  | some d =>
    if 1024 ≤ i ∨ d.part ≠ (s.tileCtx t).part ∨ (load ∧ d.consumer ≠ l) ∨ (!load ∧ (d.feed ∨ d.producer ≠ l)) then refuse
    else if s.get (HUB_STREAM_CNT_STATE i) ≠ 1 then s.issueDone t w .cancelled rs
    else
      let n := (s.tile t).count
      let u := s.issueOp t w .done true 0 qcount0 rs
      let wt : StreamWait := ⟨i, load, t, n, moSlot w, moBlocks w, lvTensor w 2, lvFmt w 2, moBlock w 0, s.now, false⟩
      { u with waits := u.waits ++ [wt] }.streamResume wt

/-- The access is a stream access in the form of R125. -/
def streamForm (w : Entry) : Bool :=
  tierOf (moAddr w) == 0 && decide (2 ^ 47 ≤ offOf (moAddr w)) && moAddr w % 4096 == 0 &&
    decide (Entry_bits w 5 63 32 ≤ 1)

/-- A place is served now (R157). -/
def State.placeServes (s : State) : Place → Bool
  | .here t a => s.serves t a
  | .there _ _ _ => true

/-- A LOAD or GATHER that has issued checks: its blocks are moved, or requested from another module. -/
def State.moveIn (s : State) (t : Nat) (w : Entry) (rs : List Reg) (flt : List FetchFault) (listed : Bool) : State :=
  let e := s.tileCtx t
  let os := s.moOffsets t w listed
  if s.moverBusy t ∨ (s.ctx e.ctx).changes ≠ [] then s
  else if !listed && streamForm w then s.streamAccess t w rs true
  else if inStreamWindow w os then s.issueDone t w .refusedPartition rs
  else match s.moPlaces t w os false [0, 1, 8] with
    | (_, some (c, a)) => (s.violate e.ctx c e.seq a).issueDone t w .refusedPartition rs
    | (ps, none) =>
      if !(ps.all fun p => s.placeServes p) then s
      else match ps.head? with
        | some (.there _ _ _) =>
          let first := s.newTxn 0
          let u := s.issueOp t w .done true first qcount0 rs
          ps.zipIdx.foldl (fun (a : State) p => match p.1 with
            | .there m tier off => a.request 0 e.ctx (blockPacket 1 (moClass w) m tier off [])
                (.moverLoad t (moSlot w + p.2) (lvTensor w 2) (lvFmt w 2) (moBlock w p.2))
            | .here _ _ => a) u
        | _ =>
          let (u, st) := runBlocks (fun a j p => match p with
            | .here tier x => a.loadBlock t w flt j tier x
            | .there _ _ _ => (a, .ok false)) s ps
          u.issueDone t w st rs

/-- LOAD (R103). -/
def execLoad (t : Fin 272) (w : Entry) (flt : List FetchFault) (s : State) : Host.Outcome State Fault Refusal :=
  .next (s.macroOp t.val 0x10 w (fun v => moBad v [] true false none) (fun v => [moSlots v false true]) (fun _ => 0)
    fun u v rs => u.moveIn t.val v rs flt false)

/-- GATHER (R103). -/
def execGather (t : Fin 272) (w : Entry) (flt : List FetchFault) (s : State) : Host.Outcome State Fault Refusal :=
  .next (s.macroOp t.val 0x11 w (fun v => moBad v [moListReg v, moSlots v false true] true false none)
    (fun v => [moListReg v, moSlots v false true]) (fun _ => 0) fun u v rs => u.moveIn t.val v rs flt true)

/-! ## Stores (R103, R375) -/

/-- The slot's seal checked before block `j` leaves it: the block, its seal, and the outcome. -/
def State.leaveSlot (s : State) (t : Nat) (w : Entry) (j : Nat) : State × List Byte × Seal × Arrive :=
  let a := lsAddr t (4096 * (moSlot w + j))
  let bs := s.block .ls a
  let x := s.sealOf .ls a
  let (u, r) := s.checkArrival t (moSlot w + j) x bs (some (lvTensor w 2, moBlock w j, lvFmt w 2)) false false
  (u, bs, x, r)

/-- Block `j` of a store written to memory of this module with the slot's seal. -/
def State.storeBlock (s : State) (t : Nat) (w : Entry) (j tier a : Nat) : State × Arrive :=
  match s.leaveSlot t w j with
  | (u, _, _, .stop st) => (u, .stop st)
  | (u, bs, x, .ok c) =>
    let v := u.touch t tier a (tierOf (moAddr w) == 8) true
    ((v.setBlock (tierSpace tier) a bs x).noteOut t x, .ok c)

/-- Block `j` of a store sent to another module. -/
def State.sendBlock (s : State) (t : Nat) (w : Entry) (j m tier off : Nat) : State × Arrive :=
  match s.leaveSlot t w j with
  | (u, _, _, .stop st) => (u, .stop st)
  | (u, bs, x, .ok c) =>
    ((u.request 0 (s.tileCtx t).ctx (blockPacket 3 (moClass w) m tier off (bs ++ sealBytes x)) (.moverStore t)).noteOut t
      x, .ok c)

/-- A STORE or SCATTER that has issued checks. -/
def State.moveOut (s : State) (t : Nat) (w : Entry) (rs : List Reg) (listed : Bool) : State :=
  let e := s.tileCtx t
  let os := s.moOffsets t w listed
  if s.moverBusy t ∨ (s.ctx e.ctx).changes ≠ [] then s
  else if !listed && streamForm w then s.streamAccess t w rs false
  else if inStreamWindow w os then s.issueDone t w .refusedPartition rs
  else match s.moPlaces t w os true [0, 1, 8] with
    | (_, some (c, a)) => (s.violate e.ctx c e.seq a).issueDone t w .refusedPartition rs
    | (ps, none) =>
      if !(ps.all fun p => s.placeServes p) then s
      else
        let read := (s.tile t).memRead
        let pre := ps.filterMap fun p => match p with
          | .here tier a => if read.contains (blockKey (tierSpace tier) a) then some (tierSpace tier, a) else none
          | .there _ _ _ => none
        s.withPre t w rs [] pre fun u =>
          let first := u.newTxn 0
          let (v, st) := runBlocks (fun a j p => match p with
            | .here tier x => a.storeBlock t w j tier x
            | .there m tier off => a.sendBlock t w j m tier off) u ps
          v.issueOp t w st (v.moverOut t) first qcount0 rs

/-- STORE (R103). -/
def execStore (t : Fin 272) (w : Entry) (chk : TileCheck) (s : State) : Host.Outcome State Fault Refusal :=
  .next (s.macroOp t.val 0x12 w (fun v => moBad v [] true false none) (fun v => [moSlots v true false]) (fun _ => 0)
    fun u v rs => u.checked t.val (moverChk chk) fun a => a.moveOut t.val v rs false)

/-- SCATTER (R103). -/
def execScatter (t : Fin 272) (w : Entry) (chk : TileCheck) (s : State) : Host.Outcome State Fault Refusal :=
  .next (s.macroOp t.val 0x13 w (fun v => moBad v [moListReg v] true false none)
    (fun v => [moSlots v true false, moListReg v]) (fun _ => 0)
    fun u v rs => u.checked t.val (moverChk chk) fun a => a.moveOut t.val v rs true)

/-! ## Moves between local stores (R101 to R103) -/

/-- The blocks of a COPY or SEND put in slots of a tile with their seals. -/
def State.moveLocal (s : State) (t : Nat) (w : Entry) (rs : List Reg) (u dst : Nat) : State :=
  if s.moverBusy t then s
  else
    let (v, st) := runBlocks (fun a j _ =>
      match a.leaveSlot t w j with
      | (b, _, _, .stop st) => (b, .stop st)
      | (b, bs, x, .ok c) =>
        ((b.setBlock .ls (lsAddr u (dst + 4096 * j)) bs x).noteSlots u [dst / 4096 + j], .ok c)) s
      (List.replicate (moBlocks w) (.here 0 0))
    v.issueDone t w st rs

/-- COPY (R101). -/
def execCopy (t : Fin 272) (w : Entry) (chk : TileCheck) (s : State) : Host.Outcome State Fault Refusal :=
  let regs (v : Entry) : List Reg :=
    [moSlots v true false, ⟨Entry_bits v 1 22 0, 4096 * moBlocks v, false, true, none, none⟩]
  .next (s.macroOp t.val 0x14 w (fun v => moBad v (regs v) false false (some (Entry_bits v 1 22 0))) regs (fun _ => 0)
    fun u v rs => u.checked t.val (moverChk chk) fun a => a.moveLocal t.val v rs t.val (Entry_bits v 1 22 0))

/-- SEND (R101, R102): a target tile outside the program's partition is refused without a violation. -/
def execSend (t : Fin 272) (w : Entry) (chk : TileCheck) (s : State) : Host.Outcome State Fault Refusal :=
  let self (v : Entry) : Bool := Entry_bits v 4 7 0 == s.get (TILE_STATUS_LOGICAL_ID t.val)
  let regs (v : Entry) : List Reg := moSlots v true false ::
    (if self v then [⟨Entry_bits v 1 22 0, 4096 * moBlocks v, false, true, none, none⟩] else [])
  .next (s.macroOp t.val 0x15 w (fun v => moBad v (regs v) false false (some (Entry_bits v 1 22 0))) regs (fun _ => 0)
    fun u v rs =>
      if u.tilePart (Entry_bits v 4 7 0) = some (u.tileCtx t.val).part then
        u.checked t.val (moverChk chk) fun a =>
          a.moveLocal t.val v rs (a.physOf (Entry_bits v 4 7 0)) (Entry_bits v 1 22 0)
      else u.issueDone t.val v .refusedPartition rs)

/-! ## PREFETCH and SEALCHK (R115, R130, R163) -/

/-- PREFETCH (R130, R163; log 30): blocks of H fill cache lines until no way is free; a partition without cache slices
moves nothing. -/
def execPrefetch (t : Fin 272) (w : Entry) (s : State) : Host.Outcome State Fault Refusal :=
  .next (s.macroOp t.val 0x16 w (fun v => moBad v [] true true none) (fun _ => []) (fun _ => 0) fun u v rs =>
    let e := u.tileCtx t.val
    let os := u.moOffsets t.val v false
    if u.moverBusy t.val ∨ (u.ctx e.ctx).changes ≠ [] then u
    else if (u.cacheSlices e.part).isEmpty then u.issueDone t.val v .done rs
    else if inStreamWindow v os then u.issueDone t.val v .refusedPartition rs
    else match u.moPlaces t.val v os false [1] with
      | (_, some (c, a)) => (u.violate e.ctx c e.seq a).issueDone t.val v .refusedPartition rs
      | (ps, none) =>
        if !(ps.all fun p => u.placeServes p) then u
        else
          let (a, good) := ps.foldl (fun (a : State × Bool) p =>
            match a.2, p with
            | true, .here _ x => a.1.llmPrefetch e.part (x / 4096)
            | _, _ => a) (u, true)
          a.issueDone t.val v (if good then .done else .cancelled) rs)

/-- One slot under SEALCHK: tag and format, then POISON, then the CRC without a refetch (R115, R448). -/
def State.sealSlot (s : State) (t : Nat) (w : Entry) (j : Nat) : State × Arrive :=
  let slot := moSlot w + j
  let a := lsAddr t (4096 * slot)
  let x := s.sealOf .ls a
  let event (u : State) (k : Nat) : State := u.evLim 0x6103 t (0x200 + t) 0 k slot
  if x.tensor.toNat ≠ lvTensor w 2 then (event (s.inc (TILE_CHECK_COUNT_SEAL_TAG t) 1) 1, .stop .sealMismatch)
  else if x.fmt.toNat ≠ lvFmt w 2 then (event (s.inc (TILE_CHECK_COUNT_SEAL_TAG t) 1) 2, .stop .sealMismatch)
  else if x.poison || crcGood x (s.block .ls a) then (s, .ok false)
  else (event (s.inc (TILE_CHECK_COUNT_SEAL_CRC t) 1) 0, .stop .sealMismatch)

/-- SEALCHK (R115). -/
def execSealchk (t : Fin 272) (w : Entry) (chk : TileCheck) (s : State) : Host.Outcome State Fault Refusal :=
  .next (s.macroOp t.val 0x50 w (fun v => moBad v [] false false none) (fun v => [moSlots v true false]) (fun _ => 0)
    fun u v rs => u.checked t.val (moverChk chk) fun a =>
      if a.moverBusy t.val then a
      else
        let (b, st) := runBlocks (fun b j _ => b.sealSlot t.val v j) a (List.replicate (moBlocks v) (.here 0 0))
        b.issueDone t.val v st rs)

end Sys2Proof.Machine
end

