-- ==== Sys2Proof/Machine/Matrix.lean ====
section
/-!
DEFINITION. The matrix unit: operands, chunk partials, the epilogue and MM and MMTA (R84 to R86, R98 to R100, R105 to
R112).
-/

namespace Sys2Proof.Machine

open Sys2Proof

/-! ## Operands in the local store (R71, R100) -/

/-- The blocks of an operand as little-endian numbers. -/
def State.opBlocksAt (s : State) (t addr f rows cols : Nat) : List Nat :=
  (List.range (blocksFor f rows cols)).map fun i => s.num .ls (lsAddr t (addr + 4096 * i)) 4096

/-- The codebook set at an address: 256 codebooks of 16 BF16 entries (R71). -/
def State.bookAt (s : State) (t addr : Nat) : Nat → Nat → Val :=
  let n := s.num .ls (lsAddr t addr) 8192
  fun c k => ofBf16 ((n >>> (8 * (32 * c + 2 * k))) % 65536)

/-- The FP32 value at an address. -/
def State.f32At (s : State) (t addr : Nat) : Val := ofFp32 (s.num .ls (lsAddr t addr) 4)

/-- The bytes of an operand in block layout. -/
def opBytes (f rows cols : Nat) : Nat := 4096 * blocksFor f rows cols

/-- A consumed operand, its slots checked against its local view. -/
def lvReg (w : Entry) (k rows cols : Nat) : Reg :=
  ⟨lvAddr w k, opBytes (lvFmt w k) rows cols, true, false, some (lvTensor w k), some (lvFmt w k)⟩

/-- A range read without a local view. -/
def rawReg (off len : Nat) : Reg := ⟨off, len, true, false, none, none⟩

/-- A written destination in block layout. -/
def dstReg (w : Entry) (k rows cols : Nat) : Reg := ⟨lvAddr w k, opBytes (lvFmt w k) rows cols, false, true, none, none⟩

/-- A written range that overlaps another range of the macro-op. -/
def overlaps (rs : List Reg) : Bool :=
  rs.zipIdx.any fun a => a.1.wr && rs.zipIdx.any fun b => a.2 != b.2 && rangesMeet a.1.off a.1.len b.1.off b.1.len

/-! ## Activation functions (R112) -/

/-- FUNC applied to an FP32 value; FUNC 0x02 to 0x08 are the module's own algorithm (log 6). -/
def actFn (f : Nat) (v : Val) : Val :=
  if f = 0 ∨ v = .nan then v
  else if f = 1 then (if Val_lt Val_zero v then v else Val_zero)
  else ofFp32 (Config.actValue f (fp32Bits 0 v)).toNat

/-! ## The store of a result (R82, R83, R92, R105, R107) -/

/-- The calibration entry of a group: one for all, or from the list (R82). -/
def State.calEntry (s : State) (t addr : Nat) (list : Bool) (g : Nat) : Nat :=
  s.num .ls (lsAddr t (addr + (if list then 4 * g else 0))) 4

/-- A result written by a quantising store: its blocks sealed, its elements to be counted, the non-finite flag set; or
nothing written and NONFINITE (R82, R83, R88).  The macro-op is issued with its outcome. -/
def State.quantD (s : State) (t : Nat) (w : Entry) (rs : List Reg) (p : QPar) (calList : Bool) (cols : Nat)
    (rows : List (List Val)) (flag : Bool) : State :=
  let e := s.tileCtx t
  let q := quantStore p calList cols rows
  let u := if q.flag || flag then s.setNonfinite e.part e.eval else s
  let u := if q.refuse then u else u.writeSlots t (lvAddr w 3) (lvTensor w 3) p.fmt (Entry_bits w 4 63 32) q.blocks
  u.issueOp t w (if q.refuse then .nonfinite else .done) false 0 ⟨q.cnt, p.nf.toNat, lvTensor w 3, p.fmt⟩ rs

/-- A result written as it is in an unquantised format. -/
def State.plainD (s : State) (t : Nat) (w : Entry) (rs : List Reg) (f : Nat) (codes : List Nat) : State :=
  (s.writeSlots t (lvAddr w 3) (lvTensor w 3) f (Entry_bits w 4 63 32) (wideBlocks f codes)).issueDone t w .done rs

/-! ## The fields of MM and MMTA -/

/-- M. -/
def mmM (w : Entry) : Nat := Entry_bits w 0 31 22 + 1
/-- N. -/
def mmN (w : Entry) : Nat := Entry_bits w 0 21 15 + 1
/-- K. -/
def mmK (w : Entry) : Nat := 32 * (Entry_bits w 0 14 4 + 1)
/-- The chunk length. -/
def mmChunk (w : Entry) : Nat := 32 * 2 ^ Entry_bits w 0 3 0
/-- ACC: 0 DIRECT, 1 INIT, 2 ADD, 3 FINISH. -/
def mmAcc (w : Entry) : Nat := Entry_bits w 4 21 20
/-- FMT of A, W and D. -/
def mmA (w : Entry) : Nat := lvFmt w 1
/-- FMT of W. -/
def mmW (w : Entry) : Nat := lvFmt w 2
/-- FMT of D. -/
def mmD (w : Entry) : Nat := lvFmt w 3
/-- The macro-op writes D. -/
def mmWrites (w : Entry) : Bool := mmAcc w == 0 || mmAcc w == 3

/-- The operand pairs (R85). -/
def pairGood (a w : Nat) : Bool :=
  (a == 7 && w == 7) || (a == 9 && w == 9) || ([3, 4, 8].contains a && w == 10) ||
  (decide (3 ≤ a) && decide (a ≤ 6) && decide (3 ≤ w) && decide (w ≤ 6)) || (a == 8 && (w == 8 || w == 9)) ||
  ((a == 3 || a == 4) && w == 7) || (decide (a ≤ 2) && a == w)

/-- A codebook set is read: a KC4 W, or a KC4 D that is written. -/
def mmBook (w : Entry) : Bool := mmW w == 10 || (mmWrites w && mmD w == 10)

/-- The ranges of MM or, with `ta`, MMTA. -/
def mmRegs (ta : Bool) (w : Entry) : List Reg :=
  let m := mmM w
  let n := mmN w
  let k := mmK w
  [if ta then lvReg w 1 k m else lvReg w 1 m k, lvReg w 2 n k] ++
  (if mmBook w then [rawReg (Entry_bits w 6 22 0) 8192] else []) ++
  (if Entry_bits w 4 23 23 = 1 then [rawReg (Entry_bits w 5 45 23) (4 * n)] else []) ++
  (if Entry_bits w 4 22 22 = 1 then [rawReg (Entry_bits w 6 45 23) (4 * m * n)] else []) ++
  (if mmWrites w && fmtNarrow (mmD w) && Entry_bits w 4 3 3 == 1 then
    [rawReg (Entry_bits w 7 22 0) (if Entry_bits w 7 23 23 = 1 then 4 * m * ceilDiv n 32 else 4)] else []) ++
  (if mmAcc w ≠ 0 then [⟨Entry_bits w 5 22 0, 48 * m * n, mmAcc w != 1, true, none, none⟩] else []) ++
  (if mmWrites w then [dstReg w 3 m n] else [])

/-- A range keeps the alignment of R91: 4 KiB for an operand in block layout, 64 bytes for the others. -/
def mmAligned (w : Entry) (r : Reg) : Bool :=
  let block := r.tensor.isSome || (mmWrites w && r.wr && r.off == lvAddr w 3 && r.len == opBytes (mmD w) (mmM w) (mmN w))
  !Reg_bad (if block then 4096 else 64) r

/-- The malformed MM and MMTA (R85, R91, R98, R105). -/
def mmBad (ta : Bool) (w : Entry) : Option Nat :=
  let fd := mmD w
  if Entry_bits w 4 7 6 > 1 then some 0x04
  else if !fmtGood (mmA w) || !fmtGood (mmW w) || !fmtGood fd || !pairGood (mmA w) (mmW w) || (ta && decide (2 < mmA w))
    then some 0x05
  else if (mmRegs ta w).any fun r => !mmAligned w r then some 0x06
  else if overlaps (mmRegs ta w) then some 0x07
  else if Entry_bits w 0 3 0 < 1 ∨ 8 < Entry_bits w 0 3 0 ∨ 5 < Entry_bits w 4 31 24 ∨
      !Val_finite (ofFp32 (Entry_bits w 7 63 32)) ∨ (mmAcc w = 0 ∧ mmChunk w < mmK w) ∨
      (!mmWrites w ∧ Entry_bits w 3 63 0 ≠ 0) then some 0x08
  else none

/-! ## Chunk partials (R108) -/

/-- The exact sum of a list, −0 only when every term is −0. -/
def sumVals : List Val → Val
  | [] => Val_zero
  | v :: vs => vs.foldl Val_add v

/-- The partial of one chunk: groups `lo` to `hi` of an output, each exact, rounded once per step. -/
def chunkPartial (a w : Nat → Val × Val) (lo hi : Nat) : Val :=
  ((List.range (hi - lo)).foldl (fun (y : Option Val) i =>
    let g := lo + i
    let sg := sumVals ((List.range 32).map fun j => Val_mul (a (32 * g + j)).1 (w (32 * g + j)).1)
    let pg := Val_mul (Val_mul (a (32 * g)).2 (w (32 * g)).2) sg
    match y with
    | none => some (round32 0 pg)
    | some v => some (round32 0 (Val_add v pg))) none).getD Val_zero

/-- The chunk partials of an output over K elements in chunks of `len`. -/
def chunkPartials (a w : Nat → Val × Val) (k len : Nat) : List Val :=
  (List.range (ceilDiv k len)).map fun c => chunkPartial a w (c * len / 32) (min k ((c + 1) * len) / 32)

/-- A KC4 operand selects a non-finite codebook entry (R86). -/
def bookBad (book : Nat → Nat → Val) (blocks : List Nat) (n : Nat) : Bool :=
  (List.range n).any fun i =>
    let b := blocks.getD (i / 32 / blkGroups 10) 0
    let g := i / 32 % blkGroups 10
    !Val_finite (book (groupSecond 10 b g) (elemCode 10 b (32 * g + i % 32)))

/-! ## The macro-op (R105, R107) -/

/-- The exact region of `n` elements at an address. -/
def State.regionAt (s : State) (t addr n : Nat) : List Exact :=
  (List.range n).map fun i => exactOf (s.bytes .ls (lsAddr t (addr + 48 * i)) 48)

/-- A list of summands added to an element, with whether a sum left the range. -/
def exactAddAll (x : Exact) (vs : List Val) : Exact × Bool :=
  vs.foldl (fun a v => let r := exactAdd a.1 v; (r.1, a.2 || r.2)) (x, false)

/-- The value of an output after the sum with ALPHA, bias and residual, and ACT (R107). -/
def State.epilogue (s : State) (t : Nat) (w : Entry) (m n : Nat) (y : Val) : Val :=
  let v := Val_mul (ofFp32 (Entry_bits w 7 63 32)) y
  let v := if Entry_bits w 4 23 23 = 1 then Val_add v (s.f32At t (Entry_bits w 5 45 23 + 4 * n)) else v
  let v := if Entry_bits w 4 22 22 = 1 then Val_add v (s.f32At t (Entry_bits w 6 45 23 + 4 * (m * mmN w + n))) else v
  actFn (Entry_bits w 4 31 24) (round32 0 v)

/-- The epilogue's results written as D: FP32 as they are, another format through the quantising store (R105, R107). -/
def State.matrixD (s : State) (t : Nat) (w : Entry) (rs : List Reg) (book : Nat → Nat → Val) (rows : List (List Val)) :
    State :=
  let e := s.tileCtx t
  if mmD w = 0 then
    let flat := rows.flatMap fun r => r
    let u := if flat.any fun v => !Val_finite v then s.setNonfinite e.part e.eval else s
    u.plainD t w rs 0 (flat.map fun v => fp32Bits 0 v)
  else
    let calList := Entry_bits w 7 23 23 == 1
    let p : QPar := ⟨mmD w, Entry_bits w 4 7 6, Entry_bits w 4 5 5 == 1, Entry_bits w 4 4 4 == 1,
      fmtNarrow (mmD w) && Entry_bits w 4 3 3 == 1, Entry_bits w 4 2 2 == 1, Entry_bits w 4 19 12,
      s.calEntry t (Entry_bits w 7 22 0) calList, book, fun _ => 0⟩
    s.quantD t w rs p calList (mmN w) rows false

/-- MM or MMTA with its operands checked and its pre-images saved. -/
def State.matrixRun (s : State) (t : Nat) (ta : Bool) (w : Entry) (rs : List Reg) : State :=
  let m := mmM w
  let n := mmN w
  let k := mmK w
  let e := s.tileCtx t
  let book := s.bookAt t (Entry_bits w 6 22 0)
  let ab := if ta then s.opBlocksAt t (lvAddr w 1) (mmA w) k m else s.opBlocksAt t (lvAddr w 1) (mmA w) m k
  let wb := s.opBlocksAt t (lvAddr w 2) (mmW w) n k
  let opA (i j : Nat) : Val × Val := operandAt (mmA w) book ab (if ta then j * m + i else i * k + j)
  let opW (i j : Nat) : Val × Val := operandAt (mmW w) book wb (i * k + j)
  let parts (i j : Nat) : List Val := chunkPartials (opA i) (opW j) k (mmChunk w)
  let s1 := if mmW w = 10 ∧ bookBad book wb (n * k) then s.setNonfinite e.part e.eval else s
  let grid (f : Nat → Nat → Val) : List (List Val) := (List.range m).map fun i => (List.range n).map fun j => f i j
  if mmAcc w = 0 then
    s1.matrixD t w rs book (grid fun i j => s1.epilogue t w i j ((parts i j).headD Val_zero))
  else
    let addr := Entry_bits w 5 22 0
    let old := if mmAcc w = 1 then List.replicate (m * n) exact0 else s1.regionAt t addr (m * n)
    let sums := old.zipIdx.map fun x => exactAddAll x.1 (parts (x.2 / n) (x.2 % n))
    let s2 := if sums.any fun x => x.2 then s1.setNonfinite e.part e.eval else s1
    let new := sums.map fun x => x.1
    let s3 := s2.writeRange t addr (new.flatMap fun x => exactBytes x)
    if mmAcc w = 3 then
      s3.matrixD t w rs book (grid fun i j => s3.epilogue t w i j (exactVal (new.getD (i * n + j) exact0)))
    else s3.issueDone t w .done rs

/-- A compute macro-op past its malformed checks: the physical checks, the slots' tags, formats and poison, the
pre-images of an in-place form, and its work (R113 to R116). -/
def State.compute (s : State) (t : Nat) (w : Entry) (rs : List Reg) (chk : TileCheck) (pre : Bool)
    (k : State → State) : State :=
  s.checked t chk fun a =>
    match a.slotCheck t rs with
    | some (b, st) => b.issueDone t w st rs
    | none => if pre then a.withPre t w rs rs [] k else k a

/-- MM (R105). -/
def execMm (t : Fin 272) (w : Entry) (chk : TileCheck) (s : State) : Host.Outcome State Fault Refusal :=
  .next (s.macroOp t.val 0x20 w (mmBad false) (mmRegs false) (fun v => if mmWrites v then blocksFor (mmD v) (mmM v) (mmN v) else 0)
    fun u v rs => u.compute t.val v rs chk (decide (2 ≤ mmAcc v)) fun a => a.matrixRun t.val false v rs)

/-- MMTA (R105). -/
def execMmta (t : Fin 272) (w : Entry) (chk : TileCheck) (s : State) : Host.Outcome State Fault Refusal :=
  .next (s.macroOp t.val 0x21 w (mmBad true) (mmRegs true) (fun v => if mmWrites v then blocksFor (mmD v) (mmM v) (mmN v) else 0)
    fun u v rs => u.compute t.val v rs chk (decide (2 ≤ mmAcc v)) fun a => a.matrixRun t.val true v rs)

end Sys2Proof.Machine
end

