-- ==== Sys2Proof/Machine/Vector.lean ====
section
/-!
DEFINITION. The vector unit and the exact-region macro-ops (R79 to R83, R98 to R101, R110 to R113, R310).
-/

namespace Sys2Proof.Machine

open Sys2Proof

/-! ## Operands (R101, R112) -/

/-- Rows. -/
def vRows (w : Entry) : Nat := Entry_bits w 0 31 16 + 1
/-- Columns. -/
def vCols (w : Entry) : Nat := Entry_bits w 0 15 0 + 1
/-- RND. -/
def vRnd (w : Entry) : Nat := Entry_bits w 4 7 6
/-- FUNC. -/
def vFunc (w : Entry) : Nat := Entry_bits w 4 31 24
/-- K. -/
def vK (w : Entry) : Nat := Entry_bits w 4 23 16
/-- The aux offset. -/
def vAux (w : Entry) : Nat := Entry_bits w 5 22 0

/-- The macro-op uses A. -/
def vUsesA (c : Nat) : Bool := !([0x40, 0x41, 0x49, 0x4A, 0x4B].contains c)
/-- It uses B. -/
def vUsesB (c : Nat) : Bool := (decide (0x30 ≤ c) && decide (c ≤ 0x35)) || [0x37, 0x38, 0x3B, 0x42].contains c
/-- It uses D. -/
def vUsesD (c : Nat) : Bool := !([0x48, 0x49, 0x4B].contains c)
/-- It works on an exact region at the aux offset. -/
def vRegion (c : Nat) : Bool := decide (0x48 ≤ c)
/-- It reads a second operand in A's shape and format at the aux offset: VFMA's C, VSEL's mask. -/
def vThird (c : Nat) : Bool := c == 0x33 || c == 0x38

/-- The shape of D. -/
def vShapeD (c : Nat) (w : Entry) : Nat × Nat :=
  if c = 0x39 ∨ c = 0x3A then (vRows w, 1)
  else if c = 0x3B then (vRows w, vK w)
  else if c = 0x3F then (vCols w, vRows w)
  else (vRows w, vCols w)

/-- The elements of B: written indices, row indices, or what BCAST selects. -/
def vCountB (c : Nat) (w : Entry) : Nat :=
  if c = 0x3B then vRows w * vK w
  else if c = 0x42 then vRows w
  else [vRows w * vCols w, vRows w, vCols w, 1].getD (Entry_bits w 4 9 8) 1

/-- A codebook set is read. -/
def vBook (c : Nat) (w : Entry) : Bool := (c == 0x3D && lvFmt w 3 == 10) || (c == 0x3E && lvFmt w 1 == 10)

/-- Supplied calibration entries are read: a calibrated QUANT to a narrow format. -/
def vCal (c : Nat) (w : Entry) : Bool := c == 0x3D && fmtNarrow (lvFmt w 3) && Entry_bits w 4 3 3 == 1

/-- The ranges in block layout of a vector macro-op. -/
def vBlockRegs (c : Nat) (w : Entry) : List Reg :=
  let b : Reg := ⟨lvAddr w 2, opBytes (lvFmt w 2) 1 (vCountB c w), c != 0x3B, c == 0x3B,
    if c = 0x3B then none else some (lvTensor w 2), if c = 0x3B then none else some (lvFmt w 2)⟩
  (if vUsesA c then [lvReg w 1 (vRows w) (vCols w)] else []) ++ (if vUsesB c then [b] else []) ++
  (if vThird c then [⟨vAux w, opBytes (lvFmt w 1) (vRows w) (vCols w), true, false, none, some (lvFmt w 1)⟩] else []) ++
  (if vUsesD c then [dstReg w 3 (vShapeD c w).1 (vShapeD c w).2] else [])

/-- Its other ranges: exact regions, codebook set and calibration entries. -/
def vOtherRegs (c : Nat) (w : Entry) : List Reg :=
  let n := 48 * vRows w * vCols w
  (if vRegion c then [⟨vAux w, n, c != 0x4B, c != 0x4A, none, none⟩] else []) ++
  (if c = 0x49 then [rawReg (Entry_bits w 6 22 0) n] else []) ++
  (if vBook c w then [rawReg (Entry_bits w 7 55 33) 8192] else []) ++
  (if vCal c w then [rawReg (Entry_bits w 7 22 0)
    (if Entry_bits w 7 32 32 = 1 then 4 * vRows w * ceilDiv (vCols w) 32 else 4)] else [])

/-- All ranges. -/
def vRegs (c : Nat) (w : Entry) : List Reg := vBlockRegs c w ++ vOtherRegs c w

/-- The formats that a vector macro-op accepts (R101, R112; log 32). -/
def vFmtGood (c : Nat) (w : Entry) : Bool :=
  let a := lvFmt w 1
  let b := lvFmt w 2
  let d := lvFmt w 3
  if c = 0x3E then fmtNarrow a && d == 0
  else
    (!vUsesA c || fmtFloat a) && (!vUsesB c || (if c = 0x3B ∨ c = 0x42 then b == 0 else fmtFloat b)) &&
    (!vUsesD c || (if c = 0x3D then fmtGood d else fmtFloat d)) && ((c != 0x3F && c != 0x42) || a == d)

/-- D is A in place: the same offset and extent (R101). -/
def vInPlace (w : Entry) (x y : Reg) : Bool :=
  x.off == lvAddr w 3 && y.off == lvAddr w 1 && x.len == y.len && x.off == y.off && x.wr && y.tensor.isSome

/-- The ranges overlap outside the in-place forms. -/
def vOverlap (c : Nat) (w : Entry) : Bool :=
  let rs := (vRegs c w).zipIdx
  rs.any fun x => x.1.wr && rs.any fun y =>
    x.2 != y.2 && rangesMeet x.1.off x.1.len y.1.off y.1.len && !(vUsesA c && y.2 == 0 && vInPlace w x.1 y.1)

/-- The malformed vector macro-ops (R91, R98, R100, R101, R112). -/
def vBad (c : Nat) (w : Entry) : Option Nat :=
  let unused (use : Bool) (k : Nat) : Bool := !use && Entry_bits w k 63 0 != 0
  if unused (vUsesA c) 1 || unused (vUsesB c) 2 || unused (vUsesD c) 3 then some 0x08
  else if vRnd w = 3 ∨ (vRnd w = 2 ∧ c ≠ 0x3D ∧ c ≠ 0x4A) then some 0x04
  else if !vFmtGood c w then some 0x05
  else if (c = 0x36 ∧ 8 < vFunc w) ∨ (c = 0x37 ∧ (vFunc w < 0x10 ∨ 0x15 < vFunc w)) ∨
      (c = 0x3B ∧ (vK w < 1 ∨ 64 < vK w ∨ vCols w < vK w)) ∨ (c = 0x3D ∧ Entry_bits w 4 3 3 = 1 ∧ vRnd w = 2) ∨
      (vUsesA c ∧ fmtNarrow (lvFmt w 1) ∧ vCols w % 32 ≠ 0) then some 0x08
  else if (vBlockRegs c w).any (Reg_bad 4096) || (vOtherRegs c w).any (Reg_bad 64) then some 0x06
  else if vOverlap c w then some 0x07
  else none

/-! ## Reading elements -/

/-- The values of an operand of `n` elements. -/
def State.valsAt (s : State) (t addr f n : Nat) (rows cols : Nat) (book : Nat → Nat → Val) : List Val :=
  let bs := s.opBlocksAt t addr f rows cols
  (List.range n).map fun i => dequantAt f book bs i

/-- The codes of an operand of an unquantised format. -/
def State.codesAt (s : State) (t addr f n : Nat) : List Nat :=
  let bs := s.opBlocksAt t addr f 1 n
  (List.range n).map fun i => elemCode f (bs.getD (i / blkElems f) 0) (i % blkElems f)

/-- The values of A. -/
def State.vA (s : State) (t c : Nat) (w : Entry) : List Val :=
  s.valsAt t (lvAddr w 1) (lvFmt w 1) (vRows w * vCols w) (vRows w) (vCols w)
    (if vBook c w then s.bookAt t (Entry_bits w 7 55 33) else fun _ _ => Val_zero)

/-- B's value for element `i`, as BCAST selects it. -/
def bcast (w : Entry) (b : List Val) (i : Nat) : Val :=
  let cols := vCols w
  b.getD ([i, i / cols, i % cols, 0].getD (Entry_bits w 4 9 8) 0) Val_zero

/-! ## Draws (R310) -/

/-- out[0] of the generator for element `i` of a macro-op: coordinate base W6 + i, the entry's step, tensor ID W7 and
the seed of the entry's context. -/
def State.drawAt (s : State) (t : Nat) (w : Entry) (i : Nat) : Nat :=
  let e := s.tileCtx t
  philox ((Entry_bits w 6 63 0 + i) % 2 ^ 64) e.step (Entry_bits w 7 31 0) (s.get (HUB_CTX_SEED_SEED e.ctx))

/-! ## The store of D -/

/-- The settings of the store of D. -/
def State.vPar (s : State) (t c : Nat) (w : Entry) : QPar :=
  let f := lvFmt w 3
  ⟨f, vRnd w, Entry_bits w 4 5 5 == 1, Entry_bits w 4 4 4 == 1, vCal c w, Entry_bits w 4 2 2 == 1, Entry_bits w 7 63 56,
    s.calEntry t (Entry_bits w 7 22 0) (Entry_bits w 7 32 32 == 1),
    if vBook c w then s.bookAt t (Entry_bits w 7 55 33) else fun _ _ => Val_zero, fun i => s.drawAt t w i / 65536⟩

/-- Results written as D: an FP32 D rounded element by element, another format through the quantising store (R83). -/
def State.vStore (s : State) (t c : Nat) (w : Entry) (rs : List Reg) (rows cols : Nat) (vs : List Val) : State :=
  if lvFmt w 3 = 0 then
    s.plainD t w rs 0 (vs.zipIdx.map fun v =>
      (encodeF 0 (vRnd w) (s.drawAt t w v.2 / 65536) (Entry_bits w 4 5 5 == 1) v.1).1)
  else
    s.quantD t w rs (s.vPar t c w) (Entry_bits w 7 32 32 == 1) cols
      ((List.range rows).map fun r => (vs.drop (r * cols)).take cols) false

/-- A vector macro-op whose D element `i` is `f` of the elements of A, B and C. -/
def State.vMap (s : State) (t c : Nat) (w : Entry) (rs : List Reg) (f : Val → Val → Val → Val) : State :=
  let n := vRows w * vCols w
  let a := s.vA t c w
  let b := if vUsesB c then s.valsAt t (lvAddr w 2) (lvFmt w 2) (vCountB c w) 1 (vCountB c w) (fun _ _ => Val_zero) else []
  let z := if vThird c then s.valsAt t (vAux w) (lvFmt w 1) n (vRows w) (vCols w) (fun _ _ => Val_zero) else []
  s.vStore t c w rs (vRows w) (vCols w)
    (a.zipIdx.map fun x => f x.1 (bcast w b x.2) (z.getD x.2 Val_zero))

/-- A vector macro-op past its checks: in place it saves its pre-image first (R113). -/
def State.vector (s : State) (t c : Nat) (w : Entry) (chk : TileCheck) (body : State → Entry → List Reg → State) : State :=
  s.macroOp t c w (vBad c) (vRegs c) (fun v => if vUsesD c then blocksFor (lvFmt v 3) (vShapeD c v).1 (vShapeD c v).2 else 0)
    fun u v rs =>
      let pre := c == 0x48 || c == 0x49 || (vUsesA c && vUsesD c && lvAddr v 1 == lvAddr v 3)
      u.compute t v rs chk pre fun a => body a v rs

/-! ## Elementwise macro-ops (R112) -/

/-- VADD. -/
def execVadd (t : Fin 272) (w : Entry) (chk : TileCheck) (s : State) : Host.Outcome State Fault Refusal :=
  .next (s.vector t.val 0x30 w chk fun u v rs =>
    u.vMap t.val 0x30 v rs fun x y _ => round32 (vRnd v) (Val_add x y))

/-- VSUB. -/
def execVsub (t : Fin 272) (w : Entry) (chk : TileCheck) (s : State) : Host.Outcome State Fault Refusal :=
  .next (s.vector t.val 0x31 w chk fun u v rs =>
    u.vMap t.val 0x31 v rs fun x y _ => round32 (vRnd v) (Val_add x (Val_flip y)))

/-- VMUL. -/
def execVmul (t : Fin 272) (w : Entry) (chk : TileCheck) (s : State) : Host.Outcome State Fault Refusal :=
  .next (s.vector t.val 0x32 w chk fun u v rs =>
    u.vMap t.val 0x32 v rs fun x y _ => round32 (vRnd v) (Val_mul x y))

/-- VFMA: one rounding. -/
def execVfma (t : Fin 272) (w : Entry) (chk : TileCheck) (s : State) : Host.Outcome State Fault Refusal :=
  .next (s.vector t.val 0x33 w chk fun u v rs =>
    u.vMap t.val 0x33 v rs fun x y z => round32 (vRnd v) (Val_add (Val_mul x y) z))

/-- VMAX. -/
def execVmax (t : Fin 272) (w : Entry) (chk : TileCheck) (s : State) : Host.Outcome State Fault Refusal :=
  .next (s.vector t.val 0x34 w chk fun u v rs => u.vMap t.val 0x34 v rs fun x y _ => Val_max x y)

/-- VMIN. -/
def execVmin (t : Fin 272) (w : Entry) (chk : TileCheck) (s : State) : Host.Outcome State Fault Refusal :=
  .next (s.vector t.val 0x35 w chk fun u v rs => u.vMap t.val 0x35 v rs fun x y _ => Val_min x y)

/-- VACT. -/
def execVact (t : Fin 272) (w : Entry) (chk : TileCheck) (s : State) : Host.Outcome State Fault Refusal :=
  .next (s.vector t.val 0x36 w chk fun u v rs => u.vMap t.val 0x36 v rs fun x _ _ => actFn (vFunc v) x)

/-- A comparison by FUNC 0x10 to 0x15; NaN is unordered, −0 equals +0. -/
def cmpFn (f : Nat) (x y : Val) : Bool :=
  if f = 0x10 then Val_eq x y
  else if f = 0x11 then !Val_eq x y
  else if f = 0x12 then Val_lt x y
  else if f = 0x13 then Val_lt x y || Val_eq x y
  else if f = 0x14 then Val_lt y x
  else Val_lt y x || Val_eq x y

/-- VCMP. -/
def execVcmp (t : Fin 272) (w : Entry) (chk : TileCheck) (s : State) : Host.Outcome State Fault Refusal :=
  .next (s.vector t.val 0x37 w chk fun u v rs =>
    u.vMap t.val 0x37 v rs fun x y _ => if cmpFn (vFunc v) x y then .fin false 1 1 else Val_zero)

/-- VSEL: B where the mask is non-zero, A elsewhere. -/
def execVsel (t : Fin 272) (w : Entry) (chk : TileCheck) (s : State) : Host.Outcome State Fault Refusal :=
  .next (s.vector t.val 0x38 w chk fun u v rs =>
    u.vMap t.val 0x38 v rs fun x y z => if Val_isZero z then x else y)

/-- VCVT. -/
def execVcvt (t : Fin 272) (w : Entry) (chk : TileCheck) (s : State) : Host.Outcome State Fault Refusal :=
  .next (s.vector t.val 0x3C w chk fun u v rs => u.vMap t.val 0x3C v rs fun x _ _ => x)

/-- QUANT (R79 to R83). -/
def execQuant (t : Fin 272) (w : Entry) (chk : TileCheck) (s : State) : Host.Outcome State Fault Refusal :=
  .next (s.vector t.val 0x3D w chk fun u v rs => u.vMap t.val 0x3D v rs fun x _ _ => x)

/-- DEQUANT (R71). -/
def execDequant (t : Fin 272) (w : Entry) (chk : TileCheck) (s : State) : Host.Outcome State Fault Refusal :=
  .next (s.vector t.val 0x3E w chk fun u v rs => u.vMap t.val 0x3E v rs fun x _ _ => x)

/-! ## Row macro-ops -/

/-- The rows of A. -/
def State.vRowsOf (s : State) (t c : Nat) (w : Entry) : List (List Val) :=
  let a := s.vA t c w
  (List.range (vRows w)).map fun r => (a.drop (r * vCols w)).take (vCols w)

/-- VRSUM: each row in the exact accumulator, rounded once; a sum that leaves the range sets the non-finite flag
(R110). -/
def execVrsum (t : Fin 272) (w : Entry) (chk : TileCheck) (s : State) : Host.Outcome State Fault Refusal :=
  .next (s.vector t.val 0x39 w chk fun u v rs =>
    let sums := (u.vRowsOf t.val 0x39 v).map exactSum
    let e := u.tileCtx t.val
    let a := if sums.any fun x => x.2 then u.setNonfinite e.part e.eval else u
    a.vStore t.val 0x39 v rs (vRows v) 1 (sums.map fun x => exactVal x.1))

/-- The largest element of a row. -/
def rowMax (r : List Val) : Val :=
  match r with
  | [] => Val_zero
  | x :: xs => xs.foldl Val_max x

/-- VRMAX. -/
def execVrmax (t : Fin 272) (w : Entry) (chk : TileCheck) (s : State) : Host.Outcome State Fault Refusal :=
  .next (s.vector t.val 0x3A w chk fun u v rs =>
    u.vStore t.val 0x3A v rs (vRows v) 1 ((u.vRowsOf t.val 0x3A v).map rowMax))

/-- `x` ranks above `y`: NaN above every number, −0 below +0 (R112; log 32). -/
def ranksAbove (x y : Val) : Bool :=
  if x = .nan then y != .nan
  else if y = .nan then false
  else Val_lt y x || (!Val_lt x y && Val_neg y && !Val_neg x)

/-- A column put at its rank among those before it. -/
def rankInsert (x : Val × Nat) : List (Val × Nat) → List (Val × Nat)
  | [] => [x]
  | y :: ys => if ranksAbove x.1 y.1 then x :: y :: ys else y :: rankInsert x ys

/-- The k largest of a row with their columns. -/
def topK (k : Nat) (r : List Val) : List (Val × Nat) :=
  (r.zipIdx.foldl (fun l x => rankInsert x l) []).take k

/-- VTOPK: values to D, column indices as INT32 to B, sealed as FP32 blocks from index 0 (log 32). -/
def execVtopk (t : Fin 272) (w : Entry) (chk : TileCheck) (s : State) : Host.Outcome State Fault Refusal :=
  .next (s.vector t.val 0x3B w chk fun u v rs =>
    let tops := (u.vRowsOf t.val 0x3B v).map (topK (vK v))
    let p := u.vPar t.val 0x3B v
    let vs := tops.map fun r => r.map fun x => x.1
    let withheld := lvFmt v 3 != 0 && (quantStore p false (vK v) vs).refuse
    let a := if withheld then u
      else u.writeSlots t.val (lvAddr v 2) (lvTensor v 2) 0 0 (wideBlocks 0 (tops.flatMap fun r => r.map fun x => x.2))
    a.vStore t.val 0x3B v rs (vRows v) (vK v) (vs.flatMap fun r => r))

/-! ## Moves of elements -/

/-- VTRANS. -/
def execVtrans (t : Fin 272) (w : Entry) (chk : TileCheck) (s : State) : Host.Outcome State Fault Refusal :=
  .next (s.vector t.val 0x3F w chk fun u v rs =>
    let n := vRows v * vCols v
    let cs := u.codesAt t.val (lvAddr v 1) (lvFmt v 1) n
    u.plainD t.val v rs (lvFmt v 1) ((List.range n).map fun i => cs.getD (i % vRows v * vCols v + i / vRows v) 0))

/-- VFILL. -/
def execVfill (t : Fin 272) (w : Entry) (chk : TileCheck) (s : State) : Host.Outcome State Fault Refusal :=
  .next (s.vector t.val 0x40 w chk fun u v rs =>
    u.vStore t.val 0x40 v rs (vRows v) (vCols v) (List.replicate (vRows v * vCols v) (ofFp32 (Entry_bits v 5 63 32))))

/-- VRAND (R310). -/
def execVrand (t : Fin 272) (w : Entry) (chk : TileCheck) (s : State) : Host.Outcome State Fault Refusal :=
  .next (s.vector t.val 0x41 w chk fun u v rs =>
    u.vStore t.val 0x41 v rs (vRows v) (vCols v) ((List.range (vRows v * vCols v)).map fun i =>
      .fin false (u.drawAt t.val v i / 256) (2 ^ 24)))

/-- VIDX: row r of D is row B[r] of A; an index that names no row of A gives a free value (log 7, log 32). -/
def execVidx (t : Fin 272) (w : Entry) (chk : TileCheck) (s : State) : Host.Outcome State Fault Refusal :=
  .next (s.vector t.val 0x42 w chk fun u v rs =>
    let cols := vCols v
    let cs := u.codesAt t.val (lvAddr v 1) (lvFmt v 1) (vRows v * cols)
    let is := u.codesAt t.val (lvAddr v 2) 0 (vRows v)
    let n := (is.filter fun i => decide (vRows v ≤ i)).length * cols
    let out := is.zipIdx.flatMap fun i => (List.range cols).map fun c =>
      if i.1 < vRows v then cs.getD (i.1 * cols + c) 0
      else (Config.freeValue (u.free + i.2 * cols + c)).toNat % 2 ^ fmtWidth (lvFmt v 1)
    let a := if n = 0 then u else { u with free := u.free + vRows v * cols }
    a.plainD t.val v rs (lvFmt v 1) out)

/-! ## Exact regions (R110, R111) -/

/-- An exact region replaced by elements that may have left the range. -/
def State.regionWrite (s : State) (t : Nat) (w : Entry) (rs : List Reg) (xs : List (Exact × Bool)) : State :=
  let e := s.tileCtx t
  let u := if xs.any fun x => x.2 then s.setNonfinite e.part e.eval else s
  (u.writeRange t (vAux w) (xs.flatMap fun x => exactBytes x.1)).issueDone t w .done rs

/-- XADD. -/
def execXadd (t : Fin 272) (w : Entry) (chk : TileCheck) (s : State) : Host.Outcome State Fault Refusal :=
  .next (s.vector t.val 0x48 w chk fun u v rs =>
    let n := vRows v * vCols v
    u.regionWrite t.val v rs (((u.regionAt t.val (vAux v) n).zip (u.vA t.val 0x48 v)).map fun x => exactAdd x.1 x.2))

/-- XMERGE. -/
def execXmerge (t : Fin 272) (w : Entry) (chk : TileCheck) (s : State) : Host.Outcome State Fault Refusal :=
  .next (s.vector t.val 0x49 w chk fun u v rs =>
    let n := vRows v * vCols v
    u.regionWrite t.val v rs (((u.regionAt t.val (vAux v) n).zip (u.regionAt t.val (Entry_bits v 6 22 0) n)).map
      fun x => exactMerge x.1 x.2))

/-- XROUND: each element rounded once to D's format. -/
def execXround (t : Fin 272) (w : Entry) (chk : TileCheck) (s : State) : Host.Outcome State Fault Refusal :=
  .next (s.vector t.val 0x4A w chk fun u v rs =>
    let f := lvFmt v 3
    u.plainD t.val v rs f ((u.regionAt t.val (vAux v) (vRows v * vCols v)).zipIdx.map fun x =>
      (encodeF f (vRnd v) (u.drawAt t.val v x.2 / 65536) (Entry_bits v 4 5 5 == 1) (exactVal x.1)).1))

/-- XZERO. -/
def execXzero (t : Fin 272) (w : Entry) (chk : TileCheck) (s : State) : Host.Outcome State Fault Refusal :=
  .next (s.vector t.val 0x4B w chk fun u v rs =>
    u.regionWrite t.val v rs (List.replicate (vRows v * vCols v) (exact0, false)))

end Sys2Proof.Machine
end

