-- ==== Sys2Proof/Machine/Deep.lean ====
section
/-!
DEFINITION. The Deep-tier controller: D writes and the write governor, wear, the work of the flash translation layer,
read-only entry and the translation rebuild (R181 to R191).
-/

namespace Sys2Proof.Machine

open Sys2Proof

/-! ## Life and read-only (R184, R185, R189) -/

/-- Blocks of 4 KiB in the 40 TiB of raw NAND. -/
def rawBlocks : Nat := 40 * 2 ^ 28

/-- The spare pool left, in MiB (R184). -/
def State.spareMiB (s : State) : Nat := Config.sparePoolMiB - s.tiers.retiredErase.length * Config.eraseBlockMiB

/-- SPARE_PCT: the spare pool in percent of the raw capacity. -/
def State.sparePct (s : State) : Nat := s.spareMiB * 100 / (40 * 2 ^ 20)

/-- LIFE_PCT: the mean program and erase count over 3,000, in percent (R189). -/
def State.lifePct (s : State) : Nat := min 255 (s.tiers.nandBlocks * 100 / (rawBlocks * 3000))

/-- D is Read-only (R185). -/
def State.deepReadOnly (s : State) : Bool := s.get DEEP_STATUS_STATE == 3

/-- The cause that makes D Read-only, where one holds: 1 the spare pool below 512 GiB, 2 wear at 100 %. -/
def State.readOnlyCause (s : State) : Option Nat :=
  if s.spareMiB < 524288 then some 1 else if 100 ≤ s.lifePct then some 2 else none

/-- D enters Read-only where a cause holds: event 0x9108 (R185). -/
def State.checkReadOnly (s : State) : State :=
  match s.readOnlyCause with
  | some c =>
    if s.deepReadOnly then s
    else (s.put DEEP_STATUS_STATE 3).ev 0x9108 0x040 0 c s.sparePct s.lifePct
  | none => s

/-- SCALE for the write amplification of the current window: 100 up to 2.0, else 2.0 over it in percent (R189). -/
def State.scaleFor (s : State) : Nat :=
  if s.tiers.dayNand ≤ 2 * s.tiers.dayLogical then 100 else max 1 (200 * s.tiers.dayLogical / s.tiers.dayNand)

/-- The wear registers follow the counts: write amplification and SCALE with event 0x9104 when it passes 2.0, LIFE_PCT
with event 0x9106 at 95 % and Read-only at 100 % (R189). -/
def State.wear (s : State) : State :=
  let x := s.tiers
  let t := ((s.put DEEP_LIFE_LOGICAL_MIB (x.logicalBlocks / 256)).put DEEP_LIFE_NAND_MIB (x.nandBlocks / 256)).put
    DEEP_STATUS_LIFE_PCT s.lifePct
  let t := t.put DEEP_STATUS_SPARE_PCT s.sparePct
  let t := if x.dayLogical = 0 then t else t.put DEEP_GOV_STATUS_WA_X10 (min 255 (x.dayNand * 10 / x.dayLogical))
  let old := s.get DEEP_GOV_STATUS_SCALE
  let t := if x.dayLogical = 0 then t else t.put DEEP_GOV_STATUS_SCALE s.scaleFor
  let t := if old = 100 ∧ t.get DEEP_GOV_STATUS_SCALE ≠ 100 then
      t.ev 0x9104 0x040 0 (t.get DEEP_GOV_STATUS_WA_X10) (t.get DEEP_GOV_STATUS_SCALE) 0 else t
  let t := if 95 ≤ s.lifePct ∧ !x.wear95 then
      { t with tiers := { t.tiers with wear95 := true } }.ev 0x9106 0x040 0 s.lifePct s.sparePct 0 else t
  t.checkReadOnly

/-- NAND pages programmed: `logical` of them for blocks accepted from outside, `moved` by the translation layer (R187,
R189).  The 24 h window starts again once 24 h have passed. -/
def State.nand (s : State) (logical moved : Nat) : State :=
  let x := s.tiers
  let again := x.daySince + 86400000000000 ≤ s.now
  { s with tiers := { x with
      logicalBlocks := x.logicalBlocks + logical, nandBlocks := x.nandBlocks + logical + moved
      dayLogical := (if again then 0 else x.dayLogical) + logical
      dayNand := (if again then 0 else x.dayNand) + logical + moved
      daySince := if again then s.now else x.daySince
      forwarded := if x.rebuilding then x.forwarded + moved else x.forwarded } }.wear

/-! ## The governor (R187, R188) -/

/-- One block of credit in the model's unit: a microsecond's accrual at 1 per mille and SCALE 1 is 2^33 of it. -/
def creditUnit : Nat := 8640000000000000

/-- The credit set, with CREDIT_MIB. -/
def State.setCredit (s : State) (c : Nat) : State :=
  { s with tiers := { s.tiers with credit := c } }.put DEEP_GOV_STATUS_CREDIT_MIB (c / creditUnit / 256)

/-- The D writes that wait for credit. -/
def State.unpaid (s : State) : List DWrite := s.tiers.dwrites.filter fun w => !w.credited

/-- LIMITED follows the credit, with event 0x9103 at each entry and exit (R187, R188). -/
def State.limited (s : State) : State :=
  let l := if s.tiers.credit < creditUnit then 1 else 0
  if s.get DEEP_GOV_STATUS_LIMITED = l then s
  else (s.put DEEP_GOV_STATUS_LIMITED l).ev 0x9103 0x040 0 l (s.get DEEP_GOV_STATUS_CREDIT_MIB) s.unpaid.length

/-- A waiting write comes before another: by kind, then C1 before C2 and C3; arrival order within (R188). -/
def writeBefore (a b : DWrite) : Bool :=
  decide (a.kind < b.kind) || (a.kind == b.kind && a.cls == 1 && b.cls != 1)

/-- The waiting write that is admitted first. -/
def firstWrite : List DWrite → Option DWrite
  | [] => none
  | w :: ws => match firstWrite ws with
    | some v => if writeBefore v w then some v else some w
    | none => some w

/-- Waiting writes admitted while credit lasts, one block debited for each. -/
def State.admitWrites : Nat → State → State
  | 0, s => s.limited
  | f + 1, s =>
    if s.tiers.credit < creditUnit then s.limited
    else match firstWrite s.unpaid with
      | none => s.limited
      | some w =>
        let t := s.setCredit (s.tiers.credit - creditUnit)
        State.admitWrites f (({ t with tiers := { t.tiers with
          dwrites := t.tiers.dwrites.map fun (v : DWrite) => if v.id = w.id then { v with credited := true } else v } }).nand 1 0)

/-- The writes of a class that the controller's queue holds (R183). -/
def State.classWrites (s : State) (cls : Nat) : List DWrite := s.tiers.dwrites.filter fun w => w.cls == cls

/-- A block written to D: debited when the controller accepts it, and in D once it is acknowledged.  None in Read-only,
and where the class's queue of 2,048 blocks and 8,192 deferred requests are full: REFUSED_CAPACITY (R173, R182, R185). -/
def State.dWrite (s : State) (kind cls block : Nat) (data : List Byte) (x : Seal) (what : DFor) : Option State :=
  if s.deepReadOnly || decide (10240 ≤ (s.classWrites cls).length) then none
  else
    let w : DWrite := ⟨s.tiers.nextWrite, kind, cls, block, data, x, what, s.now, false⟩
    let t := { s with tiers := { s.tiers with
      dwrites := s.tiers.dwrites ++ [w], nextWrite := s.tiers.nextWrite + 1 } }
    some (State.admitWrites (t.unpaid.length + 1) t)

/-- The bytes that a further write of a block builds on: those of the last write on its way, else those in D. -/
def State.dBlock (s : State) (block : Nat) : List Byte × Seal :=
  match (s.tiers.dwrites.filter fun w => w.block == block).getLast? with
  | some w => (w.data, w.blkSeal)
  | none => (s.block .d (block * 4096), s.sealOf .d (block * 4096))

/-- An acknowledged write: the block is in the protected buffer, so that every later read returns it (R181, R182). -/
def State.dAck (s : State) (w : DWrite) : State :=
  { s with tiers := { s.tiers with dwrites := s.tiers.dwrites.filter fun v => v.id != w.id } }.setBlock .d
    (w.block * 4096) w.data w.blkSeal

/-- ACCRUE and BURST_TIB as they read (R187). -/
def State.accrue (s : State) : Nat := clampTo 1 1000 (s.get DEEP_GOV_CFG_ACCRUE)
/-- The cap of the credit in blocks. -/
def State.creditCap (s : State) : Nat := clampTo 1 32 (s.get DEEP_GOV_CFG_BURST_TIB) * 2 ^ 28

/-- CREDIT_ACCRUAL (R187): credit accrues for a time, up to the cap, and waiting writes are admitted. -/
def execCreditAccrual (us : Nat) (s : State) : Host.Outcome State Fault Refusal :=
  .next (whenOn s
    (let c := s.tiers.credit + us * 2 ^ 33 * s.accrue * s.get DEEP_GOV_STATUS_SCALE
     State.admitWrites (s.unpaid.length + 1) (s.setCredit (min c (s.creditCap * creditUnit)))))

/-- GOVERNOR_CREDIT_SAVE (R187): the credit and the counters of DEEP_LIFE saved to NAND. -/
def execGovernorCreditSave (s : State) : Host.Outcome State Fault Refusal :=
  .next (whenOn s
    ({ s with tiers := { s.tiers with
        savedCredit := s.tiers.credit, savedLogical := s.tiers.logicalBlocks, savedNand := s.tiers.nandBlocks } }.wear))

/-! ## The flash translation layer (R183, R184, R190) -/

/-- GARBAGE_COLLECTION (R183): valid pages moved and erase blocks erased; data and translations keep their values. -/
def execGarbageCollection (moved : Nat) (s : State) : Host.Outcome State Fault Refusal :=
  .next (whenOn s (s.nand 0 moved))

/-- STATIC_WEAR_LEVELLING (R183, R190): cold data moved onto worn blocks; the sweep starts a translation rebuild. -/
def execStaticWearLevelling (moved : Nat) (s : State) : Host.Outcome State Fault Refusal :=
  .next (whenOn s
    (let t := if s.tiers.rebuilding then s else
        { s with tiers := { s.tiers with
          rebuilding := true, rebuildReady := false, rebuildSince := s.now, forwarded := 0 } }.put DEEP_STATUS_REBUILD 1
     t.nand 0 moved))

/-- READ_DISTURB_REFRESH (R183): the valid data of an erase block moved, and the block erased. -/
def execReadDisturbRefresh (_block moved : Nat) (s : State) : Host.Outcome State Fault Refusal :=
  .next (whenOn s (s.nand 0 moved))

/-- RETENTION_REFRESH (R183): data older than 90 days moved. -/
def execRetentionRefresh (moved : Nat) (s : State) : Host.Outcome State Fault Refusal :=
  .next (whenOn s (s.nand 0 moved))

/-- BAD_BLOCK_RETIREMENT (R184): an erase block retired from the spare pool; each logical block that no retry recovers
is poisoned with event 0x9105; D enters Read-only below 512 GiB of spares (R185). -/
def execBadBlockRetirement (block : Nat) (lost : List Nat) (s : State) : Host.Outcome State Fault Refusal :=
  .next (whenOn s
    (let t := if s.tiers.retiredErase.contains block then s else
        { s with tiers := { s.tiers with retiredErase := s.tiers.retiredErase ++ [block] } }
     (lost.foldl (fun (u : State) b => (u.poison .d (b * 4096)).ev 0x9105 0x040 0 b block 1) t).wear))

/-- TRANSLATION_REBUILD_COMPLETE (R190): the inactive bank is complete and waits for the next module Meridian. -/
def execTranslationRebuildComplete (s : State) : Host.Outcome State Fault Refusal :=
  .next (whenLive s (if s.tiers.rebuilding then { s with tiers := { s.tiers with rebuildReady := true } } else s))

/-- The translation flip at a module Meridian, with event 0x9109 (R190). -/
def State.deepFlip (s : State) : State :=
  if s.tiers.rebuilding ∧ s.tiers.rebuildReady then
    let e := 1 - s.get DEEP_STATUS_EPOCH
    let t := (s.put DEEP_STATUS_EPOCH e).put DEEP_STATUS_REBUILD 0
    { t with tiers := { t.tiers with rebuilding := false, rebuildReady := false, forwarded := 0 } }.ev 0x9109 0x040 0 e
      s.tiers.forwarded ((s.now - s.tiers.rebuildSince) / 1000000)
  else s

end Sys2Proof.Machine
end

