-- ==== Sys2Proof/Machine/Tables.lean ====
section
/-!
DEFINITION. Embedding tables: descriptors, homes, slots, the rows in H and D, promotion, eviction and write-back
(R173 to R180, R192 to R197).
-/

namespace Sys2Proof.Machine

open Sys2Proof

/-! ## The table descriptor (R192) -/

/-- Bits [hi:lo] of word `k` of a 128-byte descriptor. -/
def Desc_bits (d : Desc) (k hi lo : Nat) : Nat := bitsOf (64 * k + hi) (64 * k + lo) d.toNat

/-- FMT. -/
def tdFmt (d : Desc) : Nat := Desc_bits d 0 43 39
/-- DIM. -/
def tdDim (d : Desc) : Nat := Desc_bits d 0 38 28 + 1
/-- RULE. -/
def tdRule (d : Desc) : Nat := Desc_bits d 0 27 24
/-- SHARD_KIND. -/
def tdKind (d : Desc) : Nat := Desc_bits d 0 23 22
/-- ROWS. -/
def tdRows (d : Desc) : Nat := Desc_bits d 1 47 0
/-- SHARDS. -/
def tdShards (d : Desc) : Nat := Desc_bits d 2 63 44 + 1
/-- THIS_SHARD. -/
def tdThis (d : Desc) : Nat := Desc_bits d 2 43 24
/-- VALUE_H. -/
def tdValueH (d : Desc) : Nat := Desc_bits d 4 63 0
/-- STATE_H. -/
def tdStateH (d : Desc) : Nat := Desc_bits d 5 63 0
/-- MAP_H. -/
def tdMapH (d : Desc) : Nat := Desc_bits d 6 63 0
/-- CACHE_ROWS. -/
def tdCache (d : Desc) : Nat := Desc_bits d 7 63 32
/-- MERGE_ROWS. -/
def tdMerge (d : Desc) : Nat := Desc_bits d 7 31 0
/-- VALUE_D; 0 for an H-only table. -/
def tdValueD (d : Desc) : Nat := Desc_bits d 8 63 0
/-- STATE_D. -/
def tdStateD (d : Desc) : Nat := Desc_bits d 9 63 0
/-- MERGE_H. -/
def tdMergeH (d : Desc) : Nat := Desc_bits d 10 63 0
/-- REPL_H. -/
def tdReplH (d : Desc) : Nat := Desc_bits d 11 63 0
/-- REPL_ROWS. -/
def tdReplRows (d : Desc) : Nat := Desc_bits d 12 63 32
/-- The tag of value blocks (R195). -/
def tdTag (d : Desc) : Nat := 0xE00000 + Desc_bits d 0 63 48
/-- The tag of state blocks. -/
def tdStateTag (d : Desc) : Nat := 0xE10000 + Desc_bits d 0 63 48
/-- STATE_WORDS (R195). -/
def tdWords (d : Desc) : Nat :=
  if tdRule d = 1 then tdDim d else if tdRule d = 2 then 1 else if tdRule d = 3 then 2 * tdDim d else 0
/-- Rows per value block (R195). -/
def tdRpb (d : Desc) : Nat :=
  if fmtNarrow (tdFmt d) then blkGroups (tdFmt d) / (tdDim d / 32) else blkElems (tdFmt d) / tdDim d
/-- Rows per state block. -/
def tdSpb (d : Desc) : Nat := 1024 / max 1 (tdWords d)
/-- Rows of a shard under range sharding (R194). -/
def tdPer (d : Desc) : Nat := ceilDiv (tdRows d) (tdShards d)
/-- The shard of a global row. -/
def tdShard (d : Desc) (r : Nat) : Nat := if tdKind d = 0 then r / tdPer d else r % tdShards d
/-- The local index of a global row in its shard. -/
def tdLocal (d : Desc) (r : Nat) : Nat := if tdKind d = 0 then r - tdShard d r * tdPer d else r / tdShards d
/-- The global row of a local index of this shard. -/
def tdGlobal (d : Desc) (i : Nat) : Nat := if tdKind d = 0 then tdThis d * tdPer d + i else i * tdShards d + tdThis d
/-- The rows of this shard. -/
def tdCount (d : Desc) : Nat :=
  if tdKind d = 0 then min (tdPer d) (tdRows d - tdThis d * tdPer d) else ceilDiv (tdRows d - tdThis d) (tdShards d)
/-- Bytes of a row's elements. -/
def tdRowBytes (d : Desc) : Nat := tdDim d * fmtWidth (tdFmt d) / 8
/-- The table lives in H alone. -/
def tdHOnly (d : Desc) : Bool := tdValueD d == 0

/-! ## Tables of the state -/

/-- The job domain of a table (R194). -/
def State.tableDomain (s : State) (b : Table) : Nat := s.get (CTX_JOB_DOMAIN b.ctx)

/-- The table that a job domain and TABLE_ID name on an engine. -/
def State.tableAt (s : State) (k dom tid : Nat) : Option Table :=
  s.tables.find? fun b => b.engine == k && b.tid == tid && !b.retired && s.tableDomain b == dom

/-- A table by its key. -/
def State.tableKey (s : State) (key : Nat) : Option Table := s.tables.find? fun b => b.key == key

/-- A table replaced. -/
def State.setTable (s : State) (b : Table) : State :=
  { s with tables := s.tables.map fun (x : Table) => if x.key = b.key then b else x }

/-- A table changed. -/
def State.mapTable (s : State) (key : Nat) (f : Table → Table) : State :=
  { s with tables := s.tables.map fun (x : Table) => if x.key = key then f x else x }

/-- The place of a byte of a table's region, while the extents of its context cover it. -/
def State.region (s : State) (b : Table) (addr rel : Nat) : Option (Space × Nat) :=
  (findExtent (s.ctx b.ctx).extents (tierOf addr) (offOf addr + rel) 1).map fun e =>
    (tierSpace e.tier, Extent_phys e (offOf addr + rel - e.off))

/-- Bytes of a list replaced from an offset on. -/
def putBytes (bs : List Byte) (off : Nat) (new : List Byte) : List Byte :=
  bs.take off ++ new ++ bs.drop (off + new.length)

/-! ## Slot records (R196) -/

/-- The slot record of a slot: row and AGE. -/
def State.slotRec (s : State) (b : Table) (k : Nat) : Nat :=
  match s.region b (tdMapH b.desc) (32 * tdCache b.desc + 8 * k) with
  | some (sp, a) => s.num sp a 8
  | none => 2 ^ 48 - 1

/-- A slot record written. -/
def State.setSlotRec (s : State) (b : Table) (k row age : Nat) : State :=
  match s.region b (tdMapH b.desc) (32 * tdCache b.desc + 8 * k) with
  | some (sp, a) => (s.recallWrite a).partialWrite sp a (bytesLE 8 (row % 2 ^ 48 + min age 255 * 2 ^ 48))
  | none => s

/-- The row field of a free slot's record. -/
def noRow : Nat := 2 ^ 48 - 1

/-- A slot freed. -/
def State.freeSlot (s : State) (b : Table) (k : Nat) : State := s.setSlotRec b k noRow 0

/-- The lowest free slot. -/
def State.openSlot (s : State) (b : Table) : Option Nat :=
  (List.range (tdCache b.desc)).find? fun k => bitsOf 47 0 (s.slotRec b k) == noRow

/-- The AGE of a slot. -/
def State.slotAge (s : State) (b : Table) (k : Nat) : Nat := bitsOf 55 48 (s.slotRec b k)

/-! ## Row images -/

/-- The bytes of one row of a value block: its elements, scales and zero points or codebook indices (R72, R195). -/
def rowImage (d : Desc) (bs : List Byte) (pos : Nat) : List Byte :=
  let f := tdFmt d
  let n := tdRowBytes d
  let g := tdDim d / 32
  let es := (bs.drop (pos * n)).take n
  if fmtNarrow f then
    es ++ (bs.drop (scaleOff f + scaleBytes f * pos * g)).take (scaleBytes f * g) ++
      (if fmtMX f then [] else (bs.drop (secondOff f + pos * g)).take g)
  else es

/-- A row's bytes put at a position of a value block. -/
def rowPut (d : Desc) (bs : List Byte) (pos : Nat) (img : List Byte) : List Byte :=
  let f := tdFmt d
  let n := tdRowBytes d
  let g := tdDim d / 32
  let bs := putBytes bs (pos * n) (img.take n)
  if fmtNarrow f then
    let bs := putBytes bs (scaleOff f + scaleBytes f * pos * g) ((img.drop n).take (scaleBytes f * g))
    if fmtMX f then bs else putBytes bs (secondOff f + pos * g) ((img.drop (n + scaleBytes f * g)).take g)
  else bs

/-- The dequantised values of a row image, exact, KC4 rounded once to FP32 (R71, R204). -/
def rowVals (d : Desc) (book : Nat → Nat → Val) (img : List Byte) : List Val :=
  let f := tdFmt d
  let n := tdRowBytes d
  let g := tdDim d / 32
  let es := ofBytesLE (img.take n)
  let ss := ofBytesLE ((img.drop n).take (scaleBytes f * g))
  let zs := ofBytesLE (img.drop (n + scaleBytes f * g))
  (List.range (tdDim d)).map fun i =>
    if fmtNarrow f then
      let sc := (ss >>> (8 * scaleBytes f * (i / 32))) % 2 ^ (8 * scaleBytes f)
      let v := Val_mul (scaleVal f sc) (elemVal f book (elemCode f es i) ((zs >>> (8 * (i / 32))) % 256))
      if f = 10 then round32 0 v else v
    else decodeF f (elemCode f es i)

/-- The codebook set of a table (R70, R192). -/
def State.tableBook (s : State) (b : Table) : Nat → Nat → Val :=
  match s.region b (Desc_bits b.desc 15 63 0) 0 with
  | some (sp, a) =>
    let n := s.num sp a 8192
    fun c k => ofBf16 ((n >>> (8 * (32 * c + 2 * k))) % 65536)
  | none => fun _ _ => Val_zero

/-- What a check of a block that carries committed rows or row state gives: its tag and format, then poison, then its
CRC (R115, R203, R360).  A block that nothing has sealed counts as good where `fresh` allows it (log 34). -/
def blockCheck (x : Seal) (bs : List Byte) (tensor fmt block : Nat) (fresh : Bool) : Status :=
  if fresh && x == seal0 then .done
  else if x.tensor.toNat ≠ tensor ∨ x.block.toNat ≠ block ∨ x.fmt.toNat ≠ fmt then .sealMismatch
  else if x.poison then .poisoned
  else if crcGood x bs then .done else .sealMismatch

/-- The value row in a slot: the status of its block's check and its image. -/
def State.readRow (s : State) (b : Table) (slot : Nat) : Status × List Byte :=
  let k := slot / tdRpb b.desc
  match s.region b (tdValueH b.desc) (4096 * k) with
  | some (sp, a) =>
    (blockCheck (s.sealOf sp a) (s.block sp a) (tdTag b.desc) (tdFmt b.desc) k false,
      rowImage b.desc (s.block sp a) (slot % tdRpb b.desc))
  | none => (.refusedPartition, [])

/-- The optimiser state in a slot, as the bytes of its words. -/
def State.readState (s : State) (b : Table) (slot : Nat) : Status × List Byte :=
  let k := slot / tdSpb b.desc
  let n := 4 * tdWords b.desc
  if n = 0 then (.done, [])
  else match s.region b (tdStateH b.desc) (4096 * k) with
    | some (sp, a) =>
      (blockCheck (s.sealOf sp a) (s.block sp a) (tdStateTag b.desc) 0 k true,
        ((s.block sp a).drop (slot % tdSpb b.desc * n)).take n)
    | none => (.refusedPartition, [])

/-- A block of a region of H rewritten in part and sealed afresh with its tag, format and the step of its newest row;
poison stays until the whole block is written (R178, R360, R361). -/
def State.rewrite (s : State) (sp : Space) (a : Nat) (bs : List Byte) (tensor fmt block step : Nat) : State :=
  let x := s.sealOf sp a
  let st := if stepLe x.step.toNat step then step else x.step.toNat
  ((s.recallWrite a).setBytes sp (a / 4096 * 4096) bs).setSeal sp a
    { mkSeal bs tensor fmt block st with poison := x.poison }

/-- A row's value put in a slot. -/
def State.writeRow (s : State) (b : Table) (slot step : Nat) (img : List Byte) : State :=
  let k := slot / tdRpb b.desc
  match s.region b (tdValueH b.desc) (4096 * k) with
  | some (sp, a) => s.rewrite sp a (rowPut b.desc (s.block sp a) (slot % tdRpb b.desc) img) (tdTag b.desc) (tdFmt b.desc) k step
  | none => s

/-- A row's optimiser state put in a slot. -/
def State.writeState (s : State) (b : Table) (slot step : Nat) (ws : List Byte) : State :=
  let k := slot / tdSpb b.desc
  if tdWords b.desc = 0 then s
  else match s.region b (tdStateH b.desc) (4096 * k) with
    | some (sp, a) => s.rewrite sp a (putBytes (s.block sp a) (slot % tdSpb b.desc * (4 * tdWords b.desc)) ws)
        (tdStateTag b.desc) 0 k step
    | none => s

/-! ## Homes and owners (R175, R194, R196, R197) -/

/-- The home of a global row: module and stack (R194, R219). -/
def State.homeOf (s : State) (b : Table) (r : Nat) : Nat × Nat :=
  match b.overrides.find? fun o => decide (o.first ≤ r) && decide (r < o.first + o.count) with
  | some o => (o.module, o.stack)
  | none =>
    match s.region b (Desc_bits b.desc 3 63 0) (4 * tdShard b.desc r) with
    | some (sp, a) =>
      let w := s.num sp a 4
      (bitsOf 23 0 w, bitsOf 27 24 w)
    | none => (2 ^ 24 - 1, 15)

/-- This engine is the home of a row. -/
def State.homeHere (s : State) (b : Table) (r : Nat) : Bool := s.homeOf b r == (s.self, b.engine)

/-- A row of the shard that nothing has changed: Clean in the slot of its local index in an H-only table, Cold in a
D-backed one (R195, R197). -/
def rowDefault (d : Desc) (r : Nat) : Row :=
  ⟨r, if tdHOnly d then 2 else 0, false, false, false, false, none, 0, 0, tdLocal d r, tdLocal d r, 0, false, false⟩

/-- The entry of a row at its home or old home. -/
def State.rowOf (s : State) (b : Table) (r : Nat) : Option Row :=
  match b.rows.find? fun x => x.row == r with
  | some x => some x
  | none => if r < tdRows b.desc ∧ tdShard b.desc r = tdThis b.desc ∧ s.homeHere b r then some (rowDefault b.desc r) else none

/-- A row entry put in a list in ascending row order. -/
def putRow (x : Row) : List Row → List Row
  | [] => [x]
  | y :: ys => if x.row < y.row then x :: y :: ys else if x.row = y.row then x :: ys else y :: putRow x ys

/-- A row entry set: the entry of a Cold row of the shard is not held (R196). -/
def State.setRow (s : State) (key : Nat) (x : Row) : State :=
  s.mapTable key fun b =>
    if x.state = 0 ∧ x = { rowDefault b.desc x.row with version := x.version } ∧ x.version = 0 then
      { b with rows := b.rows.filter fun y => y.row != x.row }
    else { b with rows := putRow x b.rows }

/-- The row is resident and owned here: Clean, Dirty, WritingBack or Outbound. -/
def Row_resident (x : Row) : Bool := x.state == 2 || x.state == 3 || x.state == 4 || x.state == 5

/-! ## Eviction and promotion (R173, R176) -/

/-- A row comes before another as victim: TENTATIVE first, then descending AGE, then ascending slot (R196). -/
def State.victimBefore (s : State) (b : Table) (x y : Row) : Bool :=
  if x.tentative != y.tentative then x.tentative
  else if s.slotAge b x.slot ≠ s.slotAge b y.slot then decide (s.slotAge b y.slot < s.slotAge b x.slot)
  else decide (x.slot < y.slot)

/-- The first row of a list in victim order. -/
def State.firstVictim (s : State) (b : Table) : List Row → Option Row
  | [] => none
  | x :: xs => match s.firstVictim b xs with
    | some y => if s.victimBefore b y x then some y else some x
    | none => some x

/-- Rows put in victim order. -/
def State.victimOrder (s : State) (b : Table) : Nat → List Row → List Row
  | 0, _ => []
  | n + 1, l => match s.firstVictim b l with
    | some x => x :: s.victimOrder b n (l.filter (· != x))
    | none => []

/-- The rows of a D-backed table that may be chosen as victims. -/
def victims (b : Table) : List Row := b.rows.filter fun x => x.state == 2 && !x.pin

/-- A row Cold again: its slot freed, its place in D kept. -/
def State.coldRow (s : State) (b : Table) (x : Row) : State :=
  (s.freeSlot b x.slot).setRow b.key { x with
    state := 0, tentative := false, pin := false, evict := false, load := 0, slot := x.home, dirty := false }

/-- A slot for a row: a free one, else a victim's. -/
def State.takeSlot (s : State) (b : Table) : Option (State × Nat) :=
  match s.openSlot b with
  | some k => some (s, k)
  | none => (s.firstVictim b (victims b)).map fun v => (s.coldRow b v, v.slot)

/-! ## Write-back (R176, R178) -/

/-- The D block behind a place of a table's D region, as a physical block number. -/
def State.dRegion (s : State) (b : Table) (addr block : Nat) : Option Nat :=
  (s.region b addr (4096 * block)).map fun x => x.2 / 4096

/-- One D block of a region with the rows of a group put in: `put` adds one row's part. -/
def State.groupWrite (s : State) (b : Table) (kind cls addr block tensor fmt : Nat) (xs : List Row)
    (put : State → List Byte → Row → List Byte) (seals : State → Row → Seal) : Option State :=
  match s.dRegion b addr block with
  | none => none
  | some p =>
    let (bs, x) := s.dBlock p
    let out := xs.foldl (fun bs r => put s bs r) bs
    let step := xs.foldl (fun m r => if stepLe m (seals s r).step.toNat then (seals s r).step.toNat else m) x.step.toNat
    let bad := x.poison || xs.any fun r => (seals s r).poison
    s.dWrite kind cls p out { mkSeal out tensor fmt block step with poison := bad } (.rows b.key (xs.map fun r => r.row))

/-- The seal of the H block that holds a slot's value row. -/
def State.valueSeal (s : State) (b : Table) (slot : Nat) : Seal :=
  match s.region b (tdValueH b.desc) (4096 * (slot / tdRpb b.desc)) with
  | some (sp, a) => s.sealOf sp a
  | none => seal0

/-- Rows of one home block written back: their value block, and the blocks of their state where the table keeps it in
D.  The rows are WritingBack with their version noted; where D does not accept the write they stay Dirty. -/
def State.writeBackGroup (s : State) (b : Table) (xs : List Row) (evict : Bool) (cls : Nat) : State :=
  let kind := if evict then 0 else 1
  let d := b.desc
  match xs with
  | [] => s
  | x0 :: _ =>
    let blk := x0.home / tdRpb d
    match s.groupWrite b kind cls (tdValueD d) blk (tdTag d) (tdFmt d) xs
        (fun u bs r => rowPut d bs (r.home % tdRpb d) (u.readRow b r.slot).2) (fun u r => u.valueSeal b r.slot) with
    | none => s
    | some t =>
      let t := if tdStateD d = 0 then t else
        ((xs.map fun r => r.home / tdSpb d).eraseDups).foldl (fun (u : State) k =>
          (u.groupWrite b kind cls (tdStateD d) k (tdStateTag d) 0 (xs.filter fun r => r.home / tdSpb d == k)
            (fun v bs r => putBytes bs (r.home % tdSpb d * (4 * tdWords d)) (v.readState b r.slot).2)
            (fun v r => v.valueSeal b r.slot)).getD u) t
      xs.foldl (fun (u : State) r =>
        u.setRow b.key { r with state := 4, evict := evict, wbVersion := r.version }) t

/-- Dirty rows written back, each home block's rows as one group. -/
def State.writeBack (s : State) (b : Table) (xs : List Row) (evict : Bool) (cls : Nat) : State :=
  ((xs.map fun r => r.home / tdRpb b.desc).eraseDups).foldl (fun (t : State) k =>
    t.writeBackGroup b (xs.filter fun r => r.home / tdRpb b.desc == k) evict cls) s

/-- Rows that are Dirty or WritingBack. -/
def dirtyCount (b : Table) : Nat := (b.rows.filter fun x => x.state == 3 || x.state == 4).length

/-- Background write-back at C3: started above 50 % of the cache region, over the oldest Dirty rows, until those not on
their way to D are below 40 % (R178; log 35). -/
def State.background (s : State) (key : Nat) : State :=
  match s.tableKey key with
  | none => s
  | some b =>
    if tdHOnly b.desc ∨ 2 * dirtyCount b ≤ tdCache b.desc ∨ s.deepReadOnly then s
    else
      let l := b.rows.filter fun x => x.state == 3
      let keep := tdCache b.desc * 2 / 5
      s.writeBack b ((s.victimOrder b l.length l).take (l.length + 1 - keep)) false 3

/-- The eviction of a Dirty row that a promotion without a Clean victim starts: the first in victim order (R176). -/
def State.evictDirty (s : State) (b : Table) : State :=
  if b.rows.any fun x => x.state == 4 && x.evict then s
  else match s.firstVictim b (b.rows.filter fun x => x.state == 3 && !x.pin) with
    | some x => s.writeBack b [x] true 1
    | none => s

/-- How a promotion starts: started, deferred for want of a slot, or refused in Read-only (R173, R185). -/
inductive Promote where
  | started | deferred | refused
  deriving DecidableEq, Repr

/-- The promotion of a Cold row (R176): a slot is taken and D is read. -/
def State.promote (s : State) (b : Table) (x : Row) (demand : Bool) : State × Promote :=
  match s.takeSlot b with
  | some (t, k) =>
    ((t.setSlotRec b k x.row 0).setRow b.key { x with state := 1, tentative := !demand, slot := k }, .started)
  | none =>
    if !demand then (s, .refused)
    else if s.deepReadOnly then (s, .refused)
    else (s.evictDirty b, .deferred)

end Sys2Proof.Machine
end

