-- ==== Sys2Proof/Machine/Halo.lean ====
section
/-!
DEFINITION. Halo engines: queue pairs and descriptors, gather and pooling, lookahead, the gradient merge and the check
arrival (R198 to R209, R216, R219, R221).
-/

namespace Sys2Proof.Machine

open Sys2Proof

/-! ## Requests for rows (R203) -/

/-- The engine takes requests: Ready, on a stack that serves (R157, R223). -/
def State.haloServes (s : State) (k : Nat) : Bool := s.get (HALO_STATUS_STATE k) == 0 && s.stackServes k

/-- What a request for a row finds at its owner: it can be read, it waits (perhaps newly deferred), it fails, or the
row has moved. -/
inductive Want where
  | ready | wait | deferred (hint : Nat) | fail (st : Status) | moved (module stack : Nat)
  deriving DecidableEq, Repr

/-- The admission point of demand promotions on an engine (R173). -/
def rowPoint (k : Nat) : Nat := 3 + 16 * k

/-- A demand request for a row at its owner (R176): a Cold row is promoted, or waits in the engine's deferral queue of
4,096 rows. -/
def State.wantRow (s : State) (b : Table) (r cls : Nat) : State × Want :=
  match s.rowOf b r with
  | none => (s, .fail .refusedPartition)
  | some x =>
    if Row_resident x then (s, .ready)
    else if x.state = 6 then (s, .moved (x.fwd.getD (0, 0)).2 (x.fwd.getD (0, 0)).1)
    else if x.state = 1 then (s.setRow b.key { x with tentative := false }, .wait)
    else
      let q := s.deferredAt (rowPoint b.engine)
      match s.promote b x true with
      | (t, .started) => (t, .wait)
      | (t, .refused) => (t.countRefusal b.ctx 2 3 .refusedCapacity, .fail .refusedCapacity)
      | (t, .deferred) =>
        if q.any fun d => d.tier == b.key && d.amount == r then (t, .wait)
        else if 4096 ≤ q.length then (t.countRefusal b.ctx 2 3 .refusedCapacity, .fail .refusedCapacity)
        else
          let d : DeferReq := ⟨rowPoint b.engine, cls, b.ctx, b.key, r, s.now, .haloQp b.engine 0, 0, 0⟩
          ({ t with tiers := { t.tiers with deferrals := t.tiers.deferrals ++ [d] } }.inc
            (HUB_CTX_USE_N_DEFERRED b.ctx) 1, .deferred q.length)

/-- The units that a record of `n` bytes counts for (R206). -/
def recUnits (n : Nat) : Nat := ceilDiv n 256

/-- One more in a count by row. -/
def bump (m : SMap Nat) (r : Nat) : SMap Nat := smSet (fun _ => 0) m r (smGet (fun _ => 0) m r + 1)

/-- A resident row read at its owner for a demand: PIN set, TENTATIVE and EVICT cleared, its AGE 0, and its reads counted
(R176, R196, R216). -/
def State.serveRow (s : State) (b : Table) (r : Nat) (eval remote : Bool) : State × Status × List Byte :=
  match s.rowOf b r with
  | none => (s, .refusedPartition, [])
  | some x =>
    let (st, img) := s.readRow b x.slot
    let t := s.setRow b.key { x with pin := true, tentative := false, evict := false, load := min 255 (x.load + 1) }
    let t := t.setSlotRec b x.slot r 0
    let t := if remote then t.inc (HALO_COUNT_ROWS_READ b.engine) (recUnits (tdRowBytes b.desc)) else t
    let t := if eval then t else t.mapTable b.key fun y =>
      if x.imported then { y with rowReads := bump y.rowReads r, imported := y.imported + 1 }
      else { y with rowReads := bump y.rowReads r }
    (if st = .poisoned then t.ev 0x1107 (0x10 + b.engine) 0 (tdTag b.desc) (x.slot / tdRpb b.desc) (s.committed b.part)
      else t, st, img)

/-- A Valid replica of a row on this module (R203, R215). -/
def State.replicaOf (s : State) (dom tid r : Nat) : Option (Table × Replica) :=
  (s.tables.filterMap fun b =>
    if b.tid = tid ∧ !b.retired ∧ s.tableDomain b = dom then
      (b.replicas.find? fun x => x.row == r && x.state == 1).map fun x => (b, x)
    else none).head?

/-- The image in a replica slot. -/
def State.replicaImage (s : State) (b : Table) (slot : Nat) : List Byte :=
  match s.region b (tdReplH b.desc) (4096 * (slot / tdRpb b.desc)) with
  | some (sp, a) => rowImage b.desc (s.block sp a) (slot % tdRpb b.desc)
  | none => []

/-- The 24-byte payload of a ROW_REQ (log 33): the kind (0 read, 1 promotion, 2 migration admission, 3 migrated row, 4
migration flip, 5 migration dropped), flags (1 evaluation, 2 forwarded), TABLE_ID, row, step and count. -/
def rowReqPayload (kind flags tid row step count : Nat) : List Byte :=
  bytesLE 1 kind ++ bytesLE 1 flags ++ bytesLE 2 tid ++ bytesLE 8 row ++ bytesLE 4 step ++ bytesLE 4 count ++ bytesLE 4 0

/-- A request to a stack of another module by an engine, for its table's context. -/
def State.stackRequest (s : State) (k ctx ty cls m st : Nat) (spec : Bool) (payload : List Byte) (what : ReqFor) : State :=
  s.request (0x20 + k) ctx { ty := ty, cls := cls, spec := spec, dstModule := m, dstUnit := 0x20 + st, payload := payload } what

/-- A REPL packet's payload (log 33): its kind (0 request, 1 grant, 2 refusal, 3 invalidation, 4 push, 5 acknowledgement
of an invalidation, 6 acknowledgement of a push, 7 drop by the owner, 8 notice of a drop by the holder), the stack of the
table at the sender, TABLE_ID, row, version and the row's bytes. -/
def replPayload (kind stack tid row version : Nat) (img : List Byte) : List Byte :=
  bytesLE 1 kind ++ bytesLE 1 stack ++ bytesLE 2 tid ++ bytesLE 8 row ++ bytesLE 4 version ++ bytesLE 4 img.length ++ img

/-- A REPL packet of a table sent to an engine of another module. -/
def State.sendRepl (s : State) (b : Table) (cls m st kind row version : Nat) (img : List Byte) : State :=
  s.stackRequest b.engine b.ctx 0x0E cls m st false (replPayload kind b.engine b.tid row version img)
    (.repl b.engine b.tid row)

/-- A free replica slot of a table, while it has a replica region (R214). -/
def freeReplica (b : Table) : Option Nat :=
  if tdReplH b.desc = 0 then none
  else (List.range (tdReplRows b.desc)).find? fun i => !(b.replicas.any fun x => x.slot == i)

/-- A replica not created, with its cause (R214, R224). -/
def State.noReplica (s : State) (b : Table) (cause : Nat) : State := s.evLim 0xA108 b.key (0x10 + b.engine) 0 b.tid cause

/-- A read of a remote row counted; the one that reaches REPL_THRESH asks the owner for a replica (R214). -/
def State.countRemote (s : State) (qp : Nat) (b : Table) (m st r : Nat) : State :=
  let n := smGet (fun _ => 0) b.remoteReads r
  let used : Nat := (s.tables.filter fun c => c.engine == b.engine).foldl (fun (a : Nat) (c : Table) => a + c.remoteReads.length) 0
  if n = 0 ∧ 8192 ≤ used then s
  else
    let t := s.mapTable b.key fun y => { y with remoteReads := bump y.remoteReads r }
    if n + 1 ≠ Desc_bits b.desc 12 31 16 ∨ s.get (HALO_QP_CFG_REPL_EN b.engine qp) = 0 ∨ b.replicas.any (fun x => x.row == r)
    then t
    else if (freeReplica b).isNone then t.noReplica b 1
    else t.sendRepl b 2 m st 0 r 0 []

/-! ## Gather (R203 to R205) -/

/-- CLASS of a descriptor, with its op's default (R200). -/
def haloClass (e : Entry) : Nat :=
  let c := Entry_bits e 0 51 50
  let op := Entry_bits e 0 63 56
  if c ≠ 0 then c else if op = 1 ∨ op = 2 then 1 else if op = 4 ∨ op = 5 then 3 else 2

/-- EVAL. -/
def haloEval (e : Entry) : Bool := Entry_bits e 0 49 49 == 1
/-- COUNT. -/
def haloCount (e : Entry) : Nat := Entry_bits e 1 31 0

/-- The answer to occurrence `i` of a gather's IDs from another module. -/
def State.fetchOf (s : State) (o : HaloOp) (i : Nat) : Option RowFetch :=
  s.fetched.find? fun f => f.engine == o.engine && f.qp == o.qp && f.index == o.index && f.row == i

/-- The local table that serves a row wanted from a home: this engine's when it holds the row, else the home engine's
on this module. -/
def State.localHome (s : State) (b : Table) (m st : Nat) : Option Table :=
  if m = s.self then s.tableAt st (s.tableDomain b) b.tid else none

/-- The place a row is read from: a table of this module, a replica, or another module's engine (R203). -/
inductive Source where
  | table (b : Table)
  | replica (b : Table) (x : Replica)
  | remote (module stack : Nat)
  | absent

/-- The home followed once through a forwarding entry. -/
def State.followed (s : State) (b : Table) (r : Nat) (m st : Nat) : Source :=
  match s.localHome b m st with
  | none => if m = s.self then .absent else .remote m st
  | some h =>
    match s.rowOf h r with
    | some x =>
      if x.state = 6 then
        let f := x.fwd.getD (0, 0)
        match s.localHome b f.2 f.1 with
        | some g => .table g
        | none => if f.2 = s.self then .absent else .remote f.2 f.1
      else .table h
    | none => .absent

/-- The source of a row for the engine of table `b`. -/
def State.sourceOf (s : State) (b : Table) (r : Nat) : Source :=
  match s.rowOf b r with
  | some x => if x.state = 6 then s.followed b r s.self b.engine else .table b
  | none => match s.replicaOf (s.tableDomain b) b.tid r with
    | some (c, x) => .replica c x
    | none => s.followed b r (s.homeOf b r).1 (s.homeOf b r).2

/-- What occurrence `i` of a row finds: local rows are wanted at their owner, remote ones requested once. -/
def State.wantSource (s : State) (o : HaloOp) (b : Table) (i r : Nat) : State × Want :=
  match s.sourceOf b r with
  | .table h => if s.haloServes h.engine then s.wantRow h r (haloClass o.words) else (s, .wait)
  | .replica _ _ => (s, .ready)
  | .absent => (s, .fail .refusedPartition)
  | .remote m st =>
    match s.fetchOf o i with
    | some f => if Status_ok f.status then (s, .ready) else (s, .fail f.status)
    | none =>
      if s.xreqs.any fun x => x.what == .haloRow o.engine o.qp o.index b.tid i then (s, .wait)
      else (s.stackRequest o.engine b.ctx 0x05 (haloClass o.words) m st false
        (rowReqPayload 0 (haloEval o.words).toNat b.tid r o.step 1) (.haloRow o.engine o.qp o.index b.tid i), .wait)

/-- What a list of occurrences finds: the first failure, whether any waits, the largest hint of a new deferral. -/
def State.wantAll (s : State) (o : HaloOp) (b : Table) : List (Nat × Nat) → State × Option Status × Bool × Option Nat
  | [] => (s, none, false, none)
  | (i, r) :: l =>
    match s.tableKey b.key with
    | none => (s, some .refusedPartition, false, none)
    | some b' =>
      let (t, w) := s.wantSource o b' i r
      let (u, f, wt, h) := State.wantAll t o b l
      match w with
      | .ready => (u, f, wt, h)
      | .wait => (u, f, true, h)
      | .deferred k => (u, f, true, some (max k (h.getD 0)))
      | .fail st => (u, some st, wt, h)
      | .moved _ _ => (u, f, true, h)

/-- The image of a ready occurrence, with its counts at the engine that serves it. -/
def State.takeRow (s : State) (o : HaloOp) (b : Table) (i r : Nat) : State × Status × List Byte :=
  let ev := haloEval o.words
  match s.sourceOf b r with
  | .table h => s.serveRow h r ev (h.engine != b.engine)
  | .replica c x =>
    let t := s.inc (HALO_COUNT_REPLICA_SERVED c.engine) 1
    let t := t.mapTable c.key fun y => { y with
      replReads := if ev then y.replReads else bump y.replReads r
      replicas := y.replicas.map fun (z : Replica) => if z.row = r then { z with reads := z.reads + 1 } else z }
    (t, .done, s.replicaImage c x.slot)
  | .absent => (s, .refusedPartition, [])
  | .remote m st =>
    match s.fetchOf o i with
    | some f => (if ev then s else s.countRemote o.qp b m st r, f.status, f.bytes)
    | none => (s, .refusedPartition, [])

/-- The images of all occurrences in order, or the first failing status. -/
def State.takeRows (o : HaloOp) (key : Nat) : List (Nat × Nat) → State → State × Option Status × List (List Byte)
  | [], s => (s, none, [])
  | (i, r) :: l, s =>
    match s.tableKey key with
    | none => (s, some .refusedPartition, [])
    | some b =>
      let (t, st, img) := s.takeRow o b i r
      if Status_ok st then
        let (u, f, rest) := State.takeRows o key l t
        (u, f, img :: rest)
      else (t, some st, [])

/-- A value is above another in the order of pooling: NaN above every number, −0 below +0 (R112, R204). -/
def poolAbove (x y : Val) : Bool :=
  if y = .nan then false
  else if x = .nan then true
  else Val_lt y x || (Val_isZero x && Val_isZero y && Val_neg y && !Val_neg x)

/-- The maximum of a bag's column: value and position; on a tie the lowest row, then the lowest position. -/
def poolMax : List (Nat × Nat × Val) → Val × Nat
  | [] => (Val_zero, 65535)
  | (p, r, v) :: l =>
    let b := l.foldl (fun (b : Nat × Nat × Val) c =>
      if poolAbove c.2.2 b.2.2 || (!poolAbove b.2.2 c.2.2 && (decide (c.2.1 < b.2.1) || (c.2.1 == b.2.1 && decide (c.1 < b.1))))
      then c else b) (p, r, v)
    (b.2.2, b.1)

/-- One pooled output of a bag (R204): the code, whether its value is finite, and the argmax position.  Each member
gives its position in the bag, its row, its value in the column and its weight. -/
def poolOne (pool fmt rnd : Nat) (l : List (Nat × Nat × Val × Val)) : Nat × Bool × Nat :=
  if l.isEmpty then (0, true, 65535)
  else
    let code (v : Val) : Nat × Bool := ((encodeF fmt rnd 0 false v).1, Val_finite (decodeF fmt (encodeF fmt rnd 0 false v).1))
    if pool = 3 then
      let m := poolMax (l.map fun x => (x.1, x.2.1, x.2.2.1))
      ((code m.1).1, (code m.1).2, m.2)
    else
      let ts := l.map fun x => if pool = 2 then round32 0 (Val_mul x.2.2.2 x.2.2.1) else x.2.2.1
      let v := exactVal (exactSum ts).1
      let c := code (if pool = 1 then Val_div v (Val_ofInt l.length) else v)
      (c.1, c.2, 65535)

/-- A range that a descriptor names read through its context's view, in tiers L and H; a refusal counts (R45, R202). -/
def State.haloFetch (s : State) (ctx op addr len : Nat) : State × Option (List Byte) :=
  if len = 0 then (s, some [])
  else match s.view ctx addr len false [0, 1] with
    | .extent e rel => (s.recallExt e rel len false, some (s.extRead e rel len))
    | .outside _ _ => (s, none)
    | .refuse c => (s.violate ctx c op addr, none)

/-- Whether an output range may be written. -/
def State.haloDest (s : State) (ctx op addr len : Nat) : State × Bool :=
  if addr % 4096 ≠ 0 then (s, false)
  else match s.view ctx addr len true [0, 1] with
    | .extent _ _ => (s, true)
    | .outside _ _ => (s, false)
    | .refuse c => (s.violate ctx c op addr, false)

/-- Blocks of a fresh tensor written from an address on, sealed by their producer (R205). -/
def State.haloOut (s : State) (ctx addr tensor fmt step : Nat) (bs : List (List Byte)) : State :=
  bs.zipIdx.foldl (fun (t : State) x =>
    match t.view ctx (addr + 4096 * x.2) 4096 true [0, 1] with
    | .extent e rel =>
      let a := Extent_phys e rel
      let t := if e.tier = 1 then t.recallWrite a else t
      t.setBlock (tierSpace e.tier) a x.1 (mkSeal x.1 tensor fmt x.2 step)
    | _ => t) s

/-- The numbers of `n` bytes each that a list of bytes holds. -/
def numsOf (n : Nat) (bs : List Byte) : List Nat :=
  (List.range (bs.length / n)).map fun i => ofBytesLE ((bs.drop (n * i)).take n)

/-- The fields of a GATHER are legal (R200 to R202). -/
def gatherGood (e : Entry) : Bool :=
  decide (Entry_bits e 0 19 16 ≤ 3) && decide (Entry_bits e 0 15 11 ≤ 2) && decide (Entry_bits e 0 10 9 ≤ 1) &&
    (Entry_bits e 0 19 16 == 2 || Entry_bits e 4 63 0 == 0)

/-- The lists of a GATHER: its offsets, IDs and weights, or the refusal. -/
def State.gatherLists (s : State) (ctx : Nat) (b : Table) (o : HaloOp) : State × Option (List Nat × List Nat × List Nat) :=
  let e := o.words
  let n := haloCount e
  let (s, off) := s.haloFetch ctx o.index (Entry_bits e 3 63 0) (4 * (n + 1))
  match off with
  | none => (s, none)
  | some bs =>
    let offs := numsOf 4 bs
    let steps := (List.range n).all fun i => decide (offs.getD i 0 ≤ offs.getD (i + 1) 0) &&
      decide (offs.getD (i + 1) 0 - offs.getD i 0 ≤ 65535)
    if offs.getD 0 0 ≠ 0 ∨ !steps then (s, none)
    else
      let tot := offs.getD n 0
      let (s, ids) := s.haloFetch ctx o.index (Entry_bits e 2 63 0) (8 * tot)
      let (s, ws) := if Entry_bits e 0 19 16 = 2 then s.haloFetch ctx o.index (Entry_bits e 4 63 0) (4 * tot) else (s, some [])
      match ids, ws with
      | some is, some ws =>
        let l := numsOf 8 is
        if l.any (fun x => decide (2 ^ 48 ≤ x)) || (Entry_bits e 0 8 8 == 0 && l.any fun x => decide (tdRows b.desc ≤ x)) then
          (s, none)
        else (s, some (offs, l, numsOf 4 ws))
      | _, _ => (s, none)

/-- The rows of a partition's last commit are not all applied, or a replica push is not acknowledged (R19, R210). -/
def State.applying (s : State) (p : Nat) : Bool :=
  s.tables.any fun b => b.part == p &&
    ((b.merges.any fun m => stepLe m.step (s.committed p)) || b.directory.any fun d => !d.pushDue.isEmpty)

/-- A GATHER (R203 to R205): its status once it is known; it waits for rows that are promoted or requested. -/
def State.gather (s : State) (o : HaloOp) (b : Table) : State × Option Status :=
  let e := o.words
  let ctx := s.owner (.haloQp o.engine o.qp)
  let p := s.get (HALO_QP_CFG_PARTITION o.engine o.qp)
  let n := haloCount e
  let dim := tdDim b.desc
  let f := Entry_bits e 0 15 11
  let pool := Entry_bits e 0 19 16
  let outN := 4096 * blocksFor f n dim
  let argN := 4096 * blocksFor 0 n dim
  let arg := if pool = 3 then Entry_bits e 7 63 0 else 0
  if !gatherGood e then (s, some .refusedPartition)
  else
    let (s, g1) := s.haloDest ctx o.index (Entry_bits e 5 63 0) outN
    let (s, g2) := if arg = 0 then (s, true) else s.haloDest ctx o.index arg argN
    if !g1 || !g2 then (s, some .refusedPartition)
    else match s.gatherLists ctx b o with
      | (s, none) => (s, some .refusedPartition)
      | (s, some (offs, ids, ws)) =>
        if s.applying p then (s, none)
        else
          let live := (ids.zipIdx.map fun x => (x.2, x.1)).filter fun x => decide (x.2 < tdRows b.desc)
          match s.wantAll o b live with
          | (s, some st, _, _) => (s, some st)
          | (s, none, true, hint) =>
            match hint with
            | some h =>
              if o.deferredSent then (s, none)
              else ({ s with haloOps := s.haloOps.map fun (x : HaloOp) => if x = o then { x with deferredSent := true } else x }.deferRec
                (.haloQp o.engine o.qp) o.index o.step h, none)
            | none => (s, none)
          | (s, none, false, _) =>
            match State.takeRows o b.key live s with
            | (s, some st, _) => (s, some st)
            | (s, none, imgs) =>
              let book := s.tableBook b
              let vals := (live.zip imgs).map fun x => (x.1.1, x.1.2, rowVals b.desc book x.2)
              let s := s.inc (HALO_COUNT_ROWS_READ o.engine) (live.length * recUnits (tdRowBytes b.desc))
              let s := (ids.filter fun r => decide (tdRows b.desc ≤ r)).foldl (fun (t : State) r =>
                (t.inc (HALO_COUNT_OOB_IDS o.engine) 1).evLim 0xA102 b.key (0x10 + o.engine) 0 b.tid (r % 2 ^ 32)) s
              let outs := (List.range n).flatMap fun g =>
                let lo := offs.getD g 0
                let hi := offs.getD (g + 1) 0
                let mem := vals.filter fun v => decide (lo ≤ v.1) && decide (v.1 < hi)
                (List.range dim).map fun c => poolOne pool f (Entry_bits e 0 10 9)
                  (mem.map fun v => (v.1 - lo, v.2.1, v.2.2.getD c Val_zero, ofFp32 (ws.getD v.1 0)))
              let s := if outs.any fun x => !x.2.1 then s.setNonfinite p (haloEval e) else s
              let s := s.haloOut ctx (Entry_bits e 5 63 0) (Entry_bits e 6 47 24) f o.step (wideBlocks f (outs.map fun x => x.1))
              let s := if arg = 0 then s else s.haloOut ctx arg ((Entry_bits e 6 47 24 + 1) % 2 ^ 24) 0 o.step
                (wideBlocks 0 (outs.map fun x => fp32Bits 0 (Val_ofInt x.2.2)))
              (s, some (if o.corrected then .doneCorrected else .done))

/-! ## Lookahead (R207) -/

/-- A lookahead promotion at the home of a row: a Cold row with an evictable slot is promoted TENTATIVE. -/
def State.lookAt (s : State) (h : Table) (r : Nat) : State :=
  match s.rowOf h r with
  | some x => if x.state = 0 ∧ s.haloServes h.engine then (s.promote h x false).1 else s
  | none => s

/-- A LOOKAHEAD: a promotion started, or a speculative row request sent, for each ID. -/
def State.lookahead (s : State) (o : HaloOp) (b : Table) : State × Option Status :=
  let e := o.words
  let ctx := s.owner (.haloQp o.engine o.qp)
  match s.haloFetch ctx o.index (Entry_bits e 2 63 0) (8 * haloCount e) with
  | (s, none) => (s, some .refusedPartition)
  | (s, some bs) =>
    let l := numsOf 8 bs
    if l.any fun x => decide (2 ^ 48 ≤ x) then (s, some .refusedPartition)
    else
      ((l.filter fun r => decide (r < tdRows b.desc)).foldl (fun (t : State) r =>
        match t.tableKey b.key with
        | none => t
        | some c => match t.sourceOf c r with
          | .table h => t.lookAt h r
          | .remote m st => t.stackRequest o.engine c.ctx 0x05 3 m st true (rowReqPayload 1 0 c.tid r o.step 1) (.look o.engine)
          | _ => t) s, some .done)

/-! ## The gradient merge (R208) -/

/-- The holders of a row's replicas invalidated: their acknowledgements are due (R215). -/
def State.invalidate (s : State) (b : Table) (r : Nat) : State :=
  match b.directory.find? fun d => d.row == r with
  | none => s
  | some d =>
    let t := s.mapTable b.key fun y => { y with
      directory := y.directory.map fun (x : ReplDir) => if x.row = r then { x with due := d.holders } else x }
    d.holders.foldl (fun (t : State) h => t.sendRepl b 1 h.1 h.2 3 r 0 []) t

/-- The merge entry's elements in the merge area (R208). -/
def State.mirrorMerge (s : State) (b : Table) (m : Merge) : State :=
  m.elems.zipIdx.foldl (fun (t : State) x =>
    match t.region b (tdMergeH b.desc) ((m.index * tdDim b.desc + x.2) * 48) with
    | some (sp, a) => (t.recallWrite a).partialWrite sp a (exactBytes x.1)
    | none => t) s

/-- The lowest free place of the merge area. -/
def freeMerge (b : Table) : Nat :=
  ((List.range (b.merges.length + 1)).find? fun i => !(b.merges.any fun m => m.index == i)).getD 0

/-- Columns from `col` on of one pair of a step merged at the row's home (R208): the first pair takes a merge entry,
starts the promotion of a Cold row and invalidates its replicas; a pair beyond MERGE_ROWS is not merged. -/
def State.mergePair (s : State) (key r step col : Nat) (vs : List Val) : State :=
  match s.tableKey key with
  | none => s
  | some b =>
    let old := b.merges.find? fun m => m.row == r && m.step == step
    if old.isNone ∧ tdMerge b.desc ≤ b.merges.length then
      (s.setNonfinite b.part false).ev 0xA103 (0x10 + b.engine) 0 b.tid (tdMerge b.desc) step
    else
      let m := old.getD ⟨r, step, freeMerge b, List.replicate (tdDim b.desc) exact0⟩
      let t := if old.isSome then s else
        (match s.rowOf b r with
          | some x => if x.state = 0 then (s.wantRow b r 1).1 else s
          | none => s).invalidate b r
      let added := m.elems.zipIdx.map fun x =>
        if col ≤ x.2 ∧ x.2 < col + vs.length then exactAdd x.1 (vs.getD (x.2 - col) Val_zero) else (x.1, false)
      let m' := { m with elems := added.map fun x => x.1 }
      let t := t.mapTable key fun y => { y with
        merges := (y.merges.filter fun z => !(z.row == r && z.step == step)) ++ [m'] }
      let t := if (added.any fun x => x.2) || vs.any fun v => !Val_finite v then t.setNonfinite b.part false else t
      let t := if col = 0 then t.inc (HALO_COUNT_PAIRS_MERGED b.engine) 1 else t
      t.mirrorMerge b m'

/-- Columns of a pair that one PAIRS packet carries (log 33). -/
def pairCols : Nat := 512

/-- The payload of a PAIRS packet (log 33): TABLE_ID, step, row, first column and the gradients as FP32. -/
def pairPayload (tid step row col : Nat) (vs : List Val) : List Byte :=
  bytesLE 2 tid ++ bytesLE 2 col ++ bytesLE 4 step ++ bytesLE 8 row ++ vs.flatMap fun v => bytesLE 4 (fp32Bits 0 v)

/-- The values of the GRADS of an UPDATE in order, or the status of a failing block. -/
def State.gradBlocks (s : State) (ctx : Nat) (e : Entry) (dim : Nat) : State × (Status ⊕ List Val) :=
  let f := Entry_bits e 0 15 11
  let n := haloCount e * dim
  let nb := ceilDiv n (blkElems f)
  let addr := Entry_bits e 3 63 0
  match s.view ctx addr (4096 * nb) false [0, 1] with
  | .outside _ _ => (s, .inl .refusedPartition)
  | .refuse c => (s.violate ctx c 0 addr, .inl .refusedPartition)
  | .extent x rel =>
    let s := s.recallExt x rel (4096 * nb) false
    let bad := (List.range nb).findSome? fun j =>
      let a := Extent_phys x (rel + 4096 * j)
      let st := blockCheck (s.sealOf (tierSpace x.tier) a) (s.block (tierSpace x.tier) a) (Entry_bits e 6 47 24) f j false
      if Status_ok st then none else some st
    match bad with
    | some st => (s, .inl st)
    | none =>
      let blocks := (List.range nb).map fun j => s.num (tierSpace x.tier) (Extent_phys x (rel + 4096 * j)) 4096
      (s, .inr ((List.range n).map fun i => decodeF f (elemCode f (blocks.getD (i / blkElems f) 0) (i % blkElems f))))

/-- An UPDATE's pairs merged, or sent to their homes; it then waits for the outcome of its step (R208, R209). -/
def State.update (s : State) (o : HaloOp) (b : Table) : State × Option Status :=
  let e := o.words
  let ctx := s.owner (.haloQp o.engine o.qp)
  let dim := tdDim b.desc
  if tdRule b.desc = 15 ∨ 2 < Entry_bits e 0 15 11 then (s, some .refusedPartition)
  else match s.haloFetch ctx o.index (Entry_bits e 2 63 0) (8 * haloCount e) with
    | (s, none) => (s, some .refusedPartition)
    | (s, some bs) =>
      let ids := numsOf 8 bs
      if ids.any fun x => decide (tdRows b.desc ≤ x) then (s, some .refusedPartition)
      else match s.gradBlocks ctx e dim with
        | (s, .inl st) => (s, some st)
        | (s, .inr gs) =>
          if ids.any fun r => match s.sourceOf { b with replicas := [] } r with
            | .absent => true
            | _ => false then (s, some .refusedPartition)
          else
            let t := ids.zipIdx.foldl (fun (t : State) x =>
              let vs := (gs.drop (x.2 * dim)).take dim
              let away (m st : Nat) : State :=
                (cutList pairCols dim vs).zipIdx.foldl (fun (u : State) c =>
                  u.stackRequest o.engine ctx 0x07 1 m st false (pairPayload b.tid o.step x.1 (c.2 * pairCols) c.1)
                    (.pairs o.engine o.qp o.index b.tid)) t
              match t.rowOf b x.1 with
              | some y => if y.state = 6 then
                  (match t.followed b x.1 t.self b.engine with
                    | .table h => t.mergePair h.key x.1 o.step 0 vs
                    | .remote m st => away m st
                    | _ => t) else t.mergePair b.key x.1 o.step 0 vs
              | none => match t.followed b x.1 (t.homeOf b x.1).1 (t.homeOf b x.1).2 with
                | .table h => t.mergePair h.key x.1 o.step 0 vs
                | .remote m st => away m st
                | _ => t) s
            ({ t with haloOps := t.haloOps.map fun (x : HaloOp) =>
                if x.engine = o.engine ∧ x.qp = o.qp ∧ x.index = o.index then { x with merged := true } else x }, none)

/-! ## The check arrival (R209) -/

/-- A Halo engine arrives at the check barrier of a partition once every enabled queue pair of it has taken STEP_END,
every UPDATE has been merged, evaluation work has completed and no invalidation is unacknowledged (R209, R322). -/
def State.haloCheck (s : State) (p k : Nat) : State :=
  let mine := s.haloOps.filter fun o => o.engine == k && s.get (HALO_QP_CFG_PARTITION k o.qp) == p
  let ended := (List.range 32).all fun qp =>
    !(s.get (HALO_QP_CFG_VALID k qp) == 1 && s.get (HALO_QP_CFG_PARTITION k qp) == p && s.get (qEn (.haloQp k qp)) == 1) ||
      (s.commit p).haloStepEnds.contains (k, qp)
  if s.haloJoins p k ∧ ended ∧ !(mine.any fun o => (o.op == 2 && !o.merged) || haloEval o.words) ∧
      !(s.xreqs.any fun x => x.part == p && match x.what with
        | .pairs _ _ _ _ => true
        | _ => false) ∧
      !(s.tables.any fun b => b.engine == k && b.part == p && b.directory.any fun d => !d.due.isEmpty) ∧
      !((s.barrier p 2).arrived.contains (.halo k)) ∧ !((s.commit p).haloStepEnds.contains (k, 32)) then
    let c := s.commit p
    (s.setCommit p { c with haloStepEnds := c.haloStepEnds ++ [(k, 32)] }).arrive p 2 (.halo k)
      (s.get (HUB_PART_COMMIT_NONFINITE p)) 0xFF (some (s.checkTag p))
  else s

/-- Every engine's check arrival at a partition tried. -/
def State.haloChecks (s : State) (p : Nat) : State := (List.range 12).foldl (fun (t : State) k => t.haloCheck p k) s

/-! ## Completion of descriptors (R199, R200) -/

/-- A table freed: the commands that wait on it end CANCELLED, its waiting promotions are forgotten, and its
TABLE_DESTROY completes (R332). -/
def State.freeTable (s : State) (b : Table) : State :=
  let x := s.tiers
  let t := { s with
    tables := s.tables.filter fun y => y.key != b.key
    tiers := { x with
      flushes := x.flushes.filter fun f => f.2.2.1 != b.key
      deferrals := x.deferrals.filter fun d => !(d.point % 16 == 3 && d.tier == b.key) } }
  let t := t.put (HALO_STATUS_TABLES b.engine) (t.get (HALO_STATUS_TABLES b.engine) - 1)
  let t := b.pendingParams.foldl (fun (u : State) y => u.cmdClose y.1 y.2.1 .cancelled 0 0) t
  let t := (x.flushes.filter fun f => f.2.2.1 == b.key).foldl (fun (u : State) f => u.cmdClose f.1 f.2.1 .cancelled 0 0) t
  match b.destroying with
  | some r => t.cmdClose r.1 r.2 .done 0 0
  | none => t

/-- The tables that a TABLE_DESTROY waits to free leave once no descriptor names them (R332). -/
def State.tablesLeave (s : State) : State :=
  (s.tables.filter fun b => b.destroying.isSome && !(s.haloOps.any fun o => o.key == b.key)).foldl
    (fun (t : State) b => t.freeTable b) s

/-- A descriptor completes: its record, and its signal on a final DONE or DONE_CORRECTED. -/
def State.haloFinal (s : State) (o : HaloOp) (st : Status) : State :=
  let e := o.words
  let p := s.get (HALO_QP_CFG_PARTITION o.engine o.qp)
  let t := s.complete (.haloQp o.engine o.qp) o.index o.step st 0 0
  let t := if Status_ok st ∧ Entry_bits e 0 48 48 = 1 then
      t.signal (t.physOf (Entry_bits e 0 31 24)) (Entry_bits e 0 23 20) 1 else t
  let t := { t with fetched := t.fetched.filter fun f => !(f.engine == o.engine && f.qp == o.qp && f.index == o.index) }
  ((t.haloChecks p).arriveLater p).tablesLeave

/-- The finished descriptors at the front of a queue pair's op kind complete in order. -/
def State.haloSettle : Nat → State → Nat → Nat → Nat → State
  | 0, s, _, _, _ => s
  | f + 1, s, k, qp, op =>
    match s.haloOps.find? fun o => o.engine == k && o.qp == qp && o.op == op with
    | some o => match o.status with
      | some st => State.haloSettle f ({ s with haloOps := s.haloOps.erase o }.haloFinal o st) k qp op
      | none => s
    | none => s

/-- The status of a descriptor is known. -/
def State.haloEnd (s : State) (o : HaloOp) (st : Status) : State :=
  let t := { s with haloOps := s.haloOps.map fun (x : HaloOp) =>
    if x.engine = o.engine ∧ x.qp = o.qp ∧ x.index = o.index ∧ x.status = none then { x with status := some st } else x }
  State.haloSettle (t.haloOps.length + 1) t o.engine o.qp o.op

/-- A taken descriptor that has not done its work tries to: nothing moves while its engine does not serve. -/
def State.haloTry (s : State) (o : HaloOp) (work : State → HaloOp → Table → State × Option Status) : State :=
  if o.status.isSome ∨ o.merged ∨ !s.haloServes o.engine then s
  else match s.tableKey o.key with
    | none => s.haloEnd o .refusedPartition
    | some b => match work s o b with
      | (t, some st) => t.haloEnd o st
      | (t, none) => t

/-- The work of an op code that may wait for rows or for its engine. -/
def State.haloWork (s : State) (o : HaloOp) (b : Table) : State × Option Status :=
  if o.op = 1 then s.gather o b else if o.op = 2 then s.update o b else if o.op = 4 then s.lookahead o b else (s, none)

/-- Every waiting descriptor tried again: rows have arrived, a commit has been applied, or an engine serves again. -/
def State.haloRetry (s : State) : State :=
  s.haloOps.foldl (fun (t : State) o =>
    match t.haloOps.find? fun x => x.engine == o.engine && x.qp == o.qp && x.index == o.index with
    | some x => t.haloTry x State.haloWork
    | none => t) s

/-! ## Taking descriptors (R199 to R202) -/

/-- The defined bits of the words of a descriptor, by op (R200 to R221). -/
def haloMasks (op : Nat) : List Nat :=
  let w0 (m : Nat) : Nat := 0xFFFFFFFFFFF00000 + m
  let all := 2 ^ 64 - 1
  match op with
  | 1 => [w0 0xFFF00, all, all, all, all, all, 0xFFFFFF000000, all]
  | 2 => [w0 0xF800, all, all, all, 0, 0, 0xFFFFFF000000, 0]
  | 4 => [w0 0, all, all, 0, 0, 0, 0, 0]
  | 5 => [w0 0, all, 2 ^ 48 - 1, 0, 0xFFFFFFF, 0, 0, 0]
  | 6 => [w0 0, all, 0xFFFF, 0, 0, 0, 0, 0]
  | 7 => [w0 1, all, 0, 0, 0, all, 0, 0]
  | 8 => [w0 0, all, all, 0, 0, 0, 0, 0]
  | _ => [w0 0, all, 0, 0, 0, 0, 0, 0]

/-- The largest COUNT of an op that counts. -/
def haloLimit (op : Nat) : Option Nat :=
  if op = 1 then some 65536 else if op = 2 ∨ op = 5 then some 1048576 else if op = 4 then some (2 ^ 24)
  else if op = 8 then some 4096 else none

/-- The table that a descriptor of a queue pair names. -/
def State.haloTable (s : State) (k qp : Nat) (e : Entry) : Option Table :=
  (s.tableAt k (s.get (CTX_JOB_DOMAIN (s.owner (.haloQp k qp)))) (Entry_bits e 0 47 32)).filter fun b => b.destroying.isNone

/-- The refusals of R202. -/
def State.haloBad (s : State) (k qp : Nat) (e : Entry) : Bool :=
  let op := Entry_bits e 0 63 56
  let p := s.get (HALO_QP_CFG_PARTITION k qp)
  decide (op < 1) || decide (8 < op) || Entry_bits e 0 55 52 != 1 || !reservedZero e (haloMasks op) ||
    !s.accepts (s.owner (.haloQp k qp)) || (op != 3 && (s.haloTable k qp e).isNone) ||
    (match haloLimit op with
      | some n => haloCount e == 0 || decide (n < haloCount e)
      | none => false) ||
    (op != 1 && haloEval e) ||
    (Entry_bits e 0 48 48 == 1 && s.tilePart (Entry_bits e 0 31 24) != some p)

/-- The queue pair dispatches a descriptor of a step: Running, or Held with the step not after the last that its drain
lets finish (R57, R199). -/
def State.pairRuns (s : State) (q : QueueId) (p step : Nat) : Bool :=
  s.live && s.get (qEn q) == 1 && s.cqReady q && s.get (HUB_PART_CFG_FENCED p) == 0 &&
  (s.get (qState q) == 1 || (s.get (qState q) == 3 && match s.cfg.armed with
    | some a => (a.lastStep.find? fun x => x.1 == p).any fun x => stepLe step x.2
    | none => true))

/-- The gate of a descriptor: none where it waits, else whether it is cancelled (R201, R207, R219, R221). -/
def haloGate (c : Nat) (e : Entry) (look : Nat) : Option Bool :=
  let op := Entry_bits e 0 63 56
  let step := Entry_bits e 1 63 32
  if op = 5 then some false
  else if op = 6 ∨ op = 8 then some (stepLe step c)
  else if op = 4 then if stepLe step c then some true else if stepLe step ((c + look) % 2 ^ 32) then some false else none
  else gate c step (haloEval e)

/-- The Halo operation that the descriptor `e` at a queue pair's head becomes. -/
def State.haloOpOf (s : State) (k qp op : Nat) (e : Entry) : HaloOp :=
  ⟨k, qp, s.get (qHead (.haloQp k qp)), op, e, Entry_bits e 1 63 32, ((s.haloTable k qp e).map fun b => b.key).getD 0, false,
    false, false, none⟩

/-- The state that has taken it: the ring's head has moved on, and the operation is among those in progress. -/
def State.haloTaken (s : State) (k qp op : Nat) (e : Entry) : State :=
  { s.advance (.haloQp k qp) 1 with haloOps := (s.advance (.haloQp k qp) 1).haloOps ++ [s.haloOpOf k qp op e] }

/-- The descriptor at a queue pair's head of op `op` passes the common refusals and its gate and is taken; `body` goes on
with it, its ring index and its table. -/
def State.haloHead (s : State) (k qp op : Nat) (body : State → HaloOp → State) : State :=
  let q := QueueId.haloQp k qp
  let p := s.get (HALO_QP_CFG_PARTITION k qp)
  if !s.ringHas q then s
  else match s.ringEntry q with
    | none => if s.pairRuns q p (s.committed p) then s.headOutside q else s
    | some e =>
      let step := Entry_bits e 1 63 32
      if !s.pairRuns q p step then s
      else if s.haloBad k qp e then
        let (t, i) := s.take q
        t.complete q i step .refusedPartition 0 0
      else if Entry_bits e 0 63 56 ≠ op then s
      else match haloGate (s.committed p) e (s.get (HALO_QP_CFG_LOOKAHEAD k qp)) with
        | none => s
        | some true =>
          let (t, i) := s.take q
          t.complete q i step .cancelled 0 0
        | some false =>
          let t := s.haloTaken k qp op e
          body (if s.haloServes k then t else t.deferRec q (s.get (qHead q)) step 0x8001) (s.haloOpOf k qp op e)

/-- HALO_GATHER (R203 to R205). -/
def execHaloGather (k : Fin 12) (qp : Fin 32) (s : State) : Host.Outcome State Fault Refusal :=
  .next (s.haloHead k.val qp.val 1 fun t o => t.haloTry o State.gather)

/-- UPDATE (R208). -/
def execUpdate (k : Fin 12) (qp : Fin 32) (s : State) : Host.Outcome State Fault Refusal :=
  .next (s.haloHead k.val qp.val 2 fun t o => (t.haloTry o State.update).haloChecks (t.get (HALO_QP_CFG_PARTITION k.val qp.val)))

/-- HALO_STEP_END (R209): it marks the end of the step's UPDATE descriptors, and completes. -/
def execHaloStepEnd (k : Fin 12) (qp : Fin 32) (s : State) : Host.Outcome State Fault Refusal :=
  .next (s.haloHead k.val qp.val 3 fun t o =>
    let p := t.get (HALO_QP_CFG_PARTITION k.val qp.val)
    let c := t.commit p
    (t.setCommit p { c with haloStepEnds := c.haloStepEnds ++ [(k.val, qp.val)] }).haloEnd o .done)

/-- LOOKAHEAD (R207). -/
def execLookahead (k : Fin 12) (qp : Fin 32) (s : State) : Host.Outcome State Fault Refusal :=
  .next (s.haloHead k.val qp.val 4 fun t o => t.haloTry o State.lookahead)

/-! ## Swap, override and load statistics (R216, R219, R221) -/

/-- A descriptor that waits for a Meridian. -/
def State.haloHold (s : State) (o : HaloOp) : State :=
  { s with haloOps := s.haloOps.map fun (x : HaloOp) => if x = o then { x with merged := true } else x }

/-- SWAP (R221): the new table must match, and the swap is posted for the Meridian of its step. -/
def execSwap (k : Fin 12) (qp : Fin 32) (s : State) : Host.Outcome State Fault Refusal :=
  .next (s.haloHead k.val qp.val 6 fun t o =>
    let new := Entry_bits o.words 2 15 0
    let ok := match t.tableKey o.key with
      | some b => match t.tableAt k.val (t.tableDomain b) new with
        | some n => n.ctx == b.ctx && n.key != b.key && tdRows n.desc == tdRows b.desc && tdDim n.desc == tdDim b.desc &&
            tdFmt n.desc == tdFmt b.desc && tdKind n.desc == tdKind b.desc && tdShards n.desc == tdShards b.desc
        | none => false
      | none => false
    if ok then (t.mapTable o.key fun b => { b with pendingSwap := b.pendingSwap ++ [(o.step, new, o.qp, o.index)] }).haloHold o
    else t.haloEnd o .refusedPartition)

/-- An entry of an override list, its reserved bits zero (R219). -/
def overrideOf (bs : List Byte) : Option OverrideEnt :=
  let w := ofBytesLE bs
  if bitsOf 63 48 w = 0 ∧ bitsOf 127 124 w = 0 then
    some ⟨bitsOf 47 0 w, bitsOf 95 64 w, bitsOf 119 96 w, bitsOf 123 120 w⟩ else none

/-- Two ranges of a list overlap. -/
def overridesMeet : List OverrideEnt → Bool
  | [] => false
  | o :: l => (l.any fun x => decide (x.first < o.first + o.count) && decide (o.first < x.first + x.count)) || overridesMeet l

/-- OVERRIDE (R219): the entries are posted for the commit Meridian of the step. -/
def execOverride (k : Fin 12) (qp : Fin 32) (s : State) : Host.Outcome State Fault Refusal :=
  .next (s.haloHead k.val qp.val 8 fun t o =>
    match t.haloFetch (t.owner (.haloQp k.val qp.val)) o.index (Entry_bits o.words 2 63 0) (16 * haloCount o.words) with
    | (t, none) => t.haloEnd o .refusedPartition
    | (t, some bs) =>
      let l := (List.range (haloCount o.words)).map fun i => overrideOf ((bs.drop (16 * i)).take 16)
      let es := l.filterMap fun x => x
      if l.any Option.isNone ∨ overridesMeet es then t.haloEnd o .refusedPartition
      else (t.mapTable o.key fun b => { b with
        pendingOverride := b.pendingOverride ++ [(o.step, o.qp, o.index, es)] }).haloHold o)

/-- The counts of a closed window by bucket: bucket `i` of `n` covers local indices i·L/n to (i + 1)·L/n − 1. -/
def bucketSum (d : Desc) (n i : Nat) (m : SMap Nat) : Nat :=
  (m.filter fun kv => tdShard d kv.1 == tdThis d && decide (i * tdCount d / n ≤ tdLocal d kv.1) &&
    decide (tdLocal d kv.1 < (i + 1) * tdCount d / n)).foldl (fun a kv => a + kv.2) 0

/-- m × 2^e with the smallest e that puts m in 24 bits (R216). -/
def packReads (v : Nat) : Nat :=
  let e := ((List.range 64).find? fun e => decide (v >>> e < 2 ^ 24)).getD 0
  (v >>> e) + e * 2 ^ 24

/-- The most-read rows of a window, at most `n`: by reads, then ascending row. -/
def topRows (n : Nat) (m : SMap Nat) : List (Nat × Nat) :=
  match n with
  | 0 => []
  | n + 1 => match m with
    | [] => []
    | x :: xs =>
      let b := xs.foldl (fun (b : Nat × Nat) y => if b.2 < y.2 ∨ (b.2 = y.2 ∧ y.1 < b.1) then y else b) x
      b :: topRows n (m.filter (· != b))

/-- The sum of two maps of counts. -/
def sumMaps (a b : SMap Nat) : SMap Nat :=
  b.foldl (fun m kv => smSet (fun _ => 0) m kv.1 (smGet (fun _ => 0) m kv.1 + kv.2)) a

/-- The bytes of the load statistics of a closed window (R216; log 36). -/
def statsBytes (d : Desc) (tid : Nat) (skn : Bool) (w : ClosedWindow) : List Byte :=
  if skn then
    bytesLE 8 tid ++ bytesLE 8 w.length ++ bytesLE 16 0 ++ (List.range 256).flatMap fun i =>
      bytesLE 4 (packReads (bucketSum d 256 i (sumMaps w.reads w.repl) + (if i = 255 then w.imported else 0)))
  else
    bytesLE 8 tid ++ bytesLE 8 w.length ++ bytesLE 8 w.first ++ bytesLE 8 w.imported ++ bytesLE 32 0 ++
      ((List.range 1024).flatMap fun i =>
        bytesLE 4 (bucketSum d 1024 i w.reads) ++ bytesLE 4 (bucketSum d 1024 i w.repl) ++
          bytesLE 4 (bucketSum d 1024 i w.updates) ++ bytesLE 4 0) ++
      (let l := topRows 64 (sumMaps w.reads w.repl)
       l.flatMap (fun x => bytesLE 8 x.1 ++ bytesLE 8 x.2) ++ bytesLE (16 * (64 - l.length)) 0)

/-- LOAD_STATS (R216): the counts of the last closed window written to OUT as FP32 blocks; W0 bit 0 restarts the
windows at the next step. -/
def execLoadStats (k : Fin 12) (qp : Fin 32) (s : State) : Host.Outcome State Fault Refusal :=
  .next (s.haloHead k.val qp.val 7 fun t o =>
    match t.tableKey o.key with
    | none => t.haloEnd o .refusedPartition
    | some b =>
      let ctx := t.owner (.haloQp k.val qp.val)
      let skn := t.get (HALO_QP_CFG_LOADFMT k.val qp.val) == 1
      let bs := statsBytes b.desc b.tid skn (b.closed.getD ⟨0, 0, [], [], [], 0⟩)
      let blocks := (cutList 4096 bs.length bs).map fun l => l ++ List.replicate (4096 - l.length) 0
      match t.haloDest ctx o.index (Entry_bits o.words 5 63 0) (4096 * blocks.length) with
      | (t, false) => t.haloEnd o .refusedPartition
      | (t, true) =>
        let t := t.haloOut ctx (Entry_bits o.words 5 63 0) (tdTag b.desc) 0 o.step blocks
        let t := if Entry_bits o.words 0 0 0 = 1 then t.mapTable b.key fun y => { y with
            window := 0, windowFirst := (t.committed b.part + 1) % 2 ^ 32, rowReads := [], replReads := [], rowUpdates := []
            imported := 0 } else t
        t.haloEnd o .done)

end Sys2Proof.Machine
end

