-- ==== Sys2Proof/Machine/HaloCommit.lean ====
section
/-!
DEFINITION. What happens to tables at the commit and skip Meridians: the row update, replicas, swaps, overrides and
migrations; and row states driven by D, row requests of other modules and the deferral queues (R174 to R178, R186,
R210 to R223).
-/

namespace Sys2Proof.Machine

open Sys2Proof

/-! ## The row update (R210 to R212) -/

/-- FP32 sum, difference, product, quotient, each rounded once under RNE. -/
def fAdd (a b : Val) : Val := round32 0 (Val_add a b)
/-- The rounded difference. -/
def fSub (a b : Val) : Val := round32 0 (Val_add a (Val_flip b))
/-- The rounded product. -/
def fMul (a b : Val) : Val := round32 0 (Val_mul a b)
/-- The rounded quotient. -/
def fDiv (a b : Val) : Val := round32 0 (Val_div a b)

/-- The sparse rules (R211): the new values and state words from gradients, values and state.  c1 and c2 are rounded at
the table's creation, from its descriptor. -/
def sparseRule (d : Desc) (p : SparseParams) (g w st : List Val) : List Val × List Val :=
  let lr := ofFp32 p.lr
  let eps := ofFp32 p.eps
  let n := tdDim d
  let one : Val := .fin false 1 1
  let step (num den : Val) (wi : Val) : Val := fSub wi (fDiv (fMul lr num) (fAdd (sqrt32 den) eps))
  if tdRule d = 0 then ((w.zip g).map fun x => fSub x.1 (fMul lr x.2), [])
  else if tdRule d = 1 then
    let v := (st.zip g).map fun x => fAdd x.1 (fMul x.2 x.2)
    ((w.zip (g.zip v)).map fun x => step x.2.1 x.2.2 x.1, v)
  else if tdRule d = 2 then
    let a := round32 0 (Val_div (sumVals (g.map fun x => Val_mul x x)) (Val_ofInt n))
    let v := fAdd (st.getD 0 Val_zero) a
    ((w.zip g).map fun x => step x.2 v x.1, [v])
  else
    let b1 := ofFp32 p.beta1
    let b2 := ofFp32 p.beta2
    let c1 := fSub one (ofFp32 (Desc_bits d 14 63 32))
    let c2 := fSub one (ofFp32 (Desc_bits d 14 31 0))
    let m := ((st.take n).zip g).map fun x => fAdd (fMul b1 x.1) (fMul c1 x.2)
    let v := ((st.drop n).zip g).map fun x => fAdd (fMul b2 x.1) (fMul c2 (fMul x.2 x.2))
    ((w.zip (m.zip v)).map fun x => step x.2.1 x.2.2 x.1, m ++ v)

/-- ±Inf replaced by the largest FP32 of its sign. -/
def finiteVal : Val → Val
  | .inf n => match ofFp32 0x7F7FFFFF with
    | .fin _ a b => .fin n a b
    | v => v
  | v => v

/-- The bytes of a row for new values, and how many were written as the largest finite value (R212). -/
def rowBytes (d : Desc) (seed step r : Nat) (ws : List Val) : List Byte × Nat :=
  let f := tdFmt d
  let mode := if Desc_bits d 0 21 21 = 1 then 2 else 0
  let draw (i : Nat) : Nat := srDraw (r * tdDim d + i) step (tdTag d) seed
  if fmtNarrow f then
    let p : QPar := ⟨f, mode, true, false, false, Desc_bits d 0 20 20 == 1, 0, fun _ => 0, fun _ _ => Val_zero, draw⟩
    let gs := (cutList 32 ws.length ws).zipIdx.map fun x =>
      quantGroup p x.2 (x.1.zipIdx.map fun v => (32 * x.2 + v.2, finiteVal v.1))
    let infs := (ws.filter fun v => match v with
      | .inf _ => true
      | _ => false).length
    (bytesLE (tdRowBytes d) (packCodes (fmtWidth f) (gs.flatMap fun q => q.grp.codes)) ++
        (gs.flatMap fun q => bytesLE (scaleBytes f) q.grp.scale) ++
        (if fmtMX f then [] else gs.flatMap fun q => bytesLE 1 (if f = 9 then q.grp.second % 16 else q.grp.second)),
      infs + ((gs.flatMap fun q => q.cnt).filter fun m => m % 2 == 1).length)
  else
    let es := ws.zipIdx.map fun v => match v.1 with
      | .inf n => (fmtMax f + (if n then 2 ^ (fmtE f + fmtM f) else 0), true)
      | x => encodeF f mode (draw v.2) true x
    (bytesLE (tdRowBytes d) (packCodes (fmtWidth f) (es.map fun e => e.1)), (es.filter fun e => e.2).length)

/-- The holders of a row's replicas are sent its committed value; their acknowledgements are due (R210, R215). -/
def State.pushReplicas (s : State) (b : Table) (r version : Nat) (img : List Byte) : State :=
  match b.directory.find? fun d => d.row == r with
  | none => s
  | some d =>
    let t := s.mapTable b.key fun y => { y with
      directory := y.directory.map fun (x : ReplDir) => if x.row = r then { x with pushDue := d.holders } else x }
    d.holders.foldl (fun (t : State) h => t.sendRepl b 1 h.1 h.2 4 r version img) t

/-- A merge entry applied to its resident row (R210): value and state written, VERSION incremented, the entry released.
A row whose block fails its check keeps its bytes (R361). -/
def State.applyMerge (s : State) (key : Nat) (m : Merge) : State :=
  match s.tableKey key with
  | none => s
  | some b =>
    let rel := s.mapTable key fun y => { y with merges := y.merges.filter fun z => !(z.row == m.row && z.step == m.step) }
    match s.rowOf b m.row with
    | none => rel
    | some x =>
      let (st, img) := s.readRow b x.slot
      let (st2, ws) := s.readState b x.slot
      if !Status_ok st || !Status_ok st2 then
        if st = .poisoned ∨ st2 = .poisoned then
          rel.ev 0x1107 (0x10 + b.engine) 0 (tdTag b.desc) (x.slot / tdRpb b.desc) m.step else rel
      else
        let g := m.elems.map fun e => round32 0 (exactVal e)
        let w := (rowVals b.desc (fun _ _ => Val_zero) img).map fun v => round32 0 v
        let (w', st') := sparseRule b.desc b.params g w ((numsOf 4 ws).map ofFp32)
        let (img', sat) := rowBytes b.desc (s.get (HUB_CTX_SEED_SEED b.ctx)) m.step m.row w'
        let v := (x.version + 1) % 65536
        let t := (rel.writeRow b x.slot m.step img').writeState b x.slot m.step (st'.flatMap fun v => bytesLE 4 (fp32Bits 0 v))
        let t := t.setRow key { x with
          version := v, evict := false, dirty := true, state := if x.state = 2 ∧ !tdHOnly b.desc then 3 else x.state }
        let t := t.inc (HALO_COUNT_ROWS_UPDATED b.engine) 1
        let t := if sat = 0 then t else
          (t.inc (HALO_COUNT_APPLY_SAT b.engine) sat).evEvery ms10 0xA104 1 b.key (0x10 + b.engine) 0 sat 0
            fun n _ => (b.tid, n, m.step)
        let t := t.mapTable key fun y => { y with rowUpdates := bump y.rowUpdates m.row }
        t.pushReplicas b m.row v img'

/-- A merge entry put in a list in ascending row order. -/
def putMerge (m : Merge) : List Merge → List Merge
  | [] => [m]
  | x :: xs => if m.row ≤ x.row then m :: x :: xs else x :: putMerge m xs

/-- Merge entries in ascending row order. -/
def mergeOrder (l : List Merge) : List Merge := l.foldr putMerge []

/-- The merge entries of a table whose step has committed are applied to the rows that are resident (R210). -/
def State.applyMerges (s : State) (key : Nat) : State :=
  match s.tableKey key with
  | none => s
  | some b =>
    let due := (mergeOrder b.merges).filter fun m => stepLe m.step (s.committed b.part)
    due.foldl (fun (t : State) m =>
      match (t.tableKey key).bind fun y => t.rowOf y m.row with
      | some x => if Row_resident x then t.applyMerge key m else t
      | none => t.applyMerge key m) s

/-! ## Migration (R217, R218) -/

/-- The places of a table's D region that rows may take: those beyond the shard's own, while the region lasts. -/
def State.freeHomes (s : State) (b : Table) (n : Nat) : List Nat :=
  let used := (b.rows ++ b.incoming).map fun x => x.home
  ((List.range (tdCount b.desc + used.length + n)).filter fun i => decide (tdCount b.desc ≤ i) && !used.contains i &&
    (s.dRegion b (tdValueD b.desc) (i / tdRpb b.desc)).isSome &&
    (tdStateD b.desc == 0 || (s.dRegion b (tdStateD b.desc) (i / tdSpb b.desc)).isSome)).take n

/-- The free slots of a table, at most `n`. -/
def State.openSlots (s : State) (b : Table) (n : Nat) : List Nat :=
  ((List.range (tdCache b.desc)).filter fun k => bitsOf 47 0 (s.slotRec b k) == noRow).take n

/-- Rows admitted at their target home: slots, and places in D of a D-backed table; none where they do not fit (R217). -/
def State.migAdmit (s : State) (b : Table) (first n : Nat) : Option State :=
  let slots := s.openSlots b n
  let homes := if tdHOnly b.desc then slots else s.freeHomes b n
  if slots.length < n ∨ homes.length < n then none
  else
    let xs := (List.range n).map fun i : Nat =>
      (⟨first + i, 2, false, false, false, false, none, 0, 0, slots.getD i 0, homes.getD i 0, 0, true, false⟩ : Row)
    let t := s.mapTable b.key fun y => { y with incoming := y.incoming ++ xs }
    some (xs.foldl (fun (u : State) x => u.setSlotRec b x.slot x.row 0) t)

/-- What a migrated row carries (log 33): its version, its value and its state. -/
def State.migBytes (s : State) (b : Table) (x : Row) : List Byte :=
  bytesLE 2 x.version ++ (s.readRow b x.slot).2 ++ (s.readState b x.slot).2

/-- The length of a row image. -/
def imageLen (d : Desc) : Nat :=
  tdRowBytes d + (if fmtNarrow (tdFmt d) then (scaleBytes (tdFmt d) + (if fmtMX (tdFmt d) then 0 else 1)) * (tdDim d / 32) else 0)

/-- Bytes of a migrated row taken at the target from an offset on. -/
def State.migTake (s : State) (key row off step : Nat) (bs : List Byte) : State :=
  match s.tableKey key with
  | none => s
  | some b => match b.incoming.find? fun x => x.row == row with
    | none => s
    | some x =>
      let old := bytesLE 2 x.version ++ (s.readRow b x.slot).2 ++ (s.readState b x.slot).2
      let new := putBytes old off bs
      let t := s.mapTable key fun y => { y with incoming := y.incoming.map fun (z : Row) =>
        if z.row = row then { z with version := ofBytesLE (new.take 2) } else z }
      let n := imageLen b.desc
      (t.writeRow b x.slot step ((new.drop 2).take n)).writeState b x.slot step (new.drop (2 + n))

/-- The target's rows owned from the flip on; those of a D-backed table are Dirty, as its home blocks do not hold them
yet (R218; log 37). -/
def State.migOwn (s : State) (key first n : Nat) : State :=
  s.mapTable key fun y =>
    let mine (x : Row) : Bool := decide (first ≤ x.row) && decide (x.row < first + n)
    { y with
      incoming := y.incoming.filter fun x => !mine x
      rows := (y.incoming.filter mine).foldl (fun l x =>
        putRow { x with state := if tdHOnly y.desc then 2 else 3, dirty := !tdHOnly y.desc } l) y.rows }

/-- The target's rows dropped: the copy is abandoned. -/
def State.migDrop (s : State) (b : Table) (first n : Nat) : State :=
  let mine (x : Row) : Bool := decide (first ≤ x.row) && decide (x.row < first + n)
  let t := (b.incoming.filter mine).foldl (fun (u : State) x => u.freeSlot b x.slot) s
  t.mapTable b.key fun y => { y with incoming := y.incoming.filter fun x => !mine x }

/-- A row copied to the target of its migration (R217): at once to another engine of this module, in row packets to
another module. -/
def State.migSend (s : State) (b : Table) (g : Migration) (x : Row) : State :=
  let bs := s.migBytes b x
  match s.localHome b g.module g.stack with
  | some h => s.migTake h.key x.row 0 (s.committed b.part) bs
  | none => (cutList 3072 bs.length bs).zipIdx.foldl (fun (t : State) c =>
      t.stackRequest b.engine b.ctx 0x05 3 g.module g.stack false
        (rowReqPayload 3 0 b.tid x.row (s.committed b.part) (3072 * c.2) ++ c.1) (.migrate b.engine b.tid)) s

/-- A row lies in a migration's range. -/
def Migration_has (g : Migration) (r : Nat) : Bool := decide (g.first ≤ r) && decide (r < g.first + g.count)

/-- The replicas of a table's rows dropped: their holders are told (R215, R217, R221). -/
def State.dropReplicas (s : State) (b : Table) (rows : Nat → Bool) : State :=
  let gone := b.directory.filter fun d => rows d.row
  let t := s.mapTable b.key fun y => { y with directory := y.directory.filter fun d => !rows d.row }
  gone.foldl (fun (u : State) d => d.holders.foldl (fun (v : State) h =>
    v.stackRequest b.engine b.ctx 0x0E 2 h.1 h.2 false (replPayload 7 b.engine b.tid d.row 0 []) (.look b.engine)) u) t

/-- An admitted migration goes on: Cold rows are promoted, Clean and Dirty rows become Outbound and are copied (R176,
R217). -/
def State.migStep (s : State) (key : Nat) (g : Migration) : State :=
  (List.range g.count).foldl (fun (t : State) i =>
    match t.tableKey key with
    | none => t
    | some b => match t.rowOf b (g.first + i) with
      | none => t
      | some x =>
        if x.state = 2 ∨ x.state = 3 then
          (t.setRow key { x with state := 5, dirty := x.state == 3 || x.dirty }).migSend b g x
        else if x.state = 0 then (t.promote b x false).1
        else t) s

/-- The migrations of a table that the target has admitted go on. -/
def State.migSteps (s : State) (key : Nat) : State :=
  match s.tableKey key with
  | none => s
  | some b => (b.migrations.filter fun g => g.admitted && !g.copied).foldl (fun (t : State) g => t.migStep key g) s

/-- A migration changed. -/
def State.mapMig (s : State) (key : Nat) (g : Migration) (f : Migration → Migration) : State :=
  s.mapTable key fun y => { y with migrations := y.migrations.map fun (z : Migration) => if z = g then f z else z }

/-- The descriptor that a queue pair and ring index name ends. -/
def State.haloEndAt (s : State) (k qp index : Nat) (st : Status) : State :=
  match s.haloOps.find? fun o => o.engine == k && o.qp == qp && o.index == index with
  | some o => s.haloEnd o st
  | none => s

/-- MIGRATE (R217): the rows must be owned here; the target admits them, their replicas are dropped, and the copy
begins. -/
def execMigrate (k : Fin 12) (qp : Fin 32) (s : State) : Host.Outcome State Fault Refusal :=
  .next (s.haloHead k.val qp.val 5 fun t o =>
    let first := Entry_bits o.words 2 47 0
    let n := haloCount o.words
    let m := Entry_bits o.words 4 23 0
    let st := Entry_bits o.words 4 27 24
    match t.tableKey o.key with
    | none => t.haloEnd o .refusedPartition
    | some b =>
      let owned := (List.range n).all fun i => match t.rowOf b (first + i) with
        | some x => x.state != 6 && x.state != 5
        | none => false
      let local_ := m == t.self
      let h := t.localHome b m st
      if !owned ∨ 11 < st ∨ (local_ ∧ (st = k.val ∨ h.isNone)) then t.haloEnd o .refusedPartition
      else
        let g : Migration := ⟨first, n, m, st, qp.val, o.index, o.step, local_, false, false⟩
        let t := t.haloHold o
        if local_ then
          match h.bind fun h => t.migAdmit h first n with
          | none => t.haloEndAt k.val qp.val o.index .refusedCapacity
          | some u =>
            let u := (u.dropReplicas b fun r => Migration_has g r).mapTable b.key fun y =>
              { y with migrations := y.migrations ++ [g] }
            u.migSteps b.key
        else (t.mapTable b.key fun y => { y with migrations := y.migrations ++ [g] }).stackRequest k.val b.ctx 0x05 3 m st
          false (rowReqPayload 2 0 b.tid first o.step n) (.migrate k.val b.tid))

/-- MIGRATION_COPY_COMPLETE (R218): every row of an admitted migration is Outbound and every copy is acknowledged. -/
def execMigrationCopyComplete (k : Fin 12) (tid : Nat) (s : State) : Host.Outcome State Fault Refusal :=
  .next (whenLive s
    ((s.tables.filter fun b => b.engine == k.val && b.tid == tid && !b.retired).foldl (fun (t : State) b =>
      let t := t.migSteps b.key
      match t.tableKey b.key with
      | none => t
      | some c => (c.migrations.filter fun g => g.admitted && !g.copied).foldl (fun (u : State) g =>
          if ((List.range g.count).all fun i => (u.rowOf c (g.first + i)).any fun x => x.state == 5) ∧
              !(u.xreqs.any fun x => x.what == .migrate k.val tid) then
            u.mapMig b.key g fun z => { z with copied := true }
          else u) t) s))

/-- A migration abandoned: its rows are Clean or Dirty again by their dirty bit, and the target drops its copy (R176). -/
def State.migAbandon (s : State) (b : Table) (g : Migration) (st : Status) : State :=
  let t := s.mapTable b.key fun y => { y with
    migrations := y.migrations.filter (· != g)
    rows := y.rows.map fun (x : Row) =>
      if Migration_has g x.row ∧ x.state = 5 then { x with state := if x.dirty ∧ !tdHOnly y.desc then 3 else 2 } else x }
  let t := match t.localHome b g.module g.stack with
    | some h => t.migDrop h g.first g.count
    | none => t.stackRequest b.engine b.ctx 0x05 3 g.module g.stack false (rowReqPayload 5 0 b.tid g.first g.step g.count)
        (.look b.engine)
  t.haloEndAt b.engine g.qp g.index st

/-- The flip of a copied migration (R218): every moved row is owned by the target, the source holds its forwarding
entries, and MIGRATE completes with event 0xA105. -/
def State.migFlip (s : State) (b : Table) (g : Migration) : State :=
  let moved := b.rows.filter fun x => Migration_has g x.row && x.state == 5
  let t := match s.localHome b g.module g.stack with
    | some h => (moved.foldl (fun (u : State) x => u.migSend b g x) s).migOwn h.key g.first g.count
    | none => (moved.foldl (fun (u : State) x => u.migSend b g x) s).stackRequest b.engine b.ctx 0x05 3 g.module g.stack false
        (rowReqPayload 4 0 b.tid g.first g.step g.count) (.look b.engine)
  let t := moved.foldl (fun (u : State) x => u.freeSlot b x.slot) t
  let t := t.mapTable b.key fun y => { y with
    migrations := y.migrations.filter fun z => !(z.first == g.first && z.qp == g.qp && z.index == g.index)
    rows := y.rows.map fun (x : Row) => if Migration_has g x.row ∧ x.state = 5 then
      { x with state := 6, fwd := some (g.stack, g.module), pin := false, evict := false, tentative := false } else x }
  (t.ev 0xA105 (0x10 + b.engine) 0 b.tid g.count g.module).haloEndAt b.engine g.qp g.index
    (if g.restarted then .doneCorrected else .done)

/-! ## Background rebuilds (R220) -/

/-- The forwarding entries of a table. -/
def forwards (b : Table) : List Row := b.rows.filter fun x => x.state == 6

/-- A row-map rebuild starts: after an override came into force, or when forwarding entries exceed 1/16 of the entries;
it is to drop the forwarding entries whose new home the overrides in force name (R219, R220). -/
def State.startRebuild (s : State) (key : Nat) (force : Bool) : State :=
  s.mapTable key fun y =>
    if y.rebuildRow ∨ (!force ∧ 16 * (forwards y).length ≤ y.rows.length) then y
    else { y with
      rebuildRow := true, rowsReady := false
      dropFwd := ((forwards y).filter fun x =>
        s.homeOf y x.row == ((x.fwd.getD (0, 0)).2, (x.fwd.getD (0, 0)).1)).map fun x => x.row }

/-- ROW_MAP_REBUILD_COMPLETE (R220): the inactive bank is complete and flips at the next module Meridian. -/
def execRowMapRebuildComplete (k : Fin 12) (tid : Nat) (replica : Bool) (s : State) :
    Host.Outcome State Fault Refusal :=
  .next (whenLive s
    ((s.tables.filter fun b => b.engine == k.val && b.tid == tid && !b.retired).foldl (fun (t : State) b =>
      t.mapTable b.key fun y =>
        if replica then (if tdReplH y.desc = 0 then y else { y with replReady := true })
        else if y.rebuildRow then { y with rowsReady := true } else y) s))

/-- The row-map and replica-map flips at a module Meridian, each with event 0xA106 (R220). -/
def State.haloFlips (s : State) : State :=
  s.tables.foldl (fun (t : State) b =>
    let t := if b.rowsReady then
        (t.mapTable b.key fun y => { y with
          epochRow := !y.epochRow, rebuildRow := false, rowsReady := false, dropFwd := []
          rows := y.rows.filter fun x => !(x.state == 6 && y.dropFwd.contains x.row) }).ev 0xA106 (0x10 + b.engine) 0 b.tid 0
          (forwards b).length
      else t
    if b.replReady then
      (t.mapTable b.key fun y => { y with epochRepl := !y.epochRepl, rebuildRepl := false, replReady := false }).ev 0xA106
        (0x10 + b.engine) 0 b.tid 1 (forwards b).length
    else t) s

/-! ## Replicas at the holder (R214 to R216) -/

/-- A replica's value put in its slot of the replica region. -/
def State.writeReplica (s : State) (b : Table) (slot step : Nat) (img : List Byte) : State :=
  let k := slot / tdRpb b.desc
  match s.region b (tdReplH b.desc) (4096 * k) with
  | some (sp, a) => s.rewrite sp a (rowPut b.desc (s.block sp a) (slot % tdRpb b.desc) img) (tdTag b.desc) (tdFmt b.desc) k step
  | none => s

/-- A replica of a table changed. -/
def State.mapReplica (s : State) (key r : Nat) (f : Replica → Replica) : State :=
  s.mapTable key fun y => { y with replicas := y.replicas.map fun (x : Replica) => if x.row = r then f x else x }

/-- A replica dropped at its holder. -/
def State.dropReplica (s : State) (key r : Nat) : State :=
  s.mapTable key fun y => { y with replicas := y.replicas.filter fun x => x.row != r }

/-- The replicas of a partition's tables at a Meridian: Filling ones are installed, and at a skip Stale ones are Valid
again (R214, R215). -/
def replicasAt (skip : Bool) (b : Table) : Table :=
  { b with replicas := b.replicas.map fun (x : Replica) =>
      if x.state = 0 ∧ !x.invalidated then { x with state := 1 }
      else if skip ∧ x.state = 2 then { x with state := 1, invalidated := false } else x }

/-- REPL_PUSH_TIMEOUT (R215): a Stale replica without a push within 1 ms after the commit Meridian is dropped. -/
def execReplPushTimeout (k : Fin 12) (tid row : Nat) (s : State) : Host.Outcome State Fault Refusal :=
  .next (whenLive s
    ((s.tables.filter fun b => b.engine == k.val && b.tid == tid && !b.retired).foldl (fun (t : State) b =>
      if b.replicas.any fun x => x.row == row && x.state == 2 then t.dropReplica b.key row else t) s))

/-- LOAD_WINDOW_END (R215, R216): after LOAD_WINDOW steps the load counts close, replicas with fewer than REPL_THRESH/2
reads are dropped with a notice to their owner, and LOAD of every row starts again. -/
def execLoadWindowEnd (k : Fin 12) (tid : Nat) (s : State) : Host.Outcome State Fault Refusal :=
  .next (whenLive s
    ((s.tables.filter fun b => b.engine == k.val && b.tid == tid && !b.retired &&
        decide (Desc_bits b.desc 12 15 0 ≤ b.window)).foldl (fun (t : State) b =>
      let cold := b.replicas.filter fun x => decide (2 * x.reads < Desc_bits b.desc 12 31 16)
      let t := cold.foldl (fun (u : State) x =>
        u.stackRequest b.engine b.ctx 0x0E 2 x.owner.1 x.owner.2 false (replPayload 8 b.engine b.tid x.row 0 [])
          (.look b.engine)) t
      t.mapTable b.key fun y => { y with
        closed := some ⟨y.window, y.windowFirst, y.rowReads, y.replReads, y.rowUpdates, y.imported⟩
        window := 0, windowFirst := (t.committed y.part + 1) % 2 ^ 32, rowReads := [], replReads := [], rowUpdates := []
        imported := 0, remoteReads := []
        rows := y.rows.map fun (x : Row) => { x with load := 0 }
        replicas := (y.replicas.filter fun x => decide (Desc_bits y.desc 12 31 16 ≤ 2 * x.reads)).map fun (x : Replica) =>
          { x with reads := 0 } }) s))

/-! ## The Meridian of a step (R210, R215, R218, R219, R221) -/

/-- AGE of every used slot raised by one (R196). -/
def State.ageSlots (s : State) (b : Table) : State :=
  (List.range (tdCache b.desc)).foldl (fun (t : State) k =>
    let w := t.slotRec b k
    if bitsOf 47 0 w = noRow then t else t.setSlotRec b k (bitsOf 47 0 w) (bitsOf 55 48 w + 1)) s

/-- The swap of a table (R221): its replicas are dropped, its TABLE_ID names the new table, and it is Retired. -/
def State.swapTable (s : State) (b : Table) (new : Nat) : State :=
  match s.tableAt b.engine (s.tableDomain b) new with
  | none => s
  | some n =>
    let t := s.dropReplicas b fun _ => true
    let t := b.pendingParams.foldl (fun (u : State) y => u.cmdClose y.1 y.2.1 .cancelled 0 0) t
    let t := t.mapTable b.key fun y => { y with retired := true, replicas := [], pendingSwap := [], pendingParams := [] }
    t.mapTable n.key fun y => { y with tid := b.tid }

/-- The updates of a committed step complete once every row of the partition's tables has been applied (R209, R210). -/
def State.finishUpdates (s : State) (p : Nat) : State :=
  if s.tables.any fun b => b.part == p && b.merges.any fun m => stepLe m.step (s.committed p) then s
  else (s.haloOps.filter fun o => o.op == 2 && o.merged && o.status == none && stepLe o.step (s.committed p) &&
      s.get (HALO_QP_CFG_PARTITION o.engine o.qp) == p).foldl (fun (t : State) o =>
        t.haloEnd o (if o.corrected then .doneCorrected else .done)) s

/-- What a commit and a skip Meridian of step `n` do alike to one table: ages, pins, replicas, the window, migrations and
swaps. -/
def State.tableMeridian (s : State) (n : Nat) (skip : Bool) (b : Table) : State :=
  let t := (s.ageSlots b).mapTable b.key fun y =>
    let y := replicasAt skip y
    { y with window := y.window + 1, rows := y.rows.map fun (x : Row) => { x with pin := false } }
  let pend := b.merges.any fun m => stepLe m.step (s.committed b.part)
  let t := (b.migrations.filter fun g => g.copied && !pend).foldl (fun (u : State) g =>
    match u.tableKey b.key with
    | some c => (u.migFlip c g).startRebuild b.key false
    | none => u) t
  (b.pendingSwap.filter fun x => x.1 == n).foldl (fun (u : State) x =>
    match u.tableKey b.key with
    | some c => ((u.swapTable c x.2.1).ev 0xA107 (0x10 + b.engine) 0 b.tid x.2.1 n).haloEndAt b.engine x.2.2.1 x.2.2.2 .done
    | none => u) t

/-- The overrides of a table posted for a committed step come into force, with event 0xA106 (R219, R220). -/
def State.tableOverride (s : State) (n : Nat) (b : Table) : State :=
  (b.pendingOverride.filter fun x => x.1 == n).foldl (fun (u : State) x =>
    let u := u.mapTable b.key fun y => { y with
      overrides := x.2.2.2, pendingOverride := y.pendingOverride.filter fun z => z.1 != n }
    ((u.startRebuild b.key true).ev 0xA106 (0x10 + b.engine) 0 b.tid 2 (forwards b).length).haloEndAt b.engine x.2.1 x.2.2.1
      .done) s

/-- New rule parameters of a table take effect, and their commands complete (R211). -/
def State.tableParams (s : State) (b : Table) : State :=
  b.pendingParams.foldl (fun (u : State) x =>
    (u.mapTable b.key fun y => { y with params := x.2.2, pendingParams := [] }).cmdClose x.1 x.2.1 .done 0 0) s

/-- The commit Meridian of step `n` at the Halo engines (R210): COMMITTED_STEP already names the step. -/
def State.haloCommit (s : State) (p n : Nat) : State :=
  let each (t : State) (f : State → Table → State) : State :=
    (t.tables.filter fun b => b.part == p && !b.retired).foldl (fun (u : State) b =>
      match u.tableKey b.key with
      | some c => f u c
      | none => u) t
  let t := s.setCommit p { s.commit p with haloStepEnds := [] }
  let t := each t State.tableParams
  let t := each t fun u b => u.applyMerges b.key
  let t := each t fun u b => u.tableMeridian n false b
  let t := each t fun u b => u.tableOverride n b
  let t := each t fun u b => u.background b.key
  (t.finishUpdates p).haloRetry

/-- The skip Meridian of step `n` at the Halo engines (R210): merge entries are released without effect, UPDATE completes
STEP_SKIPPED, and an override posted for the step does not come into force. -/
def State.haloSkip (s : State) (p n : Nat) : State :=
  let each (t : State) (f : State → Table → State) : State :=
    (t.tables.filter fun b => b.part == p && !b.retired).foldl (fun (u : State) b =>
      match u.tableKey b.key with
      | some c => f u c
      | none => u) t
  let t := s.setCommit p { s.commit p with haloStepEnds := [] }
  let t := each t fun u b => u.mapTable b.key fun y => { y with
    merges := y.merges.filter fun m => m.step != n
    directory := y.directory.map fun (d : ReplDir) => { d with due := [] } }
  let t := each t fun u b => u.tableMeridian n true b
  let t := each t fun u b => (b.pendingOverride.filter fun x => x.1 == n).foldl (fun (v : State) x =>
    (v.mapTable b.key fun y => { y with pendingOverride := y.pendingOverride.filter fun z => z.1 != n }).haloEndAt b.engine
      x.2.1 x.2.2.1 .stepSkipped) u
  let t := (t.haloOps.filter fun o => o.op == 2 && o.step == n && o.status == none &&
    t.get (HALO_QP_CFG_PARTITION o.engine o.qp) == p).foldl (fun (u : State) o => u.haloEnd o .stepSkipped) t
  t.haloRetry

end Sys2Proof.Machine
end

