-- ==== Sys2Proof/Machine/HaloNet.lean ====
section
/-!
DEFINITION. Rows that D answers for, rows and pairs of other modules, the replica protocol, the deferral queues, and
the resets of a Halo engine and of the Deep-tier controller (R173 to R178, R186, R203, R207, R208, R214 to R218, R223).
-/

namespace Sys2Proof.Machine

open Sys2Proof

/-! ## Answers to other modules -/

/-- The header of an answer to a request packet (R267): to its issuer, with its class and transaction, the answering
unit's generation and a status. -/
def State.answer (s : State) (p : Packet) (ty : Nat) (st : Status) (arg gen : Nat) (payload : List Byte) : Packet :=
  { p with
    ty := ty, dstModule := p.srcModule, dstUnit := p.srcUnit, srcModule := s.self, srcUnit := p.dstUnit, hops := 15
    targetGen := gen, status := statusCode st, arg := arg, payload := payload, dim := false }

/-- The generation of a unit of this module, by its unit code (R259). -/
def State.unitGen (s : State) (u : Nat) : Nat :=
  if 0x20 ≤ u ∧ u < 0x2C then s.get (HALO_STATUS_GENERATION (u - 0x20))
  else if 0x40 ≤ u ∧ u < 0x44 then s.get (COLL_STATUS_GENERATION (u - 0x40)) else 0

/-- A STATUS answer: any completion without data. -/
def State.answerStatus (s : State) (part : Nat) (p : Packet) (st : Status) (hint : Nat) : State :=
  s.sendReply part (s.answer p 0x09 st hint (s.unitGen p.dstUnit) [])

/-- The context that an X-tier request's job domain names and that may serve it: not Free and not Closing (R31, R43,
R44). -/
def State.domainCtx (s : State) (dom : Nat) : Option Nat :=
  s.liveCtxs.find? fun n => s.get (CTX_JOB_DOMAIN n) == dom && s.get (CTX_STATE n) != 4

/-- The engine that a packet names. -/
def stackUnit (p : Packet) : Nat := p.dstUnit - 0x20

/-- The table that a row packet names on its engine, while its context serves. -/
def State.packetTable (s : State) (p : Packet) (tid : Nat) : Option Table :=
  match s.domainCtx p.jobDomain with
  | some n => (s.tableAt (stackUnit p) p.jobDomain tid).filter fun b => b.ctx == n
  | none => none

/-! ## Row requests (R203, R207, R217) -/

/-- A number in a payload. -/
def payNum (p : Packet) (off n : Nat) : Nat := ofBytesLE ((p.payload.drop off).take n)

/-- A row read of another module at the row's home (R203): served once the rows of the step before are applied; a Cold
row is promoted first; a request that reaches an old home is forwarded once. -/
def State.rowRead (s : State) (p : Packet) (b : Table) (again : Bool) : State :=
  let row := payNum p 4 8
  let flags := payNum p 1 1
  let before := (payNum p 12 4 + 2 ^ 32 - 1) % 2 ^ 32
  let keep (t : State) : State :=
    if again then t else t.mapTable b.key fun y => { y with remoteWaits := y.remoteWaits ++ [(row, p)] }
  let done (t : State) : State := t.mapTable b.key fun y => { y with remoteWaits := y.remoteWaits.filter (· != (row, p)) }
  if flags % 2 = 0 ∧ (!stepLe before (s.committed b.part) ∨ b.merges.any fun m => m.row == row && stepLe m.step (s.committed b.part))
  then keep s
  else match s.wantRow b row p.cls with
    | (t, .ready) =>
      let (u, st, img) := t.serveRow b row (flags % 2 == 1) true
      let u := done u
      if Status_ok st then u.sendReply b.part (u.answer p 0x06 st 0 (u.unitGen p.dstUnit) img)
      else u.answerStatus b.part p st 0
    | (t, .wait) => keep t
    | (t, .deferred h) => (keep t).answerStatus b.part p .deferred h
    | (t, .fail st) => (done t).answerStatus b.part p st 0
    | (t, .moved m k) =>
      if flags / 2 % 2 = 1 then (done t).answerStatus b.part p .refusedPartition 0
      else
        let fwd : Packet := { p with
          dstModule := m, dstUnit := 0x20 + k, targetGen := t.genSeen m (0x20 + k)
          payload := putBytes p.payload 1 (bytesLE 1 (flags + 2)) }
        (done t).sendReply b.part fwd

/-- A ROW_REQ at its engine (R203, R207, R217; log 33). -/
def State.onRowReq (s : State) (p : Packet) : State :=
  let kind := payNum p 0 1
  let row := payNum p 4 8
  let n := payNum p 16 4
  match s.packetTable p (payNum p 2 2) with
  | none => s.answerStatus 128 p .refusedPartition 0
  | some b =>
    if !s.haloServes b.engine then s.answerStatus b.part p .deferred 0x8001
    else if kind = 0 then s.rowRead p b false
    else if kind = 1 then (s.lookAt b row).answerStatus b.part p .done 0
    else if kind = 2 then
      match s.migAdmit b row n with
      | some t => t.answerStatus b.part p .done 0
      | none => s.answerStatus b.part p .refusedCapacity 0
    else if kind = 3 then (s.migTake b.key row n (payNum p 12 4) (p.payload.drop 24)).answerStatus b.part p .done 0
    else if kind = 4 then (s.migOwn b.key row n).answerStatus b.part p .done 0
    else (s.migDrop b row n).answerStatus b.part p .done 0

/-- The row requests of other modules that wait at a table tried again. -/
def State.serveWaits (s : State) (key : Nat) : State :=
  match s.tableKey key with
  | none => s
  | some b => b.remoteWaits.foldl (fun (t : State) w =>
      match t.tableKey key with
      | some c => t.rowRead w.2 c true
      | none => t) s

/-- Everything that waits for rows tried again: descriptors of this module, requests of others, and migrations. -/
def State.rowsMoved (s : State) : State :=
  let t := s.tables.foldl (fun (t : State) b => ((t.applyMerges b.key).serveWaits b.key).migSteps b.key) s
  let t := parts.foldl (fun (t : State) p => if t.tables.any fun b => b.part == p then t.finishUpdates p else t) t
  t.haloRetry

/-! ## Pairs (R208) -/

/-- A PAIRS packet at its row's home, or forwarded once from an old home. -/
def State.onPairs (s : State) (p : Packet) : State :=
  let row := payNum p 8 8
  let vs := (numsOf 4 (p.payload.drop 16)).map ofFp32
  match s.packetTable p (payNum p 0 2) with
  | none => s.answerStatus 128 p .refusedPartition 0
  | some b =>
    if !s.haloServes b.engine then s.answerStatus b.part p .deferred 0x8001
    else match s.rowOf b row with
      | none => s.answerStatus b.part p .refusedPartition 0
      | some x =>
        if x.state = 6 then
          match s.followed b row s.self b.engine with
          | .table h => (s.mergePair h.key row (payNum p 4 4) (payNum p 2 2) vs).answerStatus b.part p .done 0
          | .remote m k => s.sendReply b.part { p with
              dstModule := m, dstUnit := 0x20 + k, targetGen := s.genSeen m (0x20 + k) }
          | _ => s.answerStatus b.part p .refusedPartition 0
        else (s.mergePair b.key row (payNum p 4 4) (payNum p 2 2) vs).answerStatus b.part p .done 0

/-! ## The replica protocol (R214, R215) -/

/-- The REPL answer of a kind to a REPL packet. -/
def State.answerRepl (s : State) (p : Packet) (b : Table) (kind row version : Nat) (img : List Byte) : State :=
  s.sendReply b.part (s.answer p 0x0E .done 0 (s.unitGen p.dstUnit) (replPayload kind b.engine b.tid row version img))

/-- The outstanding replica request, invalidation or push that a REPL answer is for, completed. -/
def State.replDone (s : State) (p : Packet) : State :=
  { s with xreqs := s.xreqs.filter fun x => !(x.unit == p.dstUnit && x.txn == p.txn) }

/-- REPL_REQUEST (R214): the owner grants or refuses. -/
def State.onReplRequest (s : State) (p : Packet) : State :=
  let row := payNum p 4 8
  match s.packetTable p (payNum p 2 2) with
  | none => s.answerStatus 128 p .refusedPartition 0
  | some b =>
    let old := b.directory.find? fun d => d.row == row
    let holders : List (Nat × Nat) := match old with
      | some d => d.holders
      | none => []
    let cause : Nat := match s.rowOf b row with
      | some x =>
        if x.state ≠ 2 ∧ x.state ≠ 3 then 3
        else if 8 ≤ holders.length then 2
        else if old.isNone ∧ tdReplRows b.desc ≤ b.directory.length then 4 else 0
      | none => 3
    if cause ≠ 0 then (s.noReplica b cause).answerRepl p b 2 row 0 []
    else match s.rowOf b row with
      | none => s
      | some x =>
        let (st, img) := s.readRow b x.slot
        if !Status_ok st then (s.noReplica b 3).answerRepl p b 2 row 0 []
        else
          let me := (p.srcModule, payNum p 1 1)
          let t := s.mapTable b.key fun y => { y with
            directory := (y.directory.filter fun d => d.row != row) ++
              [match old with
                | some d => { d with holders := d.holders.filter (· != me) ++ [me] }
                | none => ⟨row, [me], [], []⟩] }
          (t.setRow b.key { x with repl := true }).answerRepl p b 1 row x.version img

/-- REPL_GRANT (R214): the holder places the row in a free slot in state Filling; a refusal creates nothing. -/
def State.onReplGrant (s : State) (p : Packet) : State :=
  let row := payNum p 4 8
  let t := s.replDone p
  match t.packetTable p (payNum p 2 2) with
  | none => t
  | some b =>
    if payNum p 0 1 = 2 then t
    else match freeReplica b with
      | none => t.noReplica b 1
      | some k =>
        (t.writeReplica b k (t.committed b.part) (p.payload.drop 20)).mapTable b.key fun y => { y with
          replicas := (y.replicas.filter fun x => x.row != row) ++
            [⟨row, 0, k, payNum p 12 4, 0, false, (p.srcModule, p.srcUnit - 0x20)⟩] }

/-- REPL_INVALIDATION (R215): the holder marks its replica Stale and acknowledges. -/
def State.onReplInvalidation (s : State) (p : Packet) : State :=
  let row := payNum p 4 8
  match s.packetTable p (payNum p 2 2) with
  | none => s.answerStatus 128 p .done 0
  | some b =>
    (s.mapReplica b.key row fun x => { x with state := 2, invalidated := true }).answerRepl p b 5 row 0 []

/-- REPL_PUSH (R215): the committed value makes a Stale replica Valid. -/
def State.onReplPush (s : State) (p : Packet) : State :=
  let row := payNum p 4 8
  match s.packetTable p (payNum p 2 2) with
  | none => s.answerStatus 128 p .done 0
  | some b =>
    let t := match b.replicas.find? fun x => x.row == row && x.state == 2 with
      | some x => (s.writeReplica b x.slot (s.committed b.part) (p.payload.drop 20)).mapReplica b.key row fun y =>
          { y with state := 1, version := payNum p 12 4, invalidated := false }
      | none => s
    t.answerRepl p b 6 row 0 []

/-- A holder's acknowledgement of an invalidation or push is taken off those due. -/
def State.replAcked (s : State) (b : Table) (row : Nat) (who : Nat × Nat) (push : Bool) : State :=
  let t := s.mapTable b.key fun y => { y with directory := y.directory.map fun (d : ReplDir) =>
    if d.row = row then
      (if push then { d with pushDue := d.pushDue.filter (· != who) } else { d with due := d.due.filter (· != who) }) else d }
  (t.haloChecks b.part).haloRetry

/-- REPL_ACKNOWLEDGEMENT (R215): the owner takes a holder's acknowledgement, which allows its check arrival and the
completion of the partition's commit. -/
def State.onReplAck (s : State) (p : Packet) : State :=
  let t := s.replDone p
  match t.packetTable p (payNum p 2 2) with
  | none => t
  | some b => t.replAcked b (payNum p 4 8) (p.srcModule, p.srcUnit - 0x20) (payNum p 0 1 == 6)

/-- REPL_DROP (R215): the owner's notice drops the holder's replica; the holder's frees the owner's directory entry. -/
def State.onReplDrop (s : State) (p : Packet) : State :=
  let row := payNum p 4 8
  let who := (p.srcModule, p.srcUnit - 0x20)
  match s.packetTable p (payNum p 2 2) with
  | none => s.answerStatus 128 p .done 0
  | some b =>
    let s := s.answerStatus b.part p .done 0
    if payNum p 0 1 = 7 then s.dropReplica b.key row
    else
      let t := s.replAcked b row who false
      let t := t.mapTable b.key fun y => { y with
        directory := (y.directory.map fun (d : ReplDir) => if d.row = row then
          { d with holders := d.holders.filter (· != who), pushDue := d.pushDue.filter (· != who) } else d).filter fun d =>
            !d.holders.isEmpty }
      match t.tableKey b.key, t.rowOf b row with
      | some c, some x => if c.directory.any fun d => d.row == row then t else t.setRow b.key { x with repl := false }
      | _, _ => t

/-! ## Promotions and write-backs that D answers (R176, R178) -/

/-- The D home of a row read for its promotion: the status of its blocks and the row's value, state and step. -/
def State.readHome (s : State) (b : Table) (x : Row) : Status × List Byte × List Byte × Nat :=
  let d := b.desc
  let k := x.home / tdRpb d
  match s.dRegion b (tdValueD d) k with
  | none => (.refusedPartition, [], [], 0)
  | some p =>
    let a := p * 4096
    let st := blockCheck (s.sealOf .d a) (s.block .d a) (tdTag d) (tdFmt d) k false
    let img := rowImage d (s.block .d a) (x.home % tdRpb d)
    let step := (s.sealOf .d a).step.toNat
    if !Status_ok st ∨ tdStateD d = 0 then (st, img, [], step)
    else match s.dRegion b (tdStateD d) (x.home / tdSpb d) with
      | none => (.refusedPartition, [], [], 0)
      | some q =>
        let a := q * 4096
        (blockCheck (s.sealOf .d a) (s.block .d a) (tdStateTag d) 0 (x.home / tdSpb d) true, img,
          ((s.block .d a).drop (x.home % tdSpb d * (4 * tdWords d))).take (4 * tdWords d), step)

/-- Gathers of this module that want a row of a table end with a status; requests of other modules are answered so; the
row's pending update is released (R176). -/
def State.failRow (s : State) (b : Table) (row : Nat) (st : Status) : State :=
  let t := (b.remoteWaits.filter fun w => w.1 == row).foldl (fun (u : State) w => u.answerStatus b.part w.2 st 0) s
  let t := t.mapTable b.key fun y => { y with
    remoteWaits := y.remoteWaits.filter fun w => w.1 != row
    merges := y.merges.filter fun m => m.row != row }
  (t.haloOps.filter fun o => o.op == 1 && o.status == none).foldl (fun (u : State) o =>
    match u.tableKey o.key with
    | none => u
    | some c =>
      let ids := match (u.gatherLists (u.owner (.haloQp o.engine o.qp)) c o).2 with
        | some l => l.2.1
        | none => []
      let from_ : Bool := match u.sourceOf c row with
        | .table h => h.key == b.key
        | _ => false
      if ids.contains row && from_ then u.haloEnd o st else u) t

/-- PROMOTION_COMPLETE (R176): the block of a Promoting row arrives, or fails; the row is Clean or Cold, and what waits
for it goes on. -/
def execPromotionComplete (k : Fin 12) (tid row : Nat) (ok : Bool) (s : State) : Host.Outcome State Fault Refusal :=
  .next (whenLive s
    (if s.get DEEP_STATUS_STATE = 2 ∨ !s.haloServes k.val then s
    else match s.tables.find? fun b => b.engine == k.val && b.tid == tid && !b.retired &&
        b.rows.any fun x => x.row == row && x.state == 1 with
      | none => s
      | some b => match b.rows.find? fun x => x.row == row with
        | none => s
        | some x =>
          let (st, img, ws, step) := s.readHome b x
          let st := if ok then st else .sealMismatch
          if Status_ok st then
            let t := (s.writeRow b x.slot step img).writeState b x.slot step ws
            (t.setRow b.key { x with state := 2 }).rowsMoved
          else ((s.coldRow b x).failRow b row st).rowsMoved))

/-- The flush commands of a table whose last row has been acknowledged complete (R178). -/
def State.flushAcked (s : State) (key row version : Nat) : State :=
  let l := s.tiers.flushes.map fun f => if f.2.2.1 = key then
    (f.1, f.2.1, f.2.2.1, f.2.2.2.filter fun x => !(x.1 == row && decide ((version + 65536 - x.2) % 65536 < 32768))) else f
  let done := l.filter fun f => f.2.2.2.isEmpty
  done.foldl (fun (t : State) f => t.cmdClose f.1 f.2.1 .done 0 0)
    { s with tiers := { s.tiers with flushes := l.filter fun f => !f.2.2.2.isEmpty } }

/-- The head of an engine's deferral queue of promotions passes admission again (R174). -/
def State.readmitRow (s : State) (d : DeferReq) : State :=
  match s.tableKey d.tier with
  | none => s.dropDeferral d
  | some b => match s.rowOf b d.amount with
    | none => s.dropDeferral d
    | some x =>
      if x.state ≠ 0 then s.dropDeferral d
      else match s.promote b x true with
        | (t, .started) => t.dropDeferral d
        | (t, .deferred) => t
        | (t, .refused) =>
          ((t.dropDeferral d).countRefusal b.ctx 2 3 .refusedCapacity).failRow b d.amount .refusedCapacity

/-- WRITE_BACK_ACK (R176): D has acknowledged a row's write-back; the row is Dirty where a commit has changed it since,
else Cold with EVICT and Clean without. -/
def execWriteBackAck (k : Fin 12) (tid row : Nat) (s : State) : Host.Outcome State Fault Refusal :=
  .next (whenLive s
    (match s.tables.find? fun b => b.engine == k.val && b.tid == tid &&
        b.rows.any fun x => x.row == row && x.state == 4 with
      | none => s
      | some b => match b.rows.find? fun x => x.row == row with
        | none => s
        | some x =>
          let waits := s.tiers.dwrites.any fun w => match w.what with
            | .rows key rs => key == b.key && rs.contains row
            | _ => false
          if waits then s
          else
            let t := if x.version ≠ x.wbVersion then s.setRow b.key { x with state := 3, evict := false }
              else if x.evict then s.coldRow b x
              else s.setRow b.key { x with state := 2, dirty := false }
            let t := t.flushAcked b.key row x.wbVersion
            match t.deferHead (rowPoint k.val) with
            | some d => (t.readmitRow d).rowsMoved
            | none => t.rowsMoved))

/-! ## Lost D writes and the controller's reset (R185, R186) -/

/-- The rows of a lost or refused write-back are Dirty again. -/
def State.rowsDirty (s : State) (key : Nat) (rs : List Nat) : State :=
  let back (x : Row) : Row := if rs.contains x.row ∧ x.state = 4 then { x with state := 3, evict := false } else x
  s.mapTable key fun y => { y with rows := y.rows.map back }

/-- The controller enters Draining (R186). -/
def State.deepDrain (s : State) : State :=
  { s.put DEEP_STATUS_STATE 2 with tiers := { s.tiers with resetAt := s.now } }

/-- The drained controller: write-backs not acknowledged return LOST_GENERATION and leave their rows Dirty; writes of
other requesters are sent again under the new generation. -/
def State.deepReset (s : State) : State :=
  let lost := s.tiers.dwrites.filter fun w => match w.what with
    | .rows _ _ => true
    | _ => false
  let t := lost.foldl (fun (u : State) w => match w.what with
    | .rows key rs => u.rowsDirty key rs
    | _ => u) s
  { t with tiers := { t.tiers with
    dwrites := t.tiers.dwrites.filter fun w => match w.what with
      | .rows _ _ => false
      | _ => true
    returned := lost.length, rebuildReady := false } }

/-- The rows that flushes still wait for and that are Dirty again are chosen again (R176, R178). -/
def State.reflush (s : State) : State :=
  s.tiers.flushes.foldl (fun (t : State) f =>
    match t.tableKey f.2.2.1 with
    | some b => t.writeBack b (b.rows.filter fun x => x.state == 3 && f.2.2.2.any fun y => y.1 == x.row) false 2
    | none => t) s

/-- DEEP_RESTORE_COMPLETE (R186): the table is restored from NAND and the journal, and the controller serves under a new
generation with event 0x910A; a rebuild starts again from the beginning (R190). -/
def execDeepRestoreComplete (s : State) : Host.Outcome State Fault Refusal :=
  .next (whenLive s
    (if s.get DEEP_STATUS_STATE = 2 ∧ !s.flt.draining.contains (8, 0) ∧ !s.isOut 8 0 then
      let t := (s.put DEEP_STATUS_STATE (if s.readOnlyCause.isSome then 3 else 1)).next DEEP_STATUS_GENERATION
      ({ t with tiers := { t.tiers with
          rebuildReady := false, forwarded := 0, rebuildSince := s.now, returned := 0 } }.ev 0x910A 0x040 0 (s.get DEEP_STATUS_GENERATION) s.tiers.returned
        ((s.now - s.tiers.resetAt) / 1000000)).reflush
    else s))

/-! ## The reset of a Halo engine (R223) -/

/-- An engine reset: a new generation; a rebuild in progress starts again, migration copies are restarted, its
descriptors are replayed and report DONE_CORRECTED (R218, R220, R222). -/
def State.haloReset (s : State) (k ms : Nat) : State :=
  let old := s.get (HALO_STATUS_GENERATION k)
  let n := (s.haloOps.filter fun o => o.engine == k).length
  let t := (s.put (HALO_STATUS_GENERATION k) (old + 1)).put (HALO_STATUS_STATE k) 0
  let t := { t with
    haloOps := t.haloOps.map fun (o : HaloOp) => if o.engine = k then { o with corrected := true } else o
    tables := t.tables.map fun (b : Table) => if b.engine = k then
      { b with
        rowsReady := false, replReady := false
        migrations := b.migrations.map fun (g : Migration) => { g with copied := false, restarted := true } } else b }
  (t.ev 0xA109 (0x10 + k) 0 old n ms).rowsMoved

/-! ## The deferral queues (R174) -/

/-- DEFERRAL_HEAD_READMIT (R174): the head of an admission point's queue passes admission again from step 2. -/
def execDeferralHeadReadmit (point : Nat) (s : State) : Host.Outcome State Fault Refusal :=
  .next (whenLive s
    (match s.deferHead point with
      | none => s
      | some d => if point % 16 = 1 then s.readmitExtent d else if point % 16 = 3 then (s.readmitRow d).rowsMoved else s))

end Sys2Proof.Machine
end

