-- ==== Sys2Proof/Machine/OrrMath.lean ====
section
/-!
DEFINITION. The dense update rules of the Orrery (R227 to R229, R233 to R237): the shard descriptor, the regions of a
bank, and the arithmetic of the rules.
-/

namespace Sys2Proof.Machine

open Sys2Proof

/-! ## The shard descriptor (R227) -/

/-- RULE of a shard: 0 momentum, 1 factored, 2 orthogonalised, 3 Kronecker, 15 frozen. -/
def sdRule (d : Desc) : Nat := Desc_bits d 0 43 40
/-- WORK_FMT. -/
def sdFmt (d : Desc) : Nat := Desc_bits d 0 39 35
/-- ROWS. -/
def sdRows (d : Desc) : Nat := Desc_bits d 1 63 32
/-- COLS. -/
def sdCols (d : Desc) : Nat := Desc_bits d 1 31 0
/-- TENSOR. -/
def sdTensor (d : Desc) : Nat := Desc_bits d 4 63 40
/-- WORK_TENSOR. -/
def sdWork (d : Desc) : Nat := Desc_bits d 4 39 16
/-- BANK_H. -/
def sdBank (d : Desc) : Nat := Desc_bits d 5 63 0
/-- GRAD_H. -/
def sdGrad (d : Desc) : Nat := Desc_bits d 6 63 0
/-- KB, the block size of a Kronecker shard. -/
def sdKb (d : Desc) : Nat := 2 ^ Desc_bits d 11 31 28
/-- Elements of a shard. -/
def sdSize (d : Desc) : Nat := sdRows d * sdCols d

/-- The hyperparameters that a shard is created with. -/
def sdHyper (d : Desc) : Hyper :=
  ⟨Desc_bits d 7 63 32, Desc_bits d 7 31 0, Desc_bits d 8 63 32, Desc_bits d 8 31 0, Desc_bits d 9 63 32⟩

/-- The sizes of the row or column blocks of a side of `n` elements (R229). -/
def sideBlocks (kb n : Nat) : List Nat := (List.range (ceilDiv n kb)).map fun a => min kb (n - a * kb)

/-- The parts of STATE in order: the section kind of R247 and the elements of each vector or matrix (R229); each starts
on a block (log 38). -/
def stateParts (d : Desc) : List (Nat × Nat) :=
  let sq (kind n : Nat) : List (Nat × Nat) := (sideBlocks (sdKb d) n).map fun k => (kind, k * k)
  match sdRule d with
  | 0 => [(1, sdSize d)]
  | 1 => [(2, sdRows d), (3, sdCols d)]
  | 2 => [(1, sdSize d)]
  | 3 => sq 4 (sdRows d) ++ sq 5 (sdCols d) ++ sq 6 (sdRows d) ++ sq 7 (sdCols d)
  | _ => []

/-- The 4 KiB blocks of `n` FP32 elements. -/
def f32Blocks (n : Nat) : Nat := ceilDiv n 1024

/-- The blocks of MASTER, STATE, WORK and a bank (R229). -/
def sdMasterBlocks (d : Desc) : Nat := f32Blocks (sdSize d)
/-- The blocks of STATE. -/
def sdStateBlocks (d : Desc) : Nat := (stateParts d).foldl (fun n x => n + f32Blocks x.2) 0
/-- The blocks of WORK. -/
def sdWorkBlocks (d : Desc) : Nat := blocksFor (sdFmt d) (sdRows d) (sdCols d)
/-- BANK_BLOCKS. -/
def sdBankBlocks (d : Desc) : Nat := sdMasterBlocks d + sdStateBlocks d + sdWorkBlocks d
/-- The blocks of ROOT_NEXT of a Kronecker shard. -/
def sdRootBlocks (d : Desc) : Nat :=
  ((stateParts d).filter fun x => x.1 == 6 || x.1 == 7).foldl (fun n x => n + f32Blocks x.2) 0

/-- The block of a bank that a region starts at: 0 MASTER, 1 STATE, 2 WORK. -/
def sdRegion (d : Desc) (b r : Nat) : Nat :=
  b * sdBankBlocks d + (if r = 0 then 0 else if r = 1 then sdMasterBlocks d else sdMasterBlocks d + sdStateBlocks d)

/-! ## Matrices of FP32 values -/

/-- A flat list in rows of `n`. -/
def rowsOf {α : Type} (n : Nat) (l : List α) : List (List α) := cutList n l.length l

/-- The transpose of a matrix with `cols` columns. -/
def transpose (cols : Nat) (m : List (List Val)) : List (List Val) :=
  (List.range cols).map fun j => m.map fun r => r.getD j Val_zero

/-- The partial of one chunk of two vectors: groups of 32 formed exactly, added with one rounding each (R108). -/
def chunkDot (x y : List Val) : Val :=
  (((cutList 32 x.length (List.zipWith Val_mul x y)).map sumVals).foldl (fun (a : Option Val) g =>
    match a with
    | none => some (round32 0 g)
    | some v => some (round32 0 (Val_add v g))) none).getD Val_zero

/-- One output of a product under the canon (R108, R234): chunk partials of 4,096 elements, summed exactly and rounded
once. -/
def canonDot (x y : List Val) : Val :=
  let xs := cutList 4096 x.length x
  let ys := cutList 4096 y.length y
  round32 0 (exactVal (exactSum (List.zipWith chunkDot xs ys)).1)

/-- A product of matrices, the second with `cols` columns. -/
def matMul (cols : Nat) (a b : List (List Val)) : List (List Val) :=
  let t := transpose cols b
  a.map fun r => t.map fun c => canonDot r c

/-- A function of every element of two matrices of one shape. -/
def matZip (f : Val → Val → Val) (a b : List (List Val)) : List (List Val) := List.zipWith (List.zipWith f) a b

/-- The identity scaled by a value: the value times 1 on the diagonal and times 0 elsewhere. -/
def scaledId (v : Val) (n : Nat) : List (List Val) :=
  (List.range n).map fun i => (List.range n).map fun j => fMul v (if i = j then .fin false 1 1 else Val_zero)

/-- The exact sum of the squares of a list, each rounded once. -/
def squareSum (l : List Val) : Val := exactVal (exactSum (l.map fun v => fMul v v)).1

/-- A count as a value. -/
def natVal (n : Nat) : Val := .fin false n 1

/-- A value rounded to BF16 under RNE (R235). -/
def toBf16 (v : Val) : Val := ofBf16 (encodeF 1 0 0 false v).1

/-! ## Orthogonalisation and roots (R235, R237) -/

/-- One iteration of step 3 of R235 on a matrix of `r` rows and `c` columns, products on BF16 operands. -/
def orthStep (a b c : Val) (r n : Nat) (x : List (List Val)) : List (List Val) :=
  let bf (m : List (List Val)) : List (List Val) := m.map fun l => l.map toBf16
  let xa := matMul r (bf x) (transpose n (bf x))
  let aa := matMul r (bf xa) (bf xa)
  let bm := matZip (fun p q => fAdd (fMul b p) (fMul c q)) xa aa
  let bx := matMul n (bf bm) (bf x)
  matZip (fun p q => fAdd (fMul a p) q) x bx

/-- The orthogonalised moment (R235). -/
def orthogonal (d : Desc) (eps : Val) (m : List (List Val)) : List (List Val) :=
  let f (k hi lo : Nat) : Val := ofFp32 (Desc_bits d k hi lo)
  let turned : Bool := decide (sdCols d < sdRows d)
  let p := if turned then transpose (sdCols d) m else m
  let r := min (sdRows d) (sdCols d)
  let n := max (sdRows d) (sdCols d)
  let s := round32 0 (squareSum p.flatten)
  let q := fAdd (sqrt32 s) eps
  let x0 := p.map fun l => l.map fun v => fDiv v q
  let x := (List.range (Desc_bits d 11 63 56)).foldl (fun y _ => orthStep (f 9 31 0) (f 10 63 32) (f 10 31 0) r n y) x0
  if turned then transpose n x else x

/-- The inverse fourth root of a statistics matrix plus EPS (R237); F takes one rounding, after its square root
(log 39). -/
def invRoot (iters : Nat) (eps : Val) (n : Nat) (l : List (List Val)) : List (List Val) :=
  let one : Val := .fin false 1 1
  let a := matZip fAdd l (scaledId eps n)
  let c4 := fMul (natVal 2) (sqrt32 (squareSum a.flatten))
  let q := fDiv one (sqrt32 (sqrt32 c4))
  let m0 := a.map fun r => r.map fun v => fDiv v c4
  let five := scaledId (natVal 5) n
  ((List.range iters).foldl (fun (xm : List (List Val) × List (List Val)) _ =>
    let t := matZip (fun i m => fDiv (fSub i m) (natVal 4)) five xm.2
    let tt := matMul n t t
    (matMul n xm.1 t, matMul n (matMul n tt tt) xm.2)) (scaledId q n, m0)).1

/-! ## The rules (R233, R236) -/

/-- The decay factor (1 − (LR × WD)). -/
def decay (h : Hyper) : Val := fSub (.fin false 1 1) (fMul (ofFp32 h.lr) (ofFp32 h.wd))

/-- w' = ((w × d) − (k × u)). -/
def stepWeight (d k w u : Val) : Val := fSub (fMul w d) (fMul k u)

/-- The new moment ((BETA1 × m) + g). -/
def newMoment (h : Hyper) (m g : List Val) : List Val :=
  List.zipWith (fun a b => fAdd (fMul (ofFp32 h.beta1) a) b) m g

/-- Rule 0x1: the new weights, row factors and column factors. -/
def factored (d : Desc) (h : Hyper) (g w r c : List Val) : List Val × List (List Val) :=
  let b2 := ofFp32 h.beta2
  let c2 := fSub (.fin false 1 1) b2
  let gm := rowsOf (sdCols d) g
  let mean (n : Nat) (l : List Val) : Val := fDiv (squareSum l) (natVal n)
  let upd (old s : List Val) : List Val := List.zipWith (fun a x => fAdd (fMul b2 a) (fMul c2 x)) old s
  let r' := upd r (gm.map (mean (sdCols d)))
  let c' := upd c ((transpose (sdCols d) gm).map (mean (sdRows d)))
  let rho := round32 0 (exactVal (exactSum r').1)
  let u (gi ri cj : Val) : Val := fDiv gi (fAdd (sqrt32 (fDiv (fMul ri cj) rho)) (ofFp32 h.eps))
  let us := (List.zipWith (fun (gr : List Val) ri => List.zipWith (fun gi cj => u gi ri cj) gr c') gm r').flatten
  (List.zipWith (stepWeight (decay h) (ofFp32 h.lr)) w us, [r', c'])

/-- The rows of a matrix within a range. -/
def rowSlice (kb a : Nat) (m : List (List Val)) : List (List Val) := (m.drop (a * kb)).take kb
/-- The columns of a matrix within a range. -/
def colSlice (kb b : Nat) (m : List (List Val)) : List (List Val) := m.map fun r => (r.drop (b * kb)).take kb

/-- Rule 0x3: the new weights and the new statistics, with the roots in force (R236). -/
def kronecker (d : Desc) (h : Hyper) (g w : List Val) (st : List (List Val)) : List Val × List (List Val) :=
  let kb := sdKb d
  let gm := rowsOf (sdCols d) g
  let ra := sideBlocks kb (sdRows d)
  let cb := sideBlocks kb (sdCols d)
  let na := ra.length
  let nb := cb.length
  let upd (old new : List Val) : List Val := List.zipWith (fun a x => fAdd (fMul (ofFp32 h.beta2) a) x) old new
  let ls := ra.zipIdx.map fun x =>
    let ga := rowSlice kb x.2 gm
    upd (st.getD x.2 []) (matMul x.1 ga (transpose (sdCols d) ga)).flatten
  let rs := cb.zipIdx.map fun x =>
    let gb := colSlice kb x.2 gm
    upd (st.getD (na + x.2) []) (matMul x.1 (transpose x.1 gb) gb).flatten
  let us := (ra.zipIdx.map fun x =>
    let pl := rowsOf x.1 (st.getD (na + nb + x.2) [])
    let parts := cb.zipIdx.map fun y =>
      let gab := colSlice kb y.2 (rowSlice kb x.2 gm)
      matMul y.1 (matMul y.1 pl gab) (rowsOf y.1 (st.getD (na + nb + na + y.2) []))
    (List.range x.1).flatMap fun i => parts.flatMap fun p => p.getD i []).flatten
  (List.zipWith (stepWeight (decay h) (ofFp32 h.lr)) w us, ls ++ rs ++ st.drop (na + nb))

/-- A dense rule (R233): the new master values and state parts from the gradient, the master and the state. -/
def denseRule (d : Desc) (h : Hyper) (g w : List Val) (st : List (List Val)) : List Val × List (List Val) :=
  match sdRule d with
  | 0 =>
    let m := newMoment h (st.getD 0 []) g
    (List.zipWith (stepWeight (decay h) (ofFp32 h.lr)) w m, [m])
  | 1 => factored d h g w (st.getD 0 []) (st.getD 1 [])
  | 2 =>
    let m := newMoment h (st.getD 0 []) g
    let o := (orthogonal d (ofFp32 h.eps) (rowsOf (sdCols d) m)).flatten
    let sigma := sqrt32 (if sdCols d < sdRows d then .fin false (sdRows d) (sdCols d) else .fin false 1 1)
    (List.zipWith (stepWeight (decay h) (fMul (ofFp32 h.lr) sigma)) w o, [m])
  | 3 => kronecker d h g w st
  | _ => (w, st)

/-- The roots of every block of a Kronecker shard's statistics: PL, then PR (R237). -/
def allRoots (d : Desc) (h : Hyper) (st : List (List Val)) : List (List Val) :=
  let sides := sideBlocks (sdKb d) (sdRows d) ++ sideBlocks (sdKb d) (sdCols d)
  sides.zipIdx.map fun x =>
    (invRoot (Desc_bits d 11 27 23) (ofFp32 h.eps) x.1 (rowsOf x.1 (st.getD x.2 []))).flatten

/-- The identity roots of a new Kronecker shard (R230). -/
def idRoots (d : Desc) : List (List Val) :=
  let sides := sideBlocks (sdKb d) (sdRows d) ++ sideBlocks (sdKb d) (sdCols d)
  sides.map fun n => (scaledId (.fin false 1 1) n).flatten

/-! ## The working copy (R238) -/

/-- The settings of the working copy's quantiser: dynamic scaling, RNE, SAT, NF 1. -/
def workPar (f : Nat) : QPar := ⟨f, 0, true, true, false, false, 0, fun _ => 0, fun _ _ => Val_zero, fun _ => 0⟩

/-- The blocks of the working copy of a master; none where the quantiser refuses a non-finite value (R83). -/
def workBlocks (d : Desc) (w : List Val) : List (List Byte) :=
  if fmtNarrow (sdFmt d) then (quantStore (workPar (sdFmt d)) false (sdCols d) (rowsOf (sdCols d) w)).blocks
  else wideBlocks (sdFmt d) (w.map fun v => (encodeF (sdFmt d) 0 0 true v).1)

end Sys2Proof.Machine
end

