-- ==== Sys2Proof/Machine/Files.lean ====
section
/-!
DEFINITION. Requests to tiers P and Q, and the shard files of R247: their format, and their way to and from tiers H, D, P
and Q (R179, R246 to R248, R333 to R338, R445).
-/

namespace Sys2Proof.Machine

open Sys2Proof

/-! ## PCIe requests (R338, R340, R445) -/

/-- Where a range of tier P or Q goes: its peer window where it is DIRECT, and its bus address. -/
def State.hostPlace (s : State) (ctx addr len : Nat) : Option Nat × Nat :=
  if tierOf addr = 4 then
    match s.findWindow ctx (offOf addr) len with
    | some (w, x) => if x.direct then (some w, offOf addr) else (none, offOf x.hostAlias + (offOf addr - x.base))
    | none => (none, offOf addr)
  else (none, offOf addr)

/-- A request goes to host memory while the function is Orphan: it is not sent (R340). -/
def State.hostHeld (s : State) (ctx addr len : Nat) : Bool :=
  (s.hostPlace ctx addr len).1.isNone && s.get (PCIE_FN_CFG_STATE (s.fnOf ctx)) == 2

/-- A PCIe read sent. -/
def State.hostRead (s : State) (ctx addr len : Nat) (what : PcieFor) : State :=
  let (w, a) := s.hostPlace ctx addr len
  let r : PcieReq := ⟨s.nextPcie, ctx, a, len, w, what⟩
  { s with nextPcie := s.nextPcie + 1, pcie := s.pcie ++ [r] }.emit (.pcieRead s.nextPcie ctx a len w.isSome)

/-- A PCIe write sent. -/
def State.hostWrite (s : State) (ctx addr : Nat) (bs : List Byte) : State :=
  let (w, a) := s.hostPlace ctx addr bs.length
  s.emit (.pcieWrite ctx a w.isSome bs)

/-! ## The file format (R247; log 38) -/

/-- A block of a file with its seal. -/
abbrev FBlock := List Byte × Seal

/-- A section: its kind, its format code and its blocks. -/
abbrev Section := Nat × Nat × List FBlock

/-- What a header says beside its section table. -/
structure FileHead where
  kind : Nat
  rule : Nat
  step : Nat
  t : Nat
  updates : Nat
  tensor : Nat
  domain : Nat
  dims : List Nat
  hyper : List Nat
  tail : List Byte
  fmt : Nat
  deriving DecidableEq, Repr

/-- The section table's entries: kind, format code, first block and block count. -/
def sectionTable : Nat → List Section → List Byte
  | _, [] => []
  | first, (k, f, bs) :: l =>
    bytesLE 1 k ++ bytesLE 1 f ++ bytesLE 2 0 ++ bytesLE 4 first ++ bytesLE 4 bs.length ++ bytesLE 4 0 ++
      sectionTable (first + bs.length) l

/-- The header block. -/
def fileHeader (h : FileHead) (ss : List Section) : List Byte :=
  let bs := bytesLE 4 0x44524853 ++ bytesLE 2 1 ++ bytesLE 1 h.kind ++ bytesLE 1 h.rule ++ bytesLE 4 h.step ++
    bytesLE 4 h.t ++ bytesLE 8 h.updates ++ bytesLE 4 h.tensor ++ bytesLE 4 h.domain ++
    (h.dims.flatMap fun v => bytesLE 8 v) ++ (h.hyper.flatMap fun v => bytesLE 4 v) ++ h.tail ++ bytesLE 1 h.fmt ++
    bytesLE 1 ss.length ++ bytesLE 8 0 ++ sectionTable 1 ss
  bs ++ List.replicate (4096 - bs.length) 0

/-- The blocks of a section renumbered from its first block. -/
def renumber (bs : List FBlock) : List FBlock :=
  bs.zipIdx.map fun x => (x.1.1, { x.1.2 with block := BitVec.ofNat 32 x.2 })

/-- A whole file. -/
def fileBlocks (h : FileHead) (ss : List Section) : List FBlock :=
  let hd := fileHeader h ss
  (hd, mkSeal hd h.tensor 0 0 h.step) :: ss.flatMap fun x => renumber x.2.2

/-- A number of a header. -/
def headNum (hd : List Byte) (off n : Nat) : Nat := ofBytesLE ((hd.drop off).take n)

/-- The sections that a header lists: kind, format, first block and count. -/
def headSections (hd : List Byte) : List (Nat × Nat × Nat × Nat) :=
  (List.range (min 12 (headNum hd 119 1))).map fun i =>
    let o := 128 + 16 * i
    (headNum hd o 1 % 16, headNum hd (o + 1) 1, headNum hd (o + 4) 4, headNum hd (o + 8) 4)

/-- The blocks of the file that a header begins. -/
def headLength (hd : List Byte) : Nat :=
  (headSections hd).foldl (fun n x => max n (x.2.2.1 + x.2.2.2)) 1

/-! ## Files out (R179, R246) -/

/-- A file's entry among those on their way. -/
def State.addFile (s : State) (f : FileOp) : State := { s with files := s.files ++ [f], nextPcie := s.nextPcie + 1 }

/-- The blocks of a file given to the D tier as checkpoint writes (R188); none where D refuses one. -/
def State.fileToD (s : State) (cls id : Nat) (e : Extent) (rel : Nat) : List (FBlock × Nat) → Option State
  | [] => some s
  | (b, i) :: l =>
    match s.dWrite 2 cls (Extent_phys e (rel + 4096 * i) / 4096) b.1 b.2 (.file id) with
    | none => none
    | some t => State.fileToD t cls id e rel l

/-- Blocks written from a 4 KiB-aligned address of tier H, D, P or Q on: with the status where it is known at once. -/
def State.fileSend (s : State) (ctx op addr cls : Nat) (bs : List FBlock) (what : FileFor) : State × Option Status :=
  if addr % 4096 ≠ 0 then (s, some .refusedPartition)
  else match s.view ctx addr (4096 * bs.length) true [1, 2, 3, 4] with
    | .refuse c => (s.violate ctx c op addr, some .refusedPartition)
    | .extent e rel =>
      if e.tier = 1 then
        (bs.zipIdx.foldl (fun (t : State) x =>
          let a := Extent_phys e (rel + 4096 * x.2)
          (t.recallWrite a).setBlock .h a x.1.1 x.1.2) s, some .done)
      else
        match (s.addFile ⟨s.nextPcie, what, ctx, addr, [], 0, false⟩).fileToD cls s.nextPcie e rel bs.zipIdx with
        | some t => (t, none)
        | none => (s, some .refusedCapacity)
    | .outside _ _ =>
      let n := 4096 * bs.length
      let held := s.hostHeld ctx addr n
      let t := s.addFile ⟨s.nextPcie, what, ctx, addr, [], 0, held⟩
      if bs.any fun b => b.2.poison then (s, some .poisoned)
      else if held then (t, none)
      else ((t.hostWrite ctx addr (bs.flatMap fun b => b.1)).hostRead ctx (addr + n - 64) 64 (.fileFlush s.nextPcie), none)

/-! ## Files in (R248, R325) -/

/-- What a fetch finds: a failure, that it waits, or the blocks, with their seals where their tier keeps seals. -/
inductive Fetch where
  | fail (st : Status)
  | waits
  | have_ (bs : List (List Byte × Option Seal))

/-- The blocks of an extent from a place on. -/
def State.extBlocks (s : State) (e : Extent) (rel n : Nat) : List (List Byte × Option Seal) :=
  (List.range n).map fun i =>
    let a := Extent_phys e (rel + 4096 * i)
    if e.tier = 2 then
      let b := s.dBlock (a / 4096)
      (b.1, some b.2)
    else (s.block (tierSpace e.tier) a, some (s.sealOf (tierSpace e.tier) a))

/-- A range read from the tiers given: `fixed` bytes, or for a file (0) the blocks that `size` gives of its first. -/
def State.fileFetch (s : State) (ctx op addr : Nat) (tiers : List Nat) (size : List Byte → Nat) (fixed : Nat)
    (what : FileFor) : State × Fetch :=
  if addr % 4096 ≠ 0 then (s, .fail .refusedPartition)
  else match s.view ctx addr (if fixed = 0 then 4096 else fixed) false tiers with
    | .refuse c => (s.violate ctx c op addr, .fail .refusedPartition)
    | .extent e rel =>
      let t := s.recallExt e rel 4096 false
      let n := if fixed ≠ 0 then fixed else 4096 * size (((t.extBlocks e rel 1).headD ([], none)).1)
      match t.view ctx addr n false tiers with
      | .extent e rel =>
        let u := t.recallExt e rel n false
        (u, .have_ (u.extBlocks e rel (ceilDiv n 4096)))
      | _ => (t.violate ctx 0x2101 op addr, .fail .refusedPartition)
    | .outside _ _ =>
      let held := s.hostHeld ctx addr 4096
      let t := s.addFile ⟨s.nextPcie, what, ctx, addr, [], fixed, held⟩
      if held then (t, .waits)
      else (t.hostRead ctx addr (if fixed = 0 then 4096 else fixed) (.fileRead s.nextPcie), .waits)

/-- Bytes of tier P or Q as blocks without seals. -/
def bareBlocks (bs : List Byte) : List (List Byte × Option Seal) := (cutList 4096 bs.length bs).map fun b => (b, none)

/-- The check of a file's block (R115, R248): its CRC, and its tag and format where they are given; poison ends the read
(log 38). -/
def fileCheck (b : List Byte × Option Seal) (tags : List Nat) (fmt block : Nat) : Status :=
  match b.2 with
  | none => .done
  | some x =>
    if (tags ≠ [] ∧ !tags.contains x.tensor.toNat) ∨ x.fmt.toNat ≠ fmt ∨ x.block.toNat ≠ block then .sealMismatch
    else if x.poison then .poisoned
    else if crcGood x b.1 then .done else .sealMismatch

/-- The first status that is not DONE. -/
def firstBad (l : List Status) : Status := (l.find? fun x => x != .done).getD .done

/-- The blocks of a section of a fetched file, with what its check finds. -/
def fileSection (bs : List (List Byte × Option Seal)) (tags : List Nat) (fmt : Nat) (sec : Nat × Nat × Nat × Nat) :
    Status × List Byte :=
  let l := (bs.drop sec.2.2.1).take sec.2.2.2
  (firstBad (l.zipIdx.map fun x => fileCheck x.1 tags fmt x.2), l.flatMap fun b => b.1)

/-! ## Table files (R179, R247, R325) -/

/-- The rows that an engine holds of a table, in ascending order: those of its shard and those that migrated in. -/
def State.tableRows (s : State) (b : Table) : List Row :=
  let mine := (List.range (tdCount b.desc)).filterMap fun i =>
    let r := tdGlobal b.desc i
    if b.rows.any fun x => x.row == r then none else s.rowOf b r
  (b.rows.foldl (fun l x => putRow x l) mine).filter fun x => x.state != 6

/-- A row's value, state and the step of its newest block (R179). -/
def State.rowNow (s : State) (b : Table) (x : Row) : Status × List Byte × List Byte × Nat :=
  if Row_resident x then
    let (st, img) := s.readRow b x.slot
    let (su, ws) := s.readState b x.slot
    let step := match s.region b (tdValueH b.desc) (4096 * (x.slot / tdRpb b.desc)) with
      | some (sp, a) => (s.sealOf sp a).step.toNat
      | none => 0
    (if Status_ok st then su else st, img, ws, step)
  else s.readHome b x

/-- The file of a table shard at its last committed step: none, with the status, where a row cannot be read. -/
def State.tableFile (s : State) (b : Table) : Status ⊕ List FBlock :=
  let d := b.desc
  let rows := s.tableRows b
  let vals := rows.map fun x => s.rowNow b x
  let bad := firstBad (vals.map fun v => v.1)
  let step := s.committed b.part
  let seals (tensor fmt : Nat) (l : List (List Byte)) : List FBlock :=
    l.zipIdx.map fun x => (x.1, mkSeal x.1 tensor fmt x.2 step)
  let ids := (cutList 512 rows.length rows).map fun l =>
    (l.flatMap fun x => bytesLE 8 x.row) ++ List.replicate (4096 - 8 * l.length) 0
  let vblocks := (cutList (tdRpb d) vals.length vals).map fun l =>
    l.zipIdx.foldl (fun (bs : List Byte) x => rowPut d bs x.2 x.1.2.1) (List.replicate 4096 0)
  let n := 4 * tdWords d
  let sblocks := if n = 0 then [] else (cutList (tdSpb d) vals.length vals).map fun l =>
    let bs := l.flatMap fun v => v.2.2.1
    bs ++ List.replicate (4096 - bs.length) 0
  if bad ≠ .done then .inl bad
  else
    let h : FileHead := {
      kind := 2, rule := tdRule d, step := step, t := 0, updates := s.get (HUB_PART_COMMIT_UPDATES b.part), tensor := b.tid
      domain := s.get (CTX_JOB_DOMAIN b.ctx), dims := [tdRows d, tdDim d, 0, 0, rows.length, tdDim d]
      hyper := [b.params.lr, 0, b.params.beta1, b.params.beta2, b.params.eps, 0, 0, 0]
      tail := List.replicate 6 0, fmt := tdFmt d }
    .inr (fileBlocks h ([(10, 0, seals b.tid 0 ids), (11, tdFmt d, seals (tdTag d) (tdFmt d) vblocks)] ++
      if n = 0 then [] else [(12, 0, seals (tdStateTag d) 0 sblocks)]))

/-- The rows of a fetched table file: row, value image and state words, or the status of a block that fails. -/
def tableFileRows (d : Desc) (bs : List (List Byte × Option Seal)) : Status ⊕ List (Nat × List Byte × List Byte) :=
  let hd := (bs.headD ([], none)).1
  let n := headNum hd 64 8
  let sec (k : Nat) : Nat × Nat × Nat × Nat := ((headSections hd).find? fun x => x.1 == k).getD (k, 0, 1, 0)
  let (s0, ids) := fileSection bs [] 0 (sec 10)
  let (s1, vs) := fileSection bs [tdTag d] (tdFmt d) (sec 11)
  let w := 4 * tdWords d
  let (s2, ss) := if w = 0 then (Status.done, []) else fileSection bs [tdStateTag d] 0 (sec 12)
  let bad := firstBad [s0, s1, s2]
  if bad ≠ .done then .inl bad
  else .inr ((List.range n).map fun i =>
    (ofBytesLE ((ids.drop (8 * i)).take 8),
      rowImage d ((vs.drop (4096 * (i / tdRpb d))).take 4096) (i % tdRpb d),
      (ss.drop (4096 * (i / tdSpb d) + i % tdSpb d * w)).take w))

end Sys2Proof.Machine
end

