-- ==== Sys2Proof/Machine/Orrery.lean ====
section
/-!
DEFINITION. The Orrery (10): its shards' banks, its queue pairs and descriptors, the pending update, the roots, export and
import, its arrival at the check barrier, and its part of a commit or skip.
-/

namespace Sys2Proof.Machine

open Sys2Proof

/-! ## Shards and their banks (R225 to R230) -/

/-- The shard in a slot. -/
def State.shardAt (s : State) (q k : Nat) : Option Shard := s.shards.find? fun d => d.quad == q && d.slot == k

/-- The shard of an Orrery that a job domain and SHARD_ID name. -/
def State.shardOf (s : State) (q dom sid : Nat) : Option Shard :=
  s.shards.find? fun d => d.quad == q && Desc_bits d.desc 0 63 48 == sid && s.get (CTX_JOB_DOMAIN d.ctx) == dom

/-- A shard's data set. -/
def State.setShard (s : State) (d : Shard) : State :=
  { s with shards := s.shards.map fun x => if x.quad = d.quad ∧ x.slot = d.slot then d else x }

/-- A block of tier H at a context address: its physical place. -/
def State.hPlace (s : State) (ctx addr : Nat) : Option Nat :=
  (findExtent (s.ctx ctx).extents 1 (offOf addr) 4096).map fun e => Extent_phys e (offOf addr - e.off)

/-- `n` FP32 patterns read from blocks of H, each block checked against its tag where it has one; a poisoned block of a
tag is recorded (R229, R361). -/
def State.readVals (s : State) (q ctx addr : Nat) (tag : Option Nat) (first n : Nat) : State × Status × List Nat :=
  let r := (List.range (f32Blocks n)).foldl (fun (a : State × Status × List Byte) i =>
    match a.1.hPlace ctx (addr + 4096 * i) with
    | none => (a.1, firstBad [a.2.1, .refusedPartition], a.2.2)
    | some p =>
      let t := a.1.recallRead p
      let x := t.sealOf .h p
      let bs := t.block .h p
      let st : Status := match tag with
        | some v => blockCheck x bs v 0 (first + i) false
        | none => if x.fmt.toNat ≠ 0 then .sealMismatch else if x.poison then .poisoned
          else if crcGood x bs then .done else .sealMismatch
      let t := match st, tag with
        | .poisoned, some v => t.ev 0x1107 (1 + q) 0 v (first + i) x.step.toNat
        | _, _ => t
      (t, firstBad [a.2.1, st], a.2.2 ++ bs)) (s, Status.done, [])
  (r.1, r.2.1, numsOf 4 (r.2.2.take (4 * n)))

/-- Blocks written to H from a context address on, sealed from a block number of their region on. -/
def State.putBlocks (s : State) (ctx addr tensor fmt first step : Nat) (bs : List (List Byte)) : State :=
  bs.zipIdx.foldl (fun (t : State) x =>
    match t.hPlace ctx (addr + 4096 * x.2) with
    | some p => (t.recallWrite p).setBlock .h p x.1 (mkSeal x.1 tensor fmt (first + x.2) step)
    | none => t) s

/-- FP32 patterns as blocks. -/
def f32Pack (l : List Nat) : List (List Byte) := wideBlocks 0 l

/-- The FP32 patterns of values. -/
def patterns (l : List Val) : List Nat := l.map (fp32Bits 0)

/-- A region's address and tag in a bank: 0 MASTER, 1 STATE, 2 WORK. -/
def sdPlace (d : Desc) (b r : Nat) : Nat × Nat :=
  (sdBank d + 4096 * sdRegion d b r, if r = 2 then sdWork d + b else sdTensor d + 2 * b + r)

/-- The state parts of a bank read in order. -/
def State.readParts (s : State) (x : Shard) (b : Nat) : State × Status × List (List Nat) :=
  let (addr, tag) := sdPlace x.desc b 1
  let r := (stateParts x.desc).foldl (fun (a : State × Status × List (List Nat) × Nat) p =>
    let (t, st, l) := a.1.readVals x.quad x.ctx (addr + 4096 * a.2.2.2) (some tag) a.2.2.2 p.2
    (t, firstBad [a.2.1, st], a.2.2.1 ++ [l], a.2.2.2 + f32Blocks p.2)) (s, Status.done, [], 0)
  (r.1, r.2.1, r.2.2.1)

/-- A bank's master and state read. -/
def State.readBank (s : State) (x : Shard) (b : Nat) : State × Status × List Nat × List (List Nat) :=
  let (addr, tag) := sdPlace x.desc b 0
  let (t, st, w) := s.readVals x.quad x.ctx addr (some tag) 0 (sdSize x.desc)
  let (u, su, parts) := t.readParts x b
  (u, firstBad [st, su], w, parts)

/-- A complete bank written: master, state and working copy (R229, R238). -/
def State.writeBank (s : State) (x : Shard) (b step : Nat) (w : List Nat) (parts : List (List Nat)) : State :=
  let d := x.desc
  let (am, tm) := sdPlace d b 0
  let (as_, ts) := sdPlace d b 1
  let (aw, tw) := sdPlace d b 2
  let t := s.putBlocks x.ctx am tm 0 0 step (f32Pack w)
  let t := t.putBlocks x.ctx as_ ts 0 0 step (parts.flatMap f32Pack)
  t.putBlocks x.ctx aw tw (sdFmt d) 0 step (workBlocks d (w.map ofFp32))

/-! ## The check arrival (R240) -/

/-- The Orrery takes work: not Draining. -/
def State.orrServes (s : State) (q : Nat) : Bool := s.get (ORR_STATUS_STATE q) == 0

/-- The partition of an Orrery queue pair. -/
def State.orrPart (s : State) (q qp : Nat) : Nat := (s.queuePart (.orrQp q qp)).getD 128

/-- An Orrery arrives at its partition's check barrier once STEP_END of the step has been taken and every earlier GRAD of
it has set PENDING: once for its queue pair and once for each reserved tile; STEP_END then completes. -/
def State.orrReady (s : State) (q p : Nat) : Option OrrOp :=
  let mine := s.orrOps.filter fun o => o.quad == q && s.orrPart q o.qp == p && o.step == s.checkTag p && o.status.isNone
  match mine.find? fun o => o.op == 2 && !o.worked with
  | some e => if s.orrServes q && !(mine.takeWhile (· != e)).any (fun o => o.op == 1 && !o.worked) then some e else none
  | none => none

/-! ## Completion (R231, R244) -/

/-- A descriptor completes with its record and its signal. -/
def State.orrFinal (s : State) (o : OrrOp) (st : Status) : State :=
  let e := o.words
  let r0 := if o.op = 1 then s.get (ORR_SHARD_ACTIVE o.quad o.slot) else 0
  let t := s.complete (.orrQp o.quad o.qp) o.index o.step st r0 0
  if Status_ok st ∧ Entry_bits e 0 48 48 = 1 then
    t.signal (t.physOf (Entry_bits e 0 31 24)) (Entry_bits e 0 23 20) 1 else t

/-- A shard leaves its slot, and its SHARD_DESTROY completes (R332). -/
def State.freeShard (s : State) (x : Shard) : State :=
  let t := ((s.wr (ORR_SHARD_VALID x.quad x.slot).off 0).wr (ORR_SHARD_T x.quad x.slot).off 0).put (ORR_STATUS_SHARDS x.quad)
    (s.get (ORR_STATUS_SHARDS x.quad) - 1)
  let t := { t with shards := t.shards.filter fun y => !(y.quad == x.quad && y.slot == x.slot) }
  match x.destroying with
  | some r => t.cmdClose r.1 r.2 .done 0 0
  | none => t

/-- The shards that a SHARD_DESTROY waits to free leave once no descriptor names them (R332). -/
def State.shardsLeave (s : State) : State :=
  (s.shards.filter fun x => x.destroying.isSome && !(s.orrOps.any fun o => o.quad == x.quad && o.slot == x.slot)).foldl
    (fun (t : State) x => t.freeShard x) s

/-- The finished descriptors at the front of a queue pair's op kind complete in order (R199). -/
def State.orrSettle : Nat → State → Nat → Nat → Nat → State
  | 0, s, _, _, _ => s
  | f + 1, s, q, qp, op =>
    match s.orrOps.find? fun o => o.quad == q && o.qp == qp && o.op == op with
    | some o => match o.status with
      | some st => State.orrSettle f ({ s with orrOps := s.orrOps.erase o }.orrFinal o st).shardsLeave q qp op
      | none => s
    | none => s

/-- An open descriptor changed. -/
def State.mapOrr (s : State) (o : OrrOp) (f : OrrOp → OrrOp) : State :=
  { s with orrOps := s.orrOps.map fun (x : OrrOp) =>
    if x.quad = o.quad ∧ x.qp = o.qp ∧ x.index = o.index ∧ x.status = none then f x else x }

/-- The status of a descriptor is known: DONE_CORRECTED where its work was done again (R249). -/
def State.orrEnd (s : State) (o : OrrOp) (st : Status) : State :=
  let st : Status := if st = .done ∧ o.corrected then .doneCorrected else st
  let t := s.mapOrr o fun x => { x with status := some st }
  let t := if o.op = 4 ∧ !(t.orrOps.any fun x => x.op == 4 && x.quad == o.quad && x.slot == o.slot && x.status.isNone) then
    t.put (ORR_SHARD_EXPORTING o.quad o.slot) 0 else t
  State.orrSettle (t.orrOps.length + 1) t o.quad o.qp o.op

/-- The check arrival made where it is due. -/
def State.orrCheck (s : State) (q p : Nat) : State :=
  match s.orrReady q p with
  | none => s
  | some e =>
    let t := (List.range (s.orrJoins p q)).foldl (fun (t : State) i =>
      t.arrive p 2 (.orrery q i) 0 0xFF (some (s.checkTag p))) (s.mapOrr e fun x => { x with worked := true })
    t.orrEnd { e with worked := true } .done

/-! ## GRAD (R232, R233, R237) -/

/-- A step sets NONFINITE where a pattern of a list is NaN or ±Inf. -/
def badPattern (v : Nat) : Bool := !Val_finite (ofFp32 v)

/-- GRAD at work: it waits for an IMPORT taken before it and for roots that it is to copy; then it computes the rule into
the inactive bank and sets PENDING. -/
def State.grad (s : State) (o : OrrOp) : State × Option Status :=
  match s.shardAt o.quad o.slot with
  | none => (s, some .refusedPartition)
  | some x =>
    let d := x.desc
    let tNext := s.get (ORR_SHARD_T o.quad o.slot) + 1
    let due := x.roots.find? fun r => r.count + Desc_bits d 11 55 48 == tNext
    let before := s.orrOps.takeWhile (· != o)
    let importing : Bool := before.any fun y => y.op == 5 && y.quad == o.quad && y.slot == o.slot && y.status.isNone
    let rootsLate : Bool := due.any fun r => !r.done
    let served : Bool := match s.hPlace x.ctx (sdBank d) with
      | some a => s.serves 1 a
      | none => true
    if importing ∨ !served then (s, none)
    else if rootsLate then (s.mapOrr o fun y => { y with waited := true }, none)
    else
      let act := s.get (ORR_SHARD_ACTIVE o.quad o.slot)
      let (t, st, w, parts) := s.readBank x act
      let (t, sg, g) := t.readVals x.quad x.ctx (sdGrad d) none 0 (sdSize d)
      let bad := firstBad [st, sg]
      if bad ≠ .done then (t, some bad)
      else
        let (w', st') := denseRule d x.hyper (g.map ofFp32) (w.map ofFp32) (parts.map fun l => l.map ofFp32)
        let roots := match due with
          | some r => r.vals
          | none => []
        let keep := (stateParts d).filter fun y => y.1 == 4 || y.1 == 5
        let cut := ((stateParts d).filter fun y => y.1 == 6 || y.1 == 7).foldl
          (fun (a : List (List Nat) × List Nat) y => (a.1 ++ [a.2.take y.2], a.2.drop y.2)) ([], roots)
        let new := match due with
          | some _ => (st'.take keep.length).map patterns ++ cut.1
          | none => st'.map patterns
        let wp := patterns w'
        let flag := g.any badPattern || wp.any badPattern || roots.any badPattern
        let t := if flag then t.setNonfinite x.part false else t
        let t := match wp.findIdx? badPattern with
          | some i => t.evLim 0xB105 (o.quad * 512 + o.slot) (1 + o.quad) 0 (Desc_bits d 0 63 48) i
          | none => t
        let t := (t.setShard { x with roots := x.roots.filter fun r => some r != due }).writeBank x (1 - act) o.step wp new
        let t := t.put (ORR_SHARD_PENDING o.quad o.slot) 1
        let t := if o.waited then t.ev 0xB103 (1 + o.quad) 0 (Desc_bits d 0 63 48) ((t.now - o.since) / 1000) (tNext - 1)
          else t
        (t.mapOrr o fun y => { y with worked := true }, none)

/-! ## EXPORT (R246, R247) -/

/-- The blocks of a part of a bank as they stand, with the status of their CRCs; poison is kept (R360). -/
def State.bankBlocks (s : State) (x : Shard) (addr n : Nat) : Status × List FBlock :=
  let l := (List.range n).map fun i =>
    match s.hPlace x.ctx (addr + 4096 * i) with
    | some p =>
      let t := s.recallRead p
      (t.block .h p, t.sealOf .h p)
    | none => (List.replicate 4096 0, seal0)
  (firstBad (l.map fun b => if b.2.poison ∨ crcGood b.2 b.1 then .done else .sealMismatch), l)

/-- The sections of STATE: the parts of one kind together, by their first block and count in the region. -/
def stateSections (d : Desc) : List (Nat × Nat × Nat) :=
  ((stateParts d).foldl (fun (a : List (Nat × Nat × Nat) × Nat) p =>
    let n := f32Blocks p.2
    match a.1.getLast? with
    | some l => if l.1 = p.1 then (a.1.dropLast ++ [(l.1, l.2.1, l.2.2 + n)], a.2 + n) else (a.1 ++ [(p.1, a.2, n)], a.2 + n)
    | none => ([(p.1, a.2, n)], n)) ([], 0)).1

/-- The file of a shard's active bank, or the status of a block that cannot be read. -/
def State.shardFile (s : State) (x : Shard) : Status ⊕ List FBlock :=
  let d := x.desc
  let act := s.get (ORR_SHARD_ACTIVE x.quad x.slot)
  let part (addr n : Nat) := s.bankBlocks x addr n
  let m := part (sdPlace d act 0).1 (sdMasterBlocks d)
  let sts := (stateSections d).map fun y => (y.1, part ((sdPlace d act 1).1 + 4096 * y.2.1) y.2.2)
  let rn := if x.roots = [] then [] else [(8, part (sdBank d + 8192 * sdBankBlocks d) (sdRootBlocks d))]
  let wk := part (sdPlace d act 2).1 (sdWorkBlocks d)
  let bad := firstBad (m.1 :: wk.1 :: (sts.map fun y => y.2.1) ++ rn.map fun y => y.2.1)
  if bad ≠ .done then .inl bad
  else
    let b (k hi lo : Nat) : Nat := Desc_bits d k hi lo
    let h : FileHead := {
      kind := 1, rule := sdRule d, step := x.commitStep, t := s.get (ORR_SHARD_T x.quad x.slot)
      updates := x.commitUpdates, tensor := sdTensor d, domain := s.get (CTX_JOB_DOMAIN x.ctx)
      dims := [b 2 63 32, b 2 31 0, b 3 63 32, b 3 31 0, sdRows d, sdCols d]
      hyper := [x.commitHyper.lr, x.commitHyper.wd, x.commitHyper.beta1, x.commitHyper.beta2, x.commitHyper.eps,
        b 9 31 0, b 10 63 32, b 10 31 0]
      tail := bytesLE 1 (b 11 63 56) ++ bytesLE 1 (b 11 55 48) ++ bytesLE 2 (b 11 47 32) ++ bytesLE 1 (b 11 31 28) ++
        bytesLE 1 (b 11 27 23)
      fmt := sdFmt d }
    .inr (fileBlocks h ([(0, 0, m.2)] ++ (sts.map fun y => (y.1, 0, y.2.2)) ++ (rn.map fun y => (y.1, 0, y.2.2)) ++
      [(9, sdFmt d, wk.2)]))

/-- The class of a descriptor, with its op's default (R231). -/
def orrClass (e : Entry) : Nat :=
  let c := Entry_bits e 0 51 50
  if c ≠ 0 then c else if Entry_bits e 0 63 56 = 1 then 1 else if Entry_bits e 0 63 56 ∈ [4, 5] then 3 else 2

/-- EXPORT at work: it waits for a root computation; then the file of the active bank goes to its destination. -/
def State.export_ (s : State) (o : OrrOp) : State × Option Status :=
  match s.shardAt o.quad o.slot with
  | none => (s, some .refusedPartition)
  | some x =>
    if x.roots.any fun r => !r.done then (s, none)
    else match s.shardFile x with
      | .inl st => (s, some st)
      | .inr bs =>
        match s.fileSend (s.owner (.orrQp o.quad o.qp)) o.index (Entry_bits o.words 2 63 0) (orrClass o.words) bs
            (.orr o.quad o.qp o.index) with
        | (t, some st) => (t, some st)
        | (t, none) => ((t.put (ORR_SHARD_EXPORTING o.quad o.slot) 1).mapOrr o fun y => { y with worked := true }, none)

/-! ## IMPORT (R248) -/

/-- The element of a rectangle at global coordinates: old values replaced by a file's where both hold the element. -/
def overlay (rect file : Nat × Nat × Nat × Nat) (old new : List Nat) : List Nat :=
  let (r0, c0, _, cs) := rect
  let (fr, fc, frs, fcs) := file
  let a := new.toArray
  old.zipIdx.map fun x =>
    let i := r0 + x.2 / cs
    let j := c0 + x.2 % cs
    if fr ≤ i ∧ i < fr + frs ∧ fc ≤ j ∧ j < fc + fcs then a.getD ((i - fr) * fcs + (j - fc)) 0 else x.1

/-- The file fits the shard: the fields of R248, and the block size of a Kronecker shard. -/
def importMatches (d : Desc) (hd : List Byte) : Bool :=
  headNum hd 0 4 == 0x44524853 && headNum hd 4 2 == 1 && headNum hd 6 1 == 1 && headNum hd 7 1 == sdRule d &&
  headNum hd 24 3 == sdTensor d && headNum hd 32 8 == Desc_bits d 2 63 32 && headNum hd 40 8 == Desc_bits d 2 31 0 &&
  (sdRule d != 3 || headNum hd 116 1 == Desc_bits d 11 31 28)

/-- A fetched file written into a shard's active bank. -/
def State.importInto (s : State) (x : Shard) (step : Nat) (bs : List (List Byte × Option Seal)) : State × Status :=
  let d := x.desc
  let head := bs.headD ([], none)
  let hd := head.1
  let st0 := fileCheck head [] 0 0
  if st0 ≠ .done then (s, st0)
  else if !importMatches d hd then (s, .refusedPartition)
  else
    let act := s.get (ORR_SHARD_ACTIVE x.quad x.slot)
    let rect := (Desc_bits d 3 63 32, Desc_bits d 3 31 0, sdRows d, sdCols d)
    let file := (headNum hd 48 8, headNum hd 56 8, headNum hd 64 8, headNum hd 72 8)
    let whole : Bool := decide (file.1 ≤ rect.1) && decide (rect.1 + rect.2.2.1 ≤ file.1 + file.2.2.1) &&
      decide (file.2.1 ≤ rect.2.1) && decide (rect.2.1 + rect.2.2.2 ≤ file.2.1 + file.2.2.2)
    let secs := headSections hd
    let sec (k : Nat) (tags : List Nat) : Status × List Nat :=
      match secs.find? fun y => y.1 == k with
      | some y =>
        let r := fileSection bs tags 0 y
        (r.1, numsOf 4 r.2)
      | none => (.done, [])
    let t0 := sdTensor d
    let m := sec 0 [t0, t0 + 2]
    let kinds := (stateSections d).map fun y => (y.1, sec y.1 [t0 + 1, t0 + 3])
    let rn := sec 8 [t0 + 4]
    let (t, st, ow, op) := if whole then (s, Status.done, List.replicate (sdSize d) 0,
        (stateParts d).map fun p => List.replicate p.2 0) else s.readBank x act
    let bad := firstBad ([m.1, rn.1, st] ++ kinds.map fun y => y.2.1)
    if bad ≠ .done then (t, bad)
    else
      let w := overlay rect file ow m.2
      let whole_ (k : Nat) : List Nat := ((kinds.find? fun y => y.1 == k).map fun y => y.2.2).getD []
      -- the parts of one kind lie one after the other, each from a block on
      let parts := ((stateParts d).zip op).foldl (fun (a : List (List Nat) × List (Nat × Nat)) p =>
        let k := p.1.1
        let off := ((a.2.find? fun y => y.1 == k).map fun y => y.2).getD 0
        let vals := ((whole_ k).drop off).take p.1.2
        let new := if k = 1 then overlay rect file p.2 (whole_ 1)
          else if k = 2 then overlay (rect.1, 0, sdRows d, 1) (file.1, 0, file.2.2.1, 1) p.2 vals
          else if k = 3 then overlay (rect.2.1, 0, sdCols d, 1) (file.2.1, 0, file.2.2.2, 1) p.2 vals
          else if vals.length = p.1.2 then vals else p.2
        (a.1 ++ [new], (k, off + 1024 * f32Blocks p.1.2) :: a.2)) ([], [])
      let t := t.writeBank x act step w parts.1
      let kr := Desc_bits d 11 47 32
      let tFile := headNum hd 12 4
      let matrix : Bool := whole && (sdRule d == 1 || sdRule d == 2 || sdRule d == 3)
      let x := { x with commitStep := step, commitUpdates := t.get (HUB_PART_COMMIT_UPDATES x.part) }
      if matrix then
        let sizes := ((stateParts d).filter fun y => y.1 == 6 || y.1 == 7).map fun y => y.2
        let vals := (sizes.foldl (fun (a : List Nat × List Nat) n =>
          (a.1 ++ a.2.take n, a.2.drop (1024 * f32Blocks n))) ([], rn.2)).1
        let roots := if rn.2 = [] then [] else [⟨tFile / max 1 kr * kr, true, vals⟩]
        let t := (t.setShard { x with roots := roots }).put (ORR_SHARD_T x.quad x.slot) tFile
        (if rn.2 = [] then t else t.putBlocks x.ctx (sdBank d + 8192 * sdBankBlocks d) (t0 + 4) 0 0 step
          (cutList 1024 rn.2.length rn.2 |>.flatMap f32Pack), .done)
      else (t.setShard x, .done)

/-- IMPORT at work: the file is fetched, and written into the active bank once it is here. -/
def State.import_ (s : State) (o : OrrOp) : State × Option Status :=
  match s.shardAt o.quad o.slot with
  | none => (s, some .refusedPartition)
  | some x =>
    match s.fileFetch (s.owner (.orrQp o.quad o.qp)) o.index (Entry_bits o.words 2 63 0) [1, 2, 3, 4] headLength 0
        (.orr o.quad o.qp o.index) with
    | (t, .fail st) => (t, some st)
    | (t, .waits) => (t.mapOrr o fun y => { y with worked := true }, none)
    | (t, .have_ bs) =>
      let (u, st) := t.importInto x o.step bs
      (u, some st)

/-! ## Descriptors (R231, R232, R250) -/

/-- What a taken descriptor does. -/
def State.orrWork (s : State) (o : OrrOp) : State × Option Status :=
  match o.op with
  | 1 => s.grad o
  | 3 =>
    match s.shardAt o.quad o.slot with
    | some x =>
      let h : Hyper := ⟨Entry_bits o.words 2 63 32, Entry_bits o.words 2 31 0, Entry_bits o.words 3 63 32,
        Entry_bits o.words 3 31 0, Entry_bits o.words 4 63 32⟩
      ((s.setShard { x with pendingHyper := x.pendingHyper ++ [(o.qp, o.index, h)] }).mapOrr o
        fun y => { y with worked := true }, none)
    | none => (s, some .refusedPartition)
  | 4 => s.export_ o
  | 5 => s.import_ o
  | 6 =>
    let p := s.orrPart o.quad o.qp
    let c := s.commit p
    ((s.setCommit p { c with skips := c.skips ++ [(o.quad, o.qp, o.index)] }).mapOrr o
      fun y => { y with worked := true }, none)
  | _ => (s, none)

/-- A taken descriptor that has not done its work tries to; then the check arrival may be due. -/
def State.orrTry (s : State) (o : OrrOp) : State :=
  if o.worked ∨ o.status.isSome ∨ !s.orrServes o.quad then s
  else
    let t := match s.orrWork o with
      | (t, some st) => t.orrEnd o st
      | (t, none) => t
    t.orrCheck o.quad (t.orrPart o.quad o.qp)

/-- Every descriptor of every Orrery tries, in the order taken. -/
def State.orrRetry (s : State) : State :=
  s.orrOps.foldl (fun (t : State) o =>
    match t.orrOps.find? fun x => x.quad == o.quad && x.qp == o.qp && x.index == o.index with
    | some x => t.orrTry x
    | none => t) s

/-- The defined bits of the words of a descriptor, by op. -/
def orrMasks (op : Nat) : List Nat :=
  let all := 2 ^ 64 - 1
  let w0 := 0xFFFDFFFFFFF00000
  match op with
  | 3 => [w0, all, all, all, 0xFFFFFFFF00000000, 0, 0, 0]
  | 4 => [w0, all, all, 0, 0, 0, 0, 0]
  | 5 => [w0, all, all, 0, 0, 0, 0, 0]
  | _ => [w0, all, 0, 0, 0, 0, 0, 0]

/-- The shard that a descriptor names on its Orrery. -/
def State.orrShard (s : State) (q qp : Nat) (e : Entry) : Option Shard :=
  (s.shardOf q (s.get (CTX_JOB_DOMAIN (s.owner (.orrQp q qp)))) (Entry_bits e 0 47 32)).filter fun x => x.destroying.isNone

/-- The refusals of R202 and R231: also a GRAD of a frozen shard (R233), and a second GRAD of a shard's step. -/
def State.orrBad (s : State) (q qp : Nat) (e : Entry) : Bool :=
  let op := Entry_bits e 0 63 56
  let p := s.orrPart q qp
  decide (op < 1) || decide (6 < op) || Entry_bits e 0 55 52 != 1 || !reservedZero e (orrMasks op) ||
    !s.accepts (s.owner (.orrQp q qp)) ||
    (if op = 2 ∨ op = 6 then Entry_bits e 0 47 32 != 0 else (s.orrShard q qp e).isNone) ||
    (op == 1 && (s.orrShard q qp e).any fun x => sdRule x.desc == 15 || x.gradStep == some (Entry_bits e 1 63 32)) ||
    (Entry_bits e 0 48 48 == 1 && s.tilePart (Entry_bits e 0 31 24) != some p)

/-- The gate of a descriptor: none where it waits, else whether it is cancelled (R121, R231). -/
def orrGate (c : Nat) (e : Entry) : Option Bool :=
  let op := Entry_bits e 0 63 56
  let step := Entry_bits e 1 63 32
  if op = 3 ∨ op = 4 then some false
  else if op = 5 then if step = c then some false else if stepLe step c then some true else none
  else if step = (c + 1) % 2 ^ 32 then some false else if stepLe step c then some true else none

/-- The shard that a descriptor of op `op` works on: STEP_END and SKIP name none. -/
def State.orrTarget (s : State) (q qp op : Nat) (e : Entry) : Option Shard :=
  if op = 2 ∨ op = 6 then none else s.orrShard q qp e

/-- The Orrery operation that the descriptor `e` at a queue pair's head becomes. -/
def State.orrOpOf (s : State) (q qp op : Nat) (e : Entry) : OrrOp :=
  ⟨q, qp, s.get (qHead (.orrQp q qp)), op, e, Entry_bits e 1 63 32,
    ((s.orrTarget q qp op e).map fun y => y.slot).getD 512, false, false, false, s.now, false, none⟩

/-- The state that has taken it: the ring's head has moved on, a GRAD has marked the step that its shard has a gradient
of, and the operation is among those in progress. -/
def State.orrTaken (s : State) (q qp op : Nat) (e : Entry) : State :=
  let t := s.advance (.orrQp q qp) 1
  let t := match s.orrTarget q qp op e with
    | some y => if op = 1 then t.setShard { y with gradStep := some (Entry_bits e 1 63 32) } else t
    | none => t
  { t with orrOps := t.orrOps ++ [s.orrOpOf q qp op e] }

/-- The descriptor of op `op` at a queue pair's head passes the common refusals and its gate, is taken and tries its
work; a Draining Orrery answers DEFERRED with a retry hint and lets it wait (R250). -/
def State.orrHead (s : State) (q qp op : Nat) : State :=
  let u := QueueId.orrQp q qp
  let p := s.orrPart q qp
  if !s.ringHas u then s
  else match s.ringEntry u with
    | none => if s.pairRuns u p (s.committed p) then s.headOutside u else s
    | some e =>
      let step := Entry_bits e 1 63 32
      if !s.pairRuns u p step then s
      else if s.orrBad q qp e then
        let (t, i) := s.take u
        t.complete u i step .refusedPartition 0 0
      else if Entry_bits e 0 63 56 ≠ op then s
      else match orrGate (s.committed p) e with
        | none => s
        | some true =>
          let (t, i) := s.take u
          t.complete u i step .cancelled 0 0
        | some false =>
          let o := s.orrOpOf q qp op e
          let t := s.orrTaken q qp op e
          if s.orrServes q then t.orrTry o
          else (t.deferRec u (s.get (qHead u)) step 0x8001).mapOrr o fun y => { y with deferredSent := true }

/-- GRAD (R231 to R233). -/
def execGrad (q : Fin 4) (qp : Fin 16) (s : State) : Host.Outcome State Fault Refusal := .next (s.orrHead q.val qp.val 1)

/-- STEP_END of an Orrery queue pair (R231, R240). -/
def execOrrStepEnd (q : Fin 4) (qp : Fin 16) (s : State) : Host.Outcome State Fault Refusal :=
  .next (s.orrHead q.val qp.val 2)

/-- SET_HYPER (R231): the values apply from the next commit or skip Meridian. -/
def execSetHyper (q : Fin 4) (qp : Fin 16) (s : State) : Host.Outcome State Fault Refusal :=
  .next (s.orrHead q.val qp.val 3)

/-- EXPORT (R231, R246, R247). -/
def execExportOp (q : Fin 4) (qp : Fin 16) (s : State) : Host.Outcome State Fault Refusal :=
  .next (s.orrHead q.val qp.val 4)

/-- IMPORT (R231, R248). -/
def execImportOp (q : Fin 4) (qp : Fin 16) (s : State) : Host.Outcome State Fault Refusal :=
  .next (s.orrHead q.val qp.val 5)

/-- SKIP (R231, R240, R241). -/
def execSkip (q : Fin 4) (qp : Fin 16) (s : State) : Host.Outcome State Fault Refusal := .next (s.orrHead q.val qp.val 6)

/-! ## Roots and reset (R237, R245, R250) -/

/-- The computation of a shard's oldest unfinished roots is complete: ROOT_NEXT is written, and what waited for them goes
on. -/
def State.rootsDone (s : State) (q k : Nat) : State :=
  match s.shardAt q k with
  | none => s
  | some x =>
    match x.roots.find? fun r => !r.done with
    | none => s
    | some r =>
      let d := x.desc
      let sizes := ((stateParts d).filter fun y => y.1 == 6 || y.1 == 7).map fun y => y.2
      let blocks := (sizes.foldl (fun (a : List (List Byte) × List Nat) n =>
        (a.1 ++ f32Pack (a.2.take n), a.2.drop n)) ([], r.vals)).1
      let y := { x with roots := x.roots.map fun (z : RootSet) => if z.count = r.count then { z with done := true } else z }
      ((s.setShard y).putBlocks x.ctx (sdBank d + 8192 * sdBankBlocks d) (sdTensor d + 4) 0 0 (s.committed x.part)
        blocks).orrRetry

/-- The Orrery's reset: a new generation, its unfinished work reissued, and the arrivals that are due (R250). -/
def State.orrReset (s : State) (q ms : Nat) : State :=
  let old := s.get (ORR_STATUS_GENERATION q)
  let open_ := s.orrOps.filter fun o => o.quad == q && !o.worked && o.status.isNone
  let t := (s.put (ORR_STATUS_GENERATION q) ((old + 1) % 65536)).put (ORR_STATUS_STATE q) 0
  let t := { t with orrOps := t.orrOps.map fun (o : OrrOp) =>
    if o.quad = q ∧ o.status = none ∧ (o.op = 1 ∨ o.op = 4 ∨ o.op = 5) then { o with corrected := true } else o }
  (t.ev 0xB104 (1 + q) 0 old open_.length ms).orrRetry

/-! ## Commit and skip (R244) -/

/-- The parameters set for a partition's next Meridian apply, and their SET_HYPER descriptors complete. -/
def State.orrHyper (s : State) (p : Nat) : State :=
  (s.shards.filter fun x => x.part == p && !x.pendingHyper.isEmpty).foldl (fun (t : State) x =>
    let h := (x.pendingHyper.getLast?.map fun y => y.2.2).getD x.hyper
    let t := t.setShard { x with hyper := h, pendingHyper := [] }
    x.pendingHyper.foldl (fun (u : State) y =>
      match u.orrOps.find? fun o => o.op == 3 && o.quad == x.quad && o.qp == y.1 && o.index == y.2.1 && o.status.isNone with
      | some o => u.orrEnd o .done
      | none => u) t) s

/-- The descriptors of one op of a partition's step end with a status. -/
def State.orrEndAll (s : State) (p op step : Nat) (f : OrrOp → Status) : State :=
  (s.orrOps.filter fun o => o.op == op && o.step == step && o.status.isNone && s.orrPart o.quad o.qp == p).foldl
    (fun (t : State) o => t.orrEnd o (f o)) s

/-- The flip of a shard with PENDING set: ACTIVE, T, and a root computation where T calls for one (R230, R237). -/
def State.flipShard (s : State) (x : Shard) : State :=
  let q := x.quad
  let k := x.slot
  let tNew := s.get (ORR_SHARD_T q k) + 1
  let act := 1 - s.get (ORR_SHARD_ACTIVE q k)
  let t := ((s.put (ORR_SHARD_ACTIVE q k) act).put (ORR_SHARD_PENDING q k) 0).put (ORR_SHARD_T q k) (min tNew (2 ^ 32 - 1))
  let kr := Desc_bits x.desc 11 47 32
  let starts : Bool := sdRule x.desc == 3 && decide (tNew % max 1 kr = 0)
  let (t, set) := if starts then
      let (u, _, parts) := t.readParts x act
      (u, [(⟨tNew, false, ((allRoots x.desc x.hyper (parts.map fun l => l.map ofFp32)).map patterns).flatten⟩ : RootSet)])
    else (t, [])
  t.setShard { x with
    roots := x.roots ++ set, commitHyper := x.hyper, commitStep := s.committed x.part
    commitUpdates := s.get (HUB_PART_COMMIT_UPDATES x.part) }

/-- The commit Meridian of step `n` at the Orreries: COMMITTED_STEP and UPDATES already say so. -/
def State.orrCommit (s : State) (p n : Nat) : State :=
  let flips := s.shards.filter fun x => x.part == p && s.get (ORR_SHARD_PENDING x.quad x.slot) == 1
  let t := (flips.foldl (fun (t : State) x => t.flipShard x) s).orrHyper p
  let t := { t with shards := t.shards.map fun (x : Shard) =>
    if (flips.any fun f => f.quad == x.quad && f.slot == x.slot) then { x with commitHyper := x.hyper } else x }
  let t := t.orrEndAll p 1 n fun o => if o.worked then .done else .stepSkipped
  t.orrEndAll p 6 n fun _ => .stepSkipped

/-- The skip Meridian of step `n` at the Orreries; a STEP_END whose arrival an abandoned barrier missed ends with the
status given (R137). -/
def State.orrSkip (s : State) (p n : Nat) (late : Status) : State :=
  let t := (s.shards.filter fun x => x.part == p).foldl (fun (t : State) x => t.put (ORR_SHARD_PENDING x.quad x.slot) 0) s
  let t := t.orrHyper p
  let t := t.orrEndAll p 1 n fun _ => .stepSkipped
  let t := t.orrEndAll p 6 n fun _ => .stepSkipped
  t.orrEndAll p 2 n fun _ => late

/-- ROOT_COMPUTE_COMPLETE (R237). -/
def execRootComputeComplete (q : Fin 4) (k : Fin 512) (s : State) : Host.Outcome State Fault Refusal :=
  .next (if s.live && s.orrServes q.val then s.rootsDone q.val k.val else s)

end Sys2Proof.Machine
end

