-- ==== Sys2Proof/Machine/Ports.lean ====
section
/-!
DEFINITION. The ports of Starlane: training, link retry, error counters and their actions, the C0 move, calibration,
retraining, Quarantine, resets, route banks and Ethernet re-sends (R252 to R278).
-/

namespace Sys2Proof.Machine

open Sys2Proof

/-- The state code of a port (R258). -/
def State.portState (s : State) (p : Nat) : Nat := s.get (SL_STATUS_STATE p)

/-- The lanes set in a mask of four. -/
def laneCountOf (m : Nat) : Nat := ((List.range 4).filter fun i => bitAt m i).length

/-- A port in service: Up, Calibrating or Retraining (R252). -/
def State.inService (s : State) (p : Nat) : Bool := decide (3 ≤ s.portState p) && decide (s.portState p ≤ 5)

/-- The lanes that a port needs: two, and in Ethernet role four (R252, R276). -/
def State.lanesNeeded (s : State) (p : Nat) : Nat := if s.get (SL_STATUS_ROLE p) = 2 then 4 else 2

/-- The source unit of a port in events (R285). -/
def portUnit (p : Nat) : Nat := 0x20 + p

/-! ## Packets that go to another port (R271, R272, R274) -/

/-- Delivered-once packets (R259). -/
def onceOnly (ty : Nat) : Bool := ty == 0x07 || ty == 0x08 || ty == 0x0E

/-- One packet that leaves a port sent over its route set: a copy of a delivered-once packet later than 1 ms after its
first send is dropped (R269); a C0 packet goes to the sideband where no port is usable (R271); a request of this module waits
for a port (R268); anything else is not delivered. -/
def State.handOn (s : State) (p : Nat) (k : Kept) : State :=
  if onceOnly k.pkt.ty ∧ k.sends ≠ 0 ∧ k.first + 1000000 < s.now then s
  else match s.choosePort k.pkt.dstModule k.pkt.cls (if k.part < 128 then some k.part else none) [p] with
    | some (r, t) => t.enqueue r k
    | none =>
      if k.pkt.cls = 0 then s.c0ToSideband (portUnit p) k.pkt
      else if s.xreqs.any fun x => x.pkt == k.pkt then
        { s with xreqs := s.xreqs.map fun (x : XReq) => if x.pkt = k.pkt then { x with waitingPort := true } else x }
      else s.notDelivered (portUnit p) 1 k.pkt.dstModule

/-- Packets handed on in order. -/
def State.handOnAll (s : State) (p : Nat) (l : List Kept) : State := l.foldl (fun t k => t.handOn p k) s

/-- The queued C0 packets of a port moved to alternates or the sideband (R271). -/
def State.moveC0 (s : State) (p : Nat) : State :=
  let x := s.port p
  (s.setPort p { x with queues := x.queues.filter fun k => k.pkt.cls != 0 }).handOnAll p
    (x.queues.filter fun k => k.pkt.cls == 0)

/-- What a port that leaves service re-sends: its unacknowledged packets, then its queues, each flow in its order
(R272). -/
def Port_resend (x : Port) : List Kept := x.retry ++ x.ethUnacked ++ x.queues

/-- The packets of a port that leaves service re-sent over their route sets (R272). -/
def State.resendAll (s : State) (p : Nat) : State :=
  let x := s.port p
  (s.setPort p { x with retry := [], ethUnacked := [], queues := [] }).handOnAll p (Port_resend x)

/-! ## Up and waiting requests (R258, R268) -/

/-- The requests that wait for a usable port sent where there is one now (R268). -/
def State.retryPorts (s : State) : State :=
  (s.xreqs.filter fun x => x.waitingPort).foldl (fun (t : State) x =>
    match t.route (some x.part) x.pkt with
    | some u => { u with xreqs := u.xreqs.map fun (y : XReq) => if y = x then { y with waitingPort := false } else y }
    | none => t) s

/-- A port becomes Up: its queue goes out, and requests that wait for a port are sent. -/
def State.portUp (s : State) (p : Nat) : State := ((s.put (SL_STATUS_STATE p) 3).pump p).retryPorts

/-! ## Training (R256, R257) -/

/-- Training starts: at step 2 of R256 where 100 ms have passed since it last started, and otherwise at step 1, where it waits for
signal (log 43).  Sequence numbers start again (log 44). -/
def State.startTraining (s : State) (p lanes : Nat) : State :=
  let x := s.port p
  let early : Bool := match x.startedAt with
    | some v => decide (s.now < v + 100000000)
    | none => false
  let t := ((s.put (SL_STATUS_STATE p) 2).put (SL_STATUS_LANE_MASK p) 0).put (SL_STATUS_PROTO p) 0
  t.setPort p { x with
    step := if early then 1 else 2, lanes := lanes, startedAt := if early then x.startedAt else some s.now
    nextSeq := 0, lastGood := 4095, pending := none, degraded := false }

/-- A training step fails: back to step 1, with event 0xC102 (R256). -/
def State.trainFail (s : State) (p : Nat) : State :=
  let x := s.port p
  (s.setPort p { x with step := 1, failures := x.failures + 1 }).ev 0xC102 (portUnit p) 0 x.step x.lanes (x.failures + 1)

/-- SIGNAL_DETECT (R256): signal on at least two lanes starts the training of a Down port, or of one back at step 1, at
most every 100 ms. -/
def execSignalDetect (port : Fin 32) (lanes : Nat) (s : State) : Host.Outcome State Fault Refusal :=
  let p := port.val
  .next (whenOn s
    (if (s.portState p = 1 ∨ s.portState p = 2 ∧ (s.port p).step = 1) ∧ 2 ≤ laneCountOf lanes ∧
        (s.get (SL_STATUS_ROLE p) = 1 ∨ s.get (SL_STATUS_ROLE p) = 2) then
      let t := s.startTraining p (lanes % 16)
      if (t.port p).step = 2 then t else s
    else s))

/-- This module's capability exchange (R257). -/
def State.capability (s : State) (p : Nat) : List Byte :=
  bytesLE 1 0x11 ++ bytesLE 1 (s.port p).lanes ++ bytesLE 3 s.self ++
    bytesLE 1 (s.get (SL_CFG_CONST p) + 2 * s.get (SL_CFG_SELF_CASCADE p) + 16 * s.get (SL_CFG_PEER_CASCADE p)) ++
    bytesLE 2 (s.get (SL_CFG_CONST_TAG p)) ++ bytesLE 2 (s.get (SL_STATUS_GENERATION p)) ++
    bytesLE 1 (s.get HUB_STRAPS_LODESTAR_SEL) ++ bytesLE 5 0

/-- Training is complete: the port is Up with event 0xC101. -/
def State.trained (s : State) (p : Nat) : State :=
  let x := s.port p
  let t := (s.setPort p { x with step := 0, failures := 0 }).put (SL_STATUS_LANE_MASK p) x.lanes
  let t := if s.get (SL_STATUS_ROLE p) = 2 then (t.put (SL_STATUS_PEER_MODULE p) 0).put (SL_STATUS_PROTO p) 1 else t
  (t.ev 0xC101 (portUnit p) 0 x.lanes (t.get (SL_STATUS_PROTO p)) (t.get (SL_STATUS_PEER_MODULE p))).portUp p

/-! ## The constellation's choice (R279, R280) -/

/-- The Lodestar that R280 chooses among the members seen: the lowest CASCADE_ID with its strap, or the lowest. -/
def chooseLodestar (members straps : Nat) : Nat :=
  let l := (List.range 8).filter fun c => bitAt members c
  ((l.find? fun c => bitAt straps c).orElse fun _ => l.head?).getD 0

/-- The first constellation port of a member comes Up: the member is live, and the Lodestar is chosen again where the member has never
been seen (log 45). -/
def State.memberUp (s : State) (p : Nat) : State :=
  if s.get (SL_STATUS_CONST p) = 0 then s
  else
    let c := s.get (SL_CFG_PEER_CASCADE p)
    let me := s.get (SL_CFG_SELF_CASCADE p)
    let new := !bitAt s.const.seen c
    let seen := s.const.seen ||| 2 ^ c ||| 2 ^ me
    let straps := if s.get HUB_STRAPS_LODESTAR_SEL = 1 then s.const.straps ||| 2 ^ me else s.const.straps
    let t := { s with const := { s.const with seen := seen, straps := straps } }
    let t := ((t.put HUB_CONST_STATUS_MEMBERS (t.get HUB_CONST_STATUS_MEMBERS ||| 2 ^ c ||| 2 ^ me)).put
      HUB_CONST_STATUS_SELF me).put HUB_CONST_STATUS_CONST_TAG (s.get (SL_CFG_CONST_TAG p))
    if new then
      let l := chooseLodestar (t.get HUB_CONST_STATUS_MEMBERS) straps
      (t.put HUB_CONST_STATUS_LODESTAR l).put HUB_CONST_STATUS_IS_LODESTAR (if l = me then 1 else 0)
    else t

/-- TRAINING_STEP_DONE (R256): the lanes that passed a step of 2 to 4 go on while enough are left; after step 4 a Starlane
port sends its capabilities, and an Ethernet port is Up; after step 6 a Starlane port is Up. -/
def execTrainingStepDone (port : Fin 32) (lanes : Nat) (s : State) : Host.Outcome State Fault Refusal :=
  let p := port.val
  let x := s.port p
  .next (whenOn s
    (if s.portState p ≠ 2 then s
    else if 2 ≤ x.step ∧ x.step ≤ 4 then
      let left := x.lanes &&& lanes % 16
      if laneCountOf left < s.lanesNeeded p then (s.setPort p { x with lanes := left }).trainFail p
      else
        let t := s.setPort p { x with lanes := left, step := x.step + 1 }
        if x.step < 4 then t
        else if s.get (SL_STATUS_ROLE p) = 2 then t.trained p
        else t.emit (.packet p 0 0 { ty := 0x11, cls := 0, srcModule := s.self, payload := t.capability p })
    else if x.step = 6 then (s.trained p).memberUp p
    else s))

/-- TRAINING_STEP_TIMEOUT (R256). -/
def execTrainingStepTimeout (port : Fin 32) (s : State) : Host.Outcome State Fault Refusal :=
  .next (whenOn s (if s.portState port.val = 2 ∧ 2 ≤ (s.port port.val).step then s.trainFail port.val else s))

/-- The peer of a constellation port taken as a member, or as an ordinary peer with event 0xC107 (R279). -/
def State.matchMember (s : State) (p peer byte5 tag strap : Nat) : State :=
  if s.get (SL_CFG_CONST p) = 0 then s.put (SL_STATUS_CONST p) 0
  else
    let c := bitsOf 3 1 byte5
    let held := bitAt s.const.seen c && s.memberModule c != peer
    if byte5 % 2 = 1 ∧ c = s.get (SL_CFG_PEER_CASCADE p) ∧ tag = s.get (SL_CFG_CONST_TAG p) ∧ !held then
      { s with const := { s.const with
          memberModules := smSet (fun _ => 0) s.const.memberModules c peer
          straps := if strap = 1 then s.const.straps ||| 2 ^ c else s.const.straps } }.put (SL_STATUS_CONST p) 1
    else (s.put (SL_STATUS_CONST p) 0).ev 0xC107 (portUnit p) 0 2 c peer

/-- TRAIN (R257): the peer's capabilities at step 5.  The versions agree on the lower maximum where it is at least the higher
minimum; the lanes of both masks are used; a peer that cannot agree leaves the port in Mismatch. -/
def execTrain (port : Fin 32) (payload : List Byte) (s : State) : Host.Outcome State Fault Refusal :=
  let p := port.val
  let x := s.port p
  let b (i n : Nat) : Nat := ofBytesLE ((payload.drop i).take n)
  .next (whenOn s
    (if s.portState p ≠ 2 ∨ x.step ≠ 5 then s
    else
      let agreed := min 1 (bitsOf 7 4 (b 0 1))
      if agreed < max 1 (bitsOf 3 0 (b 0 1)) then
        (s.put (SL_STATUS_STATE p) 7).ev 0xC107 (portUnit p) 0 1 (b 0 1) (b 2 3)
      else
        let left := x.lanes &&& b 1 1 % 16
        if laneCountOf left < 2 then (s.setPort p { x with lanes := left }).trainFail p
        else
          let t := (s.setPort p { x with lanes := left, step := 6 }).put (SL_STATUS_PROTO p) agreed
          (t.put (SL_STATUS_PEER_MODULE p) (b 2 3)).matchMember p (b 2 3) (b 5 1) (b 6 2) (b 10 1 % 2)))

/-! ## State changes that wait for the C0 move (R258, R271) -/

/-- A port enters Quarantine: its packets are re-sent, and the member it led to keeps its place (R272; R252). -/
def State.quarantine (s : State) (p : Nat) : State :=
  let n := (Port_resend (s.port p)).length
  let t := (s.put (SL_STATUS_STATE p) 6).put (SL_STATUS_LANE_MASK p) 0
  let t := t.setPort p { t.port p with pending := none, degraded := false }
  (t.resendAll p).ev 0xC105 (portUnit p) 0 (s.get (SL_ERR_TX_ERR p)) (s.get (SL_ERR_RX_ERR p)) n

/-- A port enters the state that waited for its C0 move: Calibrating, Retraining or Quarantine. -/
def State.enterState (s : State) (p target : Nat) : State :=
  if target = 6 then s.quarantine p
  else (s.setPort p { s.port p with pending := none }).put (SL_STATUS_STATE p) target

/-- A state change of a port: at once where no C0 packet is queued, and otherwise when its move is complete; a
Quarantine that comes meanwhile takes its place (R271). -/
def State.changeTo (s : State) (p target : Nat) : State :=
  let x := s.port p
  if x.queues.any fun k => k.pkt.cls == 0 then
    s.setPort p { x with pending := some (max target (x.pending.getD 0)) }
  else s.enterState p (max target (x.pending.getD 0))

/-- C0_MOVE_COMPLETE (R271): the queued C0 packets go to alternates or the sideband, and the state change proceeds. -/
def execC0MoveComplete (port : Fin 32) (s : State) : Host.Outcome State Fault Refusal :=
  let p := port.val
  .next (whenOn s (match (s.port p).pending with
    | some target => (s.moveC0 p).enterState p target
    | none => s))

/-! ## Error counters (R270) -/

/-- The higher of a port's two counters. -/
def State.errHigh (s : State) (p : Nat) : Nat := max (s.get (SL_ERR_TX_ERR p)) (s.get (SL_ERR_RX_ERR p))

/-- The actions that a rise of the higher counter from `old` sets off in a port in service (R270). -/
def State.errActions (s : State) (p old : Nat) : State :=
  let new := s.errHigh p
  let x := s.port p
  if !s.inService p then s
  else
    let t := if old < 96 ∧ 96 ≤ new ∧ x.warnArmed then
        (s.setPort p { x with warnArmed := false }).evLim 0xC103 (portUnit p) (portUnit p) 0 (s.get (SL_ERR_TX_ERR p))
          (s.get (SL_ERR_RX_ERR p))
      else s
    if old < 256 ∧ 256 ≤ new then t.changeTo p 6
    else if old < 128 ∧ 128 ≤ new ∧ x.degradeArmed ∧ s.portState p = 3 then
      let y := t.port p
      (t.setPort p { y with degradeArmed := false, degraded := true, lanes := s.get (SL_STATUS_LANE_MASK p) }).changeTo p 5
    else t

/-- An error counter of a port raised, with the actions of its thresholds. -/
def State.raiseErr (s : State) (p : Nat) (f : Fld) (n : Nat) : State := (s.inc f n).errActions p (s.errHigh p)

/-- ERR_COUNTER_DECAY (R270): each counter above zero falls by one unless the port is in Quarantine; below 64 Warning
and Degrade are armed again. -/
def execErrCounterDecay (port : Fin 32) (s : State) : Host.Outcome State Fault Refusal :=
  let p := port.val
  .next (whenOn s
    (if s.portState p = 6 then s
    else
      let t := (s.put (SL_ERR_TX_ERR p) (s.get (SL_ERR_TX_ERR p) - 1)).put (SL_ERR_RX_ERR p) (s.get (SL_ERR_RX_ERR p) - 1)
      if t.errHigh p < 64 then t.setPort p { t.port p with warnArmed := true, degradeArmed := true } else t))

/-! ## Link retry (R261) -/

/-- The packets up to an ACK freed; an ACK that names none of them frees none. -/
def ackKept (l : List Kept) (ack : Nat) : List Kept :=
  if l.any fun k => k.seq == ack then (l.dropWhile fun k => k.seq != ack).drop 1 else l

/-- An ACK taken: its packets are freed, and held ones go out. -/
def State.linkAck (s : State) (p ack : Nat) : State :=
  let x := s.port p
  (s.setPort p { x with retry := ackKept x.retry ack }).pump p

/-- The retry buffer of a port sent again, in order. -/
def State.replayOut (s : State) (p : Nat) : State :=
  let x := s.port p
  let t := s.setPort p { x with retry := x.retry.map fun (k : Kept) => { k with sends := k.sends + 1 } }
  (t.emits (x.retry.map fun k => .packet p k.seq x.lastGood k.pkt)).inc (SL_CNT_REPLAYS p) x.retry.length

/-- A replay: every unacknowledged packet is sent again and counts in TX_ERR; four replays of one packet start a retrain
(R258, R261, R270). -/
def State.replay (s : State) (p : Nat) : State :=
  let x := s.port p
  if s.portState p ≠ 3 ∨ x.retry = [] then s
  else
    let t := (s.replayOut p).raiseErr p (SL_ERR_TX_ERR p) x.retry.length
    if t.portState p = 3 ∧ (t.port p).pending = none ∧ (t.port p).retry.any (fun k => k.sends == 5) then
      let y := t.port p
      (t.setPort p { y with lanes := t.get (SL_STATUS_LANE_MASK p) }).changeTo p 5
    else t

/-- A NAK taken: the packets before the bad one are freed, and the rest replayed. -/
def State.linkNak (s : State) (p ack : Nat) : State := (s.linkAck p ack).replay p

/-- LINK_ACK (R261). -/
def execLinkAck (port : Fin 32) (ack : Nat) (s : State) : Host.Outcome State Fault Refusal :=
  .next (whenOn s (if s.get (SL_STATUS_ROLE port.val) = 1 ∧ s.inService port.val then s.linkAck port.val ack else s))

/-- LINK_NAK (R261). -/
def execLinkNak (port : Fin 32) (ack : Nat) (s : State) : Host.Outcome State Fault Refusal :=
  .next (whenOn s (if s.get (SL_STATUS_ROLE port.val) = 1 ∧ s.inService port.val then s.linkNak port.val ack else s))

/-- REPLAY_TIMER_EXPIRE (R261): no ACK for 2 µs. -/
def execReplayTimerExpire (port : Fin 32) (s : State) : Host.Outcome State Fault Refusal :=
  .next (whenOn s (if s.get (SL_STATUS_ROLE port.val) = 1 then s.replay port.val else s))

/-! ## Calibration and retraining (R258, R270, R274) -/

/-- CALIBRATION_DUE (R258). -/
def execCalibrationDue (port : Fin 32) (s : State) : Host.Outcome State Fault Refusal :=
  .next (whenOn s (if s.portState port.val = 3 ∧ (s.port port.val).pending = none then s.changeTo port.val 4 else s))

/-- CALIBRATION_DONE (R258). -/
def execCalibrationDone (port : Fin 32) (s : State) : Host.Outcome State Fault Refusal :=
  .next (whenOn s (if s.portState port.val = 4 then s.portUp port.val else s))

/-- The lane that a Degrade sheds: the one with the most errors, which no command tells the model (a free value, log 46);
the lane number, from the lanes a retrain found working. -/
def State.shedLane (s : State) (lanes : Nat) : Nat :=
  let l := (List.range 4).filter fun i => bitAt lanes i
  (l[(Sys2Proof.Config.freeValue s.free).toNat % max 1 l.length]?).getD 0

/-- RETRAIN_DONE (R258, R270): the port is Up on the lanes that work, its retry buffer is replayed; after a Degrade on more than two
lanes one lane is shed, with event 0xC104; with too few lanes the port is quarantined (R252, R276). -/
def execRetrainDone (port : Fin 32) (lanes : Nat) (s : State) : Host.Outcome State Fault Refusal :=
  let p := port.val
  let x := s.port p
  let have_ := x.lanes &&& lanes % 16
  .next (whenOn s
    (if s.portState p ≠ 5 then s
    else if laneCountOf have_ < s.lanesNeeded p then s.quarantine p
    else
      let sheds := x.degraded && s.get (SL_STATUS_ROLE p) == 1 && decide (2 < laneCountOf x.lanes)
      let all := sheds && have_ == x.lanes
      let lane := if all then s.shedLane have_ else ((List.range 4).find? fun i => bitAt x.lanes i && !bitAt have_ i).getD 15
      let left := if all then have_ - 2 ^ lane else have_
      let t := if all then s.useFree else s
      let t := (t.setPort p { x with degraded := false }).put (SL_STATUS_LANE_MASK p) left
      let t := if x.degraded then
          let t := if sheds then t.inc (SL_ERR_SHED p) 1 else t
          t.ev 0xC104 (portUnit p) 0 (if sheds then lane else 15) left (t.get (SL_ERR_RX_ERR p))
        else t
      (t.replayOut p).portUp p))

/-- LANE_SIGNAL_LOST (R252): a port in service goes on without the lane, or is quarantined; an Ethernet port, which does
not run on fewer lanes, retrains (R276; log 47); a port in training leaves the lane out. -/
def execLaneSignalLost (port : Fin 32) (lane : Fin 4) (s : State) : Host.Outcome State Fault Refusal :=
  let p := port.val
  let x := s.port p
  let drop (m : Nat) : Nat := if bitAt m lane.val then m - 2 ^ lane.val else m
  .next (whenOn s
    (if s.inService p then
      if !bitAt (s.get (SL_STATUS_LANE_MASK p)) lane.val then s
      else
        let left := drop (s.get (SL_STATUS_LANE_MASK p))
        if laneCountOf left < 2 then s.changeTo p 6
        else if s.get (SL_STATUS_ROLE p) = 2 then
          if s.portState p = 3 then (s.setPort p { x with lanes := 15 }).changeTo p 5 else s
        else (s.setPort p { x with lanes := drop x.lanes }).put (SL_STATUS_LANE_MASK p) left
    else if s.portState p = 2 ∧ 2 ≤ x.step then
      let t := s.setPort p { x with lanes := drop x.lanes }
      if laneCountOf (drop x.lanes) < s.lanesNeeded p then t.trainFail p else t
    else s))

/-- A port out of service by its role or for want of signal: its traffic is rerouted as at Quarantine, and it is Off or
Down. -/
def State.portOut (s : State) (p target : Nat) : State :=
  let t := (s.moveC0 p).put (SL_STATUS_STATE p) target
  let t := (t.put (SL_STATUS_LANE_MASK p) 0).put (SL_STATUS_PROTO p) 0
  let t := t.setPort p { t.port p with step := 0, lanes := 0, pending := none, degraded := false }
  t.resendAll p

/-- SIGNAL_LOST (R258): signal lost on all lanes; a port in Quarantine or Draining stays there (R273; log 48). -/
def execSignalLost (port : Fin 32) (s : State) : Host.Outcome State Fault Refusal :=
  .next (whenOn s
    (if s.portState port.val = 0 ∨ s.portState port.val = 6 ∨ s.portState port.val = 8 then s else s.portOut port.val 1))

/-- A role applied to a port by a configuration (R258, R271). -/
def State.applyRole (s : State) (p role : Nat) : State :=
  let old := s.get (SL_STATUS_ROLE p)
  if old = role ∧ (role ≠ 0 → s.portState p ≠ 0) then s
  else
    let t := if s.portState p = 0 then s.put (SL_STATUS_STATE p) (if role = 0 then 0 else 1)
      else s.portOut p (if role = 0 then 0 else 1)
    (t.put (SL_STATUS_ROLE p) role).put (SL_STATUS_CONST p) 0

/-! ## The commands of SL_CMD (R253, R257, R273, R275) -/

/-- PORT_RETRAIN: an Up port retrains on all four lanes; a port in Mismatch trains. -/
def execPortRetrain (path : Path) (port : Fin 32) (s : State) : Host.Outcome State Fault Refusal :=
  let p := port.val
  .next (s.ctrl (.portRetrain path port) (ctrlPath path)
    (if s.portState p = 3 then (s.setPort p { s.port p with lanes := 15 }).changeTo p 5
    else if s.portState p = 7 then s.startTraining p 15 else s))

/-- PORT_CLEAR (R273): both counters are zeroed; a port in Quarantine trains all four lanes, and an Up port retrains
them (R253; log 49). -/
def execPortClear (path : Path) (port : Fin 32) (s : State) : Host.Outcome State Fault Refusal :=
  let p := port.val
  .next (s.ctrl (.portClear path port) (ctrlPath path)
    (let t := (s.put (SL_ERR_TX_ERR p) 0).put (SL_ERR_RX_ERR p) 0
     let t := t.setPort p { t.port p with warnArmed := true, degradeArmed := true }
     if s.portState p = 6 then t.startTraining p 15
     else if s.portState p = 3 then (t.setPort p { t.port p with lanes := 15 }).changeTo p 5 else t))

/-- PORT_CALIBRATE (R258). -/
def execPortCalibrate (path : Path) (port : Fin 32) (s : State) : Host.Outcome State Fault Refusal :=
  .next (s.ctrl (.portCalibrate path port) (ctrlPath path)
    (if s.portState port.val = 3 ∧ (s.port port.val).pending = none then s.changeTo port.val 4 else s))

/-- A port placed in Draining: its C0 packets move, and the rest is re-sent (R275). -/
def State.portDrain (s : State) (p : Nat) : State :=
  if s.portState p = 0 ∨ s.portState p = 8 then s
  else
    let t := (s.put (SL_STATUS_STATE p) 8).moveC0 p
    let t := (t.setPort p { t.port p with pending := none, degraded := false }).put (SL_STATUS_LANE_MASK p) 0
    t.resendAll p

/-- A drained port is Down under a new generation; one out of service stays Draining (R275, R365). -/
def State.portDrained (s : State) (p : Nat) : State :=
  if s.portState p = 8 ∧ !s.isOut 9 p then
    let t := (s.put (SL_STATUS_STATE p) 1).next (SL_STATUS_GENERATION p)
    (t.put (SL_STATUS_PROTO p) 0).setPort p { t.port p with step := 0, lanes := 0 }
  else s

/-- PORT_DRAIN_COMPLETE (R275): the port is Down under a new generation, and trains when signal is detected. -/
def execPortDrainComplete (port : Fin 32) (s : State) : Host.Outcome State Fault Refusal :=
  .next (whenOn s (s.portDrained port.val))

/-! ## Route tables (R266) -/

/-- ROUTE_FLIP (R266): a flip waits for the next module Meridian; one written while another waits has no effect. -/
def execRouteFlip (path : Path) (s : State) : Host.Outcome State Fault Refusal :=
  .next (s.ctrl (.routeFlip path) (ctrlPath path) (s.put HUB_SL_RCTL_PENDING 1))

/-- The flip at a module Meridian, with event 0xC10B. -/
def State.routeFlipAt (s : State) : State :=
  if s.get HUB_SL_RCTL_PENDING = 0 then s
  else
    let b := 1 - s.get HUB_SL_RCTL_ACTIVE
    (((s.put HUB_SL_RCTL_ACTIVE b).put HUB_SL_RCTL_PENDING 0).ev 0xC10B 0 0 b 0 0).retryPorts

/-! ## Packets that wait in a port's queue (R274) -/

/-- PORT_QUEUE_WAIT_EXPIRE (R274): the oldest packet of a port that is not Up, and any other that has waited 50 µs, is
counted in NOT_READY and handed to the next usable port of its route set. -/
def execPortQueueWaitExpire (port : Fin 32) (s : State) : Host.Outcome State Fault Refusal :=
  let p := port.val
  let x := s.port p
  .next (whenLive s
    (if s.portState p = 3 then s
    else match x.queues with
      | [] => s
      | k :: _ =>
        let due (y : Kept) : Bool := y == k || decide (y.first + 50000 ≤ s.now)
        let l := x.queues.filter due
        ((s.setPort p { x with queues := x.queues.filter fun y => !due y }).inc (SL_CNT_NOT_READY p) l.length).handOnAll p l))

/-! ## Ethernet (R276 to R278) -/

/-- PRIORITY_FLOW_CONTROL_FRAME (R276, R277): a PFC frame pauses (or with a pause time of 0 releases) C0, C1 or C2 on an
Ethernet port; a PAUSE frame is ignored. -/
def execPriorityFlowControlFrame (port : Fin 32) (cls pauses : Nat) (pfc : Bool) (s : State) :
    Host.Outcome State Fault Refusal :=
  let p := port.val
  let x := s.port p
  .next (whenOn s
    (if pfc ∧ s.get (SL_STATUS_ROLE p) = 2 ∧ cls ≤ 2 then
      let rest := x.pfcPaused.filter (· != cls)
      (s.setPort p { x with pfcPaused := if pauses = 0 then rest else cls :: rest }).pump p
    else s))

/-- ETHERNET_RESEND_TIMER (R278): a packet not acknowledged after 20 µs is sent again, up to 8 times, each counted in
TX_ERR; after the eighth it is handed to the next port of its route set. -/
def execEthernetResendTimer (port : Fin 32) (unit txn : Nat) (s : State) : Host.Outcome State Fault Refusal :=
  let p := port.val
  let x := s.port p
  .next (whenOn s
    (match x.ethUnacked.find? fun k => k.pkt.srcUnit == unit && k.pkt.txn == txn with
      | none => s
      | some k =>
        if s.portState p ≠ 3 ∨ x.pfcPaused.contains k.pkt.cls then s
        else if onceOnly k.pkt.ty ∧ k.first + 1000000 < s.now then
          s.setPort p { x with ethUnacked := x.ethUnacked.filter (· != k) }
        else if 9 ≤ k.sends then
          ((s.setPort p { x with ethUnacked := x.ethUnacked.filter (· != k) }).inc (SL_CNT_NOT_READY p) 1).handOn p k
        else
          let up (y : Kept) : Kept := if y = k then { y with sends := y.sends + 1 } else y
          ((s.setPort p { x with ethUnacked := x.ethUnacked.map up }).emit (.packet p 0 0 k.pkt)).raiseErr p
            (SL_ERR_TX_ERR p) 1))

end Sys2Proof.Machine
end

