-- ==== Sys2Proof/Machine/Staging.lean ====
section
/-!
DEFINITION. The apply of a configuration at a Meridian instant: the registers, slices, tiles, ports and streams that it
changes, the Almanac directory, and the vote of a job-scope commit (R57 to R63).
-/

namespace Sys2Proof.Machine

open Sys2Proof

/-! ## The resources of the partitions (R38, R39, R166) -/

/-- The physical slice `17q + i` that serves an active slice `16q + i` (R161). -/
def State.physSlice (s : State) (k : Nat) : Option Nat :=
  ((List.range 17).find? fun i =>
    let st := s.get (LLM_SLICE_STATUS_STATE (k / 16) i)
    st != 3 && st != 4 && s.get (LLM_SLICE_STATUS_ACTIVE_INDEX (k / 16) i) == k % 16).map fun i => 17 * (k / 16) + i

/-- The L memory of an active slice cleared, its seals too (R166). -/
def State.clearSlice (s : State) (k : Nat) : State :=
  let a := memKey .l (k * 2 ^ 24)
  let b := memKey .l (k * 4096)
  { s with
    mem := s.mem.filter fun (x : Nat × Byte) => decide (x.1 < a) || decide (a + 2 ^ 24 ≤ x.1)
    seals := s.seals.filter fun (x : Nat × Seal) => decide (x.1 < b) || decide (b + 4096 ≤ x.1) }

/-- An active slice under the configuration in force: a cache slice that changes is flush-invalidated, one that becomes
scratchpad is cleared (R166). -/
def State.applySlice (s : State) (k : Nat) : State :=
  match s.physSlice k with
  | none => s
  | some w =>
    let q := w / 17
    let i := w % 17
    let old := s.get (LLM_SLICE_STATUS_STATE q i)
    let was := s.get (LLM_SLICE_STATUS_PARTITION q i)
    let owner := s.slicePart k
    let new := match owner with
      | none => 0
      | some p => if bitAt (Config_scratch s.cfg.active p) k then 2 else 1
    let p := owner.getD 0
    let same := was == p
    let cached := old == 1 || old == 5
    if (cached && new == 1 && same) || (old == new && same) then s
    else
      let t := if cached then (s.sliceBlocks w).foldl (fun (t : State) b => t.lineOp 3 b) s else s
      let t := if new = 2 then t.clearSlice k else t
      (t.put (LLM_SLICE_STATUS_PARTITION q i) p).put (LLM_SLICE_STATUS_STATE q i) new

/-- A logical tile under the configuration in force: its physical tile takes the partition; one without a partition rests
in retention (R38). -/
def State.applyTile (s : State) (l : Nat) : State :=
  let t := s.physOf l
  let st := s.get (TILE_STATUS_STATE t)
  if st = 4 ∨ s.get (TILE_STATUS_MAPPED t) = 0 then s
  else match s.tilePart l with
    | some p => (s.put (TILE_STATUS_PARTITION t) p).put (TILE_STATUS_STATE t) (if st = 7 then 0 else st)
    | none => (s.put (TILE_STATUS_PARTITION t) 0).put (TILE_STATUS_STATE t) (if st = 0 then 7 else st)

/-- The counts that HUB_PART_CFG shows of a partition (R39). -/
def State.countPart (s : State) (p : Nat) : State :=
  let slices := (List.range 64).filter fun k => s.partValid p && bitAt (s.rd (HUB_PART_LLM_SLICES p).off) k && (s.physSlice k).isSome
  let scratch := slices.filter fun k => bitAt (Config_scratch s.cfg.active p) k
  let tiles := if s.partValid p then (s.partTiles p).filter fun l => s.tileEnabled l else []
  ((s.put (HUB_PART_CFG_LLM_SCRATCH p) scratch.length).put (HUB_PART_CFG_LLM_CACHE p)
    (slices.length - scratch.length)).put (HUB_PART_CFG_TILE_COUNT p) tiles.length

/-- The streams that a configuration changes (R128). -/
def changedStreams (a b : Config) : List Nat :=
  let ids := (a.streams.map fun kv => kv.1) ++ b.streams.map fun kv => kv.1
  ids.eraseDups.filter fun i => Config_stream a i != Config_stream b i

/-- Every staged copy becomes active at once (R59). -/
def State.activate (s : State) : State :=
  let c := s.cfg.staged
  let old := s.cfg.active
  let was := parts.filter fun p => s.partValid p
  let keys := (s.cfg.stagedRegs.map fun kv => kv.1) ++ s.activeSt.map fun kv => kv.1
  let t := keys.eraseDups.foldl (fun (t : State) k => t.wr k (mergeSt k (s.staged k) (s.rd k))) s
  let t := { t with cfg := { t.cfg with active := c } }
  let t := t.put PWR_LIMIT_CFG_WINDOW_S c.powerWindow
  let t := (List.range 64).foldl (fun (t : State) k => t.applySlice k) t
  let t := (List.range 256).foldl (fun (t : State) l => t.applyTile l) t
  let t := parts.foldl (fun (t : State) p => t.countPart p) t
  let t := (parts.filter fun p => t.partValid p && !was.contains p).foldl (fun (t : State) p =>
    t.put (PWR_PART_ENERGY_UJ p) 0) t
  let t := (changedStreams old c).foldl (fun (t : State) i => (t.endWaits i .cancelled).resetStream i) t
  let t := (List.range 32).foldl (fun (t : State) p => t.applyRole p (t.get (SL_CFG_ROLE p))) t
  t.liveCtxs.foldl (fun (t : State) n => t.refreshUse n) t

/-! ## The Almanac directory (R60, R63) -/

/-- A slot of the Almanac. -/
def State.slot (s : State) (k : Nat) : AlmSlot := smGet (fun _ => almSlot0) s.cfg.slots k

/-- A slot's state set. -/
def State.setSlot (s : State) (k : Nat) (x : AlmSlot) : State :=
  { s with cfg := { s.cfg with slots := smSet (fun _ => almSlot0) s.cfg.slots k x } }

/-- The directory names a slot Active and the former Active slot Previous; its copy is to be written (R63). -/
def State.nameActive (s : State) (k : Nat) : State :=
  let a := s.get CFG_STATUS_ACTIVE_SLOT
  let had := (s.slot a).state == 2
  if had && a == k then s
  else
    let t := (List.range 8).foldl (fun (t : State) i =>
      if (t.slot i).state = 3 then t.setSlot i { t.slot i with state := 1 } else t) s
    let t := if had then t.setSlot a { t.slot a with state := 3 } else t
    let t := t.setSlot k { t.slot k with state := 2 }
    let t := (t.put CFG_STATUS_ACTIVE_SLOT k).put CFG_STATUS_DIR_PENDING 1
    if had then (t.put CFG_STATUS_PREVIOUS_SLOT a).put CFG_STATUS_PREVIOUS_VALID 1
    else t.put CFG_STATUS_PREVIOUS_VALID 0

/-- VOLATILE: the active configuration is not the image in ACTIVE_SLOT. -/
def State.setVolatile (s : State) : State :=
  let c := s.cfg.active
  s.put CFG_STATUS_VOLATILE (if !c.edited && c.fromSlot == some (s.get CFG_STATUS_ACTIVE_SLOT) then 0 else 1)

/-- The armed commit applies (R59, R60, R63): the staging set becomes active, the directory follows an ordinary commit of
a stored image, a trial waits for CONFIRM, the return of a trial ends it, and held work runs again. -/
def State.applyCommit (s : State) : State :=
  match s.cfg.armed with
  | none => s
  | some a =>
    let c := s.cfg.staged
    let svn := if s.cfg.image = [] then s.cfg.activeSvn else imgNum s.cfg.image 24 2
    let t := s.activate
    let t := { t with cfg := { t.cfg with activeSvn := svn } }
    let t := t.next CFG_STATUS_CONFIG_GEN
    let t := if s.cfg.returning then
        { t.put CFG_STATUS_TRIAL_PENDING 0 with cfg := { t.cfg with returning := false, trialSlot := none } }
      else if a.trial ≠ 0 then
        { t.put CFG_STATUS_TRIAL_PENDING 1 with
          cfg := { t.cfg with trialSlot := c.fromSlot, trialEnds := s.now + a.trial * 1000000000 } }
      else match c.fromSlot, c.edited with
        | some k, false => t.nameActive k
        | _, _ => t
    let t := (t.setVolatile).ev 0x3102 0 0 (t.get CFG_STATUS_CONFIG_GEN) (c.imageSeq % 2 ^ 32) a.affected.length
    ((t.closeSession).cfgDone .done).releaseHeld

/-- An armed commit is abandoned for a cause, back to Checked (R53); the return of a trial closes its session, so that it can
start again (log 76). -/
def State.abandonFor (s : State) (cause : Nat) : State :=
  let t := s.abandonCommit cause
  if s.cfg.returning then { t.closeSession with cfg := { t.closeSession.cfg with returning := false } }
  else t.put CFG_STATUS_STATE 3

/-! ## The vote of a job-scope commit (R58) -/

/-- The payload's AND byte of a module's vote: bit 0 is the ready bit. -/
def voteAnd (ready : Bool) : Nat := if ready then 0xFF else 0xFE

/-- A job-scope barrier's tag names the armed commit of its partition. -/
def State.armedFor (s : State) (p : Nat) (tag : Option Nat) : Bool :=
  match s.cfg.armed with
  | some a => a.jobScope && a.domain == p && tag == some a.tag
  | none => false

/-- The outcome of a vote at its Meridian instant: the commit applies where every module of the domain was ready with the
same tag, and is abandoned otherwise. -/
def State.voteOutcome (s : State) (p : Nat) (b : Barrier) : State :=
  match s.cfg.armed with
  | some a =>
    if !(a.jobScope && a.domain == p && a.voted) then s
    else if b.orV < 128 ∧ b.andV % 2 = 1 ∧ b.tag = some a.tag then s.applyCommit
    else s.abandonFor 3
  | none => s

end Sys2Proof.Machine
end

