-- ==== Sys2Proof/Machine/Commit.lean ====
section
/-!
DEFINITION. The step commit (R239 to R245): job-scope barriers and their abandonment, the check and verdict barriers, the
Parallax replays that the verdict waits for, and the effects of a commit or skip at its Meridian instant.
-/

namespace Sys2Proof.Machine

open Sys2Proof

/-! ## The Orphan checkpoint (R340) -/

/-- The files of a context's shards and tables, one after the other, or the status of one that cannot be read. -/
def State.ctxFiles (s : State) (n : Nat) : Status ⊕ List FBlock :=
  let all := ((s.shards.filter fun x => x.ctx == n).map fun x => s.shardFile x) ++
    ((s.tables.filter fun b => b.ctx == n && !b.retired).map fun b => s.tableFile b)
  all.foldl (fun a f => match a, f with
    | .inr l, .inr m => .inr (l ++ m)
    | .inl st, _ => .inl st
    | _, .inl st => .inl st) (.inr [])

/-- A context's Orphan checkpoint ends with a status; its function's waiting end can follow. -/
def State.ckptEnd (s : State) (n : Nat) (st : Status) : State :=
  let f := s.fnOf n
  let d := s.fn f
  s.setFn f { d with
    ckptRun := d.ckptRun.filter (· != n), ckptDone := n :: d.ckptDone
    ckptStatus := if st = .done then d.ckptStatus else statusCode st }

/-- The Orphan checkpoint of a context starts once step C_O + 1 is resolved and no root computation runs. -/
def State.orphanCkpt (s : State) (n : Nat) : State :=
  let f := s.fnOf n
  let d := s.fn f
  let p := s.get (CTX_PARTITION n)
  let a := (s.ctx n).ckptD
  let due : Bool := match d.co.find? fun y => y.1 == p with
    | some y => stepLe ((y.2 + 1) % 2 ^ 32) (s.committed p)
    | none => false
  let roots : Bool := s.shards.any fun x => x.ctx == n && x.roots.any fun r => !r.done
  let known : Bool := d.ckptRun.contains n || d.ckptDone.contains n
  if s.get (PCIE_FN_CFG_STATE f) ≠ 2 ∨ s.get (CTX_STATE n) ≠ 3 ∨ a = 0 ∨ !due ∨ roots ∨ known then s
  else match s.view n a 4096 true [2] with
    | .extent _ _ =>
      let t := s.setFn f { d with ckptRun := n :: d.ckptRun }
      match t.ctxFiles n with
      | .inl st => t.ckptEnd n st
      | .inr bs =>
        match t.fileSend n 0 a 3 bs (.orphan n) with
        | (u, some st) => u.ckptEnd n st
        | (u, none) => u
    | _ => s

/-- Every context's Orphan checkpoint that is due starts. -/
def State.orphanCkpts (s : State) : State := s.liveCtxs.foldl (fun (t : State) n => t.orphanCkpt n) s

/-! ## The outcome (R243, R244) -/

/-- The Meridian instant at which step `n` of a partition is resolved: outcome 1 commits, any other skips. -/
def State.resolveStep (s : State) (p n outcome : Nat) : State :=
  let commit : Bool := outcome == 1
  let t := (s.put (HUB_PART_RUN_COMMITTED_STEP p) n).put (HUB_PART_COMMIT_LAST_OUTCOME p) outcome
  let t := if commit then t.put (HUB_PART_COMMIT_UPDATES p) (t.get (HUB_PART_COMMIT_UPDATES p) + 1)
    else t.inc (HUB_PART_COMMIT_SKIPS p) 1
  let t := if commit then (t.orrCommit p n).haloCommit p n
    else (t.orrSkip p n (if outcome = 6 then .timeout else .stepSkipped)).haloSkip p n
  let t := ((t.setCommit p commit0).put (HUB_PART_COMMIT_NONFINITE p) 0).put (HUB_PART_COMMIT_SUSPECT p) 0
  let t := (t.drainStreams p n).unpin p
  let t := t.freeRecs fun r => r.part == p && r.step == n
  let t := if commit then t else t.ev 0xB101 0 0 p n
    (outcome * 2 ^ 24 + t.get (HUB_PART_COMMIT_LAST_OR p) * 256 + t.get (HUB_PART_COMMIT_LAST_VERDICT_OR p))
  (t.arriveLater p).orphanCkpts

/-! ## The verdict phase (R242, R381 to R383) -/

/-- The records pinned for a partition's verdict. -/
def State.pinned (s : State) (p : Nat) : List JRec := s.journal.filter fun r => r.part == p && r.state == 4

/-- The first available tile for a replay (R382): a spare of another quadrant, a spare of the same, an idle logical tile
of the partition in another quadrant, one in the same; never the tile that faulted nor one that replays already. -/
def State.replayTile (s : State) (r : JRec) : Option Nat :=
  let q := quadOfTile r.suspectTile
  let used := s.journal.filterMap fun x => x.replayTile
  let good (t : Nat) : Bool := t != r.suspectTile && !used.contains t && s.get (TILE_STATUS_STATE t) != 4
  let spares := s.spareTiles.filter good
  let idle := ((s.partTiles r.part).map fun l => s.physOf l).filter fun t =>
    good t && s.get (TILE_STATUS_STATE t) == 0 && (s.tile t).entry.isNone
  ((spares.filter fun t => quadOfTile t != q) ++ (spares.filter fun t => quadOfTile t == q) ++
    (idle.filter fun t => quadOfTile t != q) ++ (idle.filter fun t => quadOfTile t == q)).head?

/-- The module arrives at the verdict barrier once every pinned entry of the partition has been compared. -/
def State.verdictArrive (s : State) (p : Nat) (late : Bool) : State :=
  let c := s.commit p
  if !c.verdict ∨ c.arrived ∨ !(late || (s.pinned p).all fun r => r.compared) then s
  else
    let o := (if c.nonfinite then 1 else 0) + (if c.disagreed ∨ late then 4 else 0)
    (s.setCommit p { c with arrived := true }).arrive p 2 .module o 0xFF
      (some ((s.checkTag p + 2 ^ 31) % 2 ^ 32))

/-- A pinned entry has been compared: counted and recorded, and a disagreement is one fault against the tile that
faulted (R364, R383). -/
def State.compared (s : State) (r : JRec) (agree nonfinite : Bool) : State :=
  let p := r.part
  let t := s.mapRec p r.list r.seq fun x => { x with compared := true }
  let w := r.suspectTile * 2 ^ 16 + r.replayTile.getD 0xFFFF
  let c := t.commit p
  let t := t.setCommit p { c with disagreed := c.disagreed || !agree, nonfinite := c.nonfinite || nonfinite }
  let t := t.evS 0x1103 (if agree then 0 else 2) (1 + r.quad) r.seq p r.step w
  if agree then t.inc (HUB_PART_PARALLAX_AGREED p) 1
  else
    let (u, perm) := (t.inc (HUB_PART_PARALLAX_DISAGREED p) 1).faultAt 1 r.suspectTile 0
    if perm then u.retireTile r.suspectTile else u

/-- The verdict phase begins at the check instant: every pinned entry gets its replay tile, an Unchecked one disagrees,
and a module without suspect work arrives at once (R242, R382). -/
def State.enterVerdict (s : State) (p : Nat) : State :=
  let c := s.commit p
  let t := (s.inc (HUB_PART_COMMIT_VERDICTS p) 1).setCommit p { c with
    verdict := true, checkInstant := s.now, arrived := false, disagreed := false, nonfinite := false }
  let t := (t.pinned p).foldl (fun (u : State) r =>
    if r.unchecked then u.compared r false false
    else u.mapRec p r.list r.seq fun x => { x with replayTile := u.replayTile r }) t
  t.verdictArrive p false

/-- PARALLAX_REPLAY_COMPLETE (R383): the replay of a pinned entry of quadrant `q` ended with an output digest and a
status. -/
def execParallaxReplayComplete (q : Fin 4) (p : Fin 128) (l : Fin 8) (seq digest : Nat) (status : Status) (s : State) :
    Host.Outcome State Fault Refusal :=
  .next (if s.live && (s.commit p.val).verdict && !(s.commit p.val).arrived then
      match (s.pinned p.val).find? fun r => r.quad == q.val && r.list == l.val && r.seq == seq && !r.compared &&
          r.replayTile.isSome with
      | some r =>
        let agree : Bool := status == .done && digest == r.outDigest
        ((s.inc (HUB_PART_PARALLAX_REPLAYED p.val) 1).compared r agree (status == .nonfinite)).verdictArrive p.val false
      | none => s
    else s)

/-- PARALLAX_WINDOW_EXPIRE (R242): PARALLAX_WINDOW microseconds after the check instant the module arrives with OR[2]. -/
def execParallaxWindowExpire (p : Fin 128) (s : State) : Host.Outcome State Fault Refusal :=
  .next (if s.live && (s.commit p.val).verdict && !(s.commit p.val).arrived &&
      decide ((s.commit p.val).checkInstant + clampTo 100 100000 (s.get (HUB_PART_COMMIT_PARALLAX_WINDOW p.val)) * 1000 ≤
        s.now) then
    s.verdictArrive p.val true else s)

/-! ## Job-scope releases (R136, R241, R242) -/

/-- A job-scope barrier is the partition's check barrier: its TAG is the step in progress, or an engine has arrived at
it, and no verdict is due. -/
def State.isCheck (s : State) (p : Nat) (b : Barrier) : Bool :=
  !(s.commit p).verdict && !s.isVote b && (b.tag == some (s.checkTag p) || b.arrived.any fun a => match a with
    | .halo _ => true
    | .orrery _ _ => true
    | _ => false)

/-- A job-scope barrier is the partition's verdict barrier. -/
def State.isVerdict (s : State) (p : Nat) (b : Barrier) : Bool :=
  (s.commit p).verdict && b.tag == some ((s.checkTag p + 2 ^ 31) % 2 ^ 32)

/-- The decision of R241: an outcome, or none where the step enters the verdict phase. -/
def checkOutcome (o : Nat) : Option Nat :=
  if bitAt o 0 then some 2 else if bitAt o 3 then some 4 else if bitAt o 7 then some 5 else if bitAt o 1 then none else some 1

/-- The decision of R242. -/
def verdictOutcome (o : Nat) : Nat := if bitAt o 0 then 2 else if bitAt o 2 then 3 else if bitAt o 7 then 5 else 1

/-- The release of a partition's job-scope barrier: the step's decision where it is the check or verdict barrier, a
commit's outcome where it carried the vote (R58), then the participants resume. -/
def State.jobRelease (s : State) (p : Nat) : State :=
  let b := s.barrier p 2
  let n := s.checkTag p
  let t := s.setBarrier (Barrier_close b)
  let t := if s.isCheck p b then
      let t := t.put (HUB_PART_COMMIT_LAST_OR p) b.orV
      match checkOutcome b.orV with
      | some o => t.resolveStep p n o
      | none => t.enterVerdict p
    else if s.isVerdict p b then
      let t := t.put (HUB_PART_COMMIT_LAST_VERDICT_OR p) b.orV
      let t := t.ev 0xB102 0 0 p n ((s.now - (s.commit p).checkInstant) / 1000)
      t.resolveStep p n (verdictOutcome b.orV)
    else if s.isVote b then t.voteOutcome p b
    else t
  t.finishBarrier b .done

/-- A released barrier whose T_rel has come. -/
def State.relDue (s : State) (p : Nat) : Bool := (s.barrier p 2).tRel.any fun r => decide (r ≤ s.now)

/-- CHECK_BARRIER_RELEASE (R241). -/
def execCheckBarrierRelease (p : Fin 128) (s : State) : Host.Outcome State Fault Refusal :=
  .next (if s.live && s.relDue p.val && s.isCheck p.val (s.barrier p.val 2) then s.jobRelease p.val else s)

/-- VERDICT_RELEASE (R242). -/
def execVerdictRelease (p : Fin 128) (s : State) : Host.Outcome State Fault Refusal :=
  .next (if s.live && s.relDue p.val && s.isVerdict p.val (s.barrier p.val 2) then s.jobRelease p.val else s)

/-! ## Abandonment and DIM tokens (R137, R138, R243) -/

/-- The engines that a job-scope barrier of a partition expects. -/
def State.engines (s : State) (p : Nat) : List Arriver :=
  ((List.range 12).filter fun k => s.haloJoins p k).map Arriver.halo ++
    (List.range 4).flatMap fun q => (List.range (s.orrJoins p q)).map fun i => Arriver.orrery q i

/-- The deadline of a barrier: TIMEOUT or JOB_TIMEOUT µs after its first arrival, with its extensions. -/
def State.deadline (s : State) (b : Barrier) : Nat :=
  let us := if b.scope = 2 then s.get (HUB_MER_CTL_JOB_TIMEOUT b.part) else s.get (HUB_MER_CTL_TIMEOUT b.part)
  b.first + (if us = 0 then 65536 else us) * 1000 * (1 + b.ext)

/-- A barrier abandoned: recorded, missing children accused, its arrivals end with TIMEOUT, later ones of its number
too; a check or verdict barrier skips the step with outcome 6. -/
def State.abandon (s : State) (b : Barrier) : State :=
  let p := b.part
  let here := (b.arrived.filter fun a => match a with
    | .child _ => false
    | _ => true).length
  let kids := (childPorts b.job).filter fun i => !b.arrived.contains (.child i)
  let short := if Barrier_local b then 0 else b.expect - here
  let known := (b.counts.filter fun c => decide (c.2 ≤ b.number) && match c.1 with
    | .child _ => false
    | .module => false
    | _ => true).length
  let away := if b.scope = 2 then kids else []
  let t := s.ev 0x7104 0 0 (b.scope * 128 + p) (short + away.length) b.number
  let t := (away.filter fun i => !(b.dims.contains i && decide (b.ext < 8))).foldl (fun (u : State) i =>
    u.accuse 1 (u.get (SL_STATUS_PEER_MODULE i)) p) t
  let ends : Bool := b.scope == 2 && (s.isCheck p b || (s.commit p).verdict)
  let passed := if ends then (s.engines p).filter fun a => !b.arrived.contains a else []
  let next := Barrier_close b
  let t := t.setBarrier { next with
    gone := b.number :: b.gone
    missed := b.missed + (short - known - passed.length)
    counts := (passed.map fun a => (a, b.number + 1)) ++ next.counts.filter fun c => !passed.contains c.1 }
  let t := if ends then t.resolveStep p (t.checkTag p) 6 else t
  t.finishBarrier { b with orV := 0, andV := 0, tag := none } .timeout

/-- MERIDIAN_TIMEOUT (R137). -/
def execMeridianTimeout (p : Fin 128) (scope : Fin 3) (s : State) : Host.Outcome State Fault Refusal :=
  let b := s.barrier p.val scope.val
  .next (if s.live && !b.arrived.isEmpty && b.tRel.isNone && decide (s.deadline b ≤ s.now) then s.abandon b else s)

/-- DIM_TOKEN_SEND (R138): while the partition's job-scope barrier is open, a module with a stack at T2, or whose partition
replays from the journal, sends a DIM token to its parent. -/
def execDimTokenSend (p : Fin 128) (s : State) : Host.Outcome State Fault Refusal :=
  let job := s.rd (HUB_MER_JOB_LEAD p.val).off
  let dim : Bool := ((List.range 12).any fun k => s.get (HBM_STACK_STATUS_LEVEL k) == 2) ||
    s.journal.any fun r => r.part == p.val && r.state == 3
  let b := s.barrier p.val 2
  .next (if s.live && dim && bitsOf 31 31 job == 0 && s.partValid p.val then
      s.sendMer (bitsOf 28 24 job) true (merPayload 2 p.val 0 0 b.number none 0)
    else s)

/-- A MERIDIAN packet received on a port, taken up once per barrier number (R136, R138, R269); a child's vote makes a
module that is not Armed for it vote not-ready (R58). -/
def State.onMeridian (s : State) (port : Nat) (k : Packet) : State :=
  let p := payNum k 1 1 % 128
  let b := s.barrier p 2
  let num := payNum k 4 4
  let tag : Option Nat := if payNum k 8 4 = 1 then some (payNum k 12 4) else none
  match payNum k 0 1 with
  | 0 =>
    if num < b.number ∨ b.arrived.contains (.child port) ∨ !(childPorts (s.rd (HUB_MER_JOB_LEAD p).off)).contains port ∨
        (b.next.any fun x => x.1 == .child port) then s
    else (s.setBarrier { b with counts := (.child port, num) :: b.counts.filter fun c => c.1 != .child port }).arrive p 2
      (.child port) (payNum k 2 1) (payNum k 3 1) tag
  | 1 =>
    if num ≠ b.number ∨ b.tRel.isSome ∨ b.arrived = [] then s
    else
      let tRel := payNum k 16 8
      let b := { b with tRel := some tRel, orV := payNum k 2 1, andV := payNum k 3 1, tag := tag }
      let t := (childPorts b.job).foldl (fun (u : State) i => u.sendMer i false k.payload) (s.setBarrier b)
      if tRel < s.now then
        let t := t.inc (HUB_MER_JOB_LATE p) 1
        let late := s.now - tRel
        (t.evEvery ms10 0x7107 0 p 0 0 1 late fun n f => (p, f, n)).jobRelease p
      else t
  | 3 =>
    if num < b.number ∨ b.arrived.contains (.child port) ∨ !(childPorts (s.rd (HUB_MER_JOB_LEAD p).off)).contains port ∨
        (b.next.any fun x => x.1 == .child port) then s
    else
      let t := (s.setBarrier { b with counts := (.child port, num) :: b.counts.filter fun c => c.1 != .child port }).arrive p 2
        (.child port) (payNum k 2 1) (payNum k 3 1) tag
      if s.armedFor p tag ∨ (t.barrier p 2).arrived.contains .module then t
      else t.arrive p 2 .module 0 (voteAnd false) tag
  | 2 => if b.ext < 8 ∧ !b.arrived.isEmpty then s.setBarrier { b with ext := b.ext + 1, dims := (port :: b.dims).eraseDups } else s
  | _ => s

end Sys2Proof.Machine
end

