-- ==== Sys2Proof/Machine/StackTemp.lean ====
section
/-!
DEFINITION. The throttle levels of a stack (R155 to R158): temperature samples, stack protection at T3, and its end.
-/

namespace Sys2Proof.Machine

open Sys2Proof

/-- The threshold of a throttle level, in 0.25 °C (R155). -/
def levelTemp (l : Nat) : Nat := if l = 1 then 340 else if l = 2 then 380 else 420

/-- One level step recorded, with the severity of the level entered or left (R155). -/
def State.levelEvent (s : State) (k was now temp : Nat) : State :=
  s.evS 0x8101 (max was now - 1) (0x10 + k) 0 was now temp

/-- The level goes up one by one to the highest whose threshold the sample reaches. -/
def State.levelUp (s : State) (k temp : Nat) : Nat → State
  | 0 => s
  | f + 1 =>
    let l := s.get (HBM_STACK_STATUS_LEVEL k)
    if l < 3 ∧ levelTemp (l + 1) ≤ temp then
      State.levelUp ((s.put (HBM_STACK_STATUS_LEVEL k) (l + 1)).levelEvent k l (l + 1) temp) k temp f
    else s

/-- The levels below T3 left one by one at 3 °C or more below their thresholds. -/
def State.levelDown (s : State) (k temp : Nat) : Nat → State
  | 0 => s
  | f + 1 =>
    let l := s.get (HBM_STACK_STATUS_LEVEL k)
    if 0 < l ∧ l < 3 ∧ temp + 12 ≤ levelTemp l then
      State.levelDown ((s.put (HBM_STACK_STATUS_LEVEL k) (l - 1)).levelEvent k l (l - 1) temp) k temp f
    else s

/-- T3 (R157): the stack is in self-refresh, and the generations of its controller and Halo engine have gone up. -/
def State.enterT3 (s : State) (k : Nat) : State :=
  let t := ((s.put (HBM_STACK_STATUS_SELF_REF k) 1).next (HBM_STACK_STATUS_GENERATION k)).next (HALO_STATUS_GENERATION k)
  let t := t.setStk k { t.stk k with t3At := some s.now }
  { t with haloOps := t.haloOps.map fun (o : HaloOp) => if o.engine = k then { o with corrected := true } else o }

/-- The requests that wait for a stack: descriptors of its engine and deferred promotions. -/
def State.stackWaits (s : State) (k : Nat) : Nat :=
  (s.haloOps.filter fun o => o.engine == k && o.status.isNone).length + (s.deferredAt (rowPoint k)).length

/-- The stack returns from T3 to T2, and what waited for it goes on (R158). -/
def State.leaveT3 (s : State) (k temp : Nat) : State :=
  let ms := match (s.stk k).t3At with
    | some t => (s.now - t) / 1000000
    | none => 0
  let t := ((s.put (HBM_STACK_STATUS_SELF_REF k) 0).put (HBM_STACK_STATUS_LEVEL k) 2).levelEvent k 3 2 temp
  let t := t.setStk k { t.stk k with t3At := none }
  let t := t.ev 0x8105 (0x10 + k) 0 ms (s.stackWaits k) (t.get (HBM_STACK_STATUS_GENERATION k))
  t.rowsMoved.orrRetry

/-- STACK_TEMP_SAMPLE (R155 to R158): a sample in 0.25 °C.  During a freeze a level is entered but none is left, since
leaving one lets held work go on (R423). -/
def execStackTempSample (k : Fin 12) (temp : Nat) (s : State) : Host.Outcome State Fault Refusal :=
  .next (if s.on then
      let t := s.put (HBM_STACK_STATUS_TEMP k.val) (min temp 1023)
      let l := t.get (HBM_STACK_STATUS_LEVEL k.val)
      if 4 ≤ l then t
      else if l = 3 then
        let inTime : Bool := match (t.stk k.val).t3At with
          | some a => decide (t.now ≤ a + max 1 (t.get (HBM_THERM_CTL_HOLD_MS k.val)) * 1000000)
          | none => false
        if temp < 408 ∧ inTime ∧ !s.frozen then (t.leaveT3 k.val temp).levelDown k.val temp 3 else t
      else
        let u := t.levelUp k.val temp 3
        let u := if s.frozen then u else u.levelDown k.val temp 3
        if u.get (HBM_STACK_STATUS_LEVEL k.val) = 3 then u.enterT3 k.val else u
    else s)

/-- T3_HOLD_EXPIRE (R158): HOLD_MS has passed since the T3 entry without a sample below 102 °C. -/
def execT3HoldExpire (k : Fin 12) (s : State) : Host.Outcome State Fault Refusal :=
  .next (if s.on && !s.frozen && s.get (HBM_STACK_STATUS_LEVEL k.val) == 3 then
      match (s.stk k.val).t3At with
      | some a =>
        let hold := max 1 (s.get (HBM_THERM_CTL_HOLD_MS k.val))
        if a + hold * 1000000 ≤ s.now then
          let t := s.put (HBM_STACK_STATUS_LEVEL k.val) 4
          let t := t.setStk k.val { t.stk k.val with t3At := none, outOfService := true }
          (t.ev 0x8106 (0x10 + k.val) 0 (t.get (HBM_STACK_STATUS_TEMP k.val)) hold 0).emit (.failover 2 k.val)
        else s
      | none => s
    else s)

end Sys2Proof.Machine
end

