-- ==== Sys2Proof/Machine/CollMath.lean ====
section
/-!
DEFINITION. What a collective computes and how it travels: descriptor fields, exact packets, the reduction of a segment,
and the COLL payload (R291, R294, R296, R298 to R304).
-/

namespace Sys2Proof.Machine

open Sys2Proof

/-! ## Descriptor fields (R287, R291) -/

/-- MODE: 0 Exact, 1 Canon, 2 Fast. -/
def ceMode (e : Entry) : Nat := Entry_bits e 0 19 18
/-- RED: 0 sum, 1 mean, 2 max, 3 min. -/
def ceRed (e : Entry) : Nat := Entry_bits e 0 17 16
/-- IN_FMT. -/
def ceIn (e : Entry) : Nat := Entry_bits e 0 15 11
/-- OUT_FMT. -/
def ceOut (e : Entry) : Nat := Entry_bits e 0 10 6
/-- RND. -/
def ceRnd (e : Entry) : Nat := Entry_bits e 0 5 4
/-- NF is 1. -/
def ceNf (e : Entry) : Bool := Entry_bits e 0 3 3 == 1
/-- FUSE is 1. -/
def ceFuse (e : Entry) : Bool := Entry_bits e 0 2 2 == 1
/-- COUNT. -/
def ceCount (e : Entry) : Nat := Entry_bits e 1 31 0
/-- OP. -/
def ceOp (e : Entry) : Nat := Entry_bits e 0 63 56
/-- REVERSE of TOKEN_ROUTE is 1. -/
def ceReverse (e : Entry) : Bool := Entry_bits e 0 17 17 == 1
/-- A descriptor's class: its CLASS, or C1 for a data operation and C2 for a group operation (R287). -/
def ceClass (e : Entry) : Nat :=
  if Entry_bits e 0 51 50 = 0 then (if ceOp e < 0x10 then 1 else 2) else Entry_bits e 0 51 50

/-- Bytes of an element; 0x1F is an exact image (R298). -/
def collWidth (f : Nat) : Nat := if f = 0x1F then 48 else fmtWidth f / 8

/-- Elements that a rank's SRC holds, of `n` ranks (R291). -/
def srcElems (e : Entry) (n : Nat) : Nat := if ceOp e = 2 ∨ ceOp e = 4 then n * ceCount e else ceCount e

/-- Elements that a rank's DST holds, of `n` ranks (R291). -/
def dstElems (e : Entry) (n : Nat) : Nat := if ceOp e = 3 ∨ ceOp e = 4 then n * ceCount e else ceCount e

/-- Bytes of a token row (R294). -/
def tokenBytes (e : Entry) : Nat := 256 * Entry_bits e 5 23 16

/-- DIM of ANY_TO_HOME. -/
def anyDim (e : Entry) : Nat := Entry_bits e 5 59 48 + 1
/-- OUT_ROWS. -/
def anyRows (e : Entry) : Nat := Entry_bits e 7 31 0
/-- The home rank of a key, of `n` ranks (R194, R296). -/
def anyHome (e : Entry) (n k : Nat) : Nat :=
  if Entry_bits e 5 63 62 = 0 then k / max 1 (ceilDiv (Entry_bits e 5 47 0) n) else k % max 1 n
/-- Bytes from DST to the merged rows (R296). -/
def anyKeyBytes (e : Entry) : Nat := ceilDiv (8 * anyRows e) 4096 * 4096

/-! ## Elements -/

/-- A code as a summand (R298). -/
def collExact (f code : Nat) : Exact :=
  if f = 0x1F then exactOf (bytesLE 48 code) else (exactAdd exact0 (decodeF f code)).1

/-- A code as an FP32 pattern, widened exactly. -/
def collPat (f code : Nat) : Nat := fp32Bits 0 (decodeF f code)

/-- A value as a code of an output format (R299). -/
def outCode (f rnd : Nat) (v : Val) : Nat := (encodeF f rnd 0 false v).1

/-- A run of codes as a part of a segment. -/
def mkCPart (mode fmt seg src first : Nat) (codes : List Nat) : CPart :=
  if mode = 0 then ⟨seg, src, 1, first, codes.map (collExact fmt), []⟩
  else ⟨seg, src, 1, first, [], codes.map (collPat fmt)⟩

/-- The elements of a part. -/
def CPart_len (p : CPart) : Nat := max p.ex.length p.raw.length

/-- The part of a list that holds element `j` of a segment from a source. -/
def partAt (l : List CPart) (seg src j : Nat) : Option CPart :=
  l.find? fun p => p.seg == seg && p.src == src && decide (p.first ≤ j) && decide (j < p.first + CPart_len p)

/-- The exact element `j` of a segment. -/
def exactAt (l : List CPart) (seg src j : Nat) : Option Exact := (partAt l seg src j).bind fun p => p.ex[j - p.first]?

/-- The code or pattern `j` of a segment. -/
def codeAt (l : List CPart) (seg src j : Nat) : Option Nat := (partAt l seg src j).bind fun p => p.raw[j - p.first]?

/-! ## Reductions (R299 to R302) -/

/-- NaN above every number, and −0 below +0 (R302; log 54). -/
def orderLe (x y : Val) : Bool :=
  match x, y with
  | _, .nan => true
  | .nan, _ => false
  | _, _ => Val_lt x y || (Val_eq x y && (Val_neg x || !Val_neg y))

/-- The larger or the smaller of two values by that order. -/
def pickVal (red : Nat) (x y : Val) : Val := if orderLe x y = (red == 2) then y else x

/-- The larger or the smaller of two elements. -/
def pickExact (red : Nat) (x y : Exact) : Exact :=
  if orderLe (exactVal x) (exactVal y) = (red == 2) then y else x

/-- Exact elements reduced, with whether a sum left the range (R299, R302). -/
def reduceExact (red : Nat) : List Exact → Exact × Bool
  | [] => (exact0, false)
  | x :: xs =>
    xs.foldl (fun (a : Exact × Bool) y =>
      if 2 ≤ red then (pickExact red a.1 y, a.2) else let r := exactMerge a.1 y; (r.1, a.2 || r.2)) (x, false)

/-- The FP32 sum of two patterns, rounded once under RNE. -/
def addPat (a b : Nat) : Nat := fp32Bits 0 (Val_add (ofFp32 a) (ofFp32 b))

/-- The ranks below the middle of a canon node of `n` ranks: 2^(ceil(log2 n) − 1) (R300). -/
def canonHalf (n : Nat) : Nat := 2 ^ (Nat.log2 (n - 1))

/-- The Canon sum over the ranks [a, a + n), from parts that cover nodes of the tree (R300). -/
def canonSum (val : Nat → Nat → Option Nat) : Nat → Nat → Nat → Option Nat
  | 0, a, n => val a n
  | f + 1, a, n =>
    match val a n with
    | some v => some v
    | none =>
      if n ≤ 1 then none
      else match canonSum val f a (canonHalf n), canonSum val f (a + canonHalf n) (n - canonHalf n) with
        | some x, some y => some (addPat x y)
        | _, _ => none

/-- A list in an order that free values choose (R301; log 55). -/
def freeOrder {α : Type} (base : Nat) : Nat → List α → List α
  | 0, l => l
  | f + 1, l =>
    let i := (Sys2Proof.Config.freeValue base).toNat % max 1 l.length
    match l[i]? with
    | some x => x :: freeOrder (base + 1) f (l.eraseIdx i)
    | none => l

/-- Patterns reduced in list order, each addition rounded once (R301, R302). -/
def reducePats (red : Nat) : List Nat → Nat
  | [] => 0
  | x :: xs => xs.foldl (fun a y =>
      if 2 ≤ red then fp32Bits 0 (pickVal red (ofFp32 a) (ofFp32 y)) else addPat a y) x

/-- The output of a reduced exact element (R299). -/
def exactOut (e : Entry) (n : Nat) (x : Exact) : Nat :=
  if ceOut e = 0x1F then ofBytesLE (exactBytes x)
  else outCode (ceOut e) (ceRnd e)
    (if ceRed e = 1 then Val_div (exactVal x) (.fin false n 1) else exactVal x)

/-- The output of a reduced FP32 pattern (R300, R301). -/
def patOut (e : Entry) (n p : Nat) : Nat :=
  outCode (ceOut e) (ceRnd e) (if ceRed e = 1 then Val_div (ofFp32 p) (.fin false n 1) else ofFp32 p)

/-- An output code is NaN or ±Inf. -/
def outBad (f code : Nat) : Bool :=
  if f = 0x1F then !Val_finite (exactVal (exactOf (bytesLE 48 code))) else !Val_finite (decodeF f code)

/-! ## Exact packets (R304) -/

/-- The highest word that an element's VALUE needs. -/
def topWord (v : Int) : Nat :=
  ((List.range 10).find? fun h => decide (-(2 : Int) ^ (32 * h + 31) ≤ v) && decide (v < (2 : Int) ^ (32 * h + 31))).getD 9

/-- The lowest word of an element's VALUE that is not zero. -/
def lowWord (v : Int) : Nat :=
  ((List.range 10).find? fun k => v.natAbs / 2 ^ (32 * k) % 2 ^ 32 != 0).getD 9

/-- An element that needs no exception word: ANY and NZS set, no special flag. -/
def plainExact (x : Exact) : Bool := x.any && x.nzs && !x.nan && !x.pinf && !x.ninf

/-- The exact packet of a run of at most 64 elements (R304). -/
def exactRun (first : Nat) (xs : List Exact) : List Byte :=
  let lo := xs.foldl (fun m x => min m (lowWord x.value)) 9
  let hi := xs.foldl (fun m x => max m (topWord x.value)) lo
  let w := hi - lo + 1
  let exc := xs.zipIdx.filter fun y => !plainExact y.1
  bytesLE 8 (first * 2 ^ 32 + exc.length * 2 ^ 16 + (w - 1) * 2 ^ 12 + lo * 2 ^ 8 + (xs.length - 1)) ++
    (xs.flatMap fun x => bytesLE (4 * w) ((x.value % 2 ^ 320).toNat / 2 ^ (32 * lo))) ++
    exc.flatMap fun y => bytesLE 4 (y.2 + y.1.any.toNat * 2 ^ 8 + y.1.nzs.toNat * 2 ^ 9 + y.1.ninf.toNat * 2 ^ 10 +
      y.1.pinf.toNat * 2 ^ 11 + y.1.nan.toNat * 2 ^ 12)

/-- The element of a run from its words and its exception word; its COUNT does not travel and is free (log 56). -/
def runElem (lo w word cnt : Nat) (exc : Option Nat) : Exact :=
  let v : Int := signedOf (32 * w) word * 2 ^ (32 * lo)
  match exc with
  | none => ⟨v, true, true, false, false, false, cnt⟩
  | some x =>
    ⟨v, x / 2 ^ 8 % 2 == 1, x / 2 ^ 9 % 2 == 1, x / 2 ^ 10 % 2 == 1, x / 2 ^ 11 % 2 == 1, x / 2 ^ 12 % 2 == 1, cnt⟩

/-- The runs that a body of exact packets holds, or none where a header breaks its limits (R304). -/
def exactRuns (base : Nat) : Nat → List Byte → Option (List (Nat × List Exact))
  | 0, _ => some []
  | f + 1, bs =>
    if bs.isEmpty then some []
    else
      let h := ofBytesLE (bs.take 8)
      let n := bitsOf 6 0 h + 1
      let w := bitsOf 15 12 h + 1
      let lo := bitsOf 11 8 h
      let exc := bitsOf 23 16 h
      let size := 8 + 4 * w * n + 4 * exc
      if bs.length < size ∨ bitsOf 31 24 h ≠ 0 ∨ bitsOf 7 7 h ≠ 0 ∨ 128 < exc ∨ 10 < lo + w then none
      else
        let xs := (List.range exc).map fun i => ofBytesLE ((bs.drop (8 + 4 * w * n + 4 * i)).take 4)
        if xs.any fun x => decide (n ≤ x % 256) || decide (2 ^ 13 ≤ x) then none
        else
          let els := (List.range n).map fun j =>
            runElem lo w (ofBytesLE ((bs.drop (8 + 4 * w * j)).take (4 * w)))
              (Sys2Proof.Config.freeValue (base + j)).toNat (xs.find? fun x => x % 256 == j)
          match exactRuns (base + n) f (bs.drop size) with
          | some l => some ((bitsOf 63 32 h, els) :: l)
          | none => none

/-! ## The COLL payload (R259, R303) -/

/-- GROUP_ID. -/
def cGid (p : Packet) : Nat := payNum p 0 2
/-- KIND: 0 contribution, 1 result, 2 progress, 3 resend request, 4 status. -/
def cKind (p : Packet) : Nat := payNum p 2 1
/-- OP of the header; 0 marks the packets of a group's forming (log 51). -/
def cOp (p : Packet) : Nat := payNum p 3 1 / 16
/-- MODE and RED of the header. -/
def cModeRed (p : Packet) : Nat := payNum p 3 1 % 16
/-- COLL_SEQ. -/
def cSeq (p : Packet) : Nat := payNum p 4 4
/-- SEGMENT. -/
def cSeg (p : Packet) : Nat := payNum p 8 4
/-- SRC_RANK. -/
def cSrc (p : Packet) : Nat := payNum p 12 4 % 2 ^ 20
/-- SPAN. -/
def cSpan (p : Packet) : Nat := payNum p 16 4 % 2 ^ 21
/-- COUNT. -/
def cCount (p : Packet) : Nat := payNum p 20 4
/-- FIRST. -/
def cFirst (p : Packet) : Nat := payNum p 28 2
/-- STATUS. -/
def cStatus (p : Packet) : Nat := payNum p 30 1
/-- The bytes after the header. -/
def cBody (p : Packet) : List Byte := p.payload.drop 32
/-- The CRC of the body is good. -/
def cGood (p : Packet) : Bool := payNum p 24 4 == (crc32c (cBody p)).toNat

/-- A COLL payload: header and body. -/
def collPayload (gid kind opmr seq seg src span count first status : Nat) (body : List Byte) : List Byte :=
  bytesLE 2 gid ++ bytesLE 1 kind ++ bytesLE 1 opmr ++ bytesLE 4 seq ++ bytesLE 4 seg ++ bytesLE 4 src ++
    bytesLE 4 span ++ bytesLE 4 count ++ bytesLE 4 (crc32c body).toNat ++ bytesLE 2 first ++ bytesLE 1 status ++
    bytesLE 1 0 ++ body

/-- OP, MODE and RED as the header carries them. -/
def collOpByte (e : Entry) : Nat := (ceOp e % 16) * 16 + ceMode e * 4 + ceRed e

/-- A part cut into the bodies of COLL packets with their FIRST: exact packets of 64 elements, or 4,080 bytes of
elements of `w` bytes (R303, R304). -/
def partBodies (w : Nat) (p : CPart) : List (Nat × List Byte) :=
  if p.ex ≠ [] then
    (cutList 64 p.ex.length p.ex).zipIdx.map fun y => (p.first + 64 * y.2, exactRun (p.first + 64 * y.2) y.1)
  else
    let k := max 1 (4080 / max 1 w)
    (cutList k p.raw.length p.raw).zipIdx.map fun y => (p.first + k * y.2, y.1.flatMap fun v => bytesLE w v)

/-! ## Messages of TOKEN_ROUTE and ANY_TO_HOME (log 52) -/

/-- A message cut into pieces of 4,080 bytes, its length in front. -/
def messagePieces (bs : List Byte) : List (List Byte) :=
  let l := bytesLE 8 bs.length ++ bs
  cutList 4080 l.length l

/-- The pieces of a source's message in order, from piece `k` on. -/
def piecesFrom (l : List CPart) (src : Nat) : Nat → Nat → List Byte
  | 0, _ => []
  | f + 1, k =>
    match l.find? fun p => p.src == src && p.seg == k with
    | some p => (p.raw.map fun v => BitVec.ofNat 8 v) ++ piecesFrom l src f (k + 1)
    | none => []

/-- The message of a source, once all its pieces are there. -/
def messageOf (l : List CPart) (src : Nat) : Option (List Byte) :=
  let bs := piecesFrom l src l.length 0
  if bs.length < 8 ∨ bs.length < 8 + ofBytesLE (bs.take 8) then none else some ((bs.drop 8).take (ofBytesLE (bs.take 8)))

/-- Records of `w` bytes. -/
def recordsOf (w : Nat) (bs : List Byte) : List (List Byte) := cutList (max 1 w) bs.length bs

/-- The number in bytes [off, off + n) of a record. -/
def recNum (r : List Byte) (off n : Nat) : Nat := ofBytesLE ((r.drop off).take n)

/-- An element put in its place in a sorted list. -/
def insertBy {α : Type} (le : α → α → Bool) (x : α) : List α → List α
  | [] => [x]
  | y :: ys => if le x y then x :: y :: ys else y :: insertBy le x ys

/-- A list sorted; elements of equal place keep their order. -/
def sortBy {α : Type} (le : α → α → Bool) (l : List α) : List α := l.foldr (insertBy le) []

end Sys2Proof.Machine
end

