-- ==== Sys2Proof/Machine/Collective.lean ====
section
/-!
DEFINITION. The collective engines: groups, data operations over their segments, fusion, delivery, resends, time limits and
the engine's restart (R286 to R309).
-/

namespace Sys2Proof.Machine

open Sys2Proof

/-! ## Groups and open collectives -/

/-- The group of a channel with an ID. -/
def State.groupAt (s : State) (q c gid : Nat) : Option Group :=
  s.coll.groups.find? fun g => g.quad == q && g.ch == c && g.gid == gid

/-- The formed group that a packet reaches: by its engine, the context of its job domain, and its GROUP_ID (R31,
R289). -/
def State.packetGroup (s : State) (p : Packet) : Option Group :=
  match s.domainCtx p.jobDomain with
  | some n => s.coll.groups.find? fun g => 0x40 + g.quad == p.dstUnit && g.gid == cGid p && g.ctx == n
  | none => none

/-- A group replaced. -/
def State.setGroup (s : State) (g : Group) : State :=
  { s with coll := { s.coll with groups := s.coll.groups.map fun (x : Group) =>
    if x.quad = g.quad ∧ x.ch = g.ch ∧ x.gid = g.gid then g else x } }

/-- The collective of a group in progress with a COLL_SEQ. -/
def State.collAt (s : State) (g : Group) (seq : Nat) : Option CollOp :=
  s.coll.ops.find? fun o => o.quad == g.quad && o.ch == g.ch && o.gid == g.gid && o.seq == seq && o.status.isNone

/-- A collective in progress replaced. -/
def State.setColl (s : State) (o : CollOp) : State :=
  { s with coll := { s.coll with ops := s.coll.ops.map fun (x : CollOp) =>
    if x.quad = o.quad ∧ x.ch = o.ch ∧ x.gid = o.gid ∧ x.seq = o.seq ∧ x.status = none then o else x } }

/-- The live groups of an engine counted in GROUPS. -/
def State.countGroups (s : State) (q : Nat) : State :=
  s.put (COLL_STATUS_GROUPS q) ((s.coll.groups.filter fun g => g.quad == q && g.formed).length)

/-- A group released. -/
def State.dropGroup (s : State) (g : Group) : State :=
  { s with coll := { s.coll with
      groups := s.coll.groups.filter fun x => !(x.quad == g.quad && x.ch == g.ch && x.gid == g.gid)
      forwards := s.coll.forwards.filter fun x => !(x.quad == g.quad && x.ch == g.ch && x.gid == g.gid) } }.countGroups g.quad

/-- The common words of a collective's set. -/
def CollOp_desc (o : CollOp) : Entry := o.words.headD 0

/-- COUNT over a collective's set. -/
def CollOp_count (o : CollOp) : Nat := o.words.foldl (fun n e => n + ceCount e) 0

/-! ## Sending (R259, R303) -/

/-- A COLL packet sent to a rank of a group. -/
def State.collSend (s : State) (g : Group) (cls rank : Nat) (dim : Bool) (seq : Nat) (payload : List Byte) : State :=
  let m := g.ranks.getD rank 0 % 2 ^ 24
  if m = s.self ∨ rank = g.rank then s
  else (s.request (0x40 + g.quad) g.ctx
      { ty := 0x08, cls := cls, dim := dim, dstModule := m, dstUnit := 0x40 + g.quad, payload := payload }
      (.coll g.quad g.ch g.gid seq)).inc (COLL_COUNT_SENT_BYTES g.quad) payload.length

/-- A COLL packet of a collective sent to a rank. -/
def State.opSend (s : State) (g : Group) (o : CollOp) (rank kind seg src span first : Nat) (dim : Bool) (st : Nat)
    (body : List Byte) : State :=
  let e := CollOp_desc o
  s.collSend g (ceClass e) rank dim o.seq
    (collPayload g.gid kind (collOpByte e) o.seq seg src span (CollOp_count o) first st body)

/-- A packet without a body sent to every other rank of a collective's group. -/
def State.opCast (s : State) (g : Group) (o : CollOp) (kind : Nat) (dim : Bool) (st : Nat) : State :=
  (List.range g.ranks.length).foldl (fun (t : State) r => t.opSend g o r kind 0 g.rank 1 0 dim st []) s

/-- Bytes of an element on the wire outside Exact mode (R303; log 52). -/
def wireWidth (e : Entry) : Nat :=
  if ceOp e = 1 ∨ ceOp e = 2 then 4 else if ceOp e ≤ 5 then collWidth (ceIn e) else 1

/-- A part of a collective sent to a rank. -/
def State.sendPart (s : State) (g : Group) (o : CollOp) (rank kind : Nat) (p : CPart) : State :=
  (partBodies (wireWidth (CollOp_desc o)) p).foldl (fun (t : State) b =>
    t.opSend g o rank kind p.seg p.src p.span b.1 false 0 b.2) s

/-- A part sent to every other rank. -/
def State.castPart (s : State) (g : Group) (o : CollOp) (kind : Nat) (p : CPart) : State :=
  (List.range g.ranks.length).foldl (fun (t : State) r => if r = g.rank then t else t.sendPart g o r kind p) s

/-! ## The end of a collective -/

/-- A descriptor of a finished collective completes with its record and its signal (R287, R293). -/
def State.collRecord (s : State) (o : CollOp) (st : Status) (e : Entry) (i : Nat) : State :=
  let t := s.complete (.collCh o.quad o.ch) i o.step st 0 0
  if Status_ok st ∧ Entry_bits e 0 48 48 = 1 then
    t.signal (t.physOf (Entry_bits e 0 31 24)) (Entry_bits e 0 23 20) 1 else t

/-- The finished collectives at the front of a channel's op kind complete in order (R199). -/
def State.collSettle : Nat → State → Nat → Nat → Nat → State
  | 0, s, _, _, _ => s
  | f + 1, s, q, c, op =>
    match s.coll.ops.find? fun o => o.quad == q && o.ch == c && o.op == op with
    | some o => match o.status with
      | some st =>
        let t := { s with coll := { s.coll with ops := s.coll.ops.erase o } }
        State.collSettle f ((o.words.zip o.indices).foldl (fun (u : State) x => u.collRecord o st x.1 x.2) t) q c op
      | none => s
    | none => s

/-- A GROUP_DESTROY that waits is done once its group has no collective left (R289). -/
def State.tryDestroy (s : State) (q c gid : Nat) : State :=
  match s.groupAt q c gid with
  | some g => match g.destroying with
    | some i =>
      if s.coll.ops.any fun o => o.quad == q && o.ch == c && o.gid == gid then s
      else (s.dropGroup g).complete (.collCh q c) i 0 .done 0 0
    | none => s
  | none => s

/-- The status of a collective is known on this rank: DONE_CORRECTED where a segment was resent or the engine restarted
(R293). -/
def State.collEnd (s : State) (o : CollOp) (st : Status) : State :=
  let st : Status := if st = .done ∧ o.corrected then .doneCorrected else st
  let t := s.setColl { o with status := some st }
  let t := State.collSettle (t.coll.ops.length + 1) t o.quad o.ch o.op
  let p := s.get (COLL_CH_CFG_PARTITION o.quad o.ch)
  (t.tryDestroy o.quad o.ch o.gid).arriveLater p

/-- A collective ends on this rank and tells the others (R306, R307). -/
def State.collFail (s : State) (g : Group) (o : CollOp) (st : Status) : State :=
  (s.opCast g o 4 false (statusCode st)).collEnd o st

/-- Event 0xD104 of a segment that failed its CRC or seal (R314). -/
def State.segBad (s : State) (o : CollOp) (seg : Nat) : State :=
  s.evLim 0xD104 (16 * o.quad + o.ch) (1 + o.quad) 0 o.gid seg

/-! ## Buffers (R291, R298) -/

/-- The check of the blocks of a range in a context's view. -/
def State.rangeStatus (s : State) (ctx addr len : Nat) (chk : Nat → Seal → List Byte → Status) : Status :=
  firstBad ((List.range (ceilDiv len 4096)).map fun i =>
    match s.view ctx (addr + 4096 * i) (min 4096 (len - 4096 * i)) false [0, 1] with
    | .extent e rel =>
      let a := Extent_phys e rel
      chk i (s.sealOf (tierSpace e.tier) a) (s.block (tierSpace e.tier) a)
    | _ => .refusedPartition)

/-- The check of a block of SRC: of an exact image its CRC, format code and tensor, otherwise the whole tag (R291,
R298). -/
def srcCheck (e : Entry) (i : Nat) (x : Seal) (bs : List Byte) : Status :=
  if ceIn e = 0x1F then blockCheck x bs 0xEE0000 0 x.block.toNat false
  else blockCheck x bs (Entry_bits e 4 63 40) (ceIn e) i false

/-- The elements of a descriptor's SRC, with the status of its blocks. -/
def State.collRead (s : State) (ctx i : Nat) (e : Entry) (n : Nat) : State × Status × List Nat :=
  let w := collWidth (ceIn e)
  let len := w * srcElems e n
  match s.haloFetch ctx i (Entry_bits e 2 63 0) len with
  | (t, some bs) => (t, s.rangeStatus ctx (Entry_bits e 2 63 0) len (srcCheck e), numsOf w bs)
  | (t, none) => (t, .refusedPartition, [])

/-- Codes written to a DST range, sealed as outputs (R291, R298). -/
def State.collWrite (s : State) (ctx : Nat) (e : Entry) (off step : Nat) (codes : List Nat) : State :=
  let a := Entry_bits e 3 63 0 + off
  if ceOut e = 0x1F then
    let bs := codes.flatMap fun v => bytesLE 48 v
    s.haloOut ctx a 0xEE0000 0 step ((cutList 4096 bs.length bs).map fun l => l ++ bytesLE (4096 - l.length) 0)
  else s.haloOut ctx a (Entry_bits e 4 39 16) (ceOut e) step (wideBlocks (ceOut e) codes)

/-- Bytes written to a DST range as blocks sealed from block index `blk` on. -/
def State.byteWrite (s : State) (ctx : Nat) (e : Entry) (blk step : Nat) (bs : List Byte) : State :=
  (cutList 4096 bs.length bs).zipIdx.foldl (fun (t : State) x =>
    match t.view ctx (Entry_bits e 3 63 0 + 4096 * (blk + x.2)) 4096 true [0, 1] with
    | .extent v rel =>
      let a := Extent_phys v rel
      let t := if v.tier = 1 then t.recallWrite a else t
      let b := x.1 ++ bytesLE (4096 - x.1.length) 0
      t.setBlock (tierSpace v.tier) a b (mkSeal b (Entry_bits e 4 39 16) (ceOut e) (blk + x.2) step)
    | _ => t) s

/-! ## What a rank contributes -/

/-- The elements of a set's SRC buffers, member after member. -/
def State.readSet (s : State) (g : Group) (o : CollOp) : State × Status × List Nat :=
  (o.words.zip o.indices).foldl (fun (a : State × Status × List Nat) x =>
    let (t, st, l) := a.1.collRead g.ctx x.2 x.1 g.ranks.length
    (t, if a.2.1 = .done then st else a.2.1, a.2.2 ++ l)) (s, .done, [])

/-- A list of codes cut into segments of 512 by flat index from `base` on, each with its number and first element. -/
def segmentsOf (base : Nat) : Nat → List Nat → List (Nat × Nat × List Nat)
  | 0, _ => []
  | f + 1, l =>
    if l.isEmpty then []
    else
      let k := 512 - base % 512
      (base / 512, base % 512, l.take k) :: segmentsOf (base + k) f (l.drop k)

/-- A message as the parts that carry it to a rank. -/
def messageParts (src : Nat) (bs : List Byte) : List CPart :=
  (messagePieces bs).zipIdx.map fun x => ⟨x.2, src, 1, 0, [], x.1.map fun b => b.toNat⟩

/-- The token rows of a descriptor with the status of its blocks. -/
def State.tokenRows (s : State) (ctx i : Nat) (e : Entry) (n : Nat) : State × Status × List (List Byte) :=
  let len := n * tokenBytes e
  match s.haloFetch ctx i (Entry_bits e 2 63 0) len with
  | (t, some bs) =>
    (t, s.rangeStatus ctx (Entry_bits e 2 63 0) len fun k x b => blockCheck x b (Entry_bits e 4 63 40) (ceIn e) k false,
      recordsOf (tokenBytes e) bs)
  | (t, none) => (t, .refusedPartition, [])

/-- A list that a descriptor names, in entries of `w` bytes. -/
def State.listAt (s : State) (ctx addr n w : Nat) : List Nat :=
  match s.view ctx addr (n * w) false [0, 1] with
  | .extent e rel => numsOf w (s.extRead e rel (n * w))
  | _ => []

/-- The forward TOKEN_ROUTE that a reverse names (R295). -/
def State.forwardOf (s : State) (g : Group) (e : Entry) (seq : Nat) : Option Forward :=
  s.coll.forwards.find? fun f => f.quad == g.quad && f.ch == g.ch && f.gid == g.gid &&
    f.seq == (seq + 2 ^ 32 - Entry_bits e 4 15 0) % 2 ^ 32

/-- The parts that a rank contributes, each with the rank it goes to; the status of its SRC blocks (R291, R295, R296). -/
def State.collContrib (s : State) (g : Group) (o : CollOp) : State × Status × List (Nat × CPart) :=
  let e := CollOp_desc o
  let n := g.ranks.length
  let i := o.indices.headD 0
  if o.op = 1 ∨ o.op = 2 then
    let (t, st, l) := s.readSet g o
    (t, st, (segmentsOf 0 l.length l).map fun x => (x.1 % n, mkCPart (ceMode e) (ceIn e) x.1 g.rank x.2.1 x.2.2))
  else if o.op = 3 ∨ (o.op = 5 ∧ Entry_bits e 5 19 0 = g.rank) then
    let (t, st, l) := s.readSet g o
    let ps : List CPart := (segmentsOf 0 l.length l).map fun x => ⟨x.1, g.rank, 1, x.2.1, [], x.2.2⟩
    (t, st, (List.range n).flatMap fun r => ps.map fun p => (r, p))
  else if o.op = 4 then
    let (t, st, l) := s.readSet g o
    (t, st, (List.range n).flatMap fun r =>
      (segmentsOf (r * ceCount e) (ceCount e) ((l.drop (r * ceCount e)).take (ceCount e))).map fun x =>
        (r, ⟨x.1, g.rank, 1, x.2.1, [], x.2.2⟩))
  else if o.op = 6 then
    let w := anyDim e * collWidth (ceIn e)
    let (t, ks) := s.haloFetch g.ctx i (Entry_bits e 2 63 0) (8 * ceCount e)
    let (t, vs) := t.haloFetch g.ctx i (Entry_bits e 6 63 0) (ceCount e * w)
    let keys := (numsOf 8 (ks.getD [])).map fun k => k % 2 ^ 48
    let recs := keys.zip (recordsOf w (vs.getD []))
    let st := firstBad [
      s.rangeStatus g.ctx (Entry_bits e 2 63 0) (8 * ceCount e) (fun k x b =>
        blockCheck x b (Entry_bits e 4 63 40) x.fmt.toNat k false),
      s.rangeStatus g.ctx (Entry_bits e 6 63 0) (ceCount e * w) fun _ x b =>
        blockCheck x b x.tensor.toNat x.fmt.toNat x.block.toNat false]
    (t, st, (List.range n).flatMap fun r =>
      (messageParts g.rank ((recs.filter fun x => anyHome e n x.1 == r).flatMap fun x => bytesLE 8 x.1 ++ x.2)).map
        fun p => (r, p))
  else if o.op = 7 then
    if ceReverse e then
      let adm : List (Nat × Nat × Nat) := match s.forwardOf g e o.seq with
        | some f => f.admitted
        | none => []
      let top := adm.foldl (fun m x => max m (x.2.2 + 1)) 0
      let (t, st, rows) := s.tokenRows g.ctx i e top
      (t, st, (List.range n).flatMap fun r =>
        (messageParts g.rank ((adm.filter fun x => x.1 == r).flatMap fun x =>
          bytesLE 4 x.2.1 ++ rows.getD x.2.2 [])).map fun p => (r, p))
    else
      let (t, st, rows) := s.tokenRows g.ctx i e (ceCount e)
      let toks := (s.listAt g.ctx (Entry_bits e 6 63 0) (ceCount e) 8).zipIdx
      let map_ := s.listAt g.ctx (Entry_bits e 7 63 0) (Entry_bits e 5 15 0) 4
      (t, st, (List.range n).flatMap fun r =>
        (messageParts g.rank ((toks.filter fun x => map_.getD (x.1 % 65536) 0 % 2 ^ 20 == r).flatMap fun x =>
          bytesLE 4 (x.1 % 65536) ++ bytesLE 4 (x.1 / 2 ^ 32) ++ bytesLE 4 x.2 ++ rows.getD x.2 [])).map fun p => (r, p))
  else (s, .done, [])

/-! ## Reductions at a segment's rank (R299 to R302) -/

/-- Elements of segment `k` of a buffer of `n`. -/
def segLen (n k : Nat) : Nat := min 512 (n - 512 * k)

/-- The elements that a reducing set reduces. -/
def reduceElems (g : Group) (o : CollOp) : Nat := o.words.foldl (fun n e => n + srcElems e g.ranks.length) 0

/-- The parts of a segment that are whole, by the ranks that they cover, in rank order. -/
def wholeParts (o : CollOp) (seg len : Nat) : List (Nat × Nat) :=
  let cand := ((o.contribs.filter fun p => p.seg == seg).map fun p => (p.src, p.span)).eraseDups
  sortBy (fun a b => decide (a.1 ≤ b.1)) (cand.filter fun c =>
    (List.range len).all fun j => (partAt o.contribs seg c.1 j).isSome)

/-- A segment whose contributions cover every rank is reduced, and its result sent to every rank. -/
def State.reduceSeg (s : State) (g : Group) (o : CollOp) (seg : Nat) : State × CollOp :=
  let e := CollOp_desc o
  let n := g.ranks.length
  let len := segLen (reduceElems g o) seg
  let l := wholeParts o seg len
  if o.results.any (fun p => p.seg == seg) ∨ (l.foldl (fun a c => a + c.2) 0) ≠ n then (s, o)
  else if ceMode e = 0 then
    let xs := (List.range len).map fun j =>
      reduceExact (ceRed e) (l.filterMap fun c => exactAt o.contribs seg c.1 j)
    let p : CPart := ⟨seg, 0, n, 0, xs.map fun x => x.1, []⟩
    let t := xs.zipIdx.foldl (fun (t : State) x =>
      if x.1.2 then t.evLim 0xD108 (16 * o.quad + o.ch) (1 + o.quad) 0 o.gid ((512 * seg + x.2) % 2 ^ 32) else t) s
    let u := { o with results := o.results ++ [p] }
    ((t.setColl u).castPart g u 1 p, u)
  else
    let order := if ceMode e = 2 then freeOrder s.free l.length l else l
    let t := if ceMode e = 2 then { s with free := s.free + l.length } else s
    let v (j : Nat) : Nat :=
      if ceMode e = 1 ∧ ceRed e ≤ 1 then
        (canonSum (fun a k => if l.contains (a, k) then codeAt o.contribs seg a j else none) 21 0 n).getD 0
      else reducePats (ceRed e) (order.filterMap fun c => codeAt o.contribs seg c.1 j)
    let p : CPart := ⟨seg, 0, n, 0, [], (List.range len).map v⟩
    let u := { o with results := o.results ++ [p] }
    ((t.setColl u).castPart g u 1 p, u)

/-- The output codes of elements [a, a + n) of a reduced set under a member's format. -/
def reducedCodes (g : Group) (o : CollOp) (e : Entry) (a n : Nat) : Option (List Nat) :=
  (List.range n).mapM fun i =>
    let k := a + i
    if ceMode e = 0 then (exactAt o.results (k / 512) 0 (k % 512)).map (exactOut e g.ranks.length)
    else (codeAt o.results (k / 512) 0 (k % 512)).map (patOut e g.ranks.length)

/-- The members of a set with the first element of each. -/
def memberStarts (size : Entry → Nat) (l : List Entry) : List (Entry × Nat) :=
  (l.foldl (fun (a : List (Entry × Nat) × Nat) e => (a.1 ++ [(e, a.2)], a.2 + size e)) ([], 0)).1

/-- A reducing collective makes what progress it can: segments are reduced, and when every result is there DST is written, or under
NF withheld (R293, R302). -/
def State.reduceStep (s : State) (g : Group) (o : CollOp) : State :=
  let n := g.ranks.length
  let tot := reduceElems g o
  let mine := (List.range (ceilDiv tot 512)).filter fun k => k % n == g.rank
  let (t, o) := mine.foldl (fun (a : State × CollOp) k => a.1.reduceSeg g a.2 k) (s, o)
  let ms := memberStarts (fun e => srcElems e n) o.words
  match ms.mapM fun m => (reducedCodes g o m.1 m.2 (srcElems m.1 n)).map fun l => (m.1, l) with
  | none => t
  | some outs =>
    if outs.any fun m => ceNf m.1 && m.2.any fun c => outBad (ceOut m.1) c then t.collEnd o .nonfinite
    else
      let t := outs.foldl (fun (u : State) m =>
        u.collWrite g.ctx m.1 0 o.step
          (if o.op = 2 then (m.2.drop (g.rank * ceCount m.1)).take (ceCount m.1) else m.2)) t
      t.collEnd o .done

/-! ## Operations that copy (R291) -/

/-- The source rank and the element of its buffer that each element of a member's DST takes. -/
def copySources (g : Group) (o : CollOp) (e : Entry) (start : Nat) : List (Nat × Nat) :=
  if o.op = 3 then (List.range g.ranks.length).flatMap fun r => (List.range (ceCount e)).map fun i => (r, start + i)
  else if o.op = 4 then
    (List.range g.ranks.length).flatMap fun r => (List.range (ceCount e)).map fun i => (r, g.rank * ceCount e + i)
  else (List.range (ceCount e)).map fun i => (Entry_bits e 5 19 0, start + i)

/-- A copying collective whose elements are all there writes DST. -/
def State.copyStep (s : State) (g : Group) (o : CollOp) : State :=
  let ms := memberStarts ceCount o.words
  match ms.mapM fun m => ((copySources g o m.1 m.2).mapM fun x => codeAt o.contribs (x.2 / 512) x.1 (x.2 % 512)).map fun l =>
      (m.1, l) with
  | none => s
  | some outs => (outs.foldl (fun (u : State) m => u.collWrite g.ctx m.1 0 o.step m.2) s).collEnd o .done

/-! ## ANY_TO_HOME (R296) -/

/-- The messages of all ranks of a group, in rank order, once they are there. -/
def allMessages (g : Group) (l : List CPart) : Option (List (List Byte)) :=
  (List.range g.ranks.length).mapM fun r => messageOf l r

/-- The distinct keys of a home in ascending order, each with its values' rows of codes. -/
def anyKeys (e : Entry) (msgs : List (List Byte)) : List (Nat × List (List Nat)) :=
  let w := collWidth (ceIn e)
  let recs : List (Nat × List Nat) := msgs.flatMap fun m =>
    (recordsOf (8 + anyDim e * w) m).map fun r => (recNum r 0 8, numsOf w (r.drop 8))
  let keys := sortBy (fun a b => decide (a ≤ b)) ((recs.map fun r => r.1).eraseDups)
  keys.map fun k => (k, (recs.filter fun r => r.1 == k).map fun r => r.2)

/-- The merged row of a key: its codes, and whether a sum left the range (R296, R299, R301). -/
def anyRow (e : Entry) (n base : Nat) (vs : List (List Nat)) : List (Nat × Bool) :=
  let ws := if ceMode e = 2 then freeOrder base vs.length vs else vs
  (List.range (anyDim e)).map fun d =>
    if ceMode e = 0 then
      let x := reduceExact 0 (ws.map fun r => collExact (ceIn e) (r.getD d 0))
      (exactOut e n x.1, x.2)
    else (patOut e n (reducePats 0 (ws.map fun r => collPat (ceIn e) (r.getD d 0))), false)

/-- ANY_TO_HOME makes what progress it can: a home with every message merges them; distinct keys above OUT_ROWS, or a non-finite
element under NF, end it on every rank; DST is written once every home has agreed (log 52). -/
def State.anyStep (s : State) (g : Group) (o : CollOp) : State :=
  let e := CollOp_desc o
  let n := g.ranks.length
  match allMessages g o.contribs with
  | none => s
  | some msgs =>
    let ks := anyKeys e msgs
    if anyRows e < ks.length then s.collFail g o .refusedCapacity
    else
      let told := o.results.any fun p => p.src == g.rank
      let (t, o) := if told then (s, o)
        else
          let p : CPart := ⟨0, g.rank, 1, 0, [], (bytesLE 8 0).map fun b => b.toNat⟩
          let u := { o with results := o.results ++ [p] }
          ((s.setColl u).castPart g u 1 p, u)
      let rows := ks.map fun k => anyRow e n t.free k.2
      if ceNf e ∧ rows.any (fun r => r.any fun c => outBad (ceOut e) c.1) then t.collFail g o .nonfinite
      else match allMessages g o.results with
        | none => t
        | some _ =>
          let t := (rows.flatMap fun r => r).zipIdx.foldl (fun (u : State) c =>
            if c.1.2 then u.evLim 0xD108 (16 * o.quad + o.ch) (1 + o.quad) 0 o.gid (c.2 % 2 ^ 32) else u) t
          let t := { t with free := t.free + (if ceMode e = 2 then ks.foldl (fun (m : Nat) (k : Nat × List (List Nat)) => max m k.2.length) 0 else 0) }
          let t := t.inc (COLL_COUNT_SUMMANDS o.quad)
            (ks.foldl (fun (m : Nat) (k : Nat × List (List Nat)) => m + k.2.length * anyDim e) 0)
          let t := t.byteWrite g.ctx e 0 o.step (ks.flatMap fun (k : Nat × List (List Nat)) => bytesLE 8 k.1)
          let w := collWidth (ceOut e)
          (t.byteWrite g.ctx e (anyKeyBytes e / 4096) o.step (rows.flatMap fun (r : List (Nat × Bool)) => r.flatMap fun c => bytesLE w c.1)).collEnd
            o .done

/-! ## TOKEN_ROUTE (R294, R295) -/

/-- A token at its home: expert, global index, sender, position, and row. -/
def tokensOf (e : Entry) (msgs : List (List Byte)) : List (Nat × Nat × Nat × Nat × List Byte) :=
  msgs.zipIdx.flatMap fun m => (recordsOf (12 + tokenBytes e) m.1).map fun r =>
    (recNum r 0 4, recNum r 4 4, m.2, recNum r 8 4, r.drop 12)

/-- The tokens of an expert in ascending global index with their place. -/
def expertTokens (toks : List (Nat × Nat × Nat × Nat × List Byte)) (x : Nat) :
    List ((Nat × Nat × Nat × Nat × List Byte) × Nat) :=
  (sortBy (fun a b => decide (a.2.1 ≤ b.2.1)) (toks.filter fun t => t.1 == x)).zipIdx

/-- The home's work of a forward TOKEN_ROUTE: tokens admitted up to CAPACITY per expert in ascending global index, their rows and
zero rows written to the slots, and every sender told the statuses of its tokens. -/
def State.tokenHome (s : State) (g : Group) (o : CollOp) (msgs : List (List Byte)) : State × CollOp :=
  let e := CollOp_desc o
  let cap := Entry_bits e 5 63 32
  let map_ := (s.listAt g.ctx (Entry_bits e 7 63 0) (Entry_bits e 5 15 0) 4).zipIdx.filter fun x => x.1 % 2 ^ 20 == g.rank
  let toks := tokensOf e msgs
  let all := map_.flatMap fun x => (expertTokens toks x.2).map fun t => (t.1, t.2, x.1 / 2 ^ 20 + t.2)
  let adm := all.filter fun t => decide (t.2.1 < cap)
  let top := map_.foldl (fun m x => max m (x.1 / 2 ^ 20 + cap)) 0
  let rows := (List.range top).map fun k => match adm.find? fun t => t.2.2 == k with
    | some t => t.1.2.2.2.2
    | none => bytesLE (tokenBytes e) 0
  let bad := if Entry_bits e 0 16 16 = 1 then statusCode .refusedCapacity else statusCode .deferred
  let t := s.byteWrite g.ctx e 0 o.step rows.flatten
  let fw : Forward := ⟨g.quad, g.ch, g.gid, o.seq, Entry_bits e 5 63 0,
    adm.map fun t => (t.1.2.2.1, t.1.2.2.2.1, t.2.2)⟩
  let old := t.coll.forwards.filter fun f => !(f.quad == g.quad && f.ch == g.ch && f.gid == g.gid &&
    decide (65535 < (o.seq + 2 ^ 32 - f.seq) % 2 ^ 32))
  let t := { t with coll := { t.coll with forwards := old ++ [fw] } }
  let parts (r : Nat) : List CPart := messageParts g.rank ((all.filter fun t => t.1.2.2.1 == r).flatMap fun t =>
    bytesLE 4 t.1.2.2.2.1 ++ bytesLE 1 (if t.2.1 < cap then 0 else bad))
  let u := { o with results := o.results ++ parts g.rank }
  ((List.range g.ranks.length).foldl (fun (v : State) r =>
    if r = g.rank then v else (parts r).foldl (fun (w : State) p => w.sendPart g u r 1 p) v) (t.setColl u), u)

/-- TOKEN_ROUTE makes what progress it can. -/
def State.tokenStep (s : State) (g : Group) (o : CollOp) : State :=
  let e := CollOp_desc o
  match allMessages g o.contribs with
  | none => s
  | some msgs =>
    if ceReverse e then
      let recs := msgs.flatMap fun m => recordsOf (4 + tokenBytes e) m
      let rows := (List.range (ceCount e)).map fun k => match recs.find? fun r => recNum r 0 4 == k with
        | some r => r.drop 4
        | none => bytesLE (tokenBytes e) 0
      (s.byteWrite g.ctx e 0 o.step rows.flatten).collEnd o .done
    else
      let (t, o) := if o.results.any fun p => p.src == g.rank then (s, o) else s.tokenHome g o msgs
      match allMessages g o.results with
      | none => t
      | some res =>
        let sts := res.flatMap fun m => (recordsOf 5 m).map fun r => (recNum r 0 4, recNum r 4 1)
        let t := sts.foldl (fun (u : State) x =>
          match u.view g.ctx (Entry_bits e 6 63 0 + 8 * x.1 + 2) 1 true [0, 1] with
          | .extent v rel => u.extWrite v rel (bytesLE 1 x.2)
          | _ => u) t
        let d := (sts.filter fun x => x.2 == statusCode .deferred).length
        let r := (sts.filter fun x => x.2 == statusCode .refusedCapacity).length
        let t := if d + r = 0 then t
          else t.evEvery ms10 0xD107 0 (16 * o.quad + o.ch) (1 + o.quad) 0 (d + r * 2 ^ 32) 0 fun k _ =>
            (o.gid, k % 2 ^ 32, k / 2 ^ 32)
        t.collEnd o .done

/-! ## Taking packets (R305 to R307) -/

/-- A collective makes what progress it can. -/
def State.collStep (s : State) (g : Group) (seq : Nat) : State :=
  match s.collAt g seq with
  | none => s
  | some o =>
    if o.waiting then s
    else if o.op ≤ 2 then s.reduceStep g o
    else if o.op ≤ 5 then s.copyStep g o
    else if o.op = 6 then s.anyStep g o
    else s.tokenStep g o

/-- Parts taken once each; a contribution taken before is counted in DUPLICATES, and the summands of new ones in
SUMMANDS (R305). -/
def State.takeParts (s : State) (o : CollOp) (kind : Nat) (ps : List CPart) : State × CollOp :=
  ps.foldl (fun (a : State × CollOp) p =>
    let old := if kind = 0 then a.2.contribs else a.2.results
    if old.any fun x => x.seg == p.seg && x.src == p.src && x.first == p.first then
      (if kind = 0 then a.1.inc (COLL_COUNT_DUPLICATES o.quad) 1 else a.1, a.2)
    else if kind = 0 then
      (if o.op ≤ 2 then a.1.inc (COLL_COUNT_SUMMANDS o.quad) (CPart_len p) else a.1,
        { a.2 with contribs := a.2.contribs ++ [p] })
    else (a.1, { a.2 with results := a.2.results ++ [p] })) (s, o)

/-- The parts that a contribution or result packet carries, or none where its CRC or an exact packet fails (R303, R304,
R306). -/
def State.packetParts (s : State) (o : CollOp) (p : Packet) : Option (List CPart) :=
  let e := CollOp_desc o
  if !cGood p then none
  else if ceMode e = 0 ∧ (o.op = 1 ∨ o.op = 2) then
    (exactRuns s.free (cBody p).length (cBody p)).map fun l => l.map fun r => ⟨cSeg p, cSrc p, cSpan p, r.1, r.2, []⟩
  else some [⟨cSeg p, cSrc p, cSpan p, cFirst p, [], numsOf (wireWidth e) (cBody p)⟩]

/-- A part that failed its CRC: asked for again once, and the second time the collective ends everywhere with SEAL_MISMATCH
(R306). -/
def State.partBad (s : State) (g : Group) (o : CollOp) (p : Packet) : State :=
  if o.resent.contains (cSeg p, cSrc p) then (s.segBad o (cSeg p)).collFail g o .sealMismatch
  else
    let r := (List.range g.ranks.length).find? fun i => g.ranks.getD i 0 % 2 ^ 24 == p.srcModule
    ((s.setColl { o with resent := o.resent ++ [(cSeg p, cSrc p)] }).opSend g o (r.getD (cSrc p)) 3 (cSeg p) (cSrc p)
      (cSpan p) (cFirst p) false 0 []).inc (COLL_COUNT_RESENDS g.quad) 1

/-- A resend request: the result, or the contribution rebuilt from SRC, is sent again to the rank that asks, and this rank completes DONE_CORRECTED
(R293, R306). -/
def State.collResend (s : State) (g : Group) (o : CollOp) (p : Packet) : State :=
  let r := ((List.range g.ranks.length).find? fun i => g.ranks.getD i 0 % 2 ^ 24 == p.srcModule).getD g.ranks.length
  let res := o.results.filter fun x => x.seg == cSeg p && x.src == cSrc p && x.span == cSpan p
  let o := { o with corrected := true }
  let t := s.setColl o
  if res ≠ [] ∧ (g.ranks.length = cSpan p ∨ 6 ≤ o.op) then res.foldl (fun (u : State) x => u.sendPart g o r 1 x) t
  else
    let (t, _, l) := t.collContrib g o
    (l.filter fun x => x.1 == r && x.2.seg == cSeg p).foldl (fun (u : State) x => u.sendPart g o r 0 x.2) t

/-- A packet of a collective in progress (R292, R305 to R307). -/
def State.collTake (s : State) (g : Group) (o : CollOp) (p : Packet) : State :=
  let e := CollOp_desc o
  if cKind p = 2 then if o.ext < 8 then s.setColl { o with ext := o.ext + 1 } else s
  else if cKind p = 3 then s.collResend g o p
  else if cKind p = 4 then s.collEnd o ((statusOfCode (cStatus p)).getD .sealMismatch)
  else if payNum p 3 1 ≠ collOpByte e ∨ cCount p ≠ CollOp_count o then
    (s.ev 0xD105 (1 + o.quad) 0 o.gid o.seq (cSrc p)).collEnd o .refusedPartition
  else match s.packetParts o p with
    | none => s.partBad g o p
    | some ps =>
      let t := { s with free := s.free + ps.foldl (fun (n : Nat) (x : CPart) => n + x.ex.length) 0 }
      let (t, o) := t.takeParts o (cKind p) ps
      (t.setColl o).collStep g o.seq

/-! ## Starting (R292, R306, R308) -/

/-- The packets that came before this rank posted a collective taken now. -/
def State.takeEarly (s : State) (g : Group) (seq : Nat) : State :=
  let mine (p : Packet) : Bool := 0x40 + g.quad == p.dstUnit && cGid p == g.gid && cSeq p == seq && cOp p != 0 &&
    s.domainCtx p.jobDomain == some g.ctx
  let l := s.coll.early.filter mine
  l.foldl (fun (t : State) p => match t.collAt g seq with
    | some o => t.collTake g o p
    | none => t) { s with coll := { s.coll with early := s.coll.early.filter fun p => !mine p } }

/-- A collective starts, or runs again: SRC is read, its parts go to their ranks, and what is already here is taken. -/
def State.collBegin (s : State) (g : Group) (seq : Nat) : State :=
  match s.collAt g seq with
  | none => s
  | some o =>
    let o := { o with waiting := false }
    let (t, st, l) := (s.setColl o).collContrib g o
    if st ≠ .done then (t.segBad o 0).collFail g o st
    else
      let own := (l.filter fun x => x.1 == g.rank).map fun x => x.2
      let (t, o) := t.takeParts o 0 own
      let t := t.setColl o
      let t := (l.filter fun x => x.1 != g.rank).foldl (fun (u : State) x => u.sendPart g o x.1 0 x.2) t
      (t.takeEarly g seq).collStep g seq

/-- A set of descriptors runs as one collective: it takes its group's next COLL_SEQ; a Draining engine answers DEFERRED
and lets it wait (R292, R297, R308). -/
def State.collRun (s : State) (q c : Nat) (words : List Entry) (indices : List Nat) : State :=
  let e := words.headD 0
  match s.groupAt q c (Entry_bits e 0 47 32) with
  | none => indices.foldl (fun (t : State) i => t.complete (.collCh q c) i (Entry_bits e 1 63 32) .refusedPartition 0 0) s
  | some g =>
    let o : CollOp := ⟨q, c, g.gid, g.nextSeq, ceOp e, words, indices, Entry_bits e 1 63 32, true, [], [], [], 0, false, none⟩
    let t := s.setGroup { g with nextSeq := (g.nextSeq + 1) % 2 ^ 32 }
    let t := { t with coll := { t.coll with ops := t.coll.ops ++ [o] } }
    if s.get (COLL_STATUS_STATE q) = 1 then
      indices.foldl (fun (u : State) i => u.deferRec (.collCh q c) i o.step 0x8001) t
    else t.collBegin g o.seq

/-! ## The head of a channel (R287, R291, R297) -/

/-- The bits that a descriptor of an op may set, word by word (R287, R291, R294, R296). -/
def collMasks (e : Entry) : List Nat :=
  let all := 2 ^ 64 - 1
  if ceOp e = 0x10 then [all - (2 ^ 20 - 1), all, all, 0, 0, 2 ^ 20 - 1, 0, 0]
  else if ceOp e = 0x11 then [all - (2 ^ 20 - 1), all, 0, 0, 0, 0, 0, 0]
  else
    let w4 := if ceOp e = 7 ∧ ceReverse e then all else all - 65535
    let w5 := if ceOp e = 5 then 2 ^ 20 - 1 else if ceOp e = 6 then all
      else if ceOp e = 7 then all - 255 * 2 ^ 24 else 0
    let w6 := if 6 ≤ ceOp e then all else 0
    let w7 := if ceOp e = 6 then 2 ^ 32 - 1 else if ceOp e = 7 then all else 0
    [all - 3, all, all, all, w4, w5, w6, w7]

/-- A format that a collective takes. -/
def collFmt (f : Nat) : Bool := f == 0 || f == 1 || f == 2 || f == 0x1F

/-- MODE, RED, RND, the formats and the op fields are legal for their operation (R291, R294 to R296, R298, R300). -/
def collLegal (e : Entry) (n : Nat) : Bool :=
  let op := ceOp e
  decide (ceMode e ≤ 2) && decide (ceRnd e ≤ 1) && collFmt (ceIn e) && collFmt (ceOut e) &&
  (ceIn e != 0x1F || ceMode e == 0) &&
  (ceOut e != 0x1F || (ceMode e == 0 && (ceRed e == 0 || op == 7))) &&
  (op == 1 || op == 2 || op == 6 || ceOut e == ceIn e) &&
  (op != 5 || decide (Entry_bits e 5 19 0 < n)) &&
  (op != 6 || (ceRed e == 0 && ceMode e != 1 && decide (Entry_bits e 5 63 62 ≤ 1) && decide (ceCount e ≤ 2 ^ 20) &&
    anyRows e != 0)) &&
  (op != 7 || (decide (ceCount e ≤ 65536) && decide (1 ≤ Entry_bits e 5 63 32) && decide (Entry_bits e 5 63 32 ≤ 65536) &&
    Entry_bits e 5 23 16 != 0 && Entry_bits e 5 15 0 != 0 && (!ceReverse e || Entry_bits e 4 15 0 != 0)))

/-- The common refusals of a descriptor (R202, R287, R291). -/
def State.collBad (s : State) (q c : Nat) (e : Entry) : Bool :=
  let op := ceOp e
  let p := s.get (COLL_CH_CFG_PARTITION q c)
  let known := match s.groupAt q c (Entry_bits e 0 47 32) with
    | some g => g.destroying.isNone && (op == 0x11 || collLegal e g.ranks.length)
    | none => false
  !(op == 0x10 || op == 0x11 || (decide (1 ≤ op) && decide (op ≤ 7))) || Entry_bits e 0 55 52 != 1 ||
    !reservedZero e (collMasks e) || !s.accepts (s.owner (.collCh q c)) || (op != 0x10 && !known) ||
    (decide (op ≤ 7) && ceCount e == 0) || (decide (0x10 ≤ op) && Entry_bits e 0 49 49 == 1) ||
    (Entry_bits e 0 48 48 == 1 && s.tilePart (Entry_bits e 0 31 24) != some p)

/-- Two byte ranges of module addresses overlap. -/
def overlap (a m b n : Nat) : Bool := decide (a < b + n) && decide (b < a + m)

/-- The bytes that a data operation reads at SRC and writes at DST. -/
def State.collSizes (s : State) (g : Group) (e : Entry) : Nat × Nat :=
  let n := g.ranks.length
  if ceOp e = 6 then (8 * ceCount e, anyKeyBytes e + anyRows e * anyDim e * collWidth (ceOut e))
  else if ceOp e = 7 then
    if ceReverse e then
      let adm : List (Nat × Nat × Nat) := match s.forwardOf g e g.nextSeq with
        | some f => f.admitted
        | none => []
      ((adm.foldl (fun m x => max m (x.2.2 + 1)) 0) * tokenBytes e, ceCount e * tokenBytes e)
    else
      let map_ := (s.listAt g.ctx (Entry_bits e 7 63 0) (Entry_bits e 5 15 0) 4).filter fun x => x % 2 ^ 20 == g.rank
      (ceCount e * tokenBytes e, (map_.foldl (fun m x => max m (x / 2 ^ 20 + Entry_bits e 5 63 32)) 0) * tokenBytes e)
  else
    (if ceOp e = 5 ∧ Entry_bits e 5 19 0 ≠ g.rank then 0 else collWidth (ceIn e) * srcElems e n,
      collWidth (ceOut e) * dstElems e n)

/-- The lists of a data operation are readable and name what exists: experts, homes, keys, and the forward of a reverse
(R294 to R296; log 53). -/
def State.collLists (s : State) (g : Group) (i : Nat) (e : Entry) : State × Bool :=
  let n := g.ranks.length
  if ceOp e = 6 then
    let (t, ks) := s.haloFetch g.ctx i (Entry_bits e 2 63 0) (8 * ceCount e)
    let (t, vs) := t.haloFetch g.ctx i (Entry_bits e 6 63 0) (ceCount e * anyDim e * collWidth (ceIn e))
    (t, vs.isSome && match ks with
      | some bs => (numsOf 8 bs).all fun k => decide (k % 2 ^ 48 < Entry_bits e 5 47 0)
      | none => false)
  else if ceOp e = 7 then
    if ceReverse e then
      (s, match s.forwardOf g e g.nextSeq with
        | some f => f.w5 == Entry_bits e 5 63 0
        | none => false)
    else
      let ex := Entry_bits e 5 15 0
      let (t, rs) := s.haloFetch g.ctx i (Entry_bits e 6 63 0) (8 * ceCount e)
      let (t, ms) := t.haloFetch g.ctx i (Entry_bits e 7 63 0) (4 * ex)
      let w := match t.view g.ctx (Entry_bits e 6 63 0) (8 * ceCount e) true [0, 1] with
        | .extent _ _ => true
        | _ => false
      (t, w && match rs, ms with
        | some r, some m => (numsOf 8 r).all (fun x => decide (x % 65536 < ex) && bitsOf 31 24 x == 0) &&
            (numsOf 4 m).all fun x => decide (x % 2 ^ 20 < n)
        | _, _ => false)
  else (s, true)

/-- The ranges of a data operation lie in the view, 4 KiB-aligned, and do not overlap but in an in-place ALL_REDUCE
(R291). -/
def State.collRanges (s : State) (g : Group) (i : Nat) (e : Entry) : State × Bool :=
  let (a, b) := (Entry_bits e 2 63 0, Entry_bits e 3 63 0)
  let (m, n) := s.collSizes g e
  if (m ≠ 0 ∧ a % 4096 ≠ 0) ∨ b % 4096 ≠ 0 ∨ (overlap a m b n && !(ceOp e == 1 && a == b)) then (s, false)
  else
    let (t, x) := s.haloFetch g.ctx i a m
    let (t, y) := if n = 0 then (t, true) else t.haloDest g.ctx i b n
    let (t, z) := t.collLists g i e
    (t, x.isSome && y && z)

/-- A descriptor may join an open fused set (R297). -/
def fuseFits (set : List Entry) (e : Entry) : Bool :=
  let f := set.headD 0
  Entry_bits e 0 47 32 == Entry_bits f 0 47 32 && ceOp e == ceOp f && ceMode e == ceMode f && ceRed e == ceRed f &&
    ceIn e == ceIn f && ceOut e == ceOut f && Entry_bits e 1 63 32 == Entry_bits f 1 63 32 &&
    decide ((set.foldl (fun n x => n + ceCount x) 0) + ceCount e ≤ 2 ^ 26)

/-- The open fused set of a channel closes and runs. -/
def State.closeFused (s : State) (q c : Nat) : State :=
  match s.coll.fused.find? fun f => f.1 == q && f.2.1 == c with
  | some f => { s with coll := { s.coll with fused := s.coll.fused.erase f } }.collRun q c f.2.2.1 f.2.2.2
  | none => s

/-- A descriptor that passed its checks runs, opens a fused set or joins the open one (R297). -/
def State.collPost (s : State) (q c i : Nat) (e : Entry) : State :=
  let fusible := ceOp e == 1 || ceOp e == 2 || ceOp e == 3 || ceOp e == 5
  match s.coll.fused.find? fun f => f.1 == q && f.2.1 == c with
  | some f =>
    let f' : Nat × Nat × List Entry × List Nat := (q, c, f.2.2.1 ++ [e], f.2.2.2 ++ [i])
    let t := { s with coll := { s.coll with fused := s.coll.fused.map fun x => if x = f then f' else x } }
    if ceFuse e ∧ f'.2.2.1.length < 64 then t else t.closeFused q c
  | none =>
    if fusible ∧ ceFuse e then { s with coll := { s.coll with fused := s.coll.fused ++ [(q, c, [e], [i])] } }
    else s.collRun q c [e] [i]

/-- The open set closes where the descriptor at the head cannot join it. -/
def State.closeUnfit (s : State) (q c : Nat) (ok : Bool) (e : Entry) : State :=
  match s.coll.fused.find? fun f => f.1 == q && f.2.1 == c with
  | some f => if ok && fuseFits f.2.2.1 e then s else s.closeFused q c
  | none => s

/-! ## GROUP_CREATE and GROUP_DESTROY (R288, R289) -/

/-- A group descriptor is legal for a rank (R288). -/
def State.groupLegal (s : State) (q c : Nat) (hd : List Byte) (ranks : List Nat) (rank : Nat) : Bool :=
  let f (off n : Nat) : Nat := ofBytesLE ((hd.drop off).take n)
  let me := ranks.getD rank 0
  f 2 1 == 1 && f 3 1 == 0 && f 8 8 == 0 && decide (rank < ranks.length) &&
  (s.groupAt q c (f 0 2)).isNone &&
  (ranks.all fun x => bitsOf 23 18 x == 0 && bitsOf 31 31 x == 0 && bitsOf 63 48 x == 0) &&
  me % 2 ^ 24 == s.self && bitsOf 30 24 me == s.get (COLL_CH_CFG_PARTITION q c) &&
  (ranks.map fun x => x % 2 ^ 31).eraseDups.length == ranks.length &&
  ranks.all fun x => bitsOf 47 32 x != bitsOf 47 32 me || x % 2 ^ 24 == s.self || s.isMember (x % 2 ^ 24)

/-- A GROUP_CREATE ends with a status: a failure records event 0xD102 and leaves no group. -/
def State.groupEnd (s : State) (g : Group) (st : Status) : State :=
  let t := if Status_ok st then (s.setGroup { g with formed := true, crcs := [] }).countGroups g.quad
    else (s.dropGroup g).ev 0xD102 (1 + g.quad) 0 g.gid (statusCode st) g.ranks.length
  t.complete (.collCh g.quad g.ch) g.index 0 st 0 0

/-- Rank 0 answers every rank of a group and ends its own GROUP_CREATE (R289; log 51). -/
def State.groupAnswer (s : State) (g : Group) (st : Status) : State :=
  let t := (List.range g.ranks.length).foldl (fun (t : State) r =>
    t.collSend g 2 r false 0 (collPayload g.gid 4 0 0 0 0 1 g.ranks.length 0 (statusCode st) [])) s
  t.groupEnd g st

/-- Rank 0 decides once every rank's CRC is in. -/
def State.groupDecide (s : State) (q c gid : Nat) : State :=
  match s.groupAt q c gid with
  | some g =>
    if g.formed ∨ g.rank ≠ 0 ∨ !((List.range g.ranks.length).all fun r => g.crcs.any fun x => x.1 == r) then s
    else s.groupAnswer g (if g.crcs.all fun x => x.2 == g.crc then .done else .refusedPartition)
  | none => s

/-- A rank's CRC taken at rank 0. -/
def State.takeCrc (s : State) (g : Group) (rank crc : Nat) : State :=
  if g.formed ∨ g.crcs.any (fun x => x.1 == rank) then s
  else (s.setGroup { g with crcs := g.crcs ++ [(rank, crc)] }).groupDecide g.quad g.ch g.gid

/-- The CRCs that came before rank 0 posted. -/
def State.earlyCrcs (s : State) (g : Group) : State :=
  let mine (p : Packet) : Bool := 0x40 + g.quad == p.dstUnit && cGid p == g.gid && cOp p == 0 &&
    s.domainCtx p.jobDomain == some g.ctx
  (s.coll.early.filter mine).foldl (fun (t : State) p => match t.groupAt g.quad g.ch g.gid with
    | some x => t.takeCrc x (cSrc p) (ofBytesLE ((cBody p).take 4))
    | none => t) { s with coll := { s.coll with early := s.coll.early.filter fun p => !mine p } }

/-- The work of GROUP_CREATE: the descriptor is read and checked, and the CRC goes to rank 0 (R288, R289). -/
def State.groupCreate (s : State) (q c i : Nat) (e : Entry) : State :=
  let u := QueueId.collCh q c
  let ctx := s.owner u
  let fail (t : State) (st : Status) : State := t.complete u i (Entry_bits e 1 63 32) st 0 0
  let read (t : State) (len : Nat) : State × Option (List Byte) :=
    match t.view ctx (Entry_bits e 2 63 0) len false [1] with
    | .extent x rel => (t.recallExt x rel len false, some (t.extRead x rel len))
    | .outside _ _ => (t, none)
    | .refuse code => (t.violate ctx code i (Entry_bits e 2 63 0), none)
  match read s 16 with
  | (t, none) => fail t .refusedPartition
  | (t, some hd) =>
    let n := ofBytesLE ((hd.drop 4).take 4)
    if n = 0 ∨ 2 ^ 20 < n then fail t .refusedPartition
    else match read t (16 + 8 * n) with
      | (t, none) => fail t .refusedPartition
      | (t, some bs) =>
        let ranks := numsOf 8 (bs.drop 16)
        let rank := Entry_bits e 5 19 0
        if !t.groupLegal q c hd ranks rank then fail t .refusedPartition
        else if t.get (COLL_CH_CFG_MAX_GROUPS q c) ≤ (t.coll.groups.filter fun g => g.quad == q && g.ch == c).length then
          fail t .refusedCapacity
        else
          let crc := (crc32c bs).toNat
          let g : Group := ⟨q, c, ofBytesLE (hd.take 2), ctx, t.get (COLL_CH_CFG_PARTITION q c), rank, ranks, false, crc, [],
            i, 0, none⟩
          let t := { t with coll := { t.coll with groups := t.coll.groups ++ [g] } }
          if rank = 0 then
            let t := t.takeCrc g 0 crc
            match t.groupAt q c g.gid with
            | some x => t.earlyCrcs x
            | none => t
          else t.collSend g (ceClass e) 0 false 0 (collPayload g.gid 0 0 0 0 rank 1 n 0 0 (bytesLE 4 crc))

/-- The work of GROUP_DESTROY (R289). -/
def State.groupDestroy (s : State) (q c i gid : Nat) : State :=
  match s.groupAt q c gid with
  | some g => (s.setGroup { g with destroying := some i }).tryDestroy q c gid
  | none => s

/-! ## The descriptors -/

/-- The descriptor of op `op` at a channel's head is taken: refusals and the step gate come first, an open fused set that it
cannot join closes before it, and a data operation waits while its group forms (R201, R287, R292, R297). -/
def State.collHead (s : State) (q c op : Nat) : State :=
  let u := QueueId.collCh q c
  let p := s.get (COLL_CH_CFG_PARTITION q c)
  if !s.ringHas u then s
  else match s.ringEntry u with
    | none => if s.pairRuns u p (s.committed p) then s.headOutside u else s
    | some e =>
      let step := Entry_bits e 1 63 32
      if !s.pairRuns u p step then s
      else if s.collBad q c e then
        let (t, i) := (s.closeUnfit q c false e).take u
        t.complete u i step .refusedPartition 0 0
      else if ceOp e ≠ op then s
      else if op = 0x10 then
        let (t, i) := (s.closeUnfit q c false e).take u
        t.groupCreate q c i e
      else match s.groupAt q c (Entry_bits e 0 47 32) with
        | none => s
        | some g =>
          if !g.formed then s
          else if op = 0x11 then
            let (t, i) := (s.closeUnfit q c false e).take u
            t.groupDestroy q c i g.gid
          else match gate (s.committed p) step (Entry_bits e 0 49 49 == 1) with
            | none => s
            | some true =>
              let (t, i) := (s.closeUnfit q c false e).take u
              t.complete u i step .cancelled 0 0
            | some false =>
              let (t, i) := s.take u
              let t := t.closeUnfit q c true e
              match t.collRanges g i e with
              | (t, true) => t.collPost q c i e
              | (t, false) => (t.closeUnfit q c false e).complete u i step .refusedPartition 0 0

/-- ALL_REDUCE (R291, R299). -/
def execAllReduce (q : Fin 4) (c : Fin 16) (s : State) : Host.Outcome State Fault Refusal := .next (s.collHead q.val c.val 1)

/-- REDUCE_SCATTER (R291). -/
def execReduceScatter (q : Fin 4) (c : Fin 16) (s : State) : Host.Outcome State Fault Refusal :=
  .next (s.collHead q.val c.val 2)

/-- ALL_GATHER (R291). -/
def execAllGather (q : Fin 4) (c : Fin 16) (s : State) : Host.Outcome State Fault Refusal := .next (s.collHead q.val c.val 3)

/-- ALL_TO_ALL (R291). -/
def execAllToAll (q : Fin 4) (c : Fin 16) (s : State) : Host.Outcome State Fault Refusal := .next (s.collHead q.val c.val 4)

/-- BROADCAST (R291). -/
def execBroadcast (q : Fin 4) (c : Fin 16) (s : State) : Host.Outcome State Fault Refusal := .next (s.collHead q.val c.val 5)

/-- ANY_TO_HOME (R296). -/
def execAnyToHome (q : Fin 4) (c : Fin 16) (s : State) : Host.Outcome State Fault Refusal := .next (s.collHead q.val c.val 6)

/-- TOKEN_ROUTE (R294, R295). -/
def execTokenRoute (q : Fin 4) (c : Fin 16) (s : State) : Host.Outcome State Fault Refusal := .next (s.collHead q.val c.val 7)

/-- GROUP_CREATE (R288, R289). -/
def execGroupCreate (q : Fin 4) (c : Fin 16) (s : State) : Host.Outcome State Fault Refusal :=
  .next (s.collHead q.val c.val 0x10)

/-- GROUP_DESTROY (R289). -/
def execGroupDestroy (q : Fin 4) (c : Fin 16) (s : State) : Host.Outcome State Fault Refusal :=
  .next (s.collHead q.val c.val 0x11)

/-- GROUP_TIMEOUT_EXPIRE (R289): a GROUP_CREATE that has not formed ends with TIMEOUT, at rank 0 on every rank. -/
def execGroupTimeoutExpire (q : Fin 4) (c : Fin 16) (gid : Nat) (s : State) : Host.Outcome State Fault Refusal :=
  .next (whenLive s
    (match s.groupAt q.val c.val gid with
      | some g => if g.formed then s else if g.rank = 0 then s.groupAnswer g .timeout else s.groupEnd g .timeout
      | none => s))

/-- FUSION_WATCHDOG_EXPIRE (R297): an open set whose next descriptor has not come completes with TIMEOUT. -/
def execFusionWatchdogExpire (q : Fin 4) (c : Fin 16) (s : State) : Host.Outcome State Fault Refusal :=
  .next (whenLive s
    (match s.coll.fused.find? fun f => f.1 == q.val && f.2.1 == c.val with
      | some f => f.2.2.2.foldl (fun (t : State) i =>
          t.complete (.collCh q.val c.val) i (Entry_bits (f.2.2.1.headD 0) 1 63 32) .timeout 0 0)
          { s with coll := { s.coll with fused := s.coll.fused.erase f } }
      | none => s))

/-! ## Packets (R289, R305 to R307) -/

/-- A COLL packet at this module: acknowledged, and taken by the group or collective it names, or kept until this rank
has posted; an engine that is Draining keeps it (R305, R308). -/
def State.onColl (s : State) (p : Packet) : State :=
  match s.domainCtx p.jobDomain with
  | none => s.answerStatus 128 p .refusedPartition 0
  | some n =>
    let s := s.answerStatus (s.get (CTX_PARTITION n)) p .done 0
    let keep (t : State) : State := { t with coll := { t.coll with early := t.coll.early ++ [p] } }
    if 4 < cKind p ∨ p.dstUnit < 0x40 ∨ 0x43 < p.dstUnit then s
    else if s.get (COLL_STATUS_STATE (p.dstUnit - 0x40)) = 1 then keep s
    else match s.packetGroup p with
      | none => keep s
      | some g =>
        if cOp p = 0 then
          if cKind p = 0 then s.takeCrc g (cSrc p) (ofBytesLE ((cBody p).take 4))
          else if cKind p = 4 ∧ !g.formed then s.groupEnd g ((statusOfCode (cStatus p)).getD .refusedPartition) else s
        else match s.collAt g (cSeq p) with
          | some o => if o.waiting then keep s else s.collTake g o p
          | none =>
            if !g.formed ∨ !stepLe (cSeq p) ((g.nextSeq + 2 ^ 32 - 1) % 2 ^ 32) then keep s
            else if cKind p = 0 then s.inc (COLL_COUNT_DUPLICATES g.quad) 1 else s

/-- The rank that a collective waits on: the first whose part it lacks (R307). -/
def waitedRank (g : Group) (o : CollOp) : Nat :=
  let n := g.ranks.length
  let others := (List.range n).filter (· != g.rank)
  let lacks (r : Nat) : Bool := !(o.contribs.any fun p => decide (p.src ≤ r) && decide (r < p.src + p.span))
  let segs := List.range (ceilDiv (reduceElems g o) 512)
  if o.op ≤ 2 then
    if (segs.any fun k => k % n == g.rank && !(o.results.any fun p => p.seg == k)) ∧ others.any lacks then
      (others.find? lacks).getD g.rank
    else match segs.find? fun k => k % n != g.rank && !(o.results.any fun p => p.seg == k) with
      | some k => k % n
      | none => g.rank
  else if o.op = 5 then Entry_bits (CollOp_desc o) 5 19 0
  else ((others.find? lacks).orElse fun _ => others.find? fun r => !(o.results.any fun p => p.src == r)).getD g.rank

/-- COLL_TIMEOUT_EXPIRE (R307): the collective completes with TIMEOUT, tells the ranks it can reach, and the rank waited on is
accused. -/
def execCollTimeoutExpire (q : Fin 4) (c : Fin 16) (gid seq : Nat) (s : State) : Host.Outcome State Fault Refusal :=
  .next (whenLive s
    (match s.groupAt q.val c.val gid with
      | some g => match s.collAt g seq with
        | some o =>
          if o.waiting then s
          else
            let r := waitedRank g o
            let t := (s.collFail g o .timeout).ev 0xD103 (1 + q.val) 0 gid seq r
            t.accuse 2 (g.ranks.getD r 0 % 2 ^ 24 + (0x40 + q.val) * 2 ^ 24) g.part
        | none => s
      | none => s))

/-- COLL_DIM_PROGRESS_SEND (R307): a rank with a stack at T2, or whose partition replays, sends DIM progress packets to
the ranks that wait on it. -/
def execCollDimProgressSend (q : Fin 4) (c : Fin 16) (gid seq : Nat) (s : State) : Host.Outcome State Fault Refusal :=
  .next (whenLive s
    (match s.groupAt q.val c.val gid with
      | some g => match s.collAt g seq with
        | some o =>
          let dim : Bool := ((List.range 12).any fun k => s.get (HBM_STACK_STATUS_LEVEL k) == 2) ||
            s.journal.any fun r => r.part == g.part && r.state == 3
          if dim then s.opCast g o 2 true 0 else s
        | none => s
      | none => s))

/-! ## The engine's reset (R308) -/

/-- The engine restarts under a new generation: partial sums and contribution maps are cleared, the contributions of other ranks
are asked for again, and every collective runs again from SRC. -/
def State.collReset (s : State) (q ms : Nat) : State :=
  let old := s.get (COLL_STATUS_GENERATION q)
  let l := s.coll.ops.filter fun o => o.quad == q && o.status.isNone
  let t := (s.put (COLL_STATUS_GENERATION q) (old + 1)).put (COLL_STATUS_STATE q) 0
  let t := t.ev 0xD106 (1 + q) 0 old l.length ms
  l.foldl (fun (u : State) o =>
    match u.groupAt o.quad o.ch o.gid with
    | none => u
    | some g =>
      let far := o.contribs.filter fun p => p.src != g.rank
      let o' := { o with contribs := [], corrected := true, waiting := true }
      let u := far.foldl (fun (v : State) p =>
        (v.opSend g o p.src 3 p.seg p.src p.span p.first false 0 []).inc (COLL_COUNT_RESENDS q) 1) (u.setColl o')
      u.collBegin g o.seq) t

end Sys2Proof.Machine
end

