-- ==== Sys2Proof/Machine/Constellation.lean ====
section
/-!
DEFINITION. Constellations: the time base, heartbeats, the takeover of the Lodestar's role, minorities and pools (R279 to
R284).  The payloads of TIME and CONST packets are the model's (log 58).
-/

namespace Sys2Proof.Machine

open Sys2Proof

/-- What the constellation's timers and senders do while the module is on and not frozen. -/
def whenRunning (s t : State) : State := if s.on && !s.frozen then t else s

/-- This member's CASCADE_ID. -/
def State.cascade (s : State) : Nat := s.get HUB_CONST_STATUS_SELF

/-- The live members, as a mask. -/
def State.members (s : State) : Nat := s.get HUB_CONST_STATUS_MEMBERS

/-- The members of a mask. -/
def memberList (m : Nat) : List Nat := (List.range 8).filter fun c => bitAt m c

/-- This module is the Lodestar. -/
def State.isLodestar (s : State) : Bool := s.get HUB_CONST_STATUS_IS_LODESTAR == 1

/-- The constellation ports that are Up. -/
def State.constPorts (s : State) : List Nat := s.upPorts.filter fun p => s.get (SL_STATUS_CONST p) == 1

/-- A C0 packet to a module: on a constellation port to it that is Up, and otherwise over its route set (R280). -/
def State.sendMember (s : State) (ty m : Nat) (payload : List Byte) : State :=
  let k : Packet := { ty := ty, cls := 0, dstModule := m, srcModule := s.self, payload := payload }
  match s.constPorts.find? fun p => s.get (SL_STATUS_PEER_MODULE p) == m with
  | some p => s.sendC0On p k
  | none => s.sendC0 k

/-! ## Time (R280, R281) -/

/-- A TIME payload: its kind (0 time, 1 delay request, 2 delay answer, 3 epoch value), the sender's time or the epoch's
value, and the time echoed from a request. -/
def timePayload (kind time echo : Nat) : List Byte := bytesLE 1 kind ++ bytesLE 7 0 ++ bytesLE 8 time ++ bytesLE 8 echo

/-- The module that a port of the job tree leads to: the parent of the first partition that has one. -/
def State.jobParent (s : State) : Option Nat :=
  (parts.find? fun p => s.partValid p && s.get (HUB_MER_JOB_ROOT p) == 0).map fun p =>
    s.get (SL_STATUS_PEER_MODULE (s.get (HUB_MER_JOB_PARENT p)))

/-- LODESTAR_TIME_SEND (R280, R281): the Lodestar sends its time on its constellation ports, and asks its own parent in the job
tree for the time. -/
def execLodestarTimeSend (s : State) : Host.Outcome State Fault Refusal :=
  .next (whenRunning s
    (if !s.isLodestar then s
    else
      let t := s.constPorts.foldl (fun (t : State) p => t.sendC0On p {
        ty := 0x0C, cls := 0, dstModule := s.get (SL_STATUS_PEER_MODULE p), srcModule := s.self
        payload := timePayload 0 s.now 0 }) s
      match s.jobParent with
      | some m => if s.isMember m then t else t.sendMember 0x0C m (timePayload 1 s.now 0)
      | none => t))

/-- The offset register's code of an offset: signed, saturating at 4,095. -/
def offsetCode (d : Int) : Nat := ((max (-4095) (min 4095 d) + 8192) % 8192).toNat

/-- The module's time `theirs` of a better clock is known: a member keeps its offset, with event 0xC10D above 50 ns,
and the counter slews towards it by at most 1 ns for every 10 µs since the last exchange (R280, R281). -/
def State.slew (s : State) (theirs : Nat) (member : Bool) : State :=
  let d : Int := (s.now : Int) - theirs
  let most : Int := ((s.now - s.const.lastTime) / 10000 : Nat)
  let move : Int := max (-most) (min most d)
  let t := if member then s.put HUB_CONST_STATUS_OFFSET_NS (offsetCode d) else s
  let t := if member ∧ (50 < d ∨ d < -50) then
      t.evEvery ms10 0xC10D (evSev 0xC10D) 0 0 0 1 0 fun n _ => (offsetCode d, 0, n) else t
  let now := ((s.now : Int) - move).toNat
  { t with const := { t.const with lastTime := now } }.put HUB_TIME_TIME now

/-- A TIME packet (R281): a member asks for the link delay and slews; a Lodestar answers, and itself follows its
parent; the value of the next epoch is kept for its edge (R142). -/
def State.onTime (s : State) (p : Packet) : State :=
  let b (i : Nat) : Nat := ofBytesLE ((p.payload.drop i).take 8)
  let lodestar := p.srcModule == s.memberModule (s.get HUB_CONST_STATUS_LODESTAR) && !s.isLodestar &&
    s.isMember p.srcModule
  match ofBytesLE (p.payload.take 1) with
  | 0 => if lodestar then (s.slew (b 8 + s.const.linkDelay) true).sendMember 0x0C p.srcModule (timePayload 1 s.now 0) else s
  | 1 => s.sendMember 0x0C p.srcModule (timePayload 2 s.now (b 8))
  | 2 =>
    let delay := (s.now - b 16) / 2
    if lodestar then { s with const := { s.const with linkDelay := delay } }.slew (b 8 + delay) true
    else if s.isLodestar ∧ s.jobParent = some p.srcModule then s.slew (b 8 + delay) false else s
  | 3 => if lodestar then { s with const := { s.const with
      epochValue := some (b 8), pools := s.const.pools.map fun (x : Pool) => { x with suspended := false } } } else s
  | _ => s

/-! ## CONST messages -/

/-- A CONST payload of 32 bytes: its kind (0 heartbeat, 1 membership, 2 claim, 3 acknowledgement of a claim, 4 pool request, 5
pool answer, 6 pool release), a status or flag, the sender's CASCADE_ID and members, its TAKEOVERS, the Lodestar's
parent module with bit 31 where it has one, and for pools the members, kind, tag and parameter. -/
def constPayload (kind flag self members takeovers parent : Nat) (pool : Nat × Nat × Nat × Nat) : List Byte :=
  bytesLE 1 kind ++ bytesLE 1 flag ++ bytesLE 1 self ++ bytesLE 1 members ++ bytesLE 2 takeovers ++
    bytesLE 1 pool.1 ++ bytesLE 1 pool.2.1 ++ bytesLE 4 parent ++ bytesLE 4 0 ++ bytesLE 8 pool.2.2.1 ++
    bytesLE 8 pool.2.2.2

/-- A CONST message of this member. -/
def State.constMsg (s : State) (kind flag : Nat) (pool : Nat × Nat × Nat × Nat) : List Byte :=
  let parent : Nat := match (if s.isLodestar then s.jobParent else s.const.lodestarParent) with
    | some m => m + 2 ^ 31
    | none => 0
  constPayload kind flag s.cascade s.members (s.get HUB_CONST_STATUS_TAKEOVERS) parent pool

/-- A CONST message to every other live member. -/
def State.tellMembers (s : State) (payload : List Byte) : State :=
  ((memberList s.members).filter (· != s.cascade)).foldl (fun (t : State) c =>
    t.sendMember 0x0D (t.memberModule c) payload) s

/-- LODESTAR_HEARTBEAT_SEND (R280). -/
def execLodestarHeartbeatSend (s : State) : Host.Outcome State Fault Refusal :=
  .next (whenRunning s (if s.isLodestar then s.tellMembers (s.constMsg 0 0 (0, 0, 0, 0)) else s))

/-! ## Pools (R284) -/

/-- A pool by its tag. -/
def State.poolOf (s : State) (tag : Nat) : Option Pool := s.const.pools.find? fun x => x.tag == tag

/-- A pool changed, added or removed. -/
def State.setPool (s : State) (tag : Nat) (x : Option Pool) : State :=
  { s with const := { s.const with pools := (s.const.pools.filter fun y => y.tag != tag) ++ x.toList } }

/-- The pool that a member's request opens. -/
def newPool (members kind tag param since : Nat) : Pool := ⟨members, kind, tag, param, 0, true, since, false, false, none⟩

/-- Consecutive members of a pool, in CASCADE_ID order. -/
def poolLinks (members : Nat) : List (Nat × Nat) := (memberList members).zip ((memberList members).drop 1)

/-- The capacity that the Lodestar finds for a pool (R284): POOL_CHAIN reservations on one link come to at most 90 %;
every poster of a POOL_MEM request has found its own granules free. -/
def State.poolFits (s : State) (x : Pool) : Bool :=
  x.kind != 1 || (poolLinks x.members).all fun l =>
    decide (((s.const.pools.filter fun y => y.kind == 1 && y.granted && (poolLinks y.members).contains l).foldl
      (fun n y => n + y.param) x.param) ≤ 90)

/-- A pool answer at a member: its POOL command completes, and a granted pool joins the map (R284). -/
def State.poolAnswer (s : State) (members kind tag param : Nat) (st : Status) : State :=
  let own : Option (Nat × Nat) := match s.poolOf tag with
    | some x => x.own
    | none => none
  let t := if st = .done then
      s.setPool tag (some { newPool members kind tag param s.now with posted := members, granted := true })
    else match s.poolOf tag with
      | some x => if x.granted then s else s.setPool tag none
      | none => s
  let t := { t with const := { t.const with pools := t.const.pools.map fun (x : Pool) => { x with suspended := false } } }
  match own with
  | some o => t.cmdClose o.1 o.2 st 0 0
  | none => t

/-- The Lodestar decides a pool and tells every member, itself included. -/
def State.poolDecide (s : State) (x : Pool) (st : Status) : State :=
  (s.poolAnswer x.members x.kind x.tag x.param st).tellMembers
    (s.constMsg 5 (statusCode st) (x.members, x.kind, x.tag, x.param))

/-- A member's request at the Lodestar: the pool forms once every named member has posted the same request (R284); `fits`
says whether the poster has its capacity, which `suspended` of the open pool keeps when it has not. -/
def State.poolRequest (s : State) (c members kind tag param : Nat) (fits : Bool) : State :=
  match s.poolOf tag with
  | some x =>
    if x.granted then
      if c = s.cascade then s.poolAnswer members kind tag param .refusedPartition
      else s.sendMember 0x0D (s.memberModule c) (s.constMsg 5 (statusCode .refusedPartition) (members, kind, tag, param))
    else
      let same := members == x.members && kind == x.kind && param == x.param
      let y := { x with posted := x.posted ||| 2 ^ c, agree := x.agree && same && bitAt x.members c, suspended := x.suspended || !fits }
      let t := s.setPool tag (some y)
      if y.posted &&& y.members ≠ y.members then t
      else if !y.agree then t.poolDecide y .refusedPartition
      else if y.suspended ∨ !t.poolFits y then t.poolDecide y .refusedCapacity
      else t.poolDecide y .done
  | none => s

/-- A request that opens a pool at the Lodestar: at most 16 pools exist. -/
def State.poolPost (s : State) (c members kind tag param : Nat) (fits : Bool) : State :=
  match s.poolOf tag with
  | some _ => s.poolRequest c members kind tag param fits
  | none =>
    let x := newPool members kind tag param s.now
    if 16 ≤ s.const.pools.length then
      if c = s.cascade then s.poolAnswer members kind tag param .refusedCapacity
      else s.sendMember 0x0D (s.memberModule c) (s.constMsg 5 (statusCode .refusedCapacity) (members, kind, tag, param))
    else (s.setPool tag (some x)).poolRequest c members kind tag param fits

/-- The granules that a POOL_MEM request takes of this member are free (log 61). -/
def State.poolRoom (s : State) (n members kind param : Nat) : Bool :=
  kind != 0 || decide (ceilDiv param (max 1 (memberList members).length) ≤ s.freeTo n 1)

/-- POOL (R284): a pool of members is requested of the Lodestar, or released; a member in a minority answers
PORT_NOT_READY (R283). -/
def execPool (c : Fin 4096) (s : State) : Host.Outcome State Fault Refusal :=
  .next (s.command c.val 0x29 fun t i e =>
    let n := c.val
    let members := Entry_bits e 1 7 0
    let kind := Entry_bits e 1 11 8
    let act := Entry_bits e 1 15 12
    let tag := Entry_bits e 2 63 0
    let param := Entry_bits e 3 63 0
    if 2 < kind ∨ 1 < act ∨ !bitAt members t.cascade ∨ members &&& t.members ≠ members then
      t.cmdDone n i .refusedPartition 0
    else if t.get HUB_CONST_STATUS_MINORITY = 1 then t.cmdDone n i .portNotReady 0
    else if act = 1 then
      match t.poolOf tag with
      | some x =>
        if x.granted then
          ((t.setPool tag none).tellMembers (t.constMsg 6 0 (x.members, x.kind, tag, x.param))).cmdDone n i .done 0
        else t.cmdDone n i .refusedPartition 0
      | none => t.cmdDone n i .refusedPartition 0
    else if kind = 1 ∧ param < 10 then t.cmdDone n i .refusedPartition 0
    else if kind = 1 ∧ 90 < param then t.cmdDone n i .refusedCapacity 0
    else
      let fits := t.poolRoom n members kind param
      match t.poolOf tag with
      | some x =>
        if x.granted ∨ x.own.isSome then t.cmdDone n i .refusedPartition 0
        else ((t.cmdOpen n i).setPool tag (some { x with own := some (n, i) })).poolPost t.cascade members kind tag param fits
      | none =>
        let t := t.cmdOpen n i
        let x := { newPool members kind tag param t.now with own := some (n, i) }
        if t.isLodestar ∧ 16 ≤ t.const.pools.length then t.cmdClose n i .refusedCapacity 0 0
        else
          let t := t.setPool tag (some x)
          if t.isLodestar then t.poolRequest t.cascade members kind tag param fits
          else t.sendMember 0x0D (t.memberModule (t.get HUB_CONST_STATUS_LODESTAR))
            (t.constMsg 4 (if fits then 1 else 0) (members, kind, tag, param)))

/-- POOL_FORM_TIMEOUT (R284): the requests have not all come within 1 s, and the pool does not form. -/
def execPoolFormTimeout (tag : Nat) (s : State) : Host.Outcome State Fault Refusal :=
  .next (whenRunning s (match s.poolOf tag with
    | some x =>
      if x.granted then s
      else if s.isLodestar then s.poolDecide x .refusedPartition
      else s.poolAnswer x.members x.kind x.tag x.param .refusedPartition
    | none => s))

/-- The map of granted pools, and this member's open requests, sent again: to a member that has come back, or to a new
Lodestar (R280, R282, R284). -/
def State.sendPools (s : State) (m : Nat) : State :=
  if s.isLodestar then
    (s.const.pools.filter fun x => x.granted).foldl (fun (t : State) x =>
      t.sendMember 0x0D m (s.constMsg 5 0 (x.members, x.kind, x.tag, x.param))) s
  else
    (s.const.pools.filter fun x => x.own.isSome).foldl (fun (t : State) x =>
      t.sendMember 0x0D m (s.constMsg 4 1 (x.members, x.kind, x.tag, x.param))) s

/-! ## Takeover and minority (R282, R283) -/

/-- The arrival of a partition that is open at a lost parent, sent again to the new one (R280, R282). -/
def State.arriveAgain (s : State) (p : Nat) : State :=
  let b := s.barrier p 2
  if b.sentUp ∧ b.tRel.isNone ∧ bitsOf 31 31 b.job = 0 then
    let port := s.get (HUB_MER_JOB_PARENT p)
    (s.setBarrier { b with job := withBits 28 24 port b.job }).sendMer port false
      (merPayload 0 p b.orV b.andV b.number b.tag 0)
  else s

/-- PARENT of every partition that led to a module leads through a port instead, and open arrivals are sent again. -/
def State.reparent (s : State) (old port : Nat) : State :=
  parts.foldl (fun (t : State) p =>
    if s.partValid p ∧ s.get (HUB_MER_JOB_ROOT p) = 0 ∧
        s.get (SL_STATUS_PEER_MODULE (s.get (HUB_MER_JOB_PARENT p))) = old then
      (t.put (HUB_MER_JOB_PARENT p) port).arriveAgain p
    else t) s

/-- The port that leads to a module: a constellation port to it, or the first usable one of its route set. -/
def State.portTo (s : State) (m : Nat) : Option Nat :=
  match s.constPorts.find? fun p => s.get (SL_STATUS_PEER_MODULE p) == m with
  | some p => some p
  | none => (s.routeSet m).bind fun r => (s.setPorts r none).head?

/-- A member takes a new Lodestar: event 0xC109, TAKEOVERS, an accusation of the lost one sent to the new one, PARENT rewritten
and open requests sent again (R282, R384; log 60). -/
def State.newLodestar (s : State) (c takeovers : Nat) (parent : Option Nat) : State :=
  let old := s.get HUB_CONST_STATUS_LODESTAR
  let me := s.cascade
  let lost := s.memberModule old
  let t := (((s.put HUB_CONST_STATUS_LODESTAR c).put HUB_CONST_STATUS_IS_LODESTAR (if c = me then 1 else 0)).put
    HUB_CONST_STATUS_TAKEOVERS takeovers).ev 0xC109 0 0 old c s.const.lossUs
  let t := if old = me then t else t.accuse 4 lost t.childPart
  let t := if old = me then t else t.put HUB_CONST_STATUS_MEMBERS (t.members - (if bitAt t.members old then 2 ^ old else 0))
  let t := { t with const := { t.const with
    liveBefore := 0, claimAcks := 0, claiming := false, lossUs := 0, lodestarParent := parent } }
  let port := if c = me then parent.bind t.portTo else t.portTo (t.memberModule c)
  let t := match port with
    | some p => t.reparent lost p
    | none => t
  if c = me then t else t.sendPools (t.memberModule c)

/-- A majority has acknowledged the claim: more than half of the members live before the loss, or half of them with the
lowest live one (R282, R283). -/
def State.hasMajority (s : State) : Bool :=
  let n := (memberList s.const.liveBefore).length
  let a := (memberList s.const.claimAcks).length
  let lowest := (memberList s.const.liveBefore).find? (· != s.get HUB_CONST_STATUS_LODESTAR)
  decide (n < 2 * a) || (n == 2 * a && lowest.any fun c => bitAt s.const.claimAcks c)

/-- The claim succeeds once a majority stands behind it: this member is the Lodestar, and tells the others. -/
def State.tryTakeover (s : State) : State :=
  if s.const.claiming && s.hasMajority then
    let t := s.newLodestar s.cascade (min 65535 (s.get HUB_CONST_STATUS_TAKEOVERS + 1)) s.const.lodestarParent
    (t.tellMembers (t.constMsg 0 0 (0, 0, 0, 0))).tellMembers (t.constMsg 1 0 (0, 0, 0, 0))
  else s

/-- A member outside the majority: its pools are suspended, its open pool requests end with PORT_NOT_READY, and event
0xC10A is recorded (R283). -/
def State.inMinority (s : State) : State :=
  if s.get HUB_CONST_STATUS_MINORITY = 1 then s
  else
    let t := s.put HUB_CONST_STATUS_MINORITY 1
    let n := (s.const.pools.filter fun x => x.granted).length
    let t := (s.const.pools.filter fun x => x.own.isSome).foldl (fun (t : State) x => match x.own with
      | some o => t.cmdClose o.1 o.2 .portNotReady 0 0
      | none => t) t
    { t with const := { t.const with
      claiming := false
      pools := (t.const.pools.filter fun (x : Pool) => x.granted).map fun (x : Pool) => { x with suspended := true } } }.ev
      0xC10A 0 0 s.const.claimAcks n 0

/-- HEARTBEAT_LOSS (R282, R283): no heartbeat for `us` microseconds.  From 50 µs on the takeover runs: the live member of
the lowest CASCADE_ID claims the role; at 100 µs without a majority the member is in a minority. -/
def execHeartbeatLoss (us : Nat) (s : State) : Host.Outcome State Fault Refusal :=
  .next (whenRunning s
    (if us < 50 ∨ s.isLodestar ∨ s.members = 0 ∨ s.get HUB_CONST_STATUS_MINORITY = 1 then s
    else
      let before := if s.const.liveBefore = 0 then s.members else s.const.liveBefore
      let lead := (memberList s.members).find? (· != s.get HUB_CONST_STATUS_LODESTAR)
      let t := { s with const := { s.const with liveBefore := before, lossUs := us } }
      let t := if lead ≠ some s.cascade then t
        else
          let t := { t with const := { t.const with claiming := true, claimAcks := t.const.claimAcks ||| 2 ^ s.cascade } }
          (t.tellMembers (t.constMsg 2 0 (0, 0, 0, 0))).tryTakeover
      if 100 ≤ us ∧ !t.isLodestar then t.inMinority else t))

/-- A heartbeat (R282, R283): of the present Lodestar, the loss ends; of another with more takeovers behind it, or for a
member in a minority, that Lodestar is accepted. -/
def State.onHeartbeat (s : State) (c members takeovers : Nat) (parent : Option Nat) : State :=
  let minority := s.get HUB_CONST_STATUS_MINORITY == 1
  let known := c == s.get HUB_CONST_STATUS_LODESTAR
  let quiet (t : State) : State := { t with const := { t.const with
    lossUs := 0, liveBefore := 0, claimAcks := 0, claiming := false, lodestarParent := parent } }
  let rejoin (t : State) : State :=
    (t.put HUB_CONST_STATUS_MINORITY 0).sendMember 0x0D (t.memberModule c) (t.constMsg 1 0 (0, 0, 0, 0))
  if c = s.cascade then s
  else if known then if minority then quiet (rejoin s) else quiet s
  else if s.get HUB_CONST_STATUS_TAKEOVERS < takeovers ∨ minority then
    let t := s.newLodestar c (max takeovers (s.get HUB_CONST_STATUS_TAKEOVERS)) parent
    let t := t.put HUB_CONST_STATUS_MEMBERS (members ||| 2 ^ s.cascade)
    if minority ∨ !bitAt members s.cascade then quiet (rejoin t) else quiet t
  else s

/-- A CONST packet of a member of the constellation, by its kind. -/
def State.onConst (s : State) (p : Packet) : State :=
  let b (i n : Nat) : Nat := ofBytesLE ((p.payload.drop i).take n)
  let c := b 2 1 % 8
  let parent : Option Nat := if bitAt (b 8 4) 31 then some (b 8 4 % 2 ^ 24) else none
  let st := (statusOfCode (b 1 1)).getD .refusedPartition
  if s.memberModule c ≠ p.srcModule then s
  else match b 0 1 with
    | 0 => s.onHeartbeat c (b 3 1) (b 4 2) parent
    | 1 =>
      if s.isLodestar then
        let t := s.put HUB_CONST_STATUS_MEMBERS (s.members ||| 2 ^ c)
        (t.tellMembers (t.constMsg 1 0 (0, 0, 0, 0))).sendPools p.srcModule
      else if c = s.get HUB_CONST_STATUS_LODESTAR then s.put HUB_CONST_STATUS_MEMBERS (b 3 1) else s
    | 2 =>
      if 50 ≤ s.const.lossUs ∧ some c = (memberList s.members).find? (· != s.get HUB_CONST_STATUS_LODESTAR) then
        s.sendMember 0x0D p.srcModule (s.constMsg 3 0 (0, 0, 0, 0))
      else s
    | 3 => if s.const.claiming then
        { s with const := { s.const with claimAcks := s.const.claimAcks ||| 2 ^ c } }.tryTakeover else s
    | 4 => if s.isLodestar then s.poolPost c (b 6 1) (b 7 1) (b 16 8) (b 24 8) (b 1 1 == 1) else s
    | 5 => if c = s.get HUB_CONST_STATUS_LODESTAR then s.poolAnswer (b 6 1) (b 7 1) (b 16 8) (b 24 8) st else s
    | 6 => s.setPool (b 16 8) none
    | _ => s

end Sys2Proof.Machine
end

