-- ==== Sys2Proof/Machine/Packets.lean ====
section
/-!
DEFINITION. Packets as ports receive them: the link layer, forwarding, duplicates, requests of other modules, answers to
this module's requests, notices, and the ends of requests without an answer (R31, R44, R259 to R262, R267 to R269, R277,
R377, R379, R385 to R387).
-/

namespace Sys2Proof.Machine

open Sys2Proof

/-! ## The end of a request of this module -/

/-- The request that a source unit and transaction number name, outstanding. -/
def State.xreq (s : State) (unit txn : Nat) : Option XReq := s.xreqs.find? fun x => x.unit == unit && x.txn == txn

/-- A request changed. -/
def State.setXreq (s : State) (x y : XReq) : State :=
  { s with xreqs := s.xreqs.map fun (z : XReq) => if z = x then y else z }

/-- A request refused by its target counts one violation of its context (R31, R47). -/
def State.refusedThere (s : State) (x : XReq) (st : Status) : State :=
  if st = .refusedPartition then
    (s.inc (CTX_VIOL_COUNT x.ctx) 1).fenceIfOver x.ctx x.txn (x.pkt.arg % 2 ^ 60)
  else s

/-- A replica message of the owner is acknowledged by a status, or has had no answer: an invalidation without one is
sent again, and a push without one is over (R215). -/
def State.replEnd (s : State) (x : XReq) (st : Status) : State :=
  let kind := payNum x.pkt 0 1
  let row := payNum x.pkt 4 8
  let b := s.tables.find? fun b => b.engine == x.unit - 0x20 && b.tid == payNum x.pkt 2 2 && b.ctx == x.ctx && !b.retired
  match b with
  | none => s
  | some b =>
    let who := (x.pkt.dstModule, x.pkt.dstUnit - 0x20)
    if kind = 3 then
      if Status_ok st then s.replAcked b row who false else s.request x.unit x.ctx x.pkt x.what
    else if kind = 4 then s.replAcked b row who true
    else s

/-- A migration message answered: an admission lets the copy begin or ends MIGRATE, a row that was not taken is sent
again (R217). -/
def State.migAnswer (s : State) (x : XReq) (k tid : Nat) (st : Status) : State :=
  let kind := payNum x.pkt 0 1
  let first := payNum x.pkt 4 8
  match s.tables.find? fun b => b.engine == k && b.tid == tid && b.ctx == x.ctx && !b.retired with
  | none => s
  | some b =>
    if kind = 2 then
      match b.migrations.find? fun g => g.first == first && g.module == x.pkt.dstModule && !g.admitted with
      | none => s
      | some g =>
        if Status_ok st then
          let t := s.mapMig b.key g fun z => { z with admitted := true }
          (t.dropReplicas b fun r => Migration_has g r).migSteps b.key
        else
          (s.mapTable b.key fun y => { y with migrations := y.migrations.filter (· != g) }).haloEndAt k g.qp g.index st
    else if kind = 3 ∧ !Status_ok st then s.request x.unit x.ctx x.pkt x.what
    else s

/-- A request ends with a status and the bytes of its answer: what it is for goes on. -/
def State.xEnd (s : State) (x : XReq) (st : Status) (bytes : List Byte) : State :=
  let s := { s with xreqs := s.xreqs.erase x }
  match x.what with
  | .moverLoad t _ _ _ _ => (s.refusedThere x st).moverAnswer t x.txn st
  | .moverStore t => (s.refusedThere x st).moverAnswer t x.txn st
  | .haloRow k qp i _ r => { s with fetched := s.fetched ++ [(⟨k, qp, i, r, st, bytes⟩ : RowFetch)] }.haloRetry
  | .pairs k qp i _ => if Status_ok st then s.haloChecks x.part else (s.haloEndAt k qp i st).haloChecks x.part
  | .look _ => s
  | .coll q c gid seq =>
    if Status_ok st ∨ st = .timeout then s
    else match s.groupAt q c gid with
      | none => s
      | some g => match s.collAt g seq with
        | some o => s.collFail g o st
        | none => if g.formed then s else s.groupEnd g st
  | .repl _ _ _ => s.replEnd x st
  | .migrate k tid => s.migAnswer x k tid st

/-- A request sent again as it is, under the generation of its target as last seen (R267, R377, R379). -/
def State.xAgain (s : State) (x : XReq) : State :=
  let y := { x with pkt := { x.pkt with targetGen := s.genSeen x.pkt.dstModule x.pkt.dstUnit } }
  match s.route (some x.part) y.pkt with
  | some t => t.setXreq x y
  | none => s.setXreq x { y with waitingPort := true }

/-! ## Answers (R44, R115, R267, R379) -/

/-- A DEFERRED answer (R267, R379): the timer restarts, the hint goes into the issuer's own DEFERRED record, and a retry
hint makes the engine send the request again after the wait. -/
def State.xDeferred (s : State) (x : XReq) (hint : Nat) : State :=
  let s := s.setXreq x { x with deferred := true }
  let s := if 0x8000 ≤ hint then
      { s with flt := { s.flt with retries := s.flt.retries ++ [(s.flt.nextRetry, x.unit, x.txn)], nextRetry := s.flt.nextRetry + 1 } }
    else s
  let send (t : State) (k qp i : Nat) : State :=
    match t.haloOps.find? fun o => o.engine == k && o.qp == qp && o.index == i && !o.deferredSent with
    | some o => { t with haloOps := t.haloOps.map fun (z : HaloOp) => if z = o then { z with deferredSent := true } else z }.deferRec
        (.haloQp k qp) i o.step hint
    | none => t
  match x.what with
  | .haloRow k qp i _ _ => send s k qp i
  | .pairs k qp i _ => send s k qp i
  | _ => s

/-- DEFERRED_RETRY (R379): after the hinted wait the engine sends the request again. -/
def execDeferredRetry (id : Nat) (s : State) : Host.Outcome State Fault Refusal :=
  .next (whenLive s
    (match s.flt.retries.find? fun r => r.1 == id with
      | none => s
      | some r =>
        let t := { s with flt := { s.flt with retries := s.flt.retries.filter fun z => z.1 != id } }
        match t.xreq r.2.1 r.2.2 with
        | some x => t.xAgain x
        | none => t))

/-- A block that answers a LOAD or GATHER (R103, R115): a first copy with a bad CRC is fetched once more; the block is
checked, and put in its slot. -/
def State.loadAnswer (s : State) (x : XReq) (p : Packet) (t slot tensor fmt block : Nat) : State :=
  let bs := p.payload.take 4096
  let x16 := sealOfBytes (p.payload.drop 4096)
  let named := x16.tensor.toNat == tensor && x16.block.toNat == block && x16.fmt.toNat == fmt && fmtGood fmt
  if !s.moverWaits t x.txn then { s with xreqs := s.xreqs.erase x }
  else if named ∧ !x16.poison ∧ !crcGood x16 bs ∧ !x.refetched then
    match (s.setXreq x { x with refetched := true }).xreq x.unit x.txn with
    | some y => (s.setXreq x { x with refetched := true }).xAgain y
    | none => s
  else
    let (u, r) := s.checkArrival t slot x16 bs (some (tensor, block, fmt)) x.refetched false
    match r with
    | .stop st => (u.accuse 5 (x.pkt.dstModule + x.pkt.dstUnit * 2 ^ 24) x.part).xEnd x st []
    | .ok c =>
      ((((u.setBlock .ls (lsAddr t (4096 * slot)) bs x16).noteSlots t [slot]).noteIn t x16)).xEnd x
        (if c then .doneCorrected else .done) []

/-- A reply that no outstanding request takes: discarded, and counted with its port and its context (R44, R267). -/
def State.staleReply (s : State) (port : Nat) (p : Packet) : State :=
  let t := s.inc (SL_CNT_LATE_RSP port) 1
  match s.liveCtxs.find? fun n => s.get (CTX_JOB_DOMAIN n) == p.jobDomain with
  | some n => (t.setCtx n { t.ctx n with stale := (t.ctx n).stale + 1 }).evIso 0x2107 n p.txn 0
  | none => t

/-- The Ethernet packets that an answer acknowledges freed on every port (R278). -/
def State.ethAck (s : State) (p : Packet) : State :=
  (List.range 32).foldl (fun (t : State) i =>
    let x := t.port i
    let l := x.ethUnacked.filter fun k => !(k.pkt.srcUnit == p.dstUnit && k.pkt.txn == p.txn && k.pkt.dstModule == p.srcModule)
    if l.length = x.ethUnacked.length then t else t.setPort i { x with ethUnacked := l }) s

/-- READ_RSP, WRITE_ACK, ROW_RSP or STATUS at this module (R44, R267, R377): the answer is taken by its outstanding
request, unless it carries another incarnation or an old generation; LOST_GENERATION gives the target's generation, and the request is sent
again. -/
def State.onAnswer (s : State) (port : Nat) (p : Packet) : State :=
  let t := s.ethAck p
  match t.xreq p.dstUnit p.txn with
  | none => if t.ports = s.ports then t.staleReply port p else t
  | some x =>
    let st := if p.ty = 0x09 then (statusOfCode p.status).getD .refusedPartition else .done
    let here := p.srcModule == x.pkt.dstModule && p.srcUnit == x.pkt.dstUnit
    if p.srcInc ≠ x.inc ∨ x.inc ≠ t.get (CTX_INCARNATION x.ctx) then t.staleReply port p
    else if st = .lostGeneration then (t.seeGen p.srcModule p.srcUnit p.arg).xAgain x
    else if here ∧ p.targetGen ≠ x.pkt.targetGen then t.staleReply port p
    else if st = .deferred then t.xDeferred x (p.arg % 65536)
    else match x.what with
      | .moverLoad u slot tensor fmt block =>
        if p.ty = 0x02 then t.loadAnswer x p u slot tensor fmt block
        else if Status_ok st then t else t.xEnd x st []
      | _ => t.xEnd x st p.payload

/-! ## Reads and writes of other modules (R31, R43, R44, R162) -/

/-- READ_REQ or WRITE_REQ of another module: translated through the one context of its job domain, checked over its block,
and served; a stack out of service answers DEFERRED (R157).  A refusal is recorded and answered. -/
def State.onMemory (s : State) (p : Packet) : State :=
  let write := p.ty == 0x03
  match s.domainCtx p.jobDomain with
  | none => (s.evIso 0x2103 0 p.txn (p.arg % 2 ^ 60)).answerStatus 128 p .refusedPartition 0
  | some n =>
    let part := s.get (CTX_PARTITION n)
    match s.view n p.arg 4096 write [0, 1] with
    | .refuse c => (s.evIso c n p.txn (p.arg % 2 ^ 60)).answerStatus part p .refusedPartition 0
    | .outside _ _ => s.answerStatus part p .refusedPartition 0
    | .extent e rel =>
      let a := Extent_phys e rel
      if !s.serves e.tier a then s.answerStatus part p .deferred 0x8001
      else
        let t := s.recallExt e rel 4096 write
        let sp := tierSpace e.tier
        if write then
          (t.setBlock sp a (p.payload.take 4096) (sealOfBytes (p.payload.drop 4096))).sendReply part
            (t.answer p 0x04 .done 0 (t.unitGen p.dstUnit) [])
        else t.sendReply part (t.answer p 0x02 .done 0 (t.unitGen p.dstUnit) (t.block sp a ++ sealBytes (t.sealOf sp a)))

/-! ## Notices (R385 to R387) -/

/-- A NOTICE at this module: an accusation is merged, or names this module; a hold, freeze or release notice is recorded
and by an aggregator passed on; any other kind is dropped. -/
def State.onNotice (s : State) (p : Packet) : State :=
  let n (off k : Nat) : Nat := payNum p off k
  let kind := n 0 1
  let a : Accuse := ⟨n 4 4, n 1 1, n 8 4, n 12 4, n 16 4, n 24 8⟩
  if kind = 1 ∨ kind = 2 then
    if kind = 2 ∧ n 4 3 = s.self then s.accused a else s.takeAccusation a
  else if 3 ≤ kind ∧ kind ≤ 5 then
    let t := if s.aggregates then s.emit (.mctp kind p.payload) else s
    t.evEvery ms10 0x110A (evSev 0x110A) (n 4 3 * 8 + kind) 0 0 1 0 fun _ _ => (n 4 3, kind, n 1 1)
  else s

/-- ACCUSATION_WINDOW_END (R385): the merged accusations of the window go up, or are delivered by a final aggregator. -/
def execAccusationWindowEnd (s : State) : Host.Outcome State Fault Refusal :=
  .next (whenRunning s
    (s.flt.accusations.foldl (fun (t : State) a => if s.aggregates then t.deliverAccusation a else t.sendUp 2 s.childPart a)
      { s with flt := { s.flt with accusations := [], accusedAt := none } }))

/-! ## Delivery by type -/

/-- A REPL packet by its kind (R214, R215). -/
def State.onRepl (s : State) (p : Packet) : State :=
  match payNum p 0 1 with
  | 0 => s.onReplRequest p
  | 1 => s.onReplGrant p
  | 2 => s.onReplGrant p
  | 3 => s.onReplInvalidation p
  | 4 => s.onReplPush p
  | 5 => s.onReplAck p
  | 6 => s.onReplAck p
  | 7 => s.onReplDrop p
  | 8 => s.onReplDrop p
  | _ => s

/-- A delivered-once packet that is a request, with its window of 2 ms (R269); a REPL answer is matched to its request
instead. -/
def isOnce (p : Packet) : Bool :=
  p.ty == 0x07 || p.ty == 0x08 || (p.ty == 0x0E && [0, 3, 4, 7, 8].contains (payNum p 0 1))

/-- A request to a unit, whose TARGET_GEN must be the unit's own (R377); one that a home has forwarded is past that
check. -/
def genChecked (p : Packet) : Bool :=
  p.ty == 0x01 || p.ty == 0x03 || (p.ty == 0x05 && payNum p 1 1 / 2 % 2 == 0) || isOnce p

/-- A packet for this module by its type (R259). -/
def State.byType (s : State) (port : Nat) (p : Packet) : State :=
  match p.ty with
  | 0x01 => s.onMemory p
  | 0x02 => s.onAnswer port p
  | 0x03 => s.onMemory p
  | 0x04 => s.onAnswer port p
  | 0x05 => s.onRowReq p
  | 0x06 => s.onAnswer port p
  | 0x07 => s.onPairs p
  | 0x08 => s.onColl p
  | 0x09 => s.onAnswer port p
  | 0x0A => s.onMeridian port p
  | 0x0B => s.onNotice p
  | 0x0C => s.onTime p
  | 0x0D => s.onConst p
  | 0x0E => s.onRepl p
  | _ => s

/-- A packet that is forwarded (R260): one hop less, and not at all when none is left. -/
def State.forward (s : State) (port : Nat) (p : Packet) : State :=
  let q : Packet := { p with hops := p.hops - 1 }
  if p.hops ≤ 1 then s.notDelivered (portUnit port) 2 p.dstModule
  else if p.cls = 0 then s.sendC0 q
  else match s.route none q with
    | some t => t
    | none => s.notDelivered (portUnit port) 1 p.dstModule

/-- The packets of the last 2 ms that were delivered once, this one added (R269). -/
def State.remember (s : State) (p : Packet) : State :=
  { s with delivered := (s.delivered.filter fun d => decide (s.now ≤ d.time + 2000000)) ++
      [⟨p.srcModule, p.srcUnit, p.txn, s.now⟩] }

/-- A packet delivered: forwarded, answered LOST_GENERATION, acknowledged again as a duplicate, or taken by its type
(R260, R267, R269, R377); a module in A3 or A4 wakes for it (R397). -/
def State.onPacket (s : State) (port : Nat) (p : Packet) : State :=
  let s := s.wakeModule
  if p.dstModule ≠ s.self then s.forward port p
  else if genChecked p ∧ p.targetGen ≠ s.unitGen p.dstUnit then
    s.answerStatus 128 p .lostGeneration (s.unitGen p.dstUnit)
  else if !isOnce p then s.byType port p
  else if s.delivered.any fun d => d.module == p.srcModule && d.unit == p.srcUnit && d.txn == p.txn &&
      decide (s.now ≤ d.time + 2000000) then s.answerStatus 128 p .done 0
  else if p.ty = 0x07 ∧ !s.haloServes (stackUnit p) then s.byType port p
  else (s.remember p).byType port p

/-! ## The link layer (R259, R261, R277) -/

/-- The packet types that a partner may send for delivery. -/
def knownType (ty : Nat) : Bool := decide (1 ≤ ty) && decide (ty ≤ 0x0E)

/-- A packet handed to the module: held while it is frozen (R423). -/
def State.handUp (s : State) (i : Instr) (port : Nat) (p : Packet) : State :=
  if s.frozen then { s with ecl := { s.ecl with held := s.ecl.held ++ [i] } } else s.onPacket port p

/-- A packet received on a Starlane port that is Up or Calibrating (R259, R261): a bad one is counted and NAKed, a copy is acknowledged again, a
gap is NAKed; a good one is acknowledged and, unless its type or version is none of a working peer's, handed up. -/
def State.receive (s : State) (i : Instr) (rx : Rx) : State :=
  let p := rx.port % 32
  let x := s.port p
  if !s.on ∨ s.get PWR_STATUS_FORCED = 1 ∨ s.get (SL_STATUS_ROLE p) ≠ 1 ∨ ¬(s.portState p = 3 ∨ s.portState p = 4) then s
  else if !rx.good then
    ((s.inc (SL_CNT_LCRC_FAIL p) 1).emit (.linkWord p true x.lastGood)).raiseErr p (SL_ERR_RX_ERR p) 1
  else
    let ahead := (rx.seq + 4096 - x.lastGood) % 4096
    if ahead = 0 ∨ 2048 < ahead then s.emit (.linkWord p false x.lastGood)
    else if ahead ≠ 1 then s.emit (.linkWord p true x.lastGood)
    else
      let t := ((s.setPort p { x with lastGood := rx.seq % 4096 }).emit (.linkWord p false (rx.seq % 4096))).linkAck p rx.ack
      if !knownType rx.pkt.ty ∨ rx.pkt.proto ≠ s.get (SL_STATUS_PROTO p) then t.inc (SL_CNT_LCRC_FAIL p) 1
      else t.handUp i p rx.pkt

/-- The command of one kind of packet: it receives a packet of that kind, a damaged one, or one that cannot be
delivered. -/
def State.packetIn (s : State) (i : Instr) (rx : Rx) (mine : Packet → Bool) : State :=
  if !rx.good ∨ mine rx.pkt ∨ !knownType rx.pkt.ty ∨ rx.pkt.proto ≠ s.get (SL_STATUS_PROTO (rx.port % 32)) then
    s.receive i rx
  else s

/-- READ_REQ (R31). -/
def execReadReq (rx : Rx) (s : State) : Host.Outcome State Fault Refusal :=
  .next (s.packetIn (.readReq rx) rx fun p => p.ty == 0x01)

/-- READ_RSP (R267). -/
def execReadRsp (rx : Rx) (s : State) : Host.Outcome State Fault Refusal :=
  .next (s.packetIn (.readRsp rx) rx fun p => p.ty == 0x02)

/-- WRITE_REQ (R31). -/
def execWriteReq (rx : Rx) (s : State) : Host.Outcome State Fault Refusal :=
  .next (s.packetIn (.writeReq rx) rx fun p => p.ty == 0x03)

/-- WRITE_ACK (R267). -/
def execWriteAck (rx : Rx) (s : State) : Host.Outcome State Fault Refusal :=
  .next (s.packetIn (.writeAck rx) rx fun p => p.ty == 0x04)

/-- ROW_REQ (R203). -/
def execRowReq (rx : Rx) (s : State) : Host.Outcome State Fault Refusal :=
  .next (s.packetIn (.rowReq rx) rx fun p => p.ty == 0x05)

/-- ROW_RSP (R203). -/
def execRowRsp (rx : Rx) (s : State) : Host.Outcome State Fault Refusal :=
  .next (s.packetIn (.rowRsp rx) rx fun p => p.ty == 0x06)

/-- PAIRS (R208). -/
def execPairs (rx : Rx) (s : State) : Host.Outcome State Fault Refusal :=
  .next (s.packetIn (.pairs rx) rx fun p => p.ty == 0x07)

/-- STATUS (R267). -/
def execStatusPkt (rx : Rx) (s : State) : Host.Outcome State Fault Refusal :=
  .next (s.packetIn (.statusPkt rx) rx fun p => p.ty == 0x09)

/-- TIME (R281). -/
def execTime (rx : Rx) (s : State) : Host.Outcome State Fault Refusal :=
  .next (s.packetIn (.time rx) rx fun p => p.ty == 0x0C)

/-- CONST_HEARTBEAT (R282). -/
def execConstHeartbeat (rx : Rx) (s : State) : Host.Outcome State Fault Refusal :=
  .next (s.packetIn (.constHeartbeat rx) rx fun p => p.ty == 0x0D && payNum p 0 1 == 0)

/-- CONST_MEMBERSHIP (R279, R282): a membership message or a claim. -/
def execConstMembership (rx : Rx) (s : State) : Host.Outcome State Fault Refusal :=
  .next (s.packetIn (.constMembership rx) rx fun p => p.ty == 0x0D && (payNum p 0 1 == 1 || payNum p 0 1 == 2))

/-- TAKEOVER_CLAIM_ACK (R282). -/
def execTakeoverClaimAck (rx : Rx) (s : State) : Host.Outcome State Fault Refusal :=
  .next (s.packetIn (.takeoverClaimAck rx) rx fun p => p.ty == 0x0D && payNum p 0 1 == 3)

/-- CONST_POOL_GRANT (R284): a pool request, answer or release. -/
def execConstPoolGrant (rx : Rx) (s : State) : Host.Outcome State Fault Refusal :=
  .next (s.packetIn (.constPoolGrant rx) rx fun p => p.ty == 0x0D && decide (4 ≤ payNum p 0 1))

/-- REPL_REQUEST (R214). -/
def execReplRequest (rx : Rx) (s : State) : Host.Outcome State Fault Refusal :=
  .next (s.packetIn (.replRequest rx) rx fun p => p.ty == 0x0E && payNum p 0 1 == 0)

/-- REPL_GRANT (R214): a grant or a refusal. -/
def execReplGrant (rx : Rx) (s : State) : Host.Outcome State Fault Refusal :=
  .next (s.packetIn (.replGrant rx) rx fun p => p.ty == 0x0E && (payNum p 0 1 == 1 || payNum p 0 1 == 2))

/-- REPL_INVALIDATION (R215). -/
def execReplInvalidation (rx : Rx) (s : State) : Host.Outcome State Fault Refusal :=
  .next (s.packetIn (.replInvalidation rx) rx fun p => p.ty == 0x0E && payNum p 0 1 == 3)

/-- REPL_PUSH (R215). -/
def execReplPush (rx : Rx) (s : State) : Host.Outcome State Fault Refusal :=
  .next (s.packetIn (.replPush rx) rx fun p => p.ty == 0x0E && payNum p 0 1 == 4)

/-- REPL_ACKNOWLEDGEMENT (R215). -/
def execReplAcknowledgement (rx : Rx) (s : State) : Host.Outcome State Fault Refusal :=
  .next (s.packetIn (.replAcknowledgement rx) rx fun p => p.ty == 0x0E && (payNum p 0 1 == 5 || payNum p 0 1 == 6))

/-- REPL_DROP (R215). -/
def execReplDrop (rx : Rx) (s : State) : Host.Outcome State Fault Refusal :=
  .next (s.packetIn (.replDrop rx) rx fun p => p.ty == 0x0E && decide (7 ≤ payNum p 0 1))

/-- GROUP_CRC_RECEIVE (R289). -/
def execGroupCrcReceive (rx : Rx) (s : State) : Host.Outcome State Fault Refusal :=
  .next (s.packetIn (.groupCrcReceive rx) rx fun p => p.ty == 0x08 && cOp p == 0 && cKind p != 4)

/-- GROUP_ANSWER (R289). -/
def execGroupAnswer (rx : Rx) (s : State) : Host.Outcome State Fault Refusal :=
  .next (s.packetIn (.groupAnswer rx) rx fun p => p.ty == 0x08 && cOp p == 0 && cKind p == 4)

/-- COLL_CONTRIBUTION (R303 to R305). -/
def execCollContribution (rx : Rx) (s : State) : Host.Outcome State Fault Refusal :=
  .next (s.packetIn (.collContribution rx) rx fun p => p.ty == 0x08 && cOp p != 0 && cKind p == 0)

/-- COLL_RESULT (R303). -/
def execCollResult (rx : Rx) (s : State) : Host.Outcome State Fault Refusal :=
  .next (s.packetIn (.collResult rx) rx fun p => p.ty == 0x08 && cOp p != 0 && cKind p == 1)

/-- COLL_PROGRESS (R307). -/
def execCollProgress (rx : Rx) (s : State) : Host.Outcome State Fault Refusal :=
  .next (s.packetIn (.collProgress rx) rx fun p => p.ty == 0x08 && cOp p != 0 && cKind p == 2)

/-- COLL_RESEND_REQUEST (R306). -/
def execCollResendRequest (rx : Rx) (s : State) : Host.Outcome State Fault Refusal :=
  .next (s.packetIn (.collResendRequest rx) rx fun p => p.ty == 0x08 && cOp p != 0 && cKind p == 3)

/-- COLL_STATUS (R306). -/
def execCollStatus (rx : Rx) (s : State) : Host.Outcome State Fault Refusal :=
  .next (s.packetIn (.collStatus rx) rx fun p => p.ty == 0x08 && cOp p != 0 && decide (4 ≤ cKind p))

/-- NOTICE_ACCUSATION (R385); a NOTICE of a kind that R386 does not name is dropped by it. -/
def execNoticeAccusation (rx : Rx) (s : State) : Host.Outcome State Fault Refusal :=
  .next (s.packetIn (.noticeAccusation rx) rx fun p =>
    p.ty == 0x0B && (decide (payNum p 0 1 < 2) || decide (5 < payNum p 0 1)))

/-- NOTICE_MERGED_ACCUSATION (R385, R387). -/
def execNoticeMergedAccusation (rx : Rx) (s : State) : Host.Outcome State Fault Refusal :=
  .next (s.packetIn (.noticeMergedAccusation rx) rx fun p => p.ty == 0x0B && payNum p 0 1 == 2)

/-- NOTICE_POWER_HOLD (R386). -/
def execNoticePowerHold (rx : Rx) (s : State) : Host.Outcome State Fault Refusal :=
  .next (s.packetIn (.noticePowerHold rx) rx fun p => p.ty == 0x0B && payNum p 0 1 == 3)

/-- NOTICE_FREEZE (R386). -/
def execNoticeFreeze (rx : Rx) (s : State) : Host.Outcome State Fault Refusal :=
  .next (s.packetIn (.noticeFreeze rx) rx fun p => p.ty == 0x0B && payNum p 0 1 == 4)

/-- NOTICE_RELEASE (R386). -/
def execNoticeRelease (rx : Rx) (s : State) : Host.Outcome State Fault Refusal :=
  .next (s.packetIn (.noticeRelease rx) rx fun p => p.ty == 0x0B && payNum p 0 1 == 5)

/-- A packet's form on Ethernet: a type of R259, a class and a length that the header allows (R259, R277). -/
def packetForm (p : Packet) : Bool :=
  knownType p.ty && p.proto == 1 && decide (p.cls < 4) && decide (p.payload.length ≤ 4112)

/-- ETHERNET_FRAME_RECEIVE (R277, R278): a bad FCS counts in RX_ERR; another address or EtherType, or a malformed packet,
is dropped with event 0xC10C; a packet of the hub is acknowledged (log 40), and the packet is delivered. -/
def execEthernetFrameReceive (port : Fin 32) (f : Frame) (s : State) : Host.Outcome State Fault Refusal :=
  let p := port.val
  let drop (cause : Nat) : State :=
    s.evEvery ms10 0xC10C (evSev 0xC10C) p (portUnit p) 0 1 0 fun n _ => (cause, 0, n)
  .next (whenOn s
    (if s.get PWR_STATUS_FORCED = 1 ∨ s.get (SL_STATUS_ROLE p) ≠ 2 ∨ ¬(s.portState p = 3 ∨ s.portState p = 4) then s
    else if !f.fcsGood then s.raiseErr p (SL_ERR_RX_ERR p) 1
    else if f.dstPrefix ≠ s.get HUB_SL_ETH_MAC_PREFIX ∨ f.dstModule ≠ s.self then drop 1
    else if f.etherType ≠ s.get HUB_SL_ETH_ETHERTYPE then drop 2
    else if !f.wellFormed ∨ !packetForm f.pkt then drop 3
    else
      let t := s.handUp (.ethernetFrameReceive port f) p f.pkt
      if 0x0A ≤ f.pkt.ty ∧ f.pkt.ty ≤ 0x0D ∧ f.pkt.dstModule = s.self then t.answerStatus 128 f.pkt .done 0 else t))

/-! ## Requests without an answer (R267, R268, R275) -/

/-- XT_TIMEOUT_EXPIRE (R267, R384): the request completes with TIMEOUT, and its target is accused. -/
def execXtTimeoutExpire (unit txn : Nat) (s : State) : Host.Outcome State Fault Refusal :=
  .next (whenLive s
    (match s.xreq unit txn with
      | some x =>
        if x.waitingPort then s
        else match x.what with
          | .coll _ _ _ _ => s
          | _ => (s.accuse 3 (x.pkt.dstModule + x.pkt.dstUnit * 2 ^ 24) x.part).xEnd x .timeout []
      | none => s))

/-- ROUTE_WAIT_EXPIRE (R268): no port of the route set has become usable within 50 µs. -/
def execRouteWaitExpire (unit txn : Nat) (s : State) : Host.Outcome State Fault Refusal :=
  .next (whenLive s
    (match s.xreq unit txn with
      | some x =>
        if x.waitingPort then (s.notDelivered (s.eventPort x.pkt.dstModule) 1 x.pkt.dstModule).xEnd x .portNotReady []
        else s
      | none => s))

/-- A port reset (R275): it drains, and the requests of this module that it cannot send again are returned
LOST_GENERATION. -/
def State.portReset (s : State) (p : Nat) : State :=
  let held := s.xreqs.filter fun x => x.waitingPort
  let t := s.portDrain p
  (t.xreqs.filter fun x => x.waitingPort && !held.contains x).foldl (fun (u : State) x => u.xEnd x .lostGeneration []) t

/-- PORT_RESET (R253, R275). -/
def execPortReset (path : Path) (port : Fin 32) (s : State) : Host.Outcome State Fault Refusal :=
  .next (s.ctrl (.portReset path port) (ctrlPath path) (s.portReset port.val))

end Sys2Proof.Machine
end

