-- ==== Sys2Proof/Machine/HostCopy.lean ====
section
/-!
DEFINITION. The copy engines: COPY inbound, outbound and within the module, the mirror of an Orphan context, and the end
of a COPY (R328, R330, R333 to R337, R341, R360, R445).
-/

namespace Sys2Proof.Machine

open Sys2Proof

/-! ## The words of a COPY (R333) -/

/-- Length in bytes. -/
def cpLen (e : Entry) : Nat := 64 * Entry_bits e 1 31 0
/-- STEP. -/
def cpStep (e : Entry) : Nat := Entry_bits e 1 63 32
/-- SRC. -/
def cpSrc (e : Entry) : Nat := Entry_bits e 2 63 0
/-- DST. -/
def cpDst (e : Entry) : Nat := Entry_bits e 3 63 0
/-- TENSOR. -/
def cpTensor (e : Entry) : Nat := Entry_bits e 4 63 40
/-- FMT. -/
def cpFmt (e : Entry) : Nat := Entry_bits e 4 39 35
/-- The index of block `j`. -/
def cpBlock (e : Entry) (j : Nat) : Nat := (Entry_bits e 4 31 0 + j) % 2 ^ 32
/-- SEAL_ADDR. -/
def cpSeals (e : Entry) : Nat := Entry_bits e 5 63 0
/-- FLAG_ADDR. -/
def cpFlag (e : Entry) : Nat := Entry_bits e 6 63 0
/-- The class: CLASS 0 means C2 (R332). -/
def cmdClass (e : Entry) : Nat := if Entry_bits e 0 51 50 = 0 then 2 else Entry_bits e 0 51 50

/-- A tier of the host or a peer: P or Q. -/
def hostTier (a : Nat) : Bool := tierOf a == 3 || tierOf a == 4
/-- A tier of this module. -/
def ownTier (a : Nat) : Bool := decide (tierOf a ≤ 2)

/-- 1 MiB, the most that a segment holds (R334). -/
def segBytes : Nat := 2 ^ 20

/-- SEAL_ADDR is used: one side is in the module and the other is not (R334). -/
def cpSealed (e : Entry) : Bool := cpSeals e != 0 && (hostTier (cpSrc e) || hostTier (cpDst e))

/-- A COPY breaks a rule of R333. -/
def copyBad (e : Entry) : Bool :=
  let side (a : Nat) : Bool := ownTier a && (a % 4096 != 0 || cpLen e % 4096 != 0)
  cpLen e == 0 || (hostTier (cpSrc e) && hostTier (cpDst e)) || !(ownTier (cpSrc e) || hostTier (cpSrc e)) ||
    !(ownTier (cpDst e) || hostTier (cpDst e)) || cpSrc e % 64 != 0 || cpDst e % 64 != 0 || cpSeals e % 64 != 0 ||
    cpFlag e % 64 != 0 || side (cpSrc e) || side (cpDst e) ||
    (cpSealed e && !hostTier (cpSeals e)) || (cpFlag e != 0 && !(tierOf (cpFlag e) == 1 || hostTier (cpFlag e))) ||
    ((hostTier (cpSrc e) || hostTier (cpDst e)) && !fmtGood (cpFmt e))

/-- The first refusal of a COPY's ranges, each checked whole before any byte moves (R27, R45). -/
def State.copyRefusal (s : State) (n : Nat) (e : Entry) : Option (Nat × Nat) :=
  let one (a len : Nat) (write : Bool) : Option (Nat × Nat) := match s.view n a len write [0, 1, 2, 3, 4] with
    | .refuse c => some (c, a)
    | _ => none
  let blocks := ceilDiv (cpLen e) 4096
  ((one (cpSrc e) (cpLen e) false).orElse fun _ => one (cpDst e) (cpLen e) true).orElse fun _ =>
    ((if cpSealed e then one (cpSeals e) (16 * blocks) (hostTier (cpDst e)) else none).orElse fun _ =>
      if cpFlag e = 0 then none else one (cpFlag e) 8 true)

/-! ## The table of copies -/

/-- The copy of an identifier. -/
def State.copyOf (s : State) (id : Nat) : Option Copy := s.copies.find? fun k => k.id == id

/-- A copy changed. -/
def State.setCopy (s : State) (k : Copy) : State :=
  { s with copies := s.copies.map fun (x : Copy) => if x.id = k.id then k else x }

/-- A copy ends: its requests are forgotten, and its command completes with its result words (R330). -/
def State.copyEnd (s : State) (k : Copy) (st : Status) (r0 r1 : Nat) : State :=
  let st := if st = .done ∧ k.corrected then .doneCorrected else st
  ({ s with
      copies := s.copies.filter fun x => x.id != k.id
      pcie := s.pcie.filter fun r => match r.what with
        | .copyRead i => i != k.id
        | .copySeals i => i != k.id
        | .copyFlush i => i != k.id
        | _ => true }).complete (.cmdRing k.ctx) k.index (cpStep k.words) st r0 r1

/-- A copy that RESUME or the teardown ends: where its mirror records start, and the bytes that reached the target (R330,
R342). -/
def State.copyCut (s : State) (k : Copy) (st : Status) : State :=
  s.copyEnd k st (match k.mirrorFirst with
    | some m => m
    | none => 2 ^ 64 - 1) k.written

/-! ## The mirror (R341) -/

/-- A P-tier write of a copy appended to its context's mirror; none where there is no mirror or no room. -/
def State.mirrorAppend (s : State) (k : Copy) (addr : Nat) (bs : List Byte) : Option (State × Copy) :=
  let c := s.ctx k.ctx
  let pad := (64 - bs.length % 64) % 64
  let size := 64 + bs.length + pad
  if c.mirrorLen * 4096 < c.mirrorUsed + size then none
  else match s.view k.ctx (c.mirrorH + c.mirrorUsed) size true [1] with
    | .extent e rel =>
      let head := bytesLE 8 addr ++ bytesLE 4 bs.length ++ bytesLE 2 (queueNumber (.cmdRing k.ctx)) ++ bytesLE 6 k.index ++
        List.replicate 44 0
      let t := (s.recallExt e rel size true).extWrite e rel (head ++ bs ++ List.replicate pad 0)
      let t := t.setCtx k.ctx { c with mirrorUsed := c.mirrorUsed + size, mirrorRecs := c.mirrorRecs + 1 }
      let k := { k with mirrored := true, mirrorFirst := k.mirrorFirst.orElse fun _ => some c.mirrorUsed }
      some (t.setCopy k, k)
    | _ => none

/-- A write of an outbound COPY to P or Q: sent, or while its function is Orphan appended to the mirror; a copy whose
record has no place is held (R340, R341). -/
def State.copyWrite (s : State) (k : Copy) (addr : Nat) (bs : List Byte) : State × Copy :=
  if k.held then (s, k)
  else if s.hostHeld k.ctx addr bs.length then
    match s.mirrorAppend k addr bs with
    | some r => r
    | none => (s.setCopy { k with held := true }, { k with held := true })
  else (s.hostWrite k.ctx addr bs, k)

/-! ## The end of a COPY (R336) -/

/-- Every byte is in place: the flag is written, then the command completes. -/
def State.copyFinish (s : State) (k : Copy) : State :=
  let e := k.words
  let flag := bytesLE 8 (Entry_bits e 7 63 0)
  if cpFlag e = 0 then s.copyEnd k .done 0 0
  else match s.view k.ctx (cpFlag e) 8 true [1, 3, 4] with
    | .extent x rel => ((s.recallExt x rel 8 true).extWrite x rel flag).copyEnd k .done 0 0
    | _ =>
      let (t, k) := s.copyWrite k (cpFlag e) flag
      if k.held ∨ k.mirrored then t else t.copyEnd k .done 0 0

/-! ## Blocks -/

/-- Block `j` of a copy's source in L, H or D, with its seal. -/
def State.copySource (s : State) (k : Copy) (j : Nat) : State × List Byte × Seal :=
  match s.view k.ctx (cpSrc k.words + 4096 * j) 4096 false [0, 1, 2] with
  | .extent e rel =>
    let t := s.recallExt e rel 4096 false
    let a := Extent_phys e rel
    (t, t.block (tierSpace e.tier) a, t.sealOf (tierSpace e.tier) a)
  | _ => (s, [], seal0)

/-- Block `j` of a copy's target in L, H or D written with its seal; none where D refuses it (R185). -/
def State.copyPut (s : State) (k : Copy) (j : Nat) (bs : List Byte) (x : Seal) : Option State :=
  match s.view k.ctx (cpDst k.words + 4096 * j) 4096 true [0, 1, 2] with
  | .extent e rel =>
    let a := Extent_phys e rel
    if e.tier = 2 then s.dWrite 3 (cmdClass k.words) (a / 4096) bs x (.copy k.id)
    else some ((s.recallExt e rel 4096 true).setBlock (tierSpace e.tier) a bs x)
  | _ => some s

/-- The blocks of a segment put one after another from block `j` on; the status tells a refusal. -/
def State.copyPuts (k : Copy) : Nat → List (List Byte × Seal) → State → State × Status
  | _, [], s => (s, .done)
  | j, b :: bs, s => match s.copyPut k j b.1 b.2 with
    | some t => State.copyPuts k (j + 1) bs t
    | none => (s, .refusedCapacity)

/-- What the seal check of a block of an inbound or outbound copy finds: its tag and format, then POISON, then its CRC
(R334, R448); `computes` for an outbound copy, which a poisoned block ends (R360). -/
def copyCheck (e : Entry) (j : Nat) (x : Seal) (bs : List Byte) (computes : Bool) : Status :=
  if x.tensor.toNat ≠ cpTensor e ∨ x.block.toNat ≠ cpBlock e j ∨ x.fmt.toNat ≠ cpFmt e then .sealMismatch
  else if x.poison then (if computes then .poisoned else .done)
  else if crcGood x bs then .done else .sealMismatch

/-- The copy writes to D and not all of its blocks are acknowledged (R182). -/
def State.copyUnacked (s : State) (k : Copy) : Bool := s.tiers.dwrites.any fun w => w.what == .copy k.id

/-- The next segment of a COPY into L, H or D: from the host its seals and its bytes are read, from the module its blocks are
copied with their seals (R334); the last segment ends the command. -/
def State.copyNext : Nat → State → Copy → State
  | 0, s, _ => s
  | f + 1, s, k =>
    let e := k.words
    let n := cpLen e
    let len := min segBytes (n - k.written)
    let j := k.written / 4096
    if s.copyUnacked k then s
    else if n ≤ k.written then s.copyFinish k
    else if hostTier (cpSrc e) then
      let at_ (a l : Nat) (what : PcieFor) : State :=
        if s.hostHeld k.ctx a l then s.setCopy { k with held := true } else s.hostRead k.ctx a l what
      if cpSealed e ∧ k.seals = [] then at_ (cpSeals e + 16 * j) (16 * (len / 4096)) (.copySeals k.id)
      else at_ (cpSrc e + k.written) len (.copyRead k.id)
    else
      let r := (List.range (len / 4096)).foldl (fun (a : State × List (List Byte × Seal)) i =>
        let b := a.1.copySource k (j + i)
        (b.1, a.2 ++ [b.2])) (s, [])
      let bad := r.2.any fun b => !b.2.poison && !crcGood b.2 b.1
      if bad then r.1.copyEnd k .sealMismatch 0 0
      else
        match State.copyPuts k j r.2 r.1 with
        | (t, .done) =>
          let k := { k with written := k.written + len }
          State.copyNext f (t.setCopy k) k
        | (t, st) => t.copyEnd k st 0 0

/-- Segments enough for any copy. -/
def copyFuel (k : Copy) : Nat := cpLen k.words / segBytes + 3

/-- The bytes of a segment read from the host: sealed by the engine, or checked against the seals read with one refetch
of the segment, and written to the target (R115, R334). -/
def State.copyArrive (s : State) (k : Copy) (data : List Byte) : State :=
  let e := k.words
  let j := k.written / 4096
  let blocks := (cutList 4096 data.length data).zipIdx.map fun b =>
    (b.1, if cpSealed e then sealOfBytes ((k.seals.drop (16 * b.2)).take 16)
      else mkSeal b.1 (cpTensor e) (cpFmt e) (cpBlock e (j + b.2)) (cpStep e))
  let sts := blocks.zipIdx.map fun b => copyCheck e (j + b.2) b.1.2 b.1.1 false
  let tags : Bool := blocks.zipIdx.any fun b => copyCheck e (j + b.2) { b.1.2 with poison := true } b.1.1 false != .done
  if sts.all fun x => x == .done then
    match State.copyPuts k j blocks s with
    | (t, .done) =>
      let k := { k with
        written := k.written + data.length, seals := [], refetched := false, corrected := k.corrected || k.refetched }
      State.copyNext (copyFuel k) (t.setCopy k) k
    | (t, st) => t.copyEnd k st 0 0
  else if tags ∨ k.refetched then s.copyEnd k .sealMismatch 0 0
  else
    let k := { k with refetched := true }
    (s.setCopy k).hostRead k.ctx (cpSrc e + k.written) data.length (.copyRead k.id)

/-- The blocks of one segment written to the destination and, where the copy names a seal region, their seals beside
them (R334). -/
def State.copyPair (s : State) (k : Copy) (at_ : Nat) (bs : List (List Byte × Seal)) : State × Copy :=
  let w := s.copyWrite k (cpDst k.words + at_) (bs.flatMap fun b => b.1)
  if cpSealed k.words then
    w.1.copyWrite w.2 (cpSeals k.words + 16 * (at_ / 4096)) (bs.flatMap fun b => sealBytes b.2)
  else w

/-- The segments of an outbound COPY: each is checked, then written, with its seals where SEAL_ADDR is set; after the last, the flush
read (R334, R336). -/
def State.copyOut : Nat → State → Copy → Nat → State
  | 0, s, _, _ => s
  | f + 1, s, k, at_ =>
    let e := k.words
    let n := cpLen e
    let len := min segBytes (n - at_)
    let j := at_ / 4096
    if n ≤ at_ then
      if k.mirrored then s else s.hostRead k.ctx (cpDst e + n - 64) 64 (.copyFlush k.id)
    else
      let r := (List.range (len / 4096)).foldl (fun (a : State × List (List Byte × Seal)) i =>
        let b := a.1.copySource k (j + i)
        (b.1, a.2 ++ [b.2])) (s, [])
      let st := firstBad (r.2.zipIdx.map fun b => copyCheck e (j + b.2) b.1.2 b.1.1 true)
      if st ≠ .done then r.1.copyEnd k st 0 0
      else
        let w := r.1.copyPair k at_ r.2
        if w.2.held then w.1
        else
          let k := if w.2.mirrored then w.2 else { w.2 with written := at_ + len }
          State.copyOut f (w.1.setCopy k) k (at_ + len)

/-- Every block of a COPY's sides in H is served now (R157). -/
def State.copyServes (s : State) (n : Nat) (e : Entry) : Bool :=
  let side (a : Nat) : Bool := match s.view n a (cpLen e) false [0, 1, 2] with
    | .extent x rel => (List.range (cpLen e / 4096)).all fun j => s.serves x.tier (Extent_phys x (rel + 4096 * j))
    | _ => true
  side (cpSrc e) && side (cpDst e)

/-- HOST_COPY (R333): the COPY at the head of a command ring is taken, refused, or begins to move its data. -/
def execHostCopy (c : Fin 4096) (s : State) : Host.Outcome State Fault Refusal :=
  .next (s.command c.val 0x01 fun t i e =>
    if copyBad e then t.cmdDone c.val i .refusedPartition 0
    else match t.copyRefusal c.val e with
      | some r => (t.violate c.val r.1 i r.2).cmdDone c.val i .refusedPartition 0
      | none =>
        if !t.copyServes c.val e then s
        else
          let k : Copy := ⟨t.nextPcie, c.val, i, e, 0, false, none, false, false, [], false⟩
          let u := { t with copies := t.copies ++ [k], nextPcie := t.nextPcie + 1 }
          if hostTier (cpDst e) then State.copyOut (copyFuel k) u k 0 else State.copyNext (copyFuel k) u k)

/-! ## Refusals and failures of PCIe requests (R326, R328, R338, R445) -/

/-- `n` bytes that nothing determines. -/
def State.freeBytes (s : State) (n : Nat) : List Byte :=
  (List.range n).map fun i => (Sys2Proof.Config.freeValue (s.free + i)).setWidth 8

/-- The target range of a refused inbound COPY is undefined, bytes and seals (R445). -/
def State.copySpoil (s : State) (k : Copy) : State :=
  if hostTier (cpSrc k.words) then
    (List.range (cpLen k.words / 4096)).foldl (fun (t : State) j =>
      match t.view k.ctx (cpDst k.words + 4096 * j) 4096 true [0, 1, 2] with
      | .extent e rel =>
        let u := t.recallExt e rel 4096 true
        { u with free := u.free + 4112 }.setBlock (tierSpace e.tier) (Extent_phys e rel) (u.freeBytes 4096)
          (sealOfBytes ((u.freeBytes 4112).drop 4096))
      | _ => t) s
  else s

/-- A DIRECT window whose request is refused becomes VIA_HOST where it has a HOST_ALIAS, with event 0xE104 (R338). -/
def State.windowRefused (s : State) (r : PcieReq) : State :=
  match r.window with
  | none => s
  | some w => match smGet (fun _ => none) (s.ctx r.ctx).peers w with
    | some x =>
      if x.direct ∧ x.hostAlias ≠ 0 then
        (s.setPeer r.ctx w (some { x with direct := false })).ev 0xE104 (0x100 + s.fnOf r.ctx) 0 r.ctx w 0
      else s
    | none => s

/-- The copy that a PCIe request belongs to. -/
def State.reqCopy (s : State) (r : PcieReq) : Option Copy :=
  match r.what with
  | .copyRead i => s.copyOf i
  | .copySeals i => s.copyOf i
  | .copyFlush i => s.copyOf i
  | _ => none

end Sys2Proof.Machine
end

