-- ==== Sys2Proof/Machine/Orphan.lean ====
section
/-!
DEFINITION. The end of a file on its way, the ends of an Orphan period, and the resets of a function (R328, R340, R342).
-/

namespace Sys2Proof.Machine

open Sys2Proof

/-! ## The end of a file (R231, R246, R248, R332, R340) -/

/-- The file of an identifier. -/
def State.fileOf (s : State) (id : Nat) : Option FileOp := s.files.find? fun f => f.id == id

/-- A file is no longer on its way: its PCIe requests are forgotten. -/
def State.dropFile (s : State) (id : Nat) : State :=
  { s with
    files := s.files.filter fun f => f.id != id
    pcie := s.pcie.filter fun r => match r.what with
      | .fileRead i => i != id
      | .fileFlush i => i != id
      | _ => true }

/-- The Orrery descriptor that a file belongs to ends with a status. -/
def State.orrFileEnd (s : State) (q qp index : Nat) (st : Status) : State :=
  match s.orrOps.find? fun o => o.quad == q && o.qp == qp && o.index == index with
  | some o => (s.orrEnd o st).orrRetry
  | none => s

/-- A file ends, and with it what it was for. -/
def State.fileStop (s : State) (f : FileOp) (st : Status) : State :=
  let t := s.dropFile f.id
  match f.what with
  | .orr q qp i => t.orrFileEnd q qp i st
  | .cmd c i _ => t.cmdClose c i st 0 0
  | .master c i _ => t.cmdClose c i st 0 0
  | .orphan n => t.ckptEnd n st

/-! ## The ends of an Orphan period (R342) -/

/-- The held files of a function end with a status. -/
def State.stopHeld (s : State) (f : Nat) (st : Status) : State :=
  (s.files.filter fun x => s.fnOf x.ctx == f && x.held).foldl (fun (t : State) x => t.fileStop x st) s

/-- RESUME takes effect: Orphan contexts become Active, held requests and copies redirected to the mirror complete
LOST_GENERATION, and event 0xE102 records the outcome (R342). -/
def State.resumeNow (s : State) (f : Nat) : State :=
  let held := s.fnHeld f
  let t := (s.fnCtxs f).foldl (fun (t : State) n => if t.get (CTX_STATE n) = 3 then t.put (CTX_STATE n) 1 else t) s
  let t := (t.put (PCIE_FN_CFG_STATE f) 1).put (PCIE_FN_CFG_LAST_HB f) s.now
  let t := t.setFn f { t.fn f with waiting := 0, hbFrozen := 0 }
  let t := (s.copies.filter fun c => s.fnOf c.ctx == f && (c.held || c.mirrored)).foldl
    (fun (t : State) c => t.copyCut c .lostGeneration) t
  (((t.stopHeld f .lostGeneration).ev 0xE102 (0x100 + f) 0 1 (s.mirrorUsed f) held).fnVector f).saveHandover

/-- A function tears down: every context moves to Closing, and held requests are cancelled (R42, R44, R342). -/
def State.teardownNow (s : State) (f outcome cause : Nat) : State :=
  let held := s.fnHeld f
  let t := (s.fnCtxs f).foldl (fun (t : State) n => if t.manageable n then t.toClosing n else t) s
  let t := (t.put (PCIE_FN_CFG_STATE f) 4).setFn f { t.fn f with waiting := 0, cause := cause }
  let t := (s.copies.filter fun c => s.fnOf c.ctx == f && c.held).foldl (fun (t : State) c => t.copyCut c .cancelled) t
  ((t.stopHeld f .cancelled).ev 0xE102 (0x100 + f) 0 outcome (s.mirrorUsed f) held).saveHandover

/-- The end of an Orphan period, RESUME (1), TEARDOWN (2) or the hold's expiry (3): it waits while an Orphan checkpoint of
the function runs (R342). -/
def State.orphanEnd (s : State) (f what : Nat) : State :=
  if s.get (PCIE_FN_CFG_STATE f) ≠ 2 then s
  else if (s.fn f).ckptRun ≠ [] then s.setFn f { s.fn f with waiting := what }
  else if what = 1 then s.resumeNow f
  else if what = 2 then s.teardownNow f 2 (s.fn f).cause
  else s.teardownNow f 3 4

/-- A file ends; the end of the Orphan period that waited for an Orphan checkpoint follows. -/
def State.fileEnd (s : State) (f : FileOp) (st : Status) : State :=
  let t := s.fileStop f st
  match f.what with
  | .orphan n =>
    let g := s.fnOf n
    if (t.fn g).waiting = 0 then t else t.orphanEnd g (t.fn g).waiting
  | _ => t

/-- RESUME (R342): no effect outside Orphan or while no interface version is selected (R355). -/
def execResume (f : Fin 256) (s : State) : Host.Outcome State Fault Refusal :=
  .next (s.ctrl (.resume f) (s.get (FW_IF_IF_SEL f.val) != 0) (s.orphanEnd f.val 1))

/-- TEARDOWN (R342). -/
def execTeardown (f : Fin 256) (s : State) : Host.Outcome State Fault Refusal :=
  .next (s.ctrl (.teardown f) true (s.orphanEnd f.val 2))

/-- ORPHAN_HOLD_EXPIRE (R342): HOLD_MIN minutes have passed since Orphan entry. -/
def execOrphanHoldExpire (f : Fin 256) (s : State) : Host.Outcome State Fault Refusal :=
  .next (if s.on && !s.frozen &&
      decide ((s.fn f.val).orphanAt + s.get (PCIE_FN_CFG_HOLD_MIN f.val) * 60000000000 + (s.fn f.val).hbFrozen ≤
        s.now) then
    s.orphanEnd f.val 3 else s)

/-! ## Resets of a function (R328) -/

/-- A function-level reset: in Orphan a teardown; otherwise every context moves to Closing and the function tears down
(R328, R342; log 72). -/
def State.flr (s : State) (f : Nat) : State :=
  if s.get (PCIE_FN_CFG_STATE f) = 2 then s.orphanEnd f 2
  else if s.fnCtxs f = [] then s
  else
    let t := (s.fnCtxs f).foldl (fun (t : State) n => if t.manageable n then t.toClosing n else t) s
    (t.put (PCIE_FN_CFG_STATE f) 4).setFn f { t.fn f with cause := 3 }

/-- FUNCTION_LEVEL_RESET (R328). -/
def execFunctionLevelReset (f : Fin 256) (s : State) : Host.Outcome State Fault Refusal :=
  .next (whenOn s (s.flr f.val))

/-- NUMVFS_REDUCTION (R328): a function-level reset of each VF removed. -/
def execNumvfsReduction (n : Nat) (s : State) : Host.Outcome State Fault Refusal :=
  .next (if s.on && decide (n < s.numVfs) then
      let t := ((List.range (s.numVfs - n)).map (n + 1 + ·)).foldl (fun (t : State) f => t.flr f) s
      { t with numVfs := n }
    else s)

end Sys2Proof.Machine
end

