-- ==== Sys2Proof/Machine/TableCmds.lean ====
section
/-!
DEFINITION. The ring commands of tables and shards, STEP_REBASE, and the completions of D writes and of PCIe requests
(R174, R178, R179, R182, R192, R193, R211, R225 to R230, R325 to R328, R332, R336, R445).
-/

namespace Sys2Proof.Machine

open Sys2Proof

/-! ## Descriptors and their regions (R192, R193, R227, R229) -/

/-- The 128-byte descriptor that W2 of a command names in tier H of the issuing context (log 66); a refused address counts
one violation. -/
def State.readDesc (s : State) (ring i : Nat) (e : Entry) : State × Option Desc :=
  let a := Entry_bits e 2 63 0
  match s.view ring a 128 false [1] with
  | .extent x rel => (s.recallExt x rel 128 false, some (BitVec.ofNat 1024 (ofBytesLE (s.extRead x rel 128))))
  | .refuse c => (s.violate ring c i a, none)
  | .outside _ _ => (s, none)

/-- The part [rel, rel + n) of an extent's pieces lies where a test of physical offsets allows. -/
def piecesIn (ok : Nat → Bool) : List (Nat × Nat) → Nat → Nat → Bool
  | [], _, n => n == 0
  | (p, l) :: ps, rel, n =>
    if n = 0 then true
    else if l ≤ rel then piecesIn ok ps (rel - l) n
    else ok (p + rel) && piecesIn ok ps 0 (n - (l - rel))

/-- `n` bytes of a tier from a context offset on are covered by extents, at physical offsets that a test allows. -/
def coveredBy (ok : Nat → Bool) (es : List Extent) (t : Nat) : Nat → Nat → Nat → Bool
  | 0, _, n => n == 0
  | f + 1, off, n =>
    if n = 0 then true
    else match findExtent es t off 1 with
      | none => false
      | some e =>
        let m := min n (e.off + e.len - off)
        piecesIn ok e.phys (off - e.off) m && coveredBy ok es t f (off + m) (n - m)

/-- A region of a context at an address of a tier. -/
def State.regionGood (s : State) (ctx t addr n : Nat) (ok : Nat → Bool) : Bool :=
  let es := (s.ctx ctx).extents
  n == 0 || (tierOf addr == t && coveredBy ok es t (es.length + 1) (offOf addr) n)

/-- FP32 patterns: finite, finite and above zero, in [0, 1). -/
def finite32 (p : Nat) : Bool := Val_finite (ofFp32 p)
/-- Finite and above zero. -/
def positive32 (p : Nat) : Bool := finite32 p && decide (p < 2 ^ 31) && p != 0
/-- In [0, 1). -/
def unit32 (p : Nat) : Bool := decide (p % 2 ^ 31 = 0) || decide (p < 0x3F800000)

/-! ## TABLE_CREATE (R192, R193) -/

/-- The defined bits of a table descriptor's words. -/
def tdMasks : List Nat :=
  let all := 2 ^ 64 - 1
  [0xFFFFFFFFFFF00000, 2 ^ 48 - 1, 0xFFFFFFFFFF000000, all, all, all, all, all, all, all, all, all, all, all, all, all]

/-- The fields of a table descriptor follow R192 and R195. -/
def tdLegal (d : Desc) : Bool :=
  let f := tdFmt d
  let rule := tdRule d
  let b (k hi lo : Nat) : Nat := Desc_bits d k hi lo
  tdMasks.zipIdx.all (fun m => b m.2 63 0 &&& m.1 == b m.2 63 0) && b 0 47 44 == 1 && f ∈ [0, 1, 2, 3, 4, 8, 9, 10] &&
  tdDim d % (if fmtNarrow f then 32 else 8) == 0 && (decide (rule < 4) || rule == 15) && (f != 10 || rule == 15) &&
  decide (tdKind d < 2) && decide (1 ≤ tdRows d) && decide (tdThis d < tdShards d) && decide (1 ≤ tdRpb d) &&
  decide (1 ≤ tdSpb d) && tdValueH d % 4096 == 0 && (tdWords d != 0) == (tdStateH d != 0) && tdStateH d % 4096 == 0 &&
  tdValueD d % 4096 == 0 && tdStateD d % 4096 == 0 && tdReplH d % 4096 == 0 &&
  (tdStateD d == 0 || (tdValueD d != 0 && tdStateH d != 0)) && (f == 10) == (b 15 63 0 != 0) && b 12 31 16 != 0 &&
  b 12 15 0 != 0 && finite32 (b 13 63 32) && positive32 (b 13 31 0) && unit32 (b 14 63 32) && unit32 (b 14 31 0)

/-- The regions of a table: H regions on the engine's stack, D regions in D, and the shard map (R192, R193). -/
def State.tdRegions (s : State) (ctx k : Nat) (d : Desc) : Bool :=
  let here (a : Nat) : Bool := stackOf a == k
  let h (addr n : Nat) : Bool := s.regionGood ctx 1 addr n here
  let dd (addr n : Nat) : Bool := s.regionGood ctx 2 addr n fun _ => true
  let c := tdCache d
  h (tdValueH d) (4096 * ceilDiv c (tdRpb d)) && (tdWords d == 0 || h (tdStateH d) (4096 * ceilDiv c (tdSpb d))) &&
  h (tdMapH d) (40 * c) && h (tdMergeH d) (tdMerge d * tdDim d * 48) &&
  (tdReplH d == 0 || h (tdReplH d) (4096 * ceilDiv (tdReplRows d) (tdRpb d))) &&
  (tdFmt d != 10 || h (Desc_bits d 15 63 0) 8192) &&
  s.regionGood ctx 1 (Desc_bits d 3 63 0) (4 * tdShards d) (fun _ => true) &&
  (if tdHOnly d then decide (tdCount d ≤ c)
    else dd (tdValueD d) (4096 * ceilDiv (tdCount d) (tdRpb d)) &&
      (tdStateD d == 0 || dd (tdStateD d) (4096 * ceilDiv (tdCount d) (tdSpb d))))

/-- A new table on an engine: its slot records written, its parameters those of the descriptor. -/
def State.addTable (s : State) (ctx k : Nat) (d : Desc) : State :=
  let p := s.get (CTX_PARTITION ctx)
  let f (w hi lo : Nat) : Nat := Desc_bits d w hi lo
  let b : Table := {
    key := s.nextPcie, engine := k, tid := f 0 63 48, ctx := ctx, part := p, desc := d, retired := false
    params := ⟨f 13 63 32, f 13 31 0, f 14 63 32, f 14 31 0⟩
    pendingParams := [], rows := [], incoming := [], merges := [], replicas := [], directory := [], overrides := []
    pendingOverride := [], pendingSwap := [], destroying := none, migrations := [], dropFwd := [], remoteReads := []
    remoteWaits := [], window := 0, windowFirst := (s.committed p + 1) % 2 ^ 32, rowReads := [], replReads := []
    rowUpdates := [], imported := 0, closed := none, epochRow := false, epochRepl := false, rebuildRow := false
    rebuildRepl := false, rowsReady := false, replReady := false }
  let t := { s with tables := s.tables ++ [b], nextPcie := s.nextPcie + 1 }
  let t := (List.range (tdCache d)).foldl (fun (u : State) i =>
    u.setSlotRec b i (if tdHOnly d ∧ i < tdCount d then tdGlobal d i else noRow) 0) t
  t.put (HALO_STATUS_TABLES k) (t.get (HALO_STATUS_TABLES k) + 1)

/-- TABLE_CREATE (R192, R193): a table on the engine of the stack that holds VALUE_H; a TABLE_ID names one table of its
job domain on an engine (log 68). -/
def execTableCreate (c : Fin 4096) (s : State) : Host.Outcome State Fault Refusal :=
  .next (s.command c.val 0x20 fun t i e =>
    let n := t.cmdTarget c.val e
    if !t.manageable n then t.cmdDone c.val i .refusedPartition 0
    else match t.readDesc c.val i e with
      | (u, none) => u.cmdDone c.val i .refusedPartition 0
      | (u, some d) =>
        let k := match findExtent (u.ctx n).extents 1 (offOf (tdValueH d)) 1 with
          | some x => stackOf (Extent_phys x (offOf (tdValueH d) - x.off))
          | none => 12
        if !tdLegal d || decide (12 ≤ k) || (u.tableAt k (u.get (CTX_JOB_DOMAIN n)) (Desc_bits d 0 63 48)).isSome ||
            !u.tdRegions n k d then u.cmdDone c.val i .refusedPartition 0
        else if 256 ≤ (u.tables.filter fun b => b.engine == k).length then u.cmdDone c.val i .refusedCapacity 0
        else (u.addTable n k d).cmdDone c.val i .done 0)

/-! ## The other table commands (R178, R179, R211, R332) -/

/-- The table that W1 of a command names in the target's job domain: [15:0] TABLE_ID, [27:24] stack. -/
def State.cmdTable (s : State) (ring : Nat) (e : Entry) : Option Table :=
  (s.tableAt (Entry_bits e 1 27 24) (s.get (CTX_JOB_DOMAIN (s.cmdTarget ring e))) (Entry_bits e 1 15 0)).filter
    fun b => b.destroying.isNone

/-- The table that a TABLE_DESTROY names: a Retired one of that TABLE_ID before the one that serves under it (log 73). -/
def State.doomedTable (s : State) (ring : Nat) (e : Entry) : Option Table :=
  (s.tables.find? fun b => b.engine == Entry_bits e 1 27 24 && b.tid == Entry_bits e 1 15 0 && b.retired &&
    b.destroying.isNone && s.tableDomain b == s.get (CTX_JOB_DOMAIN (s.cmdTarget ring e))).orElse fun _ => s.cmdTable ring e

/-- TABLE_DESTROY (R332): the table is freed once the descriptors that name it have completed. -/
def execTableDestroy (c : Fin 4096) (s : State) : Host.Outcome State Fault Refusal :=
  .next (s.command c.val 0x21 fun t i e =>
    if !t.manageable (t.cmdTarget c.val e) then t.cmdDone c.val i .refusedPartition 0
    else match t.doomedTable c.val e with
      | none => t.cmdDone c.val i .refusedPartition 0
      | some b =>
        let u := (t.cmdOpen c.val i).dropReplicas b fun _ => true
        (u.mapTable b.key fun y => { y with destroying := some (c.val, i) }).tablesLeave)

/-- TABLE_PARAM (R211): the parameters take effect, and the command completes, at the next commit Meridian of the table's
partition. -/
def execTableParam (c : Fin 4096) (s : State) : Host.Outcome State Fault Refusal :=
  .next (s.command c.val 0x22 fun t i e =>
    let v (k hi lo : Nat) : Nat := Entry_bits e k hi lo
    match t.cmdTable c.val e with
    | none => t.cmdDone c.val i .refusedPartition 0
    | some b =>
      if !(finite32 (v 2 63 32) && positive32 (v 2 31 0) && unit32 (v 3 63 32) && unit32 (v 3 31 0)) then
        t.cmdDone c.val i .refusedPartition 0
      else
        (t.cmdOpen c.val i).mapTable b.key fun y => { y with
          pendingParams := y.pendingParams ++ [(c.val, i, ⟨v 2 63 32, v 2 31 0, v 3 63 32, v 3 31 0⟩)] })

/-- TABLE_FLUSH (R178): every row Dirty now is set on course for write-back; in Read-only a flush with such rows completes
REFUSED_CAPACITY (R185). -/
def execTableFlush (c : Fin 4096) (s : State) : Host.Outcome State Fault Refusal :=
  .next (s.command c.val 0x23 fun t i e =>
    match t.cmdTable c.val e with
    | none => t.cmdDone c.val i .refusedPartition 0
    | some b =>
      let dirty := b.rows.filter fun x => x.state == 3
      if tdHOnly b.desc ∨ dirty = [] then t.cmdDone c.val i .done 0
      else if t.deepReadOnly then t.cmdDone c.val i .refusedCapacity 0
      else
        let u := t.cmdOpen c.val i
        let u := { u with tiers := { u.tiers with
          flushes := u.tiers.flushes ++ [(c.val, i, b.key, dirty.map fun (x : Row) => (x.row, x.version))] } }
        u.writeBack b dirty false (cmdClass e))

/-- TABLE_CHECKPOINT (R179, R247): the shard file of the last committed step goes to its destination, once no commit
update of the partition waits to be applied (R177). -/
def execTableCheckpoint (c : Fin 4096) (s : State) : Host.Outcome State Fault Refusal :=
  .next (s.command c.val 0x24 fun t i e =>
    match t.cmdTable c.val e with
    | none => t.cmdDone c.val i .refusedPartition 0
    | some b =>
      if t.applying b.part then s
      else match t.tableFile b with
        | .inl st => t.cmdDone c.val i st 0
        | .inr bs => match t.fileSend c.val i (Entry_bits e 2 63 0) 3 bs (.cmd c.val i e) with
          | (u, some st) => u.cmdDone c.val i st 0
          | (u, none) => u.cmdOpen c.val i)

/-! ## The idle partition (R325) -/

/-- A queue is Off or Stopped. -/
def State.queueIdle (s : State) (q : QueueId) : Bool := s.get (qEn q) == 0 || s.get (qState q) == 2

/-- The conditions of R325: every queue of the partition Off or Stopped with nothing dispatched, and no shard of it with
PENDING set. -/
def State.partIdle (s : State) (p : Nat) : Bool :=
  let mine (q : QueueId) : Bool := s.queuePart q == some p
  ((List.range 8).all fun w => s.queueIdle (.workList p w) && (s.wlist p w).inflight.isEmpty) &&
  ((List.range 12).all fun k => (List.range 32).all fun j => !mine (.haloQp k j) || s.queueIdle (.haloQp k j)) &&
  ((List.range 4).all fun q => (List.range 16).all fun j => !mine (.orrQp q j) || s.queueIdle (.orrQp q j)) &&
  ((List.range 4).all fun q => (List.range 16).all fun j => !mine (.collCh q j) || s.queueIdle (.collCh q j)) &&
  !(s.haloOps.any fun o => mine (.haloQp o.engine o.qp)) && !(s.orrOps.any fun o => mine (.orrQp o.quad o.qp)) &&
  !(s.coll.ops.any fun o => mine (.collCh o.quad o.ch)) && !(s.feeds.any fun f => f.part == p) &&
  !(s.shards.any fun x => x.part == p && s.get (ORR_SHARD_PENDING x.quad x.slot) == 1)

/-- STEP_REBASE (R325): COMMITTED_STEP is set, the partition's streams are reset, and NONFINITE and SUSPECT are
cleared. -/
def execStepRebase (c : Fin 4096) (s : State) : Host.Outcome State Fault Refusal :=
  .next (s.command c.val 0x2A fun t i e =>
    let p := Entry_bits e 1 6 0
    if !t.partValid p || !t.partIdle p then t.cmdDone c.val i .refusedPartition 0
    else
      let u := t.put (HUB_PART_RUN_COMMITTED_STEP p) (Entry_bits e 2 31 0)
      let u := (t.cfg.active.streams.filterMap fun kv => match kv.2 with
        | some d => if d.part = p then some kv.1 else none
        | none => none).foldl (fun (v : State) j => v.resetStream j) u
      let u := ((u.put (HUB_PART_COMMIT_NONFINITE p) 0).put (HUB_PART_COMMIT_SUSPECT p) 0).setCommit p commit0
      let u := { u with shards := u.shards.map fun (x : Shard) => if x.part = p then { x with gradStep := none } else x }
      u.cmdDone c.val i .done 0)

/-! ## TABLE_RESTORE (R247, R325) -/

/-- A fetched file fits a table: MAGIC, FILE_VERSION, KIND, RULE, TABLE_ID, ROWS, DIM and FMT (log 74). -/
def restoreMatches (b : Table) (hd : List Byte) : Bool :=
  headNum hd 0 4 == 0x44524853 && headNum hd 4 2 == 1 && headNum hd 6 1 == 2 && headNum hd 7 1 == tdRule b.desc &&
    headNum hd 24 2 == b.tid && headNum hd 32 8 == tdRows b.desc && headNum hd 40 8 == tdDim b.desc &&
    headNum hd 118 1 == tdFmt b.desc

/-- Rows of a D-backed table written into their home blocks: one block of a region, with the rows that lie in it. -/
def State.restoreHome (s : State) (b : Table) (id cls step addr k tensor fmt : Nat) (put : List Byte → List Byte) :
    Option State :=
  match s.dRegion b addr k with
  | none => some s
  | some p =>
    let out := put (s.dBlock p).1
    s.dWrite 2 cls p out (mkSeal out tensor fmt k step) (.file id)

/-- Every block of a list of home blocks written; none where D refuses one. -/
def State.restoreBlocks (f : State → Nat → Option State) : List Nat → State → Option State
  | [], s => some s
  | k :: ks, s => match f s k with
    | none => none
    | some t => State.restoreBlocks f ks t

/-- Restored rows of a D-backed table: resident rows leave H, and the home blocks are written to D, debited to its
governor. -/
def State.restoreD (s : State) (b : Table) (id cls step : Nat) (rows : List (Row × List Byte × List Byte)) : Option State :=
  let d := b.desc
  let t := (b.rows.filter fun x => Row_resident x || x.state == 1).foldl (fun (u : State) x => u.coldRow b x) s
  let vs := (rows.map fun r => r.1.home / tdRpb d).eraseDups
  let ss := if tdStateD d = 0 then [] else (rows.map fun r => r.1.home / tdSpb d).eraseDups
  let w := 4 * tdWords d
  (State.restoreBlocks (fun u k => u.restoreHome b id cls step (tdValueD d) k (tdTag d) (tdFmt d) fun bs =>
    (rows.filter fun r => r.1.home / tdRpb d == k).foldl (fun (a : List Byte) r =>
      rowPut d a (r.1.home % tdRpb d) r.2.1) bs) vs t).bind fun u =>
  State.restoreBlocks (fun v k => v.restoreHome b id cls step (tdStateD d) k (tdStateTag d) 0 fun bs =>
    (rows.filter fun r => r.1.home / tdSpb d == k).foldl (fun (a : List Byte) r =>
      putBytes a (r.1.home % tdSpb d * w) r.2.2) bs) ss u

/-- Restored rows of an H-only table written into their slots. -/
def State.restoreH (s : State) (b : Table) (step : Nat) (rows : List (Row × List Byte × List Byte)) : State :=
  rows.foldl (fun (t : State) r => (t.writeRow b r.1.slot step r.2.1).writeState b r.1.slot step r.2.2) s

/-- A fetched table file takes effect (R325): replicas and merge entries are dropped, and every row that the engine holds
takes its imported value. -/
def State.restoreNow (s : State) (ring i : Nat) (e : Entry) (bs : List (List Byte × Option Seal)) : State :=
  match s.cmdTable ring e with
  | none => s.cmdClose ring i .refusedPartition 0 0
  | some b =>
    let head := bs.headD ([], none)
    let st0 := fileCheck head [] 0 0
    if st0 ≠ .done then s.cmdClose ring i st0 0 0
    else if !restoreMatches b head.1 then s.cmdClose ring i .refusedPartition 0 0
    else match tableFileRows b.desc bs with
      | .inl st => s.cmdClose ring i st 0 0
      | .inr l =>
        let step := headNum head.1 8 4
        let t := (s.dropReplicas b fun _ => true).mapTable b.key fun y => { y with merges := [], replicas := [] }
        let rows := l.filterMap fun r => ((t.rowOf b r.1).filter fun x => x.state != 6).map fun x => (x, r.2.1, r.2.2)
        if tdHOnly b.desc then (t.restoreH b step rows).cmdClose ring i .done 0 0
        else
          let id := t.nextPcie
          let f : FileOp := ⟨id, .cmd ring i e, ring, 0, [], 0, false⟩
          match (t.addFile f).restoreD b id (cmdClass e) step rows with
          | none => t.cmdClose ring i .refusedCapacity 0 0
          | some u => if u.tiers.dwrites.any fun w => w.what == .file id then u else u.fileEnd f .done

/-- TABLE_RESTORE (R325): under the conditions of R325 the file is fetched from tier H, D, P or Q and takes effect. -/
def execTableRestore (c : Fin 4096) (s : State) : Host.Outcome State Fault Refusal :=
  .next (s.command c.val 0x25 fun t i e =>
    match t.cmdTable c.val e with
    | none => t.cmdDone c.val i .refusedPartition 0
    | some b =>
      if !t.partIdle b.part then t.cmdDone c.val i .refusedPartition 0
      else match t.fileFetch c.val i (Entry_bits e 2 63 0) [1, 2, 3, 4] headLength 0 (.cmd c.val i e) with
        | (u, .fail st) => u.cmdDone c.val i st 0
        | (u, .waits) => u.cmdOpen c.val i
        | (u, .have_ bs) => (u.cmdOpen c.val i).restoreNow c.val i e bs)

/-! ## SHARD_CREATE and SHARD_DESTROY (R225 to R230) -/

/-- The fields of a shard descriptor follow R227 and R228; fields that its rule does not use are zero. -/
def sdLegal (d : Desc) (tiles : Nat) : Bool :=
  let b (k hi lo : Nat) : Nat := Desc_bits d k hi lo
  let rule := sdRule d
  let all := 2 ^ 64 - 1
  let masks := [0xFFFFFFFF00000000, all, all, all, 0xFFFFFFFFFFFF0000, all, all, all, all, all, all,
    0xFFFFFFFFFF800000, 0, 0, 0, 0]
  let used (rules : List Nat) (v : Nat) (legal : Bool) : Bool := if rule ∈ rules then legal else v == 0
  masks.zipIdx.all (fun m => b m.2 63 0 &&& m.1 == b m.2 63 0) && b 0 47 44 == 1 && (decide (rule < 4) || rule == 15) &&
  decide (sdFmt d < 5) && decide (1 ≤ sdRows d) && decide (sdRows d ≤ 2 ^ 20) && decide (1 ≤ sdCols d) &&
  decide (sdCols d ≤ 2 ^ 20) && decide (sdSize d ≤ 2 ^ 32) && (decide (sdFmt d < 3) || sdCols d % 32 == 0) &&
  decide (b 3 63 32 + sdRows d ≤ b 2 63 32) && decide (b 3 31 0 + sdCols d ≤ b 2 31 0) && sdBank d % 4096 == 0 &&
  sdGrad d % 4096 == 0 &&
  (!(rule == 1 || rule == 2 || rule == 3) ||
    (b 3 63 0 == 0 && sdRows d == b 2 63 32 && sdCols d == b 2 31 0)) &&
  (rule != 2 || decide (min (sdRows d) (sdCols d) ≤ 16384)) && (!(rule == 2 || rule == 3) || decide (1 ≤ tiles)) &&
  used [0, 1, 2, 3] (b 7 63 32) (finite32 (b 7 63 32)) &&
  used [0, 1, 2, 3] (b 7 31 0) (finite32 (b 7 31 0) && (decide (b 7 31 0 < 2 ^ 31) || b 7 31 0 == 2 ^ 31)) &&
  used [0, 2] (b 8 63 32) (unit32 (b 8 63 32)) && used [1, 3] (b 8 31 0) (unit32 (b 8 31 0)) &&
  used [1, 2, 3] (b 9 63 32) (positive32 (b 9 63 32)) && used [2] (b 9 31 0) (finite32 (b 9 31 0)) &&
  used [2] (b 10 63 32) (finite32 (b 10 63 32)) && used [2] (b 10 31 0) (finite32 (b 10 31 0)) &&
  used [2] (b 11 63 56) (decide (1 ≤ b 11 63 56) && decide (b 11 63 56 ≤ 15)) &&
  used [3] (b 11 55 48) (decide (1 ≤ b 11 55 48) && decide (b 11 55 48 ≤ 16)) &&
  used [3] (b 11 47 32) (b 11 47 32 != 0) && used [3] (b 11 31 28) (decide (8 ≤ b 11 31 28) && decide (b 11 31 28 ≤ 12)) &&
  used [3] (b 11 27 23) (b 11 27 23 != 0)

/-- Each region of both banks, ROOT_NEXT and GRAD_H lies in one readable and writable H extent (R229; a frozen shard's
GRAD_H may be 0, log 75). -/
def State.sdRegions (s : State) (ctx : Nat) (d : Desc) : Bool :=
  let one (addr n : Nat) : Bool := n == 0 || (tierOf addr == 1 &&
    (findExtent (s.ctx ctx).extents 1 (offOf addr) n).any fun e => e.r && e.w)
  let bank (b : Nat) : Bool :=
    one (sdBank d + 4096 * sdRegion d b 0) (4096 * sdMasterBlocks d) &&
    one (sdBank d + 4096 * sdRegion d b 1) (4096 * sdStateBlocks d) &&
    one (sdBank d + 4096 * sdRegion d b 2) (4096 * sdWorkBlocks d)
  bank 0 && bank 1 && one (sdBank d + 8192 * sdBankBlocks d) (4096 * sdRootBlocks d) &&
    ((sdRule d == 15 && sdGrad d == 0) || one (sdGrad d) (4096 * sdMasterBlocks d))

/-- The refusal of a shard's creation, or its slot (R225, R227 to R229). -/
def State.shardSlot (s : State) (ctx : Nat) (d : Desc) : Status ⊕ Nat :=
  let q := Desc_bits d 0 34 32
  let p := s.get (CTX_PARTITION ctx)
  let dom := s.get (CTX_JOB_DOMAIN ctx)
  if 4 ≤ q ∨ s.get (ORR_PART_CFG_VALID q p) = 0 ∨ !sdLegal d (s.get (ORR_PART_CFG_TILE_COUNT q p)) ∨
      ((List.range 4).any fun k => (s.shardOf k dom (Desc_bits d 0 63 48)).isSome) ∨ !s.sdRegions ctx d then
    .inl .refusedPartition
  else
    let first := s.get (ORR_PART_CFG_SLOT_FIRST q p)
    match ((List.range (s.get (ORR_PART_CFG_SLOT_COUNT q p))).map (first + ·)).find? fun k => (s.shardAt q k).isNone with
    | some k => .inr k
    | none => .inl .refusedCapacity

/-- The state parts of a new shard: zero, and the identity for the roots (R230). -/
def newParts (d : Desc) : List (List Nat) :=
  let roots := (idRoots d).map patterns
  let zero := (stateParts d).filter fun x => x.1 != 6 && x.1 != 7
  (zero.map fun x => List.replicate x.2 0) ++ (if sdRule d = 3 then roots else [])

/-- A new shard in a slot: ACTIVE 0, and bank 0 filled from its master (R230). -/
def State.addShard (s : State) (ctx k : Nat) (d : Desc) (w : List Nat) : State :=
  let q := Desc_bits d 0 34 32
  let p := s.get (CTX_PARTITION ctx)
  let x : Shard := {
    quad := q, slot := k, ctx := ctx, part := p, desc := d, hyper := sdHyper d, commitHyper := sdHyper d
    pendingHyper := [], roots := [], gradStep := none, commitStep := s.committed p
    commitUpdates := s.get (HUB_PART_COMMIT_UPDATES p), destroying := none }
  let t := { s with shards := s.shards ++ [x] }
  let t := ((t.put (ORR_SHARD_SHARD_ID q k) (Desc_bits d 0 63 48)).put (ORR_SHARD_CONTEXT q k) ctx).put
    (ORR_SHARD_PARTITION q k) p
  let t := ((t.put (ORR_SHARD_RULE q k) (sdRule d)).put (ORR_SHARD_EXPORTING q k) 0).put (ORR_SHARD_PENDING q k) 0
  let t := ((t.put (ORR_SHARD_ACTIVE q k) 0).put (ORR_SHARD_VALID q k) 1).put (ORR_SHARD_BANK_BLOCKS q k) (sdBankBlocks d)
  let t := (t.put (ORR_SHARD_T q k) 0).put (ORR_STATUS_SHARDS q) (t.get (ORR_STATUS_SHARDS q) + 1)
  t.writeBank x 0 (s.committed p) w (newParts d)

/-- The check of an initial master's blocks, where their tier keeps seals: format code, poison and CRC (log 75). -/
def masterCheck (b : List Byte × Option Seal) : Status :=
  match b.2 with
  | none => .done
  | some x => if x.fmt.toNat ≠ 0 then .sealMismatch else if x.poison then .poisoned
    else if crcGood x b.1 then .done else .sealMismatch

/-- A shard is created from its fetched master: its descriptor and slot are looked up again. -/
def State.masterNow (s : State) (ring i : Nat) (e : Entry) (bs : List (List Byte × Option Seal)) : State :=
  let n := s.cmdTarget ring e
  match s.readDesc ring i e with
  | (t, none) => t.cmdClose ring i .refusedPartition 0 0
  | (t, some d) => match t.shardSlot n d with
    | .inl st => t.cmdClose ring i st 0 0
    | .inr k =>
      let bad := firstBad (bs.map masterCheck)
      if bad ≠ .done then t.cmdClose ring i bad 0 0
      else (t.addShard n k d (numsOf 4 ((bs.flatMap fun b => b.1).take (4 * sdSize d)))).cmdClose ring i .done 0 0

/-- SHARD_CREATE (R227 to R230): with INIT_SRC 0 the master is zero, else it is fetched from tier H, D or P. -/
def execShardCreate (c : Fin 4096) (s : State) : Host.Outcome State Fault Refusal :=
  .next (s.command c.val 0x26 fun t i e =>
    let n := t.cmdTarget c.val e
    let src := Entry_bits e 3 63 0
    if !t.manageable n then t.cmdDone c.val i .refusedPartition 0
    else match t.readDesc c.val i e with
      | (u, none) => u.cmdDone c.val i .refusedPartition 0
      | (u, some d) => match u.shardSlot n d with
        | .inl st => u.cmdDone c.val i st 0
        | .inr k =>
          if src = 0 then (u.addShard n k d (List.replicate (sdSize d) 0)).cmdDone c.val i .done 0
          else match u.fileFetch c.val i src [1, 2, 3] (fun _ => 0) (4096 * sdMasterBlocks d) (.master c.val i e) with
            | (v, .fail st) => v.cmdDone c.val i st 0
            | (v, .waits) => v.cmdOpen c.val i
            | (v, .have_ bs) => (v.cmdOpen c.val i).masterNow c.val i e bs)

/-- SHARD_DESTROY (R332): W1 [15:0] SHARD_ID, [18:16] quadrant; the shard is freed once the descriptors that name it have
completed. -/
def execShardDestroy (c : Fin 4096) (s : State) : Host.Outcome State Fault Refusal :=
  .next (s.command c.val 0x27 fun t i e =>
    let n := t.cmdTarget c.val e
    if !t.manageable n then t.cmdDone c.val i .refusedPartition 0
    else match (t.shardOf (Entry_bits e 1 18 16) (t.get (CTX_JOB_DOMAIN n)) (Entry_bits e 1 15 0)).filter
        fun x => x.destroying.isNone with
      | none => t.cmdDone c.val i .refusedPartition 0
      | some x => ((t.cmdOpen c.val i).setShard { x with destroying := some (c.val, i) }).shardsLeave)

/-! ## Completions of PCIe requests (R326, R328, R333, R336, R445) -/

/-- An outstanding PCIe request. -/
def State.pcieReq (s : State) (id : Nat) : Option PcieReq := s.pcie.find? fun r => r.id == id

/-- A PCIe request forgotten. -/
def State.dropReq (s : State) (id : Nat) : State := { s with pcie := s.pcie.filter fun r => r.id != id }

/-- The whole of a fetched file is here. -/
def State.fileHave (s : State) (f : FileOp) (bs : List Byte) : State :=
  let l := bareBlocks bs
  match f.what with
  | .orr q qp i =>
    match s.orrOps.find? fun o => o.quad == q && o.qp == qp && o.index == i with
    | none => s.dropFile f.id
    | some o => match s.shardAt q o.slot with
      | none => s.fileEnd f .refusedPartition
      | some x =>
        let (t, st) := s.importInto x o.step l
        t.fileEnd f st
  | .cmd c i e => (s.dropFile f.id).restoreNow c i e l
  | .master c i e => (s.dropFile f.id).masterNow c i e l
  | .orphan _ => s.fileEnd f .done

/-- Bytes of a file read from P or Q: its header says how many blocks follow, and they are read next. -/
def State.fileBytes (s : State) (f : FileOp) (data : List Byte) : State :=
  let got := f.got ++ data
  let need := if f.need = 0 then 4096 * headLength got else f.need
  if need ≤ got.length then s.fileHave { f with got := got } got
  else
    let rest := f.addr + got.length
    let n := need - got.length
    let held := s.hostHeld f.ctx rest n
    let g := { f with got := got, need := need, held := held }
    let t := { s with files := s.files.map fun (x : FileOp) => if x.id = f.id then g else x }
    match s.view f.ctx rest n false [3, 4] with
    | .outside _ _ => if held then t else t.hostRead f.ctx rest n (.fileRead f.id)
    | .refuse c => (s.violate f.ctx c 0 rest).fileEnd f .refusedPartition
    | .extent _ _ => s

/-- PCIE_READ_COMPLETION (R333): a read's data, for a copy's seals, its next segment, or a file; held in a freeze. -/
def execPcieReadCompletion (req : Nat) (data : List Byte) (s : State) : Host.Outcome State Fault Refusal :=
  .next (if !s.on then s
    else if s.frozen then s.holdCmd (.pcieReadCompletion req data)
    else match s.pcieReq req with
      | none => s
      | some r =>
        let t := s.dropReq req
        if data.length ≠ r.len then s
        else match r.what with
          | .copySeals id => match s.copyOf id with
            | some k =>
              let k := { k with seals := data }
              State.copyNext (copyFuel k) (t.setCopy k) k
            | none => t
          | .copyRead id => match s.copyOf id with
            | some k => t.copyArrive k data
            | none => t
          | .fileRead id => match s.fileOf id with
            | some f => t.fileBytes f data
            | none => t
          | _ => s)

/-- FLUSH_READ_COMPLETE (R336): the data of an outbound copy or file is in place; the flag, the completion record and its
host copy follow. -/
def execFlushReadComplete (req : Nat) (s : State) : Host.Outcome State Fault Refusal :=
  .next (if !s.on then s
    else if s.frozen then s.holdCmd (.flushReadComplete req)
    else match s.pcieReq req with
      | none => s
      | some r =>
        let t := s.dropReq req
        match r.what with
        | .copyFlush id => match s.copyOf id with
          | some k => t.copyFinish k
          | none => t
        | .fileFlush id => match s.fileOf id with
          | some f => t.fileEnd f .done
          | none => t
        | _ => s)

/-- What a PCIe request belongs to ends with a status. -/
def State.reqEnd (s : State) (r : PcieReq) (st : Status) : State :=
  let t := s.dropReq r.id
  match s.reqCopy r with
  | some k => t.copyEnd k st 0 0
  | none => match r.what with
    | .fileRead id => match s.fileOf id with
      | some f => t.fileEnd f st
      | none => t
    | .fileFlush id => match s.fileOf id with
      | some f => t.fileEnd f st
      | none => t
    | _ => t

/-- P_TIER_REFUSED (R338, R445): the range stops, the request completes REFUSED_PARTITION and counts one violation, and
its target range is undefined. -/
def execPTierRefused (req : Nat) (s : State) : Host.Outcome State Fault Refusal :=
  .next (if !s.on then s
    else if s.frozen then s.holdCmd (.pTierRefused req)
    else match s.pcieReq req with
      | none => s
      | some r =>
        let t := (s.violate r.ctx 0x2108 0 r.addr).windowRefused r
        let t := match s.reqCopy r with
          | some k => t.copySpoil k
          | none => t
        t.reqEnd r .refusedPartition)

/-- PCIE_COMPLETION_POISONED (R328). -/
def execPcieCompletionPoisoned (req : Nat) (s : State) : Host.Outcome State Fault Refusal :=
  .next (if !s.on then s
    else if s.frozen then s.holdCmd (.pcieCompletionPoisoned req)
    else match s.pcieReq req with
      | none => s
      | some r => s.reqEnd r .poisoned)

/-- PCIE_COMPLETION_TIMEOUT (R326). -/
def execPcieCompletionTimeout (req : Nat) (s : State) : Host.Outcome State Fault Refusal :=
  .next (if !s.on then s
    else if s.frozen then s.holdCmd (.pcieCompletionTimeout req)
    else match s.pcieReq req with
      | none => s
      | some r => s.reqEnd r .timeout)

/-! ## D writes acknowledged or refused (R173, R174, R182) -/

/-- An earlier write of the same block is not acknowledged: writes to one block complete in issue order (R181). -/
def State.earlierWrite (s : State) (w : DWrite) : Bool :=
  (s.tiers.dwrites.takeWhile fun v => v.id != w.id).any fun v => v.block == w.block

/-- D_WRITE_ACKNOWLEDGE (R182): an admitted write is in the protected buffer; the copy or file whose last write it was goes
on, and rows that a flush waits for are chosen again. -/
def execDWriteAcknowledge (id : Nat) (s : State) : Host.Outcome State Fault Refusal :=
  .next (whenLive s
    (match s.tiers.dwrites.find? fun w => w.id == id with
    | none => s
    | some w =>
      if !w.credited || s.earlierWrite w then s
      else
        let t := (s.dAck w).reflush
        let more : Bool := t.tiers.dwrites.any fun v => v.what == w.what
        match w.what with
        | .rows _ _ => t
        | .copy k => match t.copyOf k with
          | some x => if more then t else State.copyNext (copyFuel x) t x
          | none => t
        | .file k => match t.fileOf k with
          | some f => if more then t else t.fileEnd f .done
          | none => t))

/-- The operation behind a D write that is refused ends with REFUSED_CAPACITY. -/
def State.refuseWrite (s : State) (w : DWrite) : State :=
  let t := { s with tiers := { s.tiers with dwrites := s.tiers.dwrites.filter fun v => v.what != w.what } }
  match w.what with
  | .rows key rs => { s with tiers := { s.tiers with dwrites := s.tiers.dwrites.filter (· != w) } }.rowsDirty key rs
  | .copy id => match t.copyOf id with
    | some k => t.copyEnd k .refusedCapacity 0 0
    | none => t
  | .file id => match t.fileOf id with
    | some f => t.fileEnd f .refusedCapacity
    | none => t

/-- The first D write of a class beyond its queue of 2,048 blocks (R173, R183). -/
def State.deferredWrite (s : State) : Option DWrite :=
  [1, 2, 3].findSome? fun c => ((s.classWrites c).drop 2048).head?

/-- DEFERRAL_WAIT_LIMIT (R173, R174): a head that has waited for the limit of its point completes with
REFUSED_CAPACITY: 1,000 ms for an extent, Read-only for a promotion, 100 ms for a block of D. -/
def execDeferralWaitLimit (point : Nat) (s : State) : Host.Outcome State Fault Refusal :=
  .next (whenLive s
    (if point = 5 then
      match s.deferredWrite with
      | some w => if w.since + 100000000 ≤ s.now then s.refuseWrite w else s
      | none => s
    else match s.deferHead point with
      | none => s
      | some d =>
        if point % 16 = 1 ∧ d.since + 1000000000 ≤ s.now then
          match d.ring with
          | .cmdRing ring => ((s.dropDeferral d).countRefusal d.ctx d.tier 1 .refusedCapacity).cmdClose ring d.index
              .refusedCapacity 0 0
          | _ => s
        else if point % 16 = 3 ∧ s.deepReadOnly then
          match s.tableKey d.tier with
          | some b => ((s.dropDeferral d).countRefusal d.ctx 2 3 .refusedCapacity).failRow b d.amount .refusedCapacity
          | none => s.dropDeferral d
        else s))

end Sys2Proof.Machine
end

