-- ==== Sys2Proof/Machine/Almanac.lean ====
section
/-!
DEFINITION. The commands of the configuration engine, the drain and vote of an armed commit, the module Meridian, the
Almanac's programming, and trials (R52 to R65, R133).
-/

namespace Sys2Proof.Machine

open Sys2Proof

/-! ## Refusals of the flash controller (R345) -/

/-- A program or erase refused by the flash controller: event 0xF109 with the region's row in R345's map; a free value
stands for the requester, whose code the spec does not give (log 7). -/
def State.flashRefused (s : State) (region addr : Nat) : State :=
  (s.useFree).ev 0xF109 0 0 region (Config.freeValue s.free).toNat addr

/-- The flash address of an Almanac slot (R345). -/
def slotFlash (k : Nat) : Nat := 0x02000000 + k * 0x400000

/-! ## The commands (R52, R53) -/

/-- A configuration command of a path: held while frozen, refused while the other path's session is open or a trial
returns, DEFERRED while another runs, and otherwise `body` (R51, R52, R354). -/
def State.cfgCommand (s : State) (path : Path) (i : Instr) (body : State → State) : State :=
  if !s.on ∨ ownerCode path = 0 then s
  else if s.frozen then s.holdCmd i
  else if s.get FW_STATUS_STATE ≠ 2 ∧ s.get FW_STATUS_STATE ≠ 4 then s
  else
    let s := s.wakeModule
    if s.get FW_STATUS_STATE = 4 ∧ path = .pf0 then s.cfgDone .refusedCapacity
    else if !s.cfgPath path ∨ s.cfg.returning then s.cfgDone .refusedPartition
    else if s.get CFG_STATUS_BUSY = 1 ∨ s.get FW_STATUS_DRAINING = 1 then
      { s with cfg := { s.cfg with deferred := s.cfg.deferred ++ [i] } }.cfgDone .deferred
    else body s

/-- A command that runs only in some states of the staging set (R53). -/
def State.inStates (s : State) (l : List Nat) (t : State) : State :=
  if l.contains s.stg then t else s.cfgDone .refusedPartition

/-- The length that an image's header gives, within the limits of R49. -/
def imageLength (n : Nat) : Nat := if 4096 ≤ n ∧ n ≤ 4194304 then n else 4096

/-- LOAD_BUFFER: the image in the image buffer. -/
def State.cfgLoadBuffer (s : State) (path : Path) : State :=
  s.cfgCommand path (.loadBuffer path) fun s =>
    s.inStates [0, 1] (s.loadImage (ownerCode path) (s.bytes .img 0 (imageLength (s.num .img 12 4))) none)

/-- The image of an Almanac slot; an Empty slot reads as erased flash. -/
def State.slotImage (s : State) (k : Nat) : List Byte :=
  match smGet (fun _ => []) s.cfg.slotBytes k with
  | [] => List.replicate 4096 0xFF
  | im => im

/-- LOAD_SLOT. -/
def State.cfgLoadSlot (s : State) (path : Path) (k : Nat) : State :=
  s.cfgCommand path (.loadSlot path (Fin.ofNat 8 k)) fun s =>
    s.inStates [0, 1] (s.loadImage (ownerCode path) (s.slotImage k) (some k))

/-- CHECK: the check starts, and the report is cleared. -/
def State.startCheck (s : State) : State :=
  let t := { s with cfg := { s.cfg with report := [] } }
  let t := ((t.put CFG_STATUS_STATE 2).put CFG_STATUS_BUSY 1).put CFG_STATUS_REPORT_COUNT 0
  (t.put CFG_STATUS_REPORT_FULL 0).wr CFG_CHECK_FIRST_CODE.off 0

/-- CHECK. -/
def State.cfgCheck (s : State) (path : Path) : State :=
  s.cfgCommand path (.check path) fun s => s.inStates [1] s.startCheck

/-- The step in progress of a partition has begun: an entry or descriptor of step C + 1 has been taken, or a shard or
merge entry holds a pending update (R57, R440). -/
def State.stepOpen (s : State) (p : Nat) : Bool :=
  let n := (s.committed p + 1) % 2 ^ 32
  let mine (q : QueueId) : Bool := s.queuePart q == some p
  ((List.range 8).any fun w => (s.wlist p w).inflight.any fun i => !i.eval && i.step == n) ||
  (s.haloOps.any fun o => mine (.haloQp o.engine o.qp) && o.step == n) ||
  (s.orrOps.any fun o => mine (.orrQp o.quad o.qp) && o.step == n) ||
  (s.coll.ops.any fun o => mine (.collCh o.quad o.ch) && o.step == n) ||
  (s.shards.any fun x => x.part == p && s.get (ORR_SHARD_PENDING x.quad x.slot) == 1) ||
  (s.tables.any fun b => b.part == p && !b.merges.isEmpty)

/-- A partition holds no pending update and no dispatched entry, and its last step is resolved (R57). -/
def State.partDrained (s : State) (p last : Nat) : Bool :=
  let mine (q : QueueId) : Bool := s.queuePart q == some p
  stepLe last (s.committed p) && ((List.range 8).all fun w => (s.wlist p w).inflight.isEmpty) &&
  !(s.haloOps.any fun o => mine (.haloQp o.engine o.qp)) && !(s.orrOps.any fun o => mine (.orrQp o.quad o.qp)) &&
  !(s.coll.ops.any fun o => mine (.collCh o.quad o.ch)) &&
  !(s.shards.any fun x => x.part == p && s.get (ORR_SHARD_PENDING x.quad x.slot) == 1) &&
  !(s.tables.any fun b => b.part == p && (!b.merges.isEmpty || s.applying p))

/-- The staging set Armed: the queues of the affected partitions are Held but for the step in progress (R57). -/
def State.armSet (s : State) (jobScope : Bool) (domain trial tag : Nat) : State :=
  let aff := s.affected
  let last (p : Nat) : Nat := if s.stepOpen p then (s.committed p + 1) % 2 ^ 32 else s.committed p
  let a : Armed := ⟨false, jobScope, domain, trial, tag, aff, aff.map fun p => (p, last p), false, s.now⟩
  let t := { s with cfg := { s.cfg with armed := some a } }
  let t := drainQueues.foldl (fun (t : State) q =>
    if (t.queuePart q).any (fun p => aff.contains p) ∧ t.get (qState q) = 1 then t.put (qState q) 3 else t) t
  t.put CFG_STATUS_STATE 4

/-- ARM: DEFERRED while a firmware switch runs (R352). -/
def State.cfgArm (s : State) (path : Path) (w : Word) : State :=
  s.cfgCommand path (.arm path w) fun s =>
    s.inStates [3]
      (if s.get FW_STATUS_UPD = 3 ∨ s.get FW_STATUS_UPD = 5 then
        { s with cfg := { s.cfg with deferred := s.cfg.deferred ++ [Instr.arm path w] } }.cfgDone .deferred
      else s.armSet (bitsOf 11 11 w.toNat == 1) (bitsOf 30 24 w.toNat) (bitsOf 23 16 w.toNat) (bitsOf 63 32 w.toNat))

/-- DISCARD: the session closes; an armed commit is dropped with it. -/
def State.cfgDiscard (s : State) (path : Path) : State :=
  s.cfgCommand path (.discard path) fun s => s.inStates [1, 3, 4] ((s.closeSession).cfgDone .done).releaseHeld

/-- A slot that a program or erase may not touch: the Active one, refused by the flash controller, and the Previous one
and a trial's, refused by the configuration engine (R62); else `t`. -/
def State.ifFree (s : State) (k : Nat) (t : State) : State :=
  let st := (s.slot k).state
  if st = 2 then (s.flashRefused 2 (slotFlash k)).cfgDone .refusedPartition
  else if st = 3 ∨ (s.get CFG_STATUS_TRIAL_PENDING = 1 ∧ s.cfg.trialSlot = some k) then s.cfgDone .refusedPartition
  else t

/-- CFG_STORE: the loaded image is programmed; until its read-back the slot is Bad. -/
def State.cfgStoreTo (s : State) (path : Path) (k : Nat) : State :=
  s.cfgCommand path (.cfgStore path (Fin.ofNat 8 k)) fun s =>
    s.inStates [1, 3]
      (if s.get CFG_STATUS_EDITED = 1 ∨ s.cfg.image = [] then s.cfgDone .refusedPartition
      else s.ifFree k
        (({ s with cfg := { s.cfg with
            programming := some (k, true)
            slotBytes := smSet (fun _ => []) s.cfg.slotBytes k s.cfg.image } }.setSlot k ⟨4, imgNum s.cfg.image 16 8⟩).put
          CFG_STATUS_BUSY 1))

/-- ERASE_SLOT. -/
def State.cfgErase (s : State) (path : Path) (k : Nat) : State :=
  s.cfgCommand path (.eraseSlot path (Fin.ofNat 8 k)) fun s =>
    s.inStates [0, 1, 3] (s.ifFree k
      (({ s with cfg := { s.cfg with
          programming := some (k, false), slotBytes := smSet (fun _ => []) s.cfg.slotBytes k [] } }.setSlot k ⟨4, 0⟩).put
        CFG_STATUS_BUSY 1))

/-- REVERT (R64). -/
def State.cfgRevert (s : State) (path : Path) : State :=
  s.cfgCommand path (.revert path) fun s =>
    s.inStates [0, 1]
      (if s.get CFG_STATUS_TRIAL_PENDING = 1 then s.cfgDone .refusedPartition
      else if s.get CFG_STATUS_PREVIOUS_VALID = 0 then s.cfgDone .refusedCapacity
      else
        let k := s.get CFG_STATUS_PREVIOUS_SLOT
        s.loadImage (ownerCode path) (s.slotImage k) (some k))

/-- CONFIRM (R60): the applied slot becomes Active and the old Active slot Previous. -/
def State.cfgConfirmNow (s : State) (path : Path) : State :=
  s.cfgCommand path (.cfgConfirm path) fun s =>
    if s.get CFG_STATUS_TRIAL_PENDING = 0 then s.cfgDone .refusedPartition
    else
      let t := match s.cfg.trialSlot with
        | some k => if s.cfg.active.edited then s else s.nameActive k
        | none => s
      (({ t with cfg := { t.cfg with trialSlot := none } }.put CFG_STATUS_TRIAL_PENDING 0).setVolatile).cfgDone .done

/-- RAISE_SVN_FLOOR (R61). -/
def State.cfgRaise (s : State) (path : Path) : State :=
  s.cfgCommand path (.cfgRaiseSvnFloor path) fun s =>
    s.inStates [0, 1, 3]
      ({ s with cfg := { s.cfg with svnFloor := max s.cfg.svnFloor s.cfg.activeSvn } }.cfgDone .done)

/-- A configuration command run. -/
def State.cfgRun (s : State) (i : Instr) : State :=
  match i with
  | .loadBuffer p => s.cfgLoadBuffer p
  | .loadSlot p k => s.cfgLoadSlot p k.val
  | .check p => s.cfgCheck p
  | .arm p w => s.cfgArm p w
  | .discard p => s.cfgDiscard p
  | .cfgStore p k => s.cfgStoreTo p k.val
  | .eraseSlot p k => s.cfgErase p k.val
  | .revert p => s.cfgRevert p
  | .cfgConfirm p => s.cfgConfirmNow p
  | .cfgRaiseSvnFloor p => s.cfgRaise p
  | _ => s

/-- The deferred commands run in order of arrival, each once the one before has ended (R51, R52). -/
def State.cfgResume (s : State) : State :=
  if s.get CFG_STATUS_BUSY = 1 ∨ s.get FW_STATUS_DRAINING = 1 then s
  else s.cfg.deferred.foldl (fun (t : State) i => t.cfgRun i) { s with cfg := { s.cfg with deferred := [] } }

/-- LOAD_BUFFER (R53). -/
def execLoadBuffer (path : Path) (s : State) : Host.Outcome State Fault Refusal := .next (s.cfgLoadBuffer path)

/-- LOAD_SLOT (R53). -/
def execLoadSlot (path : Path) (slot : Fin 8) (s : State) : Host.Outcome State Fault Refusal :=
  .next (s.cfgLoadSlot path slot.val)

/-- CHECK (R55). -/
def execCheck (path : Path) (s : State) : Host.Outcome State Fault Refusal := .next (s.cfgCheck path)

/-- ARM (R57). -/
def execArm (path : Path) (w : Word) (s : State) : Host.Outcome State Fault Refusal := .next (s.cfgArm path w)

/-- CFG_STORE (R62). -/
def execCfgStore (path : Path) (slot : Fin 8) (s : State) : Host.Outcome State Fault Refusal :=
  .next (s.cfgStoreTo path slot.val)

/-- ERASE_SLOT (R62). -/
def execEraseSlot (path : Path) (slot : Fin 8) (s : State) : Host.Outcome State Fault Refusal :=
  .next (s.cfgErase path slot.val)

/-- REVERT (R64). -/
def execRevert (path : Path) (s : State) : Host.Outcome State Fault Refusal := .next (s.cfgRevert path)

/-- CFG_CONFIRM (R60). -/
def execCfgConfirm (path : Path) (s : State) : Host.Outcome State Fault Refusal := .next (s.cfgConfirmNow path)

/-- CFG_RAISE_SVN_FLOOR (R61). -/
def execCfgRaiseSvnFloor (path : Path) (s : State) : Host.Outcome State Fault Refusal := .next (s.cfgRaise path)

/-- CFG_OP_UNASSIGNED (R53): OP 0x0 and 0xB to 0xF end with REFUSED_PARTITION. -/
def execCfgOpUnassigned (path : Path) (op : Nat) (s : State) : Host.Outcome State Fault Refusal :=
  .next (if op = 0 ∨ 11 ≤ op ∧ op ≤ 15 then
    s.cfgCommand path (.cfgOpUnassigned path op) fun s => s.cfgDone .refusedPartition
  else s)

/-! ## The end of a check and of a flash operation (R55, R62, R63) -/

/-- The result of a check: the first 256 entries are kept, and the staging set is Checked or Open again. -/
def State.endCheck (s : State) : State :=
  let l := s.checkReport
  let t := { s with cfg := { s.cfg with report := l.take 256 } }
  let t := (t.put CFG_STATUS_REPORT_COUNT (min 256 l.length)).put CFG_STATUS_REPORT_FULL (if 256 < l.length then 1 else 0)
  match l.find? fun f => f.sev == 0 with
  | none => (t.put CFG_STATUS_STATE 3).cfgDone .done
  | some f =>
    let t := (t.put CFG_CHECK_FIRST_CODE f.code).put CFG_CHECK_FIRST_SECTION f.sec
    let t := ((t.put CFG_CHECK_FIRST_ENTRY f.ent).put CFG_STATUS_STATE 1).cfgDone .refusedPartition
    t.ev 0x3101 0 0 f.code (min 256 l.length) (s.cfg.staged.imageSeq % 2 ^ 32)

/-- CHECK_COMPLETE (R55): the check ends; a mirror write meanwhile has voided its result. -/
def execCheckComplete (s : State) : Host.Outcome State Fault Refusal :=
  .next (if s.live && s.get CFG_STATUS_BUSY == 1 && s.cfg.programming.isNone then
      ((if s.stg = 2 then s.endCheck else s).put CFG_STATUS_BUSY 0).cfgResume
    else s)

/-- ALMANAC_PROGRAM_COMPLETE (R62): the slot is Valid after a program, Empty after an erase, or Bad where the read-back
differs; the loaded image is stored now, so that its apply is not VOLATILE (R53). -/
def execAlmanacProgramComplete (ok : Bool) (s : State) : Host.Outcome State Fault Refusal :=
  .next (if !s.live then s
    else match s.cfg.programming with
      | none => s
      | some (k, store) =>
        let t := { s with cfg := { s.cfg with programming := none } }.put CFG_STATUS_BUSY 0
        let t := if ok then
            let t := (t.setSlot k (if store then ⟨1, (s.slot k).seq⟩ else ⟨0, 0⟩)).cfgDone .done
            if store && !s.cfg.staged.edited && s.cfg.image == smGet (fun _ => []) s.cfg.slotBytes k then
              { t with cfg := { t.cfg with staged := { t.cfg.staged with fromSlot := some k } } }
            else t
          else t.cfgDone .sealMismatch
        t.cfgResume)

/-- DIRECTORY_WRITE_COMPLETE (R63): the copy of the directory in flash is the one in force. -/
def execDirectoryWriteComplete (s : State) : Host.Outcome State Fault Refusal :=
  .next (if s.live && s.get CFG_STATUS_DIR_PENDING == 1 then
      { s.put CFG_STATUS_DIR_PENDING 0 with cfg := { s.cfg with
          dirActive := s.get CFG_STATUS_ACTIVE_SLOT + 1, dirPrevious := s.get CFG_STATUS_PREVIOUS_SLOT
          dirHasPrevious := s.get CFG_STATUS_PREVIOUS_VALID == 1 } }
    else s)

/-! ## The module Meridian (R59, R133, R190, R220, R266, R352) -/

/-- A firmware switch begins: Draining, with dispatch held (R352 step 2). -/
def State.switchStart (s : State) : State :=
  if s.fw.switchPending ∧ s.get FW_STATUS_DRAINING = 0 then
    { s.put FW_STATUS_DRAINING 1 with fw := { s.fw with heldSince := s.now } }
  else s

/-- An armed commit at module scope whose drain has ended applies, unless a live rule has come to fail (R56). -/
def State.commitAt (s : State) : State :=
  match s.cfg.armed with
  | some a =>
    if a.jobScope || !a.drained then s
    else if s.liveRuleBroken then s.abandonFor 4
    else s.applyCommit
  | none => s

/-- What happens at a module Meridian: the configuration applies, the flips that wait take place, and a firmware switch
begins. -/
def State.moduleMeridian (s : State) : State :=
  ((((s.commitAt).routeFlipAt).haloFlips).deepFlip).switchStart

/-- The drain has ended: at module scope the module raises the Meridian, at job scope its ready vote goes out as its
arrival at the job-scope barrier of DOMAIN (R56, R57, R58). -/
def State.drainEnd (s : State) : State :=
  match s.cfg.armed with
  | none => s
  | some a =>
    if !s.live || a.drained || !(a.lastStep.all fun x => s.partDrained x.1 x.2) then s
    else if s.liveRuleBroken then s.abandonFor 4
    else
      let t := { s with cfg := { s.cfg with armed := some { a with drained := true, voted := a.jobScope } } }
      if a.jobScope then t.arrive a.domain 2 .module 0 (voteAnd true) (some a.tag) else t.moduleMeridian

/-- DRAIN_LIMIT ms after ARM a drain that has not ended is abandoned (R57). -/
def State.drainLimit (s : State) : State :=
  match s.cfg.armed with
  | some a =>
    if s.live && !a.drained && decide (a.since + s.cfg.active.drainLimit * 1000000 ≤ s.now) then
      s.abandonFor 1
    else s
  | none => s

/-- ARM_TIMEOUT ms after ARM a commit at job scope that has not applied is abandoned (R58). -/
def State.armTimeout (s : State) : State :=
  match s.cfg.armed with
  | some a =>
    if s.live && a.jobScope && decide (a.since + s.cfg.active.armTimeout * 1000000 ≤ s.now) then
      s.abandonFor 2
    else s
  | none => s

/-! ## The end of a trial (R60) -/

/-- The return to the Active image: the open session is discarded, an armed commit abandoned, the Active slot loaded,
checked and armed at module scope, and event 0x3104 recorded. -/
def State.trialReturn (s : State) : State :=
  let k := s.get CFG_STATUS_ACTIVE_SLOT
  let old := s.cfg.active.imageSeq % 2 ^ 32
  let t := if s.stg = 4 then
      let u := { s with cfg := { s.cfg with armed := none } }.releaseHeld
      u.cfgDone .cancelled
    else s
  let t := (t.closeSession).loadImage 0 (s.slotImage k) (some k)
  let t := t.startCheck.put CFG_STATUS_BUSY 0
  let t : State := { t with cfg := { t.cfg with returning := true } }
  let t : State := t.endCheck
  let t := if t.stg = 3 then t.armSet false 0 0 0
    else { t.closeSession with cfg := { t.closeSession.cfg with returning := false } }
  t.ev 0x3104 0 0 k old 0

/-- TRIAL_EXPIRE (R60). -/
def execTrialExpire (s : State) : Host.Outcome State Fault Refusal :=
  .next (if s.live && s.get CFG_STATUS_TRIAL_PENDING == 1 && !s.cfg.returning && decide (s.cfg.trialEnds ≤ s.now) then
      s.trialReturn else s)

end Sys2Proof.Machine
end

