-- ==== Sys2Proof/Machine/Firmware.lean ====
section
/-!
DEFINITION. Firmware: the verification of an image, the live update with its trial and rollback, the watchdog reload, the
PLDM firmware update, interface selection, and the log ring (R345 to R357).
-/

namespace Sys2Proof.Machine

open Sys2Proof

/-! ## The log ring (R356) -/

/-- An entry of the log ring. -/
def State.logEntry (s : State) (tp core level args : Nat) : State :=
  let i := s.get FW_LOG_PTR_INDEX
  let n := s.get FW_LOG_PTR_SEQ + 1
  let e : Nat × Nat × Nat := (s.now, n, tp + core * 2 ^ 16 + level * 2 ^ 24 + args * 2 ^ 32)
  ({ s with fw := { s.fw with log := smSet (fun _ => none) s.fw.log i (some e) } }.put FW_LOG_PTR_SEQ n).put FW_LOG_PTR_INDEX
    (i + 1)

/-- An action of the firmware reaches a trace point of a subsystem (0 boot and update, 1 commands, 2 repair, 3 flash and
sideband): which one, and its arguments, the spec leaves to the firmware (log 7, 79). -/
def State.trace (s : State) (range core level : Nat) : State :=
  let tp := 64 * range + (Config.freeValue s.free).toNat % 64
  let args := (Config.freeValue (s.free + 1)).toNat
  let t := s.useFree.useFree
  if level = 2 ∨ bitAt (s.get (FW_TRACE_EN_EN (tp / 64))) (tp % 64) then t.logEntry tp core level args else t

/-! ## Verification (R347, R348, R353) -/

/-- The bytes of a firmware slot. -/
def State.fwImage (s : State) (k : Nat) : List Byte := smGet (fun _ => []) s.fw.slotBytes k

/-- A section of an image lies inside it before the signature, within its limit, and holds its entry. -/
def fwSection (im : List Byte) (off limit entry : Nat) : Bool :=
  let o := imgNum im off 4
  let n := imgNum im (off + 4) 4
  decide (64 ≤ o) && decide (n ≤ limit) && decide (o + n + 128 ≤ im.length) && decide (imgNum im entry 4 < n)

/-- The reasons 1 to 5 that the boot ROM checks, 0 for none. -/
def State.verifyBoot (s : State) (im : List Byte) : Nat :=
  if imgNum im 0 4 ≠ 0x57464B53 ∨ imgNum im 4 2 ≠ 1 ∨ !imgZero im 7 1 ∨ !imgZero im 56 8 then 1
  else if imgNum im 8 4 ≠ im.length ∨ im.length < 4224 ∨ 16777216 < im.length ∨
      !fwSection im 32 (8 * 2 ^ 20) 48 ∨ !fwSection im 40 (2 ^ 20) 52 then 2
  else if 1 < imgNum im 6 1 then 3
  else if !Config.signatureValid (imgNum im (im.length - 128) 4) (ofBytesLE im) then 4
  else if imgNum im 12 2 < s.get FW_STATUS_SVN_FLOOR then 5
  else 0

/-- The verification of an update: reasons 6 and 7 too, against the versions in use and the running image. -/
def State.verifyUpdate (s : State) (im : List Byte) : Nat :=
  let r := s.verifyBoot im
  let used := ((List.range 256).map fun f => s.get (FW_IF_IF_SEL f)).filter (· != 0)
  let old (off n dflt : Nat) : Nat := s.fwNum s.runSlot off n dflt
  if r ≠ 0 then r
  else if used.any fun v => decide (v < imgNum im 14 2) || decide (imgNum im 16 2 < v) then 6
  else if !(decide (imgNum im 18 2 ≤ old 22 2 Config.madeHoOut) && decide (old 22 2 Config.madeHoOut ≤ imgNum im 20 2) &&
      decide (old 18 2 Config.madeHoMin ≤ imgNum im 22 2) && decide (imgNum im 22 2 ≤ old 20 2 Config.madeHoMax)) then 7
  else 0

/-! ## Update commands (R351) -/

/-- An update command ends: a failure is recorded with 0xF104. -/
def State.fwDone (s : State) (op : Nat) (st : Status) (reason : Nat) : State :=
  let t := (s.put FW_UPD_RESULT_LAST_STATUS (statusCode st)).put FW_UPD_RESULT_REASON reason
  if Status_ok st ∨ st = .deferred then t.trace 0 0 0
  else (t.trace 0 0 1).ev 0xF104 0 0 op (statusCode st) reason

/-- An update command of a path: held while frozen, DEFERRED while a transition runs, refused outside the states that take
it, and otherwise `body` (R351, R354). -/
def State.fwCommand (s : State) (path : Path) (op : Nat) (i : Instr) (states : List Nat) (body : State → State) : State :=
  if !s.on ∨ ownerCode path = 0 then s
  else if s.frozen then s.holdCmd i
  else if s.get FW_STATUS_STATE ≠ 2 ∧ s.get FW_STATUS_STATE ≠ 4 then s
  else
    let s := s.wakeModule
    let u := s.get FW_STATUS_UPD
    if s.get FW_STATUS_STATE = 4 ∧ path = .pf0 then s.fwDone op .refusedCapacity 0
    else if u = 1 ∨ u = 3 ∨ u = 5 then
      { s with fw := { s.fw with deferred := s.fw.deferred ++ [i] } }.fwDone op .deferred 0
    else if states.contains u then body s
    else s.fwDone op .refusedPartition 0

/-- The image at FW_UPD_SRC, where it is 4 KiB-aligned in an H extent of a PF0 context. -/
def State.stageSource (s : State) (len : Nat) : Option (List Byte) :=
  let a := s.get FW_UPD_SRC_SRC
  if a % 4096 ≠ 0 then none
  else (s.fnCtxs 0).findSome? fun n => match s.view n a len false [1] with
    | .extent e rel => some (s.extRead e rel len)
    | _ => none

/-- The slot that does not run. -/
def State.otherSlot (s : State) : Nat := 1 - s.runSlot

/-- A slot programmed with an image that is not verified yet. -/
def State.programSlot (s : State) (k : Nat) (im : List Byte) : State :=
  { s with fw := { s.fw with
    slotBytes := smSet (fun _ => []) s.fw.slotBytes k im
    slotGood := smSet (fun k => k == 0) s.fw.slotGood k false } }

/-- STAGE: the image is read and programmed into the slot that does not run. -/
def State.fwStage (s : State) (path : Path) (w : Word) : State :=
  s.fwCommand path 1 (.stage path w) [0, 2] fun s =>
    let len := bitsOf 63 32 w.toNat
    if len < 4224 ∨ 16777216 < len then (s.put FW_STATUS_UPD 0).fwDone 1 .refusedPartition 2
    else match s.stageSource len with
      | none => (s.put FW_STATUS_UPD 0).fwDone 1 .refusedPartition 2
      | some im => (s.programSlot s.otherSlot im).put FW_STATUS_UPD 1

/-- The end of programming and verification: `readBack` says whether the read-back agrees; a slot whose read-back differs
holds no image. -/
def State.stagingEnd (s : State) (readBack : Bool) : State :=
  let k := s.otherSlot
  let r := s.verifyUpdate (s.fwImage k)
  let r := if r = 0 ∧ !readBack then 8 else r
  if r = 0 then
    ({ s with fw := { s.fw with slotGood := smSet (fun k => k == 0) s.fw.slotGood k true } }.put FW_STATUS_UPD 2).fwDone 1 .done 0
  else if r = 8 then ((s.programSlot k []).put FW_STATUS_UPD 0).fwDone 1 .sealMismatch 8
  else (s.put FW_STATUS_UPD 0).fwDone 1 .refusedPartition r

/-- ACTIVATE: waits while the staging set is Armed, verifies the staged slot again, and lets the switch wait for the next
module Meridian (R352, R353). -/
def State.fwActivate (s : State) (path : Path) (w : Word) : State :=
  s.fwCommand path 2 (.activate path w) [2] fun s =>
    if s.stg = 4 then { s with fw := { s.fw with deferred := s.fw.deferred ++ [Instr.activate path w] } }
    else
      let r := s.verifyUpdate (s.fwImage s.otherSlot)
      if r ≠ 0 then s.fwDone 2 .cancelled r
      else
        let n := bitsOf 31 20 w.toNat
        { s with fw := { s.fw with
          selfCheck := if n = 0 then 600 else n, confirmReq := bitsOf 19 19 w.toNat == 1, switchPending := true } }.put
          FW_STATUS_UPD 3

/-- A trial is committed: the running slot becomes Active, with event 0xF106. -/
def State.trialCommit (s : State) : State :=
  let k := s.runSlot
  let t := ({ s with fw := { s.fw with bootTrial := false } }.put FW_STATUS_BOOT_SLOT k).put FW_STATUS_UPD 0
  t.ev 0xF106 0 0 k (t.get FW_STATUS_SVN) 0

/-- A rollback starts: the switch back waits for the next module Meridian; event 0xF107 (R353). -/
def State.rollbackStart (s : State) (cause : Nat) : State :=
  ({ s with fw := { s.fw with switchPending := true, rolling := true } }.put FW_STATUS_UPD 5).ev 0xF107 0 0 cause
    (s.get FW_STATUS_BOOT_SLOT) 0

/-- CONFIRM of a firmware trial. -/
def State.fwConfirmNow (s : State) (path : Path) : State :=
  s.fwCommand path 3 (.fwConfirm path) [4] fun s => (s.trialCommit).fwDone 3 .done 0

/-- ROLLBACK. -/
def State.fwRollback (s : State) (path : Path) : State :=
  s.fwCommand path 4 (.rollback path) [4] fun s => s.rollbackStart 3

/-- RAISE_SVN_FLOOR: the floor never falls. -/
def State.fwRaise (s : State) (path : Path) : State :=
  s.fwCommand path 5 (.fwRaiseSvnFloor path) [0] fun s =>
    (s.put FW_STATUS_SVN_FLOOR (max (s.get FW_STATUS_SVN_FLOOR) (s.get FW_STATUS_SVN))).fwDone 5 .done 0

/-- An update command run. -/
def State.fwRun (s : State) (i : Instr) : State :=
  match i with
  | .stage p w => s.fwStage p w
  | .activate p w => s.fwActivate p w
  | .fwConfirm p => s.fwConfirmNow p
  | .rollback p => s.fwRollback p
  | .fwRaiseSvnFloor p => s.fwRaise p
  | _ => s

/-- The update commands that waited run in order, those that still wait again at their place. -/
def State.fwResume (s : State) : State :=
  s.fw.deferred.foldl (fun (t : State) i => t.fwRun i) { s with fw := { s.fw with deferred := [] } }

/-- STAGE (R351). -/
def execStage (path : Path) (w : Word) (s : State) : Host.Outcome State Fault Refusal := .next (s.fwStage path w)

/-- STAGING_COMPLETE (R351): `reason` 8 says that the read-back differs; the other reasons follow from the image. -/
def execStagingComplete (reason : Nat) (s : State) : Host.Outcome State Fault Refusal :=
  .next (if s.live && s.get FW_STATUS_UPD == 1 then (s.stagingEnd (reason != 8)).fwResume else s)

/-- ACTIVATE (R352). -/
def execActivate (path : Path) (w : Word) (s : State) : Host.Outcome State Fault Refusal := .next (s.fwActivate path w)

/-- FW_CONFIRM (R351). -/
def execFwConfirm (path : Path) (s : State) : Host.Outcome State Fault Refusal := .next (s.fwConfirmNow path)

/-- ROLLBACK (R351). -/
def execRollback (path : Path) (s : State) : Host.Outcome State Fault Refusal := .next (s.fwRollback path)

/-- FW_RAISE_SVN_FLOOR (R351). -/
def execFwRaiseSvnFloor (path : Path) (s : State) : Host.Outcome State Fault Refusal := .next (s.fwRaise path)

/-! ## The switch (R350, R352, R353) -/

/-- The commands of the rings that the running image has taken and not completed: the new image runs them again, and each
then reports DONE_CORRECTED (R350). -/
def State.rejournal (s : State) : State :=
  let l := s.liveCtxs.flatMap fun n => ((s.queue (.cmdRing n)).open_).map fun i => (n, i)
  { s with fw := { s.fw with journal := (s.fw.journal ++ l).eraseDups } }

/-- The running image changes: GENERATION rises, Draining ends, the journal is executed again, and commands that waited
are served (R352 steps 3 and 4). -/
def State.switchTo (s : State) (k upd : Nat) : State :=
  let t := (((s.put FW_STATUS_RUN_SLOT k).next FW_STATUS_GENERATION).put FW_STATUS_DRAINING 0).put FW_STATUS_UPD upd
  let t := t.put FW_STATUS_SVN (s.fwNum k 12 2 Config.madeSvn)
  let t := { t with
    fw := { t.fw with switchPending := false, rolling := false }
    recorded := t.recorded.filter fun x => x.1 != 0xF1052 }
  t.rejournal

/-- FW_SWITCH_COMPLETE (R352): the update is in Trial, with event 0xF105; a self-check that fails at once starts the
rollback.  Commands that waited are served. -/
def State.switchEnd (s : State) (selfCheckOk : Bool) : State :=
  if s.live && s.get FW_STATUS_UPD == 3 && s.get FW_STATUS_DRAINING == 1 then
    let t := s.switchTo s.otherSlot 4
    let t := { t with fw := { t.fw with bootTrial := true, trialStart := s.now } }
    let t := t.ev 0xF105 0 0 (s.get FW_STATUS_GENERATION) s.otherSlot ((s.now - s.fw.heldSince) / 1000)
    let t := t.fwDone 2 .done 0
    let t := if selfCheckOk then t else t.rollbackStart 2
    (t.fwResume).cfgResume
  else s

/-- ROLLBACK_COMPLETE (R353): the old image runs again and the update is Idle; the staged slot keeps its image. -/
def State.rollbackEnd (s : State) : State :=
  if s.live && s.get FW_STATUS_UPD == 5 && s.get FW_STATUS_DRAINING == 1 then
    let t := s.switchTo (s.get FW_STATUS_BOOT_SLOT) 0
    let t := { t with fw := { t.fw with bootTrial := false } }
    ((t.fwDone 4 .done 0).fwResume).cfgResume
  else s

/-- FW_TRIAL_WINDOW_EXPIRE (R351): the self-check passed and no CONFIRM is needed: committed; otherwise rolled back. -/
def execFwTrialWindowExpire (checksPassed : Bool) (s : State) : Host.Outcome State Fault Refusal :=
  .next (if s.live && s.get FW_STATUS_UPD == 4 && decide (s.fw.trialStart + s.fw.selfCheck * 1000000000 ≤ s.now) then
      if !checksPassed then s.rollbackStart 2
      else if s.fw.confirmReq then s.rollbackStart 4
      else s.trialCommit
    else s)

/-! ## The watchdog (R354) -/

/-- A core has not refreshed its watchdog: a reload, which in a trial is a rollback; a third within an hour leaves the firmware
Degraded, with failover requested; an update that was Activating is Staged again. -/
def State.fwWatchdog (s : State) (core : Nat) : State :=
  if !(s.live && (s.get FW_STATUS_STATE == 2 || s.get FW_STATUS_STATE == 4)) then s
  else
    let l := s.now :: s.fw.reloads.filter fun x => decide (s.now < x + 3600000000000)
    let t := { s with fw := { s.fw with reloads := l } }
    let t := if s.get FW_STATUS_UPD = 4 then t.rollbackStart 1
      else if s.get FW_STATUS_UPD = 5 then t
      else if s.get FW_STATUS_UPD = 3 then
        (({ t with fw := { t.fw with switchPending := false } }.switchTo s.runSlot 2).fwDone 2 .cancelled 0)
      else t.switchTo s.runSlot (s.get FW_STATUS_UPD)
    let t := t.ev 0xF108 0 0 core l.length (t.get FW_STATUS_GENERATION)
    let t := t.trace 0 core 2
    let t := if 3 ≤ l.length then (t.put FW_STATUS_STATE 4).emit (.failover 11 0) else t
    if s.get FW_STATUS_UPD = 3 then (t.fwResume).cfgResume else t

/-! ## PLDM for Firmware Update (R349; log 78) -/

/-- An answer of the firmware-update protocol: the command and a completion code. -/
def State.pldmAnswer (s : State) (cmd code : Nat) : State := s.emit (.mctp 5 (bytesLE 1 cmd ++ bytesLE 1 code))

/-- The update protocol runs: the firmware or, in Recovery, the ROM serves it. -/
def State.pldmOn (s : State) : Bool := s.on && decide (2 ≤ s.get FW_STATUS_STATE)

/-- A protocol command valid in one state of the session. -/
def State.pldm (s : State) (cmd state : Nat) (body : State) : State :=
  if !s.pldmOn then s
  else if s.fw.pldm = 0 ∧ state ≠ 0 then s.pldmAnswer cmd 0x80
  else if s.fw.pldm ≠ state then s.pldmAnswer cmd (if state = 0 then 0x81 else 0x84)
  else body

/-- The session moved to a state, and the command answered. -/
def State.pldmGo (s : State) (cmd next : Nat) : State :=
  { s with fw := { s.fw with pldm := next } }.pldmAnswer cmd 0

/-- The slot that an image received over the sideband is programmed into: the one not running, and in Recovery the one that the
boot record does not name. -/
def State.pldmSlot (s : State) : Nat := if s.get FW_STATUS_STATE = 3 then 1 - s.get FW_STATUS_BOOT_SLOT else s.otherSlot

/-- REQUEST_UPDATE (R349): a session opens where no update transition runs. -/
def execRequestUpdate (maxTransfer : Nat) (s : State) : Host.Outcome State Fault Refusal :=
  .next (s.pldm 0x10 0
    (if maxTransfer < 32 then s.pldmAnswer 0x10 0x02
    else if s.get FW_STATUS_UPD = 0 ∨ s.get FW_STATUS_UPD = 2 then
      ({ s with fw := { s.fw with fromSideband := true, staging := [], pldmGot := 0, pldmSize := 0 } }.pldmGo 0x10 1)
    else s.pldmAnswer 0x10 0x8A))

/-- PASS_COMPONENT_TABLE (R349): one component, the firmware image. -/
def execPassComponentTable (components : Nat) (s : State) : Host.Outcome State Fault Refusal :=
  .next (s.pldm 0x13 1 (if components = 1 then s.pldmGo 0x13 2 else s.pldmAnswer 0x13 0x02))

/-- UPDATE_COMPONENT (R349): the transfer of an image of a legal size starts. -/
def execUpdateComponent (size : Nat) (s : State) : Host.Outcome State Fault Refusal :=
  .next (s.pldm 0x14 2
    (if 4224 ≤ size ∧ size ≤ 16777216 then { s with fw := { s.fw with pldmSize := size } }.pldmGo 0x14 3
    else s.pldmAnswer 0x14 0x02))

/-- REQUEST_FIRMWARE_DATA (R349): a part of the image arrives, in order. -/
def execRequestFirmwareData (off : Nat) (data : List Byte) (s : State) : Host.Outcome State Fault Refusal :=
  .next (s.pldm 0x15 3
    (if off ≠ s.fw.pldmGot ∨ s.fw.pldmSize < off + data.length then s.pldmAnswer 0x15 0x82
    else
      { s with fw := { s.fw with staging := s.fw.staging ++ data, pldmGot := off + data.length } }.pldmAnswer 0x15 0))

/-- TRANSFER_COMPLETE (R349): a whole image is programmed as by STAGE; a transfer that failed ends the session. -/
def execTransferComplete (result : Nat) (s : State) : Host.Outcome State Fault Refusal :=
  .next (s.pldm 0x16 3
    (if result ≠ 0 ∨ s.fw.pldmGot ≠ s.fw.pldmSize then
      ({ s with fw := { s.fw with staging := [], fromSideband := false } }.pldmGo 0x16 0)
    else
      let t := s.programSlot s.pldmSlot s.fw.staging
      let t := if s.get FW_STATUS_STATE = 3 then t else t.put FW_STATUS_UPD 1
      ({ t with fw := { t.fw with staging := [] } }).pldmGo 0x16 4))

/-- VERIFY_COMPLETE (R349): the image is verified, by the ROM's reasons in Recovery; a failure ends the session. -/
def execVerifyComplete (result : Nat) (s : State) : Host.Outcome State Fault Refusal :=
  .next (s.pldm 0x17 4
    (if s.get FW_STATUS_STATE = 3 then
      if result = 0 ∧ s.verifyBoot (s.fwImage s.pldmSlot) = 0 then s.pldmGo 0x17 5
      else
        let t := if result = 0 then s else s.programSlot s.pldmSlot []
        ({ t with fw := { t.fw with fromSideband := false } }.pldmGo 0x17 0)
    else
      let t := s.stagingEnd (result == 0)
      if t.get FW_STATUS_UPD = 2 then t.pldmGo 0x17 5
      else { t with fw := { t.fw with fromSideband := false } }.pldmGo 0x17 0))

/-- APPLY_COMPLETE (R349): the image is in its slot. -/
def execApplyComplete (result : Nat) (s : State) : Host.Outcome State Fault Refusal :=
  .next (s.pldm 0x18 5
    (if result ≠ 0 then { s with fw := { s.fw with fromSideband := false } }.pldmGo 0x18 0
    else
      ({ s with fw := { s.fw with slotGood := smSet (fun k => k == 0) s.fw.slotGood s.pldmSlot true } }).pldmGo 0x18 6))

/-! ## Interface selection (R355) -/

/-- IF_SEL_WRITE (R355): a version of the major of IF_MAX between IF_MIN and IF_MAX is selected; any other leaves IF_SEL
as it is, with event 0xF10A. -/
def execIfSelWrite (path : Path) (f : Fin 256) (v : Nat) (s : State) : Host.Outcome State Fault Refusal :=
  let own : Bool := match path with
    | .vf g => g == f.val
    | .pf0 => f.val == 0
    | _ => false
  .next (s.ctrl (.ifSelWrite path f v) own
    (if s.ifMin ≤ v ∧ v ≤ s.ifMax ∧ v / 256 = s.ifMax / 256 then s.put (FW_IF_IF_SEL f.val) v
    else s.evLim3 0xF10A f.val 0 0 f.val v s.ifMax))

end Sys2Proof.Machine
end

