-- ==== Sys2Proof/Machine/Repair.lean ====
section
/-!
DEFINITION. Unit resets through Draining, units that stop answering, retirements on request, the Star chart's writes, and the
redelivery of error records (R362 to R370, R377 to R380, R391).
-/

namespace Sys2Proof.Machine

open Sys2Proof

/-! ## Units (R389) -/

/-- A unit of a class exists (R389). -/
def unitExists (cls idx : Nat) : Bool :=
  match cls with
  | 1 => decide (idx < 272)
  | 2 => decide (idx < 408)
  | 3 => decide (idx < 68)
  | 4 => decide (idx < 128)
  | 5 => decide (idx < 12)
  | 6 => decide (idx < 4)
  | 7 => decide (idx < 4)
  | 8 => idx == 0
  | 9 => decide (idx < 32)
  | 10 => decide (idx < 4)
  | _ => false

/-- The field that holds a resettable unit's generation (R378). -/
def unitGenFld (cls idx : Nat) : Fld :=
  match cls with
  | 1 => TILE_STATUS_GENERATION idx
  | 5 => HALO_STATUS_GENERATION idx
  | 6 => COLL_STATUS_GENERATION idx
  | 7 => ORR_STATUS_GENERATION idx
  | 8 => DEEP_STATUS_GENERATION
  | 9 => SL_STATUS_GENERATION idx
  | _ => QD_JOURNAL_STATUS_GENERATION idx

/-- The unit of a class is Draining. -/
def State.isDraining (s : State) (cls idx : Nat) : Bool :=
  if cls = 9 then s.portState idx == 8 else s.flt.draining.contains (cls, idx)

/-- A unit can enter Draining: it is in service and not Draining already. -/
def State.canDrain (s : State) (cls idx : Nat) : Bool :=
  !s.isDraining cls idx && !s.isOut cls idx &&
  (match cls with
    | 1 => s.get (TILE_STATUS_STATE idx) != 4
    | 8 => s.get DEEP_STATUS_STATE == 1 || s.get DEEP_STATUS_STATE == 3
    | 9 => s.portState idx != 0
    | _ => true)

/-- The event of a unit reset (R378). -/
def State.resetEvent (s : State) (cls idx old lost : Nat) : State := s.ev 0x1102 0 0 (unitWord cls idx) old lost

/-- A unit enters Draining (R378 step 1); a port's requests return LOST_GENERATION at once. -/
def State.drainUnit (s : State) (cls idx : Nat) : State :=
  if !s.canDrain cls idx then s
  else if cls = 9 then
    let n := s.xreqs.length
    let t := s.portReset idx
    t.resetEvent 9 idx (s.get (SL_STATUS_GENERATION idx)) (n - t.xreqs.length)
  else
    let t := { s with flt := { s.flt with
      draining := s.flt.draining ++ [(cls, idx)], drainSince := (cls, idx, s.now) :: s.flt.drainSince } }
    match cls with
    | 1 => t.put (TILE_STATUS_STATE idx) 3
    | 5 => t.put (HALO_STATUS_STATE idx) 1
    | 6 => t.put (COLL_STATUS_STATE idx) 1
    | 7 => t.put (ORR_STATUS_STATE idx) 1
    | 8 => t.deepDrain
    | _ => t.put (QD_JOURNAL_STATUS_STATE idx) 1

/-- The requests to other modules that a tile waits for. -/
def tileReq (t : Nat) (x : XReq) : Bool :=
  match x.what with
  | .moverLoad u _ _ _ _ => u == t
  | .moverStore u => u == t
  | _ => false

/-- A tile reset (R89, R376, R378): its outstanding requests are lost, its window restarts, its generation goes up, and the
entry that it holds is replayed. -/
def State.tileReset (s : State) (t : Nat) : State :=
  let a := { s with xreqs := s.xreqs.filter fun x => !tileReq t x }.setTile t
    { s.tile t with winQuant := 0, winSat := 0, winUfl := 0 }
  let a := a.next (TILE_STATUS_GENERATION t)
  match a.tileRec t with
  | some r => a.replayEntry r t
  | none =>
    a.put (TILE_STATUS_STATE t)
      (if s.get (TILE_STATUS_MAPPED t) = 0 then 5
      else if (s.tilePart (s.get (TILE_STATUS_LOGICAL_ID t))).isSome then 0 else 7)

/-- The reset of a drained unit (R378 step 3): its generation goes up and it is Ready. -/
def State.unitReset (s : State) (cls idx : Nat) : State :=
  let since := (s.flt.drainSince.find? fun x => x.1 == cls && x.2.1 == idx).map fun x => x.2.2
  let ms := (s.now - since.getD s.now) / 1000000
  let old := s.get (unitGenFld cls idx)
  let t := { s with flt := { s.flt with
    draining := s.flt.draining.filter (· != (cls, idx))
    drainSince := s.flt.drainSince.filter fun (x : Nat × Nat × Nat) => !(x.1 == cls && x.2.1 == idx) } }
  match cls with
  | 1 =>
    if s.get (TILE_STATUS_STATE idx) = 4 then t
    else (t.resetEvent 1 idx old (s.xreqs.filter fun x => tileReq idx x).length).tileReset idx
  | 5 => (t.resetEvent 5 idx old (s.haloOps.filter fun o => o.engine == idx).length).haloReset idx ms
  | 6 => (t.resetEvent 6 idx old (s.coll.ops.filter fun o => o.quad == idx && o.status.isNone).length).collReset idx ms
  | 7 =>
    (t.resetEvent 7 idx old (s.orrOps.filter fun o => o.quad == idx && !o.worked && o.status.isNone).length).orrReset idx ms
  | 8 => let u := t.deepReset
    u.resetEvent 8 0 old u.tiers.returned
  | _ => ((t.put (QD_JOURNAL_STATUS_STATE idx) 0).next (QD_JOURNAL_STATUS_GENERATION idx)).resetEvent 10 idx old 0

/-- UNIT_DRAIN_COMPLETE (R378): a Draining unit is reset; one out of service stays Draining (R365). -/
def execUnitDrainComplete (cls idx : Nat) (s : State) : Host.Outcome State Fault Refusal :=
  .next (if s.live && s.isDraining cls idx && !s.isOut cls idx then
      if cls = 9 then s.portDrained idx
      else if cls = 3 then s
      else s.unitReset cls idx
    else s)

/-! ## Requests for a unit (R366) -/

/-- A write of HUB_UNIT_RESET that no rule accepts: event 0x1102 with parameters zero. -/
def State.unitRefused (s : State) : State := s.ev 0x1102 0 0 0 0 0

/-- A write of HUB_UNIT_RESET: PF0 and the sideband may name a unit that exists; a class outside 1 to 10 has no effect. -/
def State.unitRequest (s : State) (path : Path) (i : Instr) (cls idx : Nat) (t : State) : State :=
  s.ctrl i true
    (if !ctrlPath path then s.unitRefused
    else if cls = 0 ∨ 10 < cls then s
    else if !unitExists cls idx then s.unitRefused
    else t)

/-- UNIT_RESET_REQUEST (R378): classes 1 and 5 to 10. -/
def execUnitResetRequest (path : Path) (cls idx : Nat) (s : State) : Host.Outcome State Fault Refusal :=
  .next (s.unitRequest path (.unitResetRequest path cls idx) cls idx
    (if 2 ≤ cls ∧ cls ≤ 4 then s else s.drainUnit cls idx))

/-- A channel retired on request: an Active one by a repair, one that is Spare or Offline at once. -/
def State.retireChannelNow (s : State) (k c : Nat) : State :=
  let st := s.get (HBM_CH_STATUS_STATE k c)
  let target := (List.range 34).any fun d => match s.sparing k d with
    | some x => x.kind != 3 && x.target == c
    | none => false
  if st = 1 then s.retireChannel k c
  else if (st = 2 ∧ !target) ∨ st = 4 then s.channelRetired k c 0 none
  else s

/-- UNIT_RETIRE_REQUEST (R366): classes 1 to 3. -/
def execUnitRetireRequest (path : Path) (cls idx : Nat) (s : State) : Host.Outcome State Fault Refusal :=
  .next (s.unitRequest path (.unitRetireRequest path cls idx) cls idx
    (match cls with
      | 1 => s.retireTile idx
      | 2 => s.retireChannelNow (idx / 34) (idx % 34)
      | 3 => s.retireSlice (idx / 17) (idx % 17)
      | _ => s))

/-- CLEAR_HISTORY (R366): the unit's fault history is empty; a retired unit stays retired. -/
def execClearHistory (path : Path) (cls idx : Nat) (s : State) : Host.Outcome State Fault Refusal :=
  .next (s.unitRequest path (.clearHistory path cls idx) cls idx
    { s with flt := { s.flt with
      history := s.flt.history.filter fun (h : FaultHist) => !(h.cls == cls && h.idx == idx) } })

/-! ## Units that stop answering (R362) -/

/-- TILE_POLL_TIMEOUT (R362): the tile is retired at its first missed poll; whether its mover answers decides only how its
local store is read (R370 step 3). -/
def execTilePollTimeout (t : Fin 272) (_moverAnswers : Bool) (s : State) : Host.Outcome State Fault Refusal :=
  .next (if s.live && s.get (TILE_STATUS_STATE t.val) != 4 then
      ((s.countFault 1 t.val 2).1).retireTile t.val
    else s)

/-- UNIT_STOPS_ANSWERING (R362): a unit reset caused by a fault; the third within an hour puts the unit out of service, in
Draining from then on (R364, R365). -/
def execUnitStopsAnswering (cls idx : Nat) (s : State) : Host.Outcome State Fault Refusal :=
  .next (if s.live && decide (5 ≤ cls) && unitExists cls idx && s.canDrain cls idx then
      let (t, n) := s.countFault cls idx 3
      let t := t.drainUnit cls idx
      if faultLimit cls 3 ≤ n then
        (if cls = 5 then t.put (HALO_STATUS_STATE idx) 2 else t).unitOut cls idx n
      else t
    else s)

/-! ## The Star chart (R368) -/

/-- The registers that a Star chart copy keeps: the states and maps of tiles, stacks, channels and slices. -/
def chartRegs : List Nat :=
  ((List.range 272).map fun t => (TILE_STATUS_STATE t).off) ++
    ((List.range 12).flatMap fun k =>
      (HBM_STACK_STATUS_LEVEL k).off :: (List.range 34).map fun c => (HBM_CH_STATUS_STATE k c).off) ++
    (List.range 4).flatMap fun q => (List.range 17).map fun i => (LLM_SLICE_STATUS_STATE q i).off

/-- The copy of the Star chart that the present state gives. -/
def State.makeChart (s : State) : Chart :=
  ⟨s.flt.tileOf, chartRegs.foldl (fun m k => smSet regReset m k (BitVec.ofNat 64 (s.rd k))) [], s.stks⟩

/-- STAR_CHART_WRITE_COMPLETE (R368): the copy written is in force with the next SEQ and recorded by 0x1109; the retirements
gathered meanwhile start the next write. -/
def execStarChartWriteComplete (s : State) : Host.Outcome State Fault Refusal :=
  .next (if s.on && s.get HUB_STAR_STATUS_WRITE_PENDING == 1 then
      let n := s.get HUB_STAR_STATUS_SEQ + 1
      let f := s.flt
      let t := (s.put HUB_STAR_STATUS_SEQ n).put HUB_STAR_STATUS_WRITE_PENDING (if 0 < f.writeQueued then 1 else 0)
      let t := { t with flt := { f with
        chart := s.makeChart, starInForce := true, writeQueued := 0
        starPendingSince := f.queuedSince, starPendingCount := f.writeQueued } }
      t.ev 0x1109 0 0 n f.starPendingCount ((s.now - f.starPendingSince) / 1000000)
    else s)

/-! ## Redelivery of error records (R391) -/

/-- POLL_FOR_PLATFORM_EVENT_MESSAGE (R391): the records that the manager names are delivered, and those not delivered are
sent again. -/
def execPollForPlatformEventMessage (acked : List Nat) (s : State) : Host.Outcome State Fault Refusal :=
  .next (if s.on then
      let l := s.flt.undelivered.filter fun (n : Nat) => !acked.contains n
      { s with flt := { s.flt with undelivered := l } }.emits (l.map fun n => Output.cper n)
    else s)

end Sys2Proof.Machine
end

