-- ==== Sys2Proof/Machine/Power.lean ====
section
/-!
DEFINITION. Power states and their choice, the power limits, droop detectors, forced Nadir, energy, and thermal action
(R393 to R411).
-/

namespace Sys2Proof.Machine

open Sys2Proof

/-! ## Idle partitions (R395) -/

/-- The head entry of a work list could be dispatched, or stands outside its owner's view. -/
def State.headReady (s : State) (p w : Nat) : Bool :=
  let q := QueueId.workList p w
  s.qRunning q && s.ringHas q && (match s.ringEntry q with
    | none => true
    | some e => (gate (s.committed p) (weStep e) (weEval e)).isSome)

/-- A stream holds no block. -/
def State.streamEmpty (s : State) (i : Nat) : Bool :=
  s.get (HUB_STREAM_CNT_PRODUCED i) == s.get (HUB_STREAM_CNT_FREED i)

/-- A partition is idle (R395). -/
def State.powerIdle (s : State) (p : Nat) : Bool :=
  let mine (q : QueueId) : Bool := s.queuePart q == some p
  ((List.range 8).all fun w => (s.wlist p w).inflight.isEmpty && !s.headReady p w) &&
  !(s.haloOps.any fun o => mine (.haloQp o.engine o.qp)) && !(s.orrOps.any fun o => mine (.orrQp o.quad o.qp)) &&
  !(s.coll.ops.any fun o => mine (.collCh o.quad o.ch)) &&
  !(s.shards.any fun x => x.part == p && s.get (ORR_SHARD_PENDING x.quad x.slot) == 1) &&
  !(s.tables.any fun b => b.part == p && !b.merges.isEmpty) &&
  (s.cfg.active.streams.all fun kv => match kv.2 with
    | some d => d.part != p || s.streamEmpty kv.1
    | none => true)

/-- The earliest of a list of times. -/
def earliest : List Nat → Option Nat
  | [] => none
  | x :: xs => some (xs.foldl min x)

/-- The known events of a partition: its WAKE_AT, the deadlines of its open barriers, and the next epoch (R395). -/
def State.partEvents (s : State) (p : Nat) : List Nat :=
  let w := s.get (PWR_PART_CFG_WAKE_AT p)
  (if w = 0 then [] else [max w s.now]) ++
    ((s.barriers.filter fun b => b.part == p && !b.arrived.isEmpty).map fun b => s.deadline b) ++
    s.const.epochValue.toList

/-- The valid partitions. -/
def State.validParts (s : State) : List Nat := parts.filter fun p => s.partValid p

/-- The known events of the module: those of its partitions, its firmware's timers, and the ends of Orphan holds. -/
def State.moduleEvents (s : State) : List Nat :=
  (s.validParts.flatMap fun p => s.partEvents p) ++
    (if s.get CFG_STATUS_TRIAL_PENDING = 1 then [s.cfg.trialEnds] else []) ++
    (if s.get FW_STATUS_UPD = 4 then [s.fw.trialStart + s.fw.selfCheck * 1000000000] else []) ++
    (((List.range 256).filter fun f => s.get (PCIE_FN_CFG_STATE f) == 2).map fun f =>
      (s.fn f).orphanAt + s.get (PCIE_FN_CFG_HOLD_MIN f) * 60000000000 + (s.fn f).hbFrozen)

/-- The time to the earliest of a list of events. -/
def State.timeTo (s : State) (l : List Nat) : Nat :=
  match earliest l with
  | some t => t - s.now
  | none => 0

/-- The predicted idle of a partition, which has been idle for `ns` (R395). -/
def State.predicted (s : State) (p ns : Nat) : Nat :=
  if s.get (PWR_PART_CFG_WAKE_AT p) = 0 then ns else s.timeTo (s.partEvents p)

/-! ## The choice of a state (R394, R396) -/

/-- The break-even idle of a power state in ns. -/
def breakEven (st : Nat) : Nat :=
  if st = 1 then 1000 else if st = 2 then 60000 else if st = 3 then 8000000 else 30000000

/-- The wake time of a power state in ns. -/
def wakeNs (st : Nat) : Nat :=
  if st = 1 then 200 else if st = 2 then 15000 else if st = 3 then 1500000 else if st = 4 then 3000000 else 0

/-- The deepest of some states that a bound allows and whose break-even idle is no longer than the predicted idle; 0 where
there is none. -/
def deepest (l : List Nat) (most idle : Nat) : Nat :=
  (l.filter fun st => decide (st ≤ most) && decide (breakEven st ≤ idle)).foldl max 0

/-- A choice recorded, for a partition or the module (R396; log 81). -/
def State.choiceEvent (s : State) (scope st idle : Nat) : State := s.evLim3 0x1701 scope 0 0 scope st (idle / 1000)

/-- The choice for one partition: an idle one only deepens; one that is no longer idle wakes. -/
def State.choosePart (s : State) (p ns : Nat) : State :=
  let now := s.get (PWR_PART_CFG_STATE p)
  if !s.powerIdle p then (if now = 0 then s else s.wakePart p)
  else
    let idle := s.predicted p ns
    let st := deepest [1, 2] (min 2 (s.get (PWR_PART_CFG_MAX_STATE p))) idle
    if now < st then ((s.put (PWR_PART_CFG_STATE p) st).choiceEvent p st idle).showPower else s

/-- The stacks placed in self-refresh. -/
def State.selfRefresh (s : State) : State :=
  (List.range 12).foldl (fun (t : State) k => t.put (HBM_STACK_STATUS_SELF_REF k) 1) s

/-- The module's state, with that of its valid partitions. -/
def State.moduleState (s : State) (st : Nat) : State :=
  s.validParts.foldl (fun (t : State) p => t.put (PWR_PART_CFG_STATE p) st) (s.put PWR_STATUS_STATE st)

/-- The choice for the module: A3 or A4, where every valid partition was in A2 and has a WAKE_AT. -/
def State.chooseModule (s : State) (ready : Bool) : State :=
  let idle := s.timeTo s.moduleEvents
  let st := deepest [3, 4] (s.get PWR_LIMIT_CFG_MAX_STATE) idle
  if ready ∧ s.get PWR_STATUS_STATE < st then ((s.moduleState st).selfRefresh).choiceEvent 0xFF st idle else s

/-- POWER_STATE_TICK (R396): `idle` gives, by partition, for how long it has been idle, in ns; the module's choice follows
the partitions' states of the tick before. -/
def execPowerStateTick (idle : List (Nat × Nat)) (s : State) : Host.Outcome State Fault Refusal :=
  .next (if s.on && s.get PWR_STATUS_FORCED == 0 then
      let ready : Bool := !s.validParts.isEmpty && s.validParts.all fun p =>
        decide (2 ≤ s.get (PWR_PART_CFG_STATE p)) && s.get (PWR_PART_CFG_WAKE_AT p) != 0 && s.powerIdle p
      let t := s.validParts.foldl (fun (t : State) p =>
        t.choosePart p (((idle.find? fun x => x.1 == p).map fun x => x.2).getD 0)) s
      t.chooseModule ready
    else s)

/-- PLANNED_WAKE (R396): a partition, or the module from A3 or A4, wakes when its next known event is no further off than the
wake time of its state. -/
def execPlannedWake (p : Option (Fin 128)) (s : State) : Host.Outcome State Fault Refusal :=
  .next (if s.on && s.get PWR_STATUS_FORCED == 0 then
      match p with
      | some q =>
        let st := s.get (PWR_PART_CFG_STATE q.val)
        if s.partEvents q.val ≠ [] ∧ s.timeTo (s.partEvents q.val) ≤ wakeNs st ∧ st ≠ 0 ∧ st ≤ 2 then
          (s.put (PWR_PART_CFG_STATE q.val) 0).showPower
        else s
      | none =>
        let st := s.get PWR_STATUS_STATE
        if s.moduleEvents ≠ [] ∧ s.timeTo s.moduleEvents ≤ wakeNs st ∧ 3 ≤ st then
          (s.validParts.foldl (fun (t : State) p =>
            if s.partEvents p ≠ [] ∧ s.timeTo (s.partEvents p) ≤ wakeNs st then t.put (PWR_PART_CFG_STATE p) 0 else t)
            s.leaveDusk).showPower
        else s
    else s)

/-! ## Energy (R407, R408) -/

/-- The weight of a partition in the sharing of a rail's energy: owned tiles and slices for VSRAM, the measured use of the
other rails, nothing for VHUB and VAUX (R408; log 82). -/
def State.railWeight (s : State) (use : List (Nat × Nat × Nat)) (r p : Nat) : Nat :=
  if r = 5 then s.get (HUB_PART_CFG_TILE_COUNT p) + s.get (HUB_PART_CFG_LLM_SCRATCH p) + s.get (HUB_PART_CFG_LLM_CACHE p)
  else if r = 6 ∨ r = 11 then 0
  else (use.filter fun x => x.1 == r && x.2.1 == p).foldl (fun n x => n + x.2.2) 0

/-- The weight of what no partition uses: the measured use of number 128, and for VSRAM the unowned slices. -/
def State.restWeight (s : State) (use : List (Nat × Nat × Nat)) (r : Nat) : Nat :=
  let owned := s.validParts.foldl (fun n p => n + s.get (HUB_PART_CFG_LLM_SCRATCH p) + s.get (HUB_PART_CFG_LLM_CACHE p)) 0
  (if r = 5 then 64 - owned else 0) +
    (use.filter fun x => x.1 == r && x.2.1 == 128).foldl (fun n x => n + x.2.2) 0

/-- The energy of the rails that each valid partition takes, rounded down (R408). -/
def State.railShares (s : State) (use : List (Nat × Nat × Nat)) (rails : List Nat) : List (Nat × Nat) :=
  s.validParts.map fun p =>
    (p, (rails.zipIdx 1).foldl (fun n x =>
      let w := s.railWeight use x.2 p
      let all := s.validParts.foldl (fun m q => m + s.railWeight use x.2 q) (s.restWeight use x.2)
      n + (if all = 0 then 0 else x.1 * w / all)) 0)

/-- The energies of an interval added: the rails', VIN's, the partitions' with their part of the conversion loss, and the
rest to UNATTRIBUTED, so that the sum is VIN's exactly. -/
def State.addEnergy (s : State) (vin : Nat) (use : List (Nat × Nat × Nat)) (rails : List Nat) : State :=
  let sum := rails.foldl (· + ·) 0
  let loss := vin - sum
  let shares := (s.railShares use rails).map fun x => (x.1, x.2 + (if sum = 0 then 0 else loss * x.2 / sum))
  let t := (rails.zipIdx 1).foldl (fun (t : State) x =>
    t.put (PWR_RAIL_ENERGY_UJ x.2) (t.get (PWR_RAIL_ENERGY_UJ x.2) + x.1)) s
  let t := t.put (PWR_RAIL_ENERGY_UJ 0) (t.get (PWR_RAIL_ENERGY_UJ 0) + vin)
  let r := shares.foldl (fun (a : State × Nat) x =>
    let e := min x.2 a.2
    (a.1.put (PWR_PART_ENERGY_UJ x.1) (a.1.get (PWR_PART_ENERGY_UJ x.1) + e), a.2 - e)) (t, vin)
  r.1.put PWR_UNATTRIB_UJ (r.1.get PWR_UNATTRIB_UJ + r.2)

/-- The mean of the last `n` samples of input power, in mW. -/
def State.meanPower (s : State) (n : Nat) : Nat :=
  let l := s.pwr.recent.take n
  if l = [] then 0 else l.foldl (· + ·) 0 / l.length

/-- The power controller's cap lowered. -/
def State.lowerCap (s : State) (cap : Nat) : State :=
  { s with pwr := { s.pwr with cap := max 16 cap, engaged := true, limiter := 2 } }

/-- The fast guard at the end of a 100 µs window (R400). -/
def State.fastGuard (s : State) : State :=
  if s.pwr.samples % 10 = 0 ∧ 3300000 < s.meanPower 10 then
    let t := s.lowerCap (s.pwr.cap * 3 / 4)
    t.evLim 0x1703 0 0 0 (s.meanPower 10 / 1000) t.pwr.cap
  else s

/-- POWER_SAMPLE (R398, R400, R407, R408): input voltage and current, the voltages and energies of rails 1 to 11 over 10 µs,
and the measured use (rail, partition or 128, amount). -/
def execPowerSample (vinMv iMa : Nat) (railsMv railsUj : List Nat) (use : List (Nat × Nat × Nat)) (s : State) :
    Host.Outcome State Fault Refusal :=
  .next (whenOn s
    (let e := s.pwr.energyFrac + vinMv * iMa
     let t := s.put PWR_STATUS_VIN_QV (min 255 (vinMv / 250))
     let t := { t with pwr := { t.pwr with
       energyFrac := e % 100000
       volts := ((railsMv.take 11).zipIdx 1).foldl (fun (m : SMap Nat) (x : Nat × Nat) => smSet (fun _ => 0) m x.2 x.1)
         (smSet (fun _ => 0) t.pwr.volts 0 vinMv)
       recent := ((vinMv * iMa / 1000) :: t.pwr.recent).take 100
       samples := t.pwr.samples + 1 } }
     (t.addEnergy (e / 100000) use (railsUj.take 11)).fastGuard))

/-! ## The sustained limit and duty holds (R398, R399) -/

/-- The beats of the pattern in 1 ms at the pace in force (R139). -/
def State.slotsPerMs (s : State) : Nat := s.get HUB_PACE_STATUS_PACE_NOW * 6250

/-- BEAT advances: the module runs and its tokens are not withheld. -/
def State.beating (s : State) : Bool :=
  s.on && !s.frozen && s.pace.refPresent && s.get PWR_STATUS_FORCED == 0 && decide (s.get PWR_STATUS_STATE < 3)

/-- The duty hold of an interval of 1 ms: its held beats counted, and one stretch (R399). -/
def State.dutyHold (s : State) : State :=
  if s.pwr.duty = 0 ∨ !s.beating then s
  else
    let n := s.slotsPerMs * s.pwr.duty / 64
    let t := { s with
      pace := { s.pace with groupHeld := s.pace.groupHeld + n }, pwr := { s.pwr with holdBeats := s.pwr.holdBeats + n } }
    (t.put HUB_HELD_HELD (s.get HUB_HELD_HELD + n)).inc HUB_PACE_STATUS_STRETCH_COUNT 1

/-- The rule of R398 and R399 for the budget `b` (in 0.1 W) and the 1 ms average `p` (in mW). -/
def State.limitRule (s : State) (b p avgW : Nat) : State :=
  let cap := s.pwr.cap
  let d := s.pwr.duty
  let note (t : State) (k : Nat) : State := t.evLim3 0x1702 0 0 0 k avgW t.pwr.cap
  if b * 100 < p then
    if cap ≤ 16 then
      let t := { s with pwr := { s.pwr with duty := if d = 0 then 4 else min 60 (d + 4) } }
      if d = 0 then note t 2 else t
    else
      let t := s.lowerCap (cap * (b * 100) / p)
      if cap < 384 then t else note t 1
  else if p + 50000 < b * 100 then
    if 0 < d then { s with pwr := { s.pwr with duty := d - 1 } }
    else if cap < 384 then
      let c := min 384 (cap + 4)
      let t := { s with pwr := { s.pwr with cap := c, engaged := decide (c < 384) } }
      if c = 384 then note t 0 else t
    else s
  else s

/-- The end of a second: held beats above 1 % of its slots are recorded once (R402). -/
def State.stretchCheck (s : State) : State :=
  let t := { s with pwr := { s.pwr with
    holdMs := s.pwr.holdMs + 1, holdSlots := s.pwr.holdSlots + (if s.beating then s.slotsPerMs else 0) } }
  if t.pwr.holdMs < 1000 then t
  else
    let u := { t with pwr := { t.pwr with holdMs := 0, holdBeats := 0, holdSlots := 0 } }
    if t.pwr.holdSlots < t.pwr.holdBeats * 100 then
      u.ev 0x170A 0 0 (t.pwr.holdBeats * 1000000 / max 1 t.pwr.holdSlots) (u.get HUB_PACE_STATUS_STRETCH_COUNT) 0
    else u

/-- POWER_LIMIT_TICK (R398, R399): the window average `avgW` and the 1 ms average give the budget. -/
def execPowerLimitTick (avgW : Nat) (s : State) : Host.Outcome State Fault Refusal :=
  .next (whenOn s
    (let p := s.meanPower 100
     let eff := s.get PWR_LIMIT_CFG_EFF_LIMIT_W
     let b := clampTo (9 * eff) 33000 (20 * eff - 10 * avgW)
     let t := (s.put PWR_STATUS_AVG_W avgW).put PWR_STATUS_POWER_W (min 65535 (p / 1000))
     ((t.limitRule b p avgW).dutyHold).stretchCheck))

/-! ## Droop detectors (R403) -/

/-- DROOP_DETECTOR_MASK (R403): a tripped detector is masked, with event 0x1706 and the beat slots of the 10 µs before; a
tile whose four detectors are masked is retired. -/
def execDroopDetectorMask (detector : Fin 1088) (s : State) : Host.Outcome State Fault Refusal :=
  let d := detector.val
  .next (if s.on && s.pwr.tripped.contains d && !s.pwr.masked.contains d then
      let t := { s with pwr := { s.pwr with
        masked := d :: s.pwr.masked, tripped := s.pwr.tripped.filter (· != d) } }
      let n := t.pwr.masked.length
      let t := (t.put PWR_DROOP_CFG_MASKED n).ev 0x1706 (0x200 + d / 4) 0 (d % 4) (s.slotsPerMs / 100) n
      if (List.range 4).all fun i => t.pwr.masked.contains (d / 4 * 4 + i) then t.retireTile (d / 4) else t
    else s)

/-! ## Forced Nadir (R404, R405) -/

/-- Forced Nadir is entered for a cause. -/
def State.enterNadir (s : State) (cause : Nat) : State :=
  if s.get PWR_STATUS_FORCED = 1 then s
  else
    let t := (s.put PWR_STATUS_FORCED 1).put PWR_STATUS_ALERT_CAUSE cause
    let t := { t with pwr := { t.pwr with forcedAt := s.now } }
    let t := t.notice (noticePayload 3 cause s.self s.now (s.get HUB_BEAT_BEAT) 0)
    let t := { t with pins := { t.pins with alertN := false } }.emit (.pin "PWR_ALERT_N" false)
    ((t.moduleState 4).selfRefresh).ev 0x1704 0 0 cause (s.get PWR_STATUS_VIN_QV) (s.get PWR_STATUS_POWER_W)

/-- REGULATOR_ALERT (R404): causes 1 to 5. -/
def execRegulatorAlert (cause : Nat) (s : State) : Host.Outcome State Fault Refusal :=
  .next (if s.on && decide (1 ≤ cause) && decide (cause ≤ 5) then s.enterNadir cause else s)

/-- The wake from forced Nadir (R405): not for an orderly power-down, nor while J3 lasts. -/
def State.nadirEnd (s : State) : State :=
  let cause := s.get PWR_STATUS_ALERT_CAUSE
  if s.on && s.get PWR_STATUS_FORCED == 1 && cause != 7 && !s.pwr.j3 then
    let t := (s.put PWR_STATUS_FORCED 0).put PWR_STATUS_ALERT_CAUSE 0
    let t := (t.moduleState 0).leaveDusk
    let t := { t with pins := { t.pins with alertN := true } }.emit (.pin "PWR_ALERT_N" true)
    let t := t.notice (noticePayload 5 3 s.self s.now 0 (s.now - s.pwr.forcedAt))
    t.ev 0x1705 0 0 ((s.now - s.pwr.forcedAt) / 1000000) cause 0
  else s

/-! ## Thermal trips and coolant (R409, R410) -/

/-- The derived flow in 0.1 L/min: input power over 66.3 times the rise, above 500 W. -/
def flowDl (powerW inlet outlet : Nat) : Nat :=
  if powerW ≤ 500 then 0 else if outlet ≤ inlet then 255 else min 255 (400 * powerW / (663 * (outlet - inlet)))

/-- The trip that a junction temperature and an inlet, in 0.25 °C, leave or enter from the present one (R410). -/
def tripAfter (old junction inlet : Nat) : Nat :=
  let up := if 460 ≤ junction ∨ 220 ≤ inlet then 3 else if 420 ≤ junction then 2 else if 380 ≤ junction then 1 else 0
  let kept := if old = 3 then 3 else if old = 2 ∧ 400 ≤ junction then 2 else if 1 ≤ old ∧ 368 ≤ junction then 1 else 0
  max up kept

/-- The severity of a thermal trip's record, by its higher trip. -/
def tripSev (a b : Nat) : Nat := if max a b = 3 then 3 else if max a b = 2 then 2 else 0

/-- A trip entered or left, recorded. -/
def State.setTrip (s : State) (new : Nat) : State :=
  let old := s.get PWR_STATUS_TRIP
  if new = old then s
  else (s.put PWR_STATUS_TRIP new).evS 0x1707 (tripSev old new) 0 0 old new (s.get PWR_THERM_HOTTEST)

/-- The action of J2: EFF_LIMIT_W at 1,400 W and the cap halved. -/
def State.tripTwo (s : State) : State :=
  ({ s with pwr := { s.pwr with lowered := max s.pwr.lowered (s.get PWR_LIMIT_CFG_LIMIT_W - 1400) } }.setEff).lowerCap
    (s.pwr.cap / 2)

/-- JUNCTION_SAMPLE (R409, R410, R414): temperatures in 0.25 °C. -/
def execJunctionSample (hub deep : Nat) (quads : List Nat) (inlet outlet : Nat) (s : State) :
    Host.Outcome State Fault Refusal :=
  .next (whenOn s
    (let hot := quads.foldl max hub
     let t := { s with pwr := { s.pwr with
       tempHub := some (hub / 4), tempDeep := some (deep / 4)
       tempQuad := ((quads.take 4).zipIdx).foldl (fun (m : SMap (Option Nat)) (x : Nat × Nat) =>
         smSet (fun _ => none) m x.2 (some (x.1 / 4))) s.pwr.tempQuad } }
     let t := ((t.put PWR_THERM_INLET (min 1023 inlet)).put PWR_THERM_OUTLET (min 1023 outlet)).put PWR_THERM_HOTTEST
       (min 1023 hot)
     let t := t.put PWR_THERM_FLOW_DL (flowDl (s.get PWR_STATUS_POWER_W) inlet outlet)
     let old := s.get PWR_STATUS_TRIP
     let new := tripAfter old hot inlet
     let t := t.setTrip new
     if old < 3 ∧ new = 3 then { t with pwr := { t.pwr with j3 := true } }.enterNadir 6
     else if old < 2 ∧ new = 2 then t.tripTwo else t))

/-- EFF_LIMIT_STEP (R410): EFF_LIMIT_W falls by 100 W while J1 or J2 lasts, and rises by 100 W after exit. -/
def execEffLimitStep (s : State) : Host.Outcome State Fault Refusal :=
  .next (whenOn s
    (let most := s.get PWR_LIMIT_CFG_LIMIT_W - 1000
     if s.get PWR_STATUS_TRIP = 0 then { s with pwr := { s.pwr with lowered := s.pwr.lowered - 100 } }.setEff
     else { s with pwr := { s.pwr with lowered := min most (s.pwr.lowered + 100) } }.setEff))

/-- J3_CLEAR_TIMER (R410): junction and inlet have been below their exit levels for 10 s. -/
def execJ3ClearTimer (s : State) : Host.Outcome State Fault Refusal :=
  .next (if s.on && s.get PWR_STATUS_TRIP == 3 && decide (s.get PWR_THERM_HOTTEST < 400) &&
      decide (s.get PWR_THERM_INLET < 200) then
      { s.setTrip (if 368 ≤ s.get PWR_THERM_HOTTEST then 1 else 0) with pwr := { s.pwr with j3 := false } }
    else s)

/-- COOLANT_CHECK_EXPIRE (R409): the inlet has been above 45 °C for 1 s, or the derived flow below 90 % of the requirement
for 5 s. -/
def execCoolantCheckExpire (flow : Bool) (s : State) : Host.Outcome State Fault Refusal :=
  let f := s.get PWR_THERM_FLOW_DL
  let low := decide (f * 622 < 9 * s.get PWR_LIMIT_CFG_LIMIT_W) || decide (f < 18)
  .next (if s.on && (if flow then decide (500 < s.get PWR_STATUS_POWER_W) && low else decide (180 < s.get PWR_THERM_INLET)) then
      s.ev 0x1708 0 0 (if flow then 2 else 1) (s.get PWR_THERM_INLET) f
    else s)

end Sys2Proof.Machine
end

