-- ==== Sys2Proof/Machine/Recorder.lean ====
section
/-!
DEFINITION. The event recorder's flash: the programming of staged records, sector erases and bad sectors, dropped records,
and the saving of operating time (R416 to R420).
-/

namespace Sys2Proof.Machine

open Sys2Proof

/-! ## Bad sectors (R420) -/

/-- A flash sector marked bad: the rings skip it, BAD_SECTORS counts it, and event 0x1905 says whether a program (0) or an
erase (1) failed. -/
def State.badSector (s : State) (sec kind : Nat) : State :=
  if s.eph.bad.contains sec then s
  else
    let t := { s with eph := { s.eph with bad := s.eph.bad ++ [sec] } }.inc EPH_STATUS_BAD_SECTORS 1
    t.ev 0x1905 0 0 sec kind (t.get EPH_STATUS_BAD_SECTORS)

/-- The general ring's sector at its head fails: the head goes on in the next good sector, and the erase of the sector after
that starts. -/
def State.genBad (s : State) : State :=
  let h := s.get EPH_GEN_PTR_HEAD
  let t := s.badSector (h / secSlots) 0
  let k := afterHead t.eph.bad 0 192 h
  let t := t.put EPH_GEN_PTR_HEAD (k * secSlots)
  let t := if k * secSlots ≤ h then t.next EPH_GEN_PTR_WRAPS else t
  { t with eph := { t.eph with genErase := some (afterHead t.eph.bad 0 192 (k * secSlots)) } }

/-- The keep ring's sector at its head fails, likewise; the head's entry in the next sector copies what R418 asks for. -/
def State.keepBad (s : State) : State :=
  let h := s.get EPH_KEEP_PTR_HEAD
  let t := s.badSector (192 + h / secSlots) 0
  let k := afterHead t.eph.bad 192 64 h
  let t := t.put EPH_KEEP_PTR_HEAD (k * secSlots)
  (if k * secSlots ≤ h then t.next EPH_KEEP_PTR_WRAPS else t).keepEnter

/-! ## Programming (R417, R419) -/

/-- The counts of dropped records recorded once the staging ring has room, at most once per 10 ms (R419). -/
def State.dropEvent (s : State) : State :=
  let d := s.eph.drops
  let held : Bool := match findLimit s.eph.limits 0x1903 0 with
    | some e => decide (s.now < e.last + ms10)
    | none => false
  if d = (0, 0, 0) ∨ held ∨ 4096 ≤ s.eph.staged.length then s
  else
    { s with eph := { s.eph with
      drops := (0, 0, 0), limits := setLimit s.eph.limits ⟨0x1903, 0, s.now, 0, 0⟩ } }.ev 0x1903 0 0 d.1 d.2.1 d.2.2

/-- The oldest `n` staged records written to flash. -/
def State.programOldest (s : State) (n : Nat) : State :=
  let l := s.eph.staged
  let t := (s.setStaged (l.drop n)).put EPH_STATUS_STAGE_FIRST
    ((s.get EPH_STATUS_STAGE_FIRST + min n l.length) % 4096)
  (l.take n).foldl (fun (t : State) r => t.programRec r) t

/-- RECORD_PROGRAM_COMPLETE (R417, R419, R420): the `n` oldest staged records are in flash; a program that failed twice in
a ring first marks its sector bad. -/
def execRecordProgramComplete (n : Nat) (genFails keepFails : Nat) (s : State) : Host.Outcome State Fault Refusal :=
  .next (if s.on && !s.eph.staged.isEmpty && n != 0 then
      let t := if 2 ≤ genFails then s.genBad else s
      let t := if 2 ≤ keepFails ∧ ((s.eph.staged.take n).any fun r => decide (2 ≤ r.sev)) then t.keepBad else t
      (t.programOldest n).dropEvent
    else s)

/-! ## Erases (R417, R420) -/

/-- The slots of a sector of a ring empty. -/
def emptySector (m : SMap (Option EphRec)) (sec : Nat) : SMap (Option EphRec) :=
  m.filter fun (x : Nat × Option EphRec) => x.1 / secSlots != sec

/-- SECTOR_ERASE_COMPLETE (R417, R420): the sector after a ring's head is erased; one whose erase failed twice is bad, and the
sector after it is taken. -/
def execSectorEraseComplete (keep : Bool) (fails : Nat) (s : State) : Host.Outcome State Fault Refusal :=
  .next (if !s.on then s
    else if keep then
      match s.eph.keepErase with
      | none => s
      | some k =>
        if 2 ≤ fails then (s.badSector (192 + k) 1).keepEnter
        else { s with eph := { s.eph with keepErase := none, keep := emptySector s.eph.keep k } }
    else
      match s.eph.genErase with
      | none => s
      | some k =>
        if 2 ≤ fails then
          let t := s.badSector k 1
          { t with eph := { t.eph with genErase := some (afterHead t.eph.bad 0 192 (t.get EPH_GEN_PTR_HEAD)) } }
        else { s with eph := { s.eph with genErase := none, general := emptySector s.eph.general k } })

/-! ## Vital product data (R416) -/

/-- The operating time and the power-cycle count saved. -/
def State.saveTime (s : State) : State :=
  { s with eph := { s.eph with savedOpTime := s.get EPH_TIME_OP_TIME, savedCycles := s.get EPH_CYCLES_POWER_CYCLES } }

/-- OP_TIME_SAVE (R416). -/
def execOpTimeSave (s : State) : Host.Outcome State Fault Refusal := .next (whenOn s s.saveTime)

end Sys2Proof.Machine
end

