-- ==== Sys2Proof/Machine/Eclipse.lean ====
section
/-!
DEFINITION. The end of a freeze, the read-out of the module's arrays, deposits, and the JTAG port (R422 to R427).
-/

namespace Sys2Proof.Machine

open Sys2Proof

/-! ## The end of a freeze (R423, R424) -/

/-- The timers that stood still during a freeze of `d` ns go on from their values (R423). -/
def State.shiftTimers (s : State) (d : Nat) : State :=
  let fns := (List.range 256).filter fun f => s.get (PCIE_FN_CFG_STATE f) != 0
  let t := { s with
    barriers := s.barriers.map fun (b : Barrier) => if b.arrived.isEmpty then b else { b with first := b.first + d }
    waits := s.waits.map fun (w : StreamWait) => { w with since := w.since + d }
    cfg := { s.cfg with
      trialEnds := s.cfg.trialEnds + d
      armed := s.cfg.armed.map fun (a : Armed) => { a with since := a.since + d } }
    fw := { s.fw with trialStart := s.fw.trialStart + d } }
  let t := (parts.filter fun p => (t.commit p).verdict).foldl (fun (t : State) p =>
    t.setCommit p { t.commit p with checkInstant := (t.commit p).checkInstant + d }) t
  fns.foldl (fun (t : State) f => t.setFn f { t.fn f with hbFrozen := (t.fn f).hbFrozen + d }) t

/-- What a deposit left in a control core's SRAM is not followed beyond the freeze (log 87). -/
def State.dropCore (s : State) : State :=
  { s with mem := s.mem.filter fun (x : Nat × Byte) => x.1 / 2 ^ 64 != 8 }

/-- A freeze ends: every timer goes on, the frozen time counts, the receivers of the freeze notice are told, and event 0x1907
is recorded. -/
def State.endFreeze (s : State) : State :=
  let d := s.now - s.ecl.frozenAt
  let t := (s.put ECL_STATUS_FROZEN 0).put ECL_FROZEN_NS_NS (s.get ECL_FROZEN_NS_NS + d)
  let t := (t.shiftTimers d).dropCore
  let t := { t with ecl := { t.ecl with snapshot := [], waitsResume := false } }
  let t := if t.pins.freezeDriven then
      { t with pins := { t.pins with freezeDriven := false } }.emit (.pin "FREEZE_N" true) else t
  let t := t.notice (noticePayload 5 4 s.self s.now 0 d)
  t.ev 0x1907 0 0 (d / 1000000) (s.get ECL_STATUS_SOURCE) (s.get ECL_STATUS_DEPOSITED)

/-- Every source has cleared: FREEZE_N is high or ignored, a 1 has been written to RESUME, and the planned time is 0 or past
(log 80). -/
def State.sourcesClear (s : State) : Bool :=
  (s.pins.freezeN || s.get ECL_CFG_PIN_EN == 0) && !s.ecl.waitsResume &&
    (s.get ECL_FREEZE_AT_AT == 0 || decide (s.get ECL_FREEZE_AT_AT ≤ s.now))

/-! ## Arrays (R425) -/

/-- The journal record of R373 as its 128 bytes. -/
def recordBytes (r : JRec) : List Byte :=
  bytesLE 64 r.entry.toNat ++ bytesLE 2 r.phys ++ bytesLE 1 r.state ++ bytesLE 1 r.replays ++
    bytesLE 4 (crc32c r.inSeals).toNat ++ bytesLE 4 r.outDigest ++ bytesLE 4 r.produced ++ bytesLE 4 r.delivered ++
    bytesLE 4 0 ++ bytesLE 4 r.pre.length ++ bytesLE 2 r.tileGen ++ bytesLE 2 0 ++ bytesLE 8 r.time ++ List.replicate 24 0

/-- The records of a quadrant, in the order of their dispatch. -/
def State.quadRecs (s : State) (q : Nat) : List JRec := s.journal.filter fun r => r.quad == q

/-- The journal SRAM of a quadrant as an array: 8 MiB of records, the 24 MiB pre-image area and the 32 MiB Parallax area, each
filled in the order of dispatch (R372; log 87). -/
def State.journalByte (s : State) (q off : Nat) : Byte :=
  let rs := s.quadRecs q
  let at_ (bs : List Byte) (i : Nat) : Byte := bs.getD i 0
  if off < 0x800000 then
    match rs[off / 128]? with
    | some r => at_ (recordBytes r) (off % 128)
    | none => 0
  else if off < 0x2000000 then
    match (rs.flatMap fun r => r.pre)[(off - 0x800000) / 4096]? with
    | some b => at_ b.2.2 (off % 4096)
    | none => 0
  else
    match (rs.flatMap fun r => r.capture)[(off - 0x2000000) / 4112]? with
    | some b => at_ (b.2.2 ++ sealBytes b.2.1) ((off - 0x2000000) % 4112)
    | none => 0

/-- The line that an LLM cache slice holds in a way of a set: those of a set in the order of their filling (log 87). -/
def State.wayLine (s : State) (k n : Nat) : Option Line :=
  (s.lines.filter fun l => l.slice == k && l.set == n / 16)[n % 16]?

/-- The place that a byte of an LLM slice's array shows: of line `n` its data, then its seal in the tag part; none where the
line is empty (log 87). -/
def State.sliceBlock (s : State) (k n : Nat) : Option (Space × Nat) :=
  let q := k / 17
  if s.get (LLM_SLICE_STATUS_STATE q (k % 17)) = 2 then
    some (.l, (16 * q + s.get (LLM_SLICE_STATUS_ACTIVE_INDEX q (k % 17))) * 2 ^ 24 + n * 4096)
  else (s.wayLine k n).map fun l => (Space.h, l.block * 4096)

/-- The place that a stack itself holds a block of H in: apart, while a dirty line of the LLM covers it (R164). -/
def State.stackSpace (s : State) (a : Nat) : Space :=
  match s.lineOf (a / 4096) with
  | some l => if l.dirty then .llm else .h
  | none => .h

/-- Byte `j` of the 16 bytes of a seal. -/
def sealByte (x : Seal) (j : Nat) : Byte := (sealBytes x).getD j 0

/-- A byte of an array; none beyond its table, and outside a freeze but for the registers (R425). -/
def State.arrayByte (s : State) (cls idx off : Nat) : Option Byte :=
  if cls = 6 then
    let k := off / 8 * 8
    if idx = 0 ∧ insideBlock off then
      let v := if s.frozen then (smGet regReset s.ecl.snapshot k).toNat else s.readReg k
      some (BitVec.ofNat 8 (v >>> (8 * (off % 8))))
    else none
  else if !s.frozen then none
  else match cls with
    | 1 => if idx < 272 ∧ off < 0x600000 then some (s.byte .ls (lsAddr idx off)) else none
    | 2 => if idx < 272 ∧ off < 1536 * 16 then some (sealByte (s.sealOf .ls (lsAddr idx (off / 16 * 4096))) (off % 16)) else none
    | 3 =>
      if 68 ≤ idx ∨ 0x1010000 ≤ off then none
      else
        let n := if off < 0x1000000 then off / 4096 else (off - 0x1000000) / 16
        match s.sliceBlock idx n with
        | none => some 0
        | some (sp, a) => some (if off < 0x1000000 then s.byte sp (a + off % 4096) else sealByte (s.sealOf sp a) (off % 16))
    | 4 => if idx < 4 ∧ off < 0x4000000 then some (s.journalByte idx off) else none
    | 5 =>
      if 12 ≤ idx then none
      else if off < 2 ^ 36 then some (s.byte (s.stackSpace (idx * 2 ^ 36 + off)) (idx * 2 ^ 36 + off))
      else if off < 2 ^ 36 + 2 ^ 28 then
        let a := idx * 2 ^ 36 + (off - 2 ^ 36) / 16 * 4096
        some (sealByte (s.sealOf (s.stackSpace a) a) (off % 16))
      else none
    | 7 =>
      if idx < 6 ∧ off < 0x800000 then
        some (s.byte .core (idx * 2 ^ 24 + off) + Config.coreByte s.ecl.frozenAt (idx * 2 ^ 24 + off))
      else none
    | _ => none

/-- The 8 bytes of the array at an address of ECL_ADDR's form, all ones where there is none. -/
def State.arrayWord (s : State) (addr : Nat) : Nat :=
  let cls := bitsOf 63 56 addr
  let idx := bitsOf 55 44 addr
  ofBytesLE ((List.range 8).map fun j => (s.arrayByte cls idx (bitsOf 43 0 addr + j)).getD 0xFF)

/-! ## Deposits (R427) -/

/-- A seal with one of its 16 bytes replaced. -/
def sealWithByte (x : Seal) (j : Nat) (b : Byte) : Seal := sealOfBytes ((sealBytes x).set j b)

/-- A journal record with one of its 128 bytes replaced; the input digest, which the record holds as the seals themselves,
stays (log 87). -/
def recordWithByte (r : JRec) (j : Nat) (b : Byte) : JRec :=
  let bs := (recordBytes r).set j b
  let n (o k : Nat) : Nat := ofBytesLE ((bs.drop o).take k)
  { r with
    entry := BitVec.ofNat 512 (n 0 64), phys := n 64 2, state := n 66 1, replays := n 67 1, outDigest := n 72 4
    produced := n 76 4, delivered := n 80 4, tileGen := n 92 2, time := n 96 8 }

/-- The `n`-th of the blocks that records keep, changed. -/
def withBlock (f : Nat × Seal × List Byte → Nat × Seal × List Byte) :
    Nat → List (Nat × Seal × List Byte) → List (Nat × Seal × List Byte)
  | n, l => l.zipIdx.map fun x => if x.2 = n then f x.1 else x.1

/-- A byte put into the journal SRAM of a quadrant. -/
def State.putJournal (s : State) (q off : Nat) (b : Byte) : State :=
  let before (r : JRec) (len : JRec → Nat) : Nat :=
    ((s.quadRecs q).takeWhile fun x => !(x.part == r.part && x.list == r.list && x.seq == r.seq)).foldl
      (fun n x => n + len x) 0
  let edit (r : JRec) : JRec :=
    if r.quad ≠ q then r
    else if off < 0x800000 then
      (if before r (fun _ => 1) = off / 128 then recordWithByte r (off % 128) b else r)
    else if off < 0x2000000 then
      let n := (off - 0x800000) / 4096
      let k := before r fun x => x.pre.length
      if n < k then r else { r with pre := withBlock (fun x => (x.1, x.2.1, x.2.2.set (off % 4096) b)) (n - k) r.pre }
    else
      let n := (off - 0x2000000) / 4112
      let j := (off - 0x2000000) % 4112
      let k := before r fun x => x.capture.length
      if n < k then r
      else { r with capture := withBlock (fun x =>
        if j < 4096 then (x.1, x.2.1, x.2.2.set j b) else (x.1, sealWithByte x.2.1 (j - 4096) b, x.2.2)) (n - k) r.capture }
  { s with journal := s.journal.map edit }

/-- A byte put into an array, its blocks not sealed again; beyond its table there is no effect. -/
def State.putArray (s : State) (cls idx off : Nat) (b : Byte) : State :=
  if (s.arrayByte cls idx off).isNone then s
  else match cls with
    | 1 => s.setBytes .ls (lsAddr idx off) [b]
    | 2 =>
      let a := lsAddr idx (off / 16 * 4096)
      s.setSeal .ls a (sealWithByte (s.sealOf .ls a) (off % 16) b)
    | 3 =>
      let n := if off < 0x1000000 then off / 4096 else (off - 0x1000000) / 16
      match s.sliceBlock idx n with
      | none => s
      | some (sp, a) =>
        if off < 0x1000000 then s.setBytes sp (a + off % 4096) [b]
        else s.setSeal sp a (sealWithByte (s.sealOf sp a) (off % 16) b)
    | 4 => s.putJournal idx off b
    | 5 =>
      if off < 2 ^ 36 then s.setBytes (s.stackSpace (idx * 2 ^ 36 + off)) (idx * 2 ^ 36 + off) [b]
      else
        let a := idx * 2 ^ 36 + (off - 2 ^ 36) / 16 * 4096
        s.setSeal (s.stackSpace a) a (sealWithByte (s.sealOf (s.stackSpace a) a) (off % 16) b)
    | 6 =>
      let k := off / 8 * 8
      let j := off % 8
      let v := (smGet regReset s.ecl.snapshot k).toNat
      { s with ecl := { s.ecl with
        snapshot := smSet regReset s.ecl.snapshot k (BitVec.ofNat 64 (withBits (8 * j + 7) (8 * j) b.toNat v)) } }
    | _ => s.setBytes .core (idx * 2 ^ 24 + off) [b - Config.coreByte s.ecl.frozenAt (idx * 2 ^ 24 + off)]

/-- A deposit of 8 bytes: during a freeze with DEPOSIT_EN 1, recorded once per freeze. -/
def State.deposit (s : State) (addr v : Nat) : State :=
  let cls := bitsOf 63 56 addr
  let idx := bitsOf 55 44 addr
  let off := bitsOf 43 0 addr
  if !s.frozen ∨ s.get ECL_CFG_DEPOSIT_EN = 0 ∨ (s.arrayByte cls idx off).isNone then s
  else
    let t := ((bytesLE 8 v).zipIdx).foldl (fun (t : State) x => t.putArray cls idx (off + x.2) x.1) s
    let t := t.put ECL_STATUS_DEPOSITED 1
    if s.ecl.depositRecorded then t
    else { t with ecl := { t.ecl with depositRecorded := true } }.ev 0x1908 0 0 cls idx (off % 2 ^ 32)

/-- The array address that an offset of the debug window shows. -/
def State.windowAddr (s : State) (off : Nat) : Nat :=
  let a := s.get ECL_ADDR_ADDR
  a / 2 ^ 44 * 2 ^ 44 + (a + off) % 2 ^ 44

/-- DEBUG_WINDOW_READ (R425): 8 bytes of the array at ECL_ADDR plus the offset. -/
def execDebugWindowRead (path : Path) (off : Nat) (s : State) : Host.Outcome State Fault Refusal :=
  .next (if s.on && ctrlPath path && decide (off < 65536) then s.emit (.readData (s.arrayWord (s.windowAddr off))) else s)

/-- DEBUG_WINDOW_WRITE (R427). -/
def execDebugWindowWrite (path : Path) (off : Nat) (v : Word) (s : State) : Host.Outcome State Fault Refusal :=
  .next (if s.on && ctrlPath path && decide (off < 65536) then s.deposit (s.windowAddr off) v.toNat else s)

/-! ## The sources of a freeze (R422) -/

/-- A path that writes the freeze controller's registers. -/
def eclPath : Path → Bool
  | .vf _ => false
  | _ => true

/-- ECL_FREEZE (R422). -/
def execEclFreeze (path : Path) (s : State) : Host.Outcome State Fault Refusal :=
  .next (if s.on && eclPath path then s.freezeFrom 2 else s)

/-- FREEZE_N_ASSERT (R422). -/
def execFreezeNAssert (s : State) : Host.Outcome State Fault Refusal :=
  let t : State := { s with pins := { s.pins with freezeN := false } }
  .next (if s.on && s.get ECL_CFG_PIN_EN == 1 then t.freezeFrom 1 else t)

/-- FREEZE_AT_REACHED (R422): once for a planned time. -/
def execFreezeAtReached (s : State) : Host.Outcome State Fault Refusal :=
  let a := s.get ECL_FREEZE_AT_AT
  .next (if s.on && a != 0 && decide (a ≤ s.now) && decide (s.ecl.frozenAt < a) then s.freezeFrom 4 else s)

/-! ## JTAG (R426) -/

/-- The JTAG port answers while VAUX is in regulation. -/
def State.jtagOn (s : State) : Bool := decide (s.phase ≠ Phase.off)

/-- A JTAG instruction in force, with what it shifts out: 0 EXTEST, 1 IDCODE, 2 SAMPLE/PRELOAD, 3 BYPASS, 4 to 6 the
private ones. -/
def State.jtagOut (s : State) (ir v bits : Nat) : State :=
  { s with jtag := { s.jtag with ir := ir } }.emit (.jtag v bits)

/-- BYPASS (R426): one bit, the one shifted in before. -/
def execBypass (tdi : Bool) (s : State) : Host.Outcome State Fault Refusal :=
  .next (if s.jtagOn then
      let t := s.jtagOut 3 (if s.jtag.ir = 3 then s.jtag.tdo else 0) 1
      { t with jtag := { t.jtag with tdo := if tdi then 1 else 0 } }
    else s)

/-- IDCODE (R426). -/
def execIdcode (s : State) : Host.Outcome State Fault Refusal :=
  .next (if s.jtagOn then s.jtagOut 1 0x2720024B 32 else s)

/-- SAMPLE_PRELOAD (R426): the boundary register is loaded; what it sampled is a free value, since the spec does not lay the
register out (log 87). -/
def execSamplePreload (preload : Nat) (s : State) : Host.Outcome State Fault Refusal :=
  .next (if s.jtagOn then
      let t : State := { s.useFree with jtag := { s.jtag with boundary := preload } }
      t.jtagOut 2 (Config.freeValue s.free).toNat 32
    else s)

/-- EXTEST (R426): at the JTAG hold step the boundary register drives the pins, whose levels shifted out are a free value;
otherwise it acts as BYPASS (log 87). -/
def execExtest (s : State) : Host.Outcome State Fault Refusal :=
  .next (if !s.jtagOn then s
    else if s.phase = Phase.jtagHold then s.useFree.jtagOut 0 (Config.freeValue s.free).toNat 32
    else s.jtagOut 3 (if s.jtag.ir = 3 then s.jtag.tdo else 0) 1)

/-- JTAG_ECL_ADDR (R426). -/
def execJtagEclAddr (v : Word) (s : State) : Host.Outcome State Fault Refusal :=
  .next (if s.on then (s.jtagOut 4 (s.get ECL_ADDR_ADDR) 64).put ECL_ADDR_ADDR v.toNat else s)

/-- JTAG_ECL_DATA (R426, R427): the addressed word read or deposited, and the address advanced by 8. -/
def execJtagEclData (write : Option Word) (s : State) : Host.Outcome State Fault Refusal :=
  .next (if s.on then
      let a := s.get ECL_ADDR_ADDR
      let t := match write with
        | none => s.jtagOut 5 (s.arrayWord a) 64
        | some v => { s with jtag := { s.jtag with ir := 5 } }.deposit a v.toNat
      t.put ECL_ADDR_ADDR (s.windowAddr 8)
    else s)

end Sys2Proof.Machine
end

