-- ==== Sys2Proof/Machine/Resets.lean ====
section
/-!
DEFINITION. Power-up, the boot, power-down and power loss, cold, warm and partition resets, PACE_REF, insertion and removal,
and MCTP control messages (R65, R349, R369, R406, R411, R431 to R441).
-/

namespace Sys2Proof.Machine

open Sys2Proof

/-! ## What a cold reset keeps (R438) -/

/-- A D write that was accepted and never acknowledged: whether it took effect is a free value (R182; log 83). -/
def State.loseWrite (s : State) (w : DWrite) : State :=
  (if (Config.freeValue s.free).toNat % 2 = 1 then s.setBlock .d (w.block * 4096) w.data w.blkSeal else s).useFree

/-- The D writes on their way when everything but the D tier is lost. -/
def State.loseWrites (s : State) : State :=
  (s.tiers.dwrites.filter fun w => w.credited).foldl (fun (t : State) w => t.loseWrite w) s

/-- The keys of D and of the configuration flash. -/
def keptSpace (k : Nat) : Bool := k / 2 ^ 64 == 2 || k / 2 ^ 64 == 6

/-- The largest value of a field over the records in flash. -/
def newestRec (e : Eph) (f : EphRec → Nat) : Nat :=
  (e.general ++ e.keep).foldl (fun n (x : Nat × Option EphRec) => match x.2 with
    | some r => max n (f r)
    | none => n) 0

/-- The Almanac's slots as the copy of the directory in flash names them (R60, R63). -/
def State.bootSlots (s : State) : SMap AlmSlot :=
  (List.range 8).foldl (fun (m : SMap AlmSlot) k =>
    let x := s.slot k
    let st := if x.state = 0 ∨ x.state = 4 then x.state
      else if s.cfg.dirActive = k + 1 then 2
      else if s.cfg.dirHasPrevious ∧ s.cfg.dirPrevious = k then 3 else 1
    smSet (fun _ => almSlot0) m k ⟨st, x.seq⟩) []

/-- The recorder after the loss of all but VAUX (`keep`), or of VAUX too. -/
def State.bootEph (s : State) (keep : Bool) : Eph :=
  { s.eph with staged := if keep then s.eph.staged else [], limits := [], drops := (0, 0, 0) }

/-- The configuration engine before the boot sequence fills it. -/
def State.bootCfg (s : State) : Cfg :=
  { cfg0 with
    slots := s.bootSlots, slotBytes := s.cfg.slotBytes, dirActive := s.cfg.dirActive, dirPrevious := s.cfg.dirPrevious
    dirHasPrevious := s.cfg.dirHasPrevious, svnFloor := s.cfg.svnFloor, signRequired := s.cfg.signRequired }

/-- The firmware's slots; one that a STAGE was programming holds no image (log 84). -/
def State.bootFw (s : State) : Fw :=
  let t := if s.get FW_STATUS_UPD = 1 then s.programSlot s.otherSlot [] else s
  { fw0 with slotBytes := t.fw.slotBytes, slotGood := t.fw.slotGood }

/-- The Star chart in force and the histories; a retirement whose chart was not yet written is forgotten (R368). -/
def State.bootFlt (s : State) : Faults :=
  let f := s.flt
  let late := if s.get HUB_STAR_STATUS_WRITE_PENDING = 1 then f.starPendingCount + f.writeQueued else 0
  { faults0 with
    history := f.history, retirements := f.retirements.take (f.retirements.length - late), starInForce := f.starInForce
    chart := f.chart, tileOf := if f.starInForce then f.chart.tileOf else [], weak := f.weak }

/-- The Deep tier's credit and life: at a cold reset as they are, else from the saved copy (R187). -/
def State.bootTiers (s : State) (keep : Bool) : Tiers :=
  let x := s.tiers
  { tiers0 with
    credit := if keep then x.credit else x.savedCredit
    savedCredit := if keep then x.credit else x.savedCredit
    logicalBlocks := if keep then x.logicalBlocks else x.savedLogical
    savedLogical := if keep then x.logicalBlocks else x.savedLogical
    nandBlocks := if keep then x.nandBlocks else x.savedNand
    savedNand := if keep then x.nandBlocks else x.savedNand
    retiredErase := x.retiredErase, wear95 := x.wear95 }

/-- The registers that flash and vital product data restore: the recorder's pointers, bad sectors, operating time and
power cycles, the boot record and the SVN floor, the Star chart's SEQ and the directory (R60, R346, R349, R416, R421). -/
def State.bootRegs (s : State) (keep : Bool) (b : State) : State :=
  let t := (b.wr EPH_GEN_PTR_HEAD.off (s.rd EPH_GEN_PTR_HEAD.off)).wr EPH_KEEP_PTR_HEAD.off (s.rd EPH_KEEP_PTR_HEAD.off)
  let t := t.put EPH_STATUS_BAD_SECTORS (s.get EPH_STATUS_BAD_SECTORS)
  let t := if keep then
      (t.put EPH_STATUS_STAGE_FIRST (s.get EPH_STATUS_STAGE_FIRST)).put EPH_STATUS_STAGED (s.get EPH_STATUS_STAGED)
    else t
  let t := t.put EPH_TIME_OP_TIME
    (if keep then s.get EPH_TIME_OP_TIME else max s.eph.savedOpTime (newestRec s.eph fun r => r.opTime))
  let t := t.put EPH_CYCLES_POWER_CYCLES
    (if keep then s.get EPH_CYCLES_POWER_CYCLES else max s.eph.savedCycles (newestRec s.eph fun r => r.cycles))
  let t := (t.put FW_STATUS_BOOT_SLOT (s.get FW_STATUS_BOOT_SLOT)).put FW_STATUS_SVN_FLOOR (s.get FW_STATUS_SVN_FLOOR)
  let t := t.put HUB_STAR_STATUS_SEQ (if s.flt.starInForce then s.get HUB_STAR_STATUS_SEQ else 0)
  ((t.put CFG_STATUS_ACTIVE_SLOT (s.cfg.dirActive - 1)).put CFG_STATUS_PREVIOUS_SLOT s.cfg.dirPrevious).put
    CFG_STATUS_PREVIOUS_VALID (if s.cfg.dirHasPrevious then 1 else 0)

/-- Everything at its reset value but what a cold reset keeps: D contents, configuration flash, the Star chart, the recorder
and vital product data; with VAUX kept (`keep`) also the records still staged (R438). -/
def State.coldBase (s : State) (keep : Bool) : State :=
  s.bootRegs keep { State.reset with
    mem := s.mem.filter fun (x : Nat × Byte) => keptSpace x.1
    seals := s.seals.filter fun (x : Nat × Seal) => keptSpace x.1
    eph := s.bootEph keep
    jtag := s.jtag
    cfg := s.bootCfg
    fw := s.bootFw
    tiers := s.bootTiers keep
    flt := s.bootFlt
    pwr := { power0 with thermalLatch := s.pwr.thermalLatch }
    pace := { pace0 with refPresent := s.pace.refPresent }
    pins := { s.pins with pwrGood := false, alertN := true, freezeDriven := false }
    free := s.free
    out := s.out
    pending := s.pending }

/-! ## The units at boot (R160, R369) -/

/-- A field of a register as the Star chart in force keeps it. -/
def State.charted (s : State) (f : Fld) : Nat := bitsOf f.hi f.lo (smGet regReset s.flt.chart.regs f.off).toNat

/-- The margins of a unit that fails its boot test. -/
def State.failsTest (s : State) (cls idx : Nat) : Option (Nat × Nat) :=
  (s.flt.weak.find? fun x => x.1 == cls && x.2.1 == idx).map fun x => x.2.2

/-- `n` units from one on, those that pass their boot test first, each group in ascending order. -/
def State.testOrder (s : State) (cls first n : Nat) : List Nat :=
  let l := (List.range n).map fun i => first + i
  (l.filter fun k => (s.failsTest cls k).isNone) ++ l.filter fun k => (s.failsTest cls k).isSome

/-- Without a Star chart in force the logical tiles of a quadrant are its tiles that pass, in ascending order (R369). -/
def State.orderTiles (s : State) : State :=
  if s.flt.starInForce then s
  else
    { s with flt := { s.flt with
      tileOf := (List.range 4).foldl (fun m q =>
        (List.range 64).foldl (fun m i => smSet tileOf0 m (64 * q + i) ((s.testOrder 1 (68 * q) 68).getD i 0)) m) [] } }

/-- The logical tiles mapped; the other tiles that are not retired are spares (R39, R369). -/
def State.bootTiles (s : State) : State :=
  let s := s.orderTiles
  let gone (k : Nat) : Bool :=
    if s.flt.starInForce then s.charted (TILE_STATUS_STATE k) == 4 else (s.failsTest 1 k).isSome
  let t := (List.range 272).foldl (fun (t : State) k => t.put (TILE_STATUS_STATE k) (if gone k then 4 else 5)) s
  (List.range 256).foldl (fun (t : State) l =>
    let k := t.physOf l
    if gone k then t
    else ((t.put (TILE_STATUS_MAPPED k) 1).put (TILE_STATUS_LOGICAL_ID k) l).put (TILE_STATUS_STATE k) 7) t

/-- The state of a channel at boot: Active again where its sparing was cut short. -/
def State.bootChannel (s : State) (k c : Nat) : Nat × Nat :=
  if s.flt.starInForce then
    (if s.charted (HBM_CH_STATUS_STATE k c) = 3 then 1 else s.charted (HBM_CH_STATUS_STATE k c),
      s.charted (HBM_CH_STATUS_SLOT k c))
  else if c < 32 then (1, c) else (2, 0)

/-- A channel that fails training and its boot test: with margins of at least 8 on each side it enters service, with event
0x8107; otherwise it is Retired, and a Spare takes its slot, or a fold does (R149, R151, R160). -/
def State.trainChannel (s : State) (k c : Nat) : State :=
  let st := s.get (HBM_CH_STATUS_STATE k c)
  match s.failsTest 2 (34 * k + c) with
  | none => s
  | some m =>
    if st = 5 then s
    else if 8 ≤ m.1 ∧ 8 ≤ m.2 then s.evLim3 0x8107 (0x10 + k) (0x10 + k) 0 c m.1 m.2
    else if st ≠ 1 then s.channelRetired k c 0 none
    else
      let slot := s.get (HBM_CH_STATUS_SLOT k c)
      match s.freeSpare k with
      | some d => ((s.put (HBM_CH_STATUS_SLOT k d) slot).setChannel k d 1).channelRetired k c 2 (some d)
      | none =>
        let n := s.get (HBM_STACK_STATUS_FOLDS k) + 1
        if 8 < n then s.stackOut k
        else
          let t := (s.put (HBM_STACK_STATUS_FOLDS k) n).put (HBM_STACK_STATUS_CAP_GIB k) (64 - 2 * n)
          let t := t.setStk k { t.stk k with folded := (t.stk k).folded ++ [slot] }
          (t.channelRetired k c 3 none).ev 0x8103 (0x10 + k) 0 1 n c

/-- A stack trained, tested and cleared, its spares first; one that a ninth fold took out of service does not return
(R151, R160; log 83). -/
def State.bootStack (s : State) (k : Nat) : State :=
  let old := if s.flt.starInForce then smGet (fun _ => stack0) s.flt.chart.stks k else stack0
  let n := old.folded.length
  let out : Bool := old.outOfService && decide (8 ≤ n)
  let t := (List.range 34).foldl (fun (t : State) c =>
    (t.put (HBM_CH_STATUS_STATE k c) (t.bootChannel k c).1).put (HBM_CH_STATUS_SLOT k c) (t.bootChannel k c).2) s
  let t := ((t.countChannels k).put (HBM_STACK_STATUS_FOLDS k) n).put (HBM_STACK_STATUS_CAP_GIB k) (64 - 2 * n)
  let t := if out then (t.put (HBM_STACK_STATUS_LEVEL k) 4).put (HBM_STACK_STATUS_SELF_REF k) 1 else t
  let t := t.setStk k { stack0 with replacedBy := old.replacedBy, folded := old.folded, outOfService := out }
  let spare (c : Nat) : Bool := t.get (HBM_CH_STATUS_STATE k c) != 1
  (((List.range 34).filter spare) ++ (List.range 34).filter fun c => !spare c).foldl (fun (t : State) c => t.trainChannel k c) t

/-- The LLM slices mapped: by the Star chart, or without one those of each quadrant that pass, in ascending order, the last of
them the spare (R161, R369). -/
def State.bootSlices (s : State) : State :=
  (List.range 68).foldl (fun (t : State) j =>
    let q := j / 17
    if s.flt.starInForce then
      let i := j % 17
      let st := s.charted (LLM_SLICE_STATUS_STATE q i)
      (t.put (LLM_SLICE_STATUS_STATE q i) (if st = 3 ∨ st = 4 then st else 0)).put (LLM_SLICE_STATUS_ACTIVE_INDEX q i)
        (s.charted (LLM_SLICE_STATUS_ACTIVE_INDEX q i))
    else
      let k := (s.testOrder 3 (17 * q) 17).getD (j % 17) 0
      let i := k - 17 * q
      if (s.failsTest 3 k).isSome then t.put (LLM_SLICE_STATUS_STATE q i) 4
      else if j % 17 < 16 then t.put (LLM_SLICE_STATUS_ACTIVE_INDEX q i) (j % 17)
      else t.put (LLM_SLICE_STATUS_STATE q i) 3) s

/-- The counts of HUB_STAR_STATUS. -/
def State.bootStar (s : State) : State :=
  let dead := ((List.range 272).filter fun k => s.get (TILE_STATUS_STATE k) == 4).length
  let folds := (List.range 12).foldl (fun n k => n + s.get (HBM_STACK_STATUS_FOLDS k)) 0
  ((((s.put HUB_STAR_STATUS_TILE_SPARES s.spareTiles.length).put HUB_STAR_STATUS_TILES_RETIRED dead).put
    HUB_STAR_STATUS_LLM_SPARES s.sliceSpares).put HUB_STAR_STATUS_CH_SPARES s.channelSpares).put HUB_STAR_STATUS_FOLDS folds

/-- The Deep-tier controller ready, with its credit and life restored (R185, R187). -/
def State.bootDeep (s : State) : State :=
  let t := s.put DEEP_STATUS_STATE (if s.readOnlyCause.isSome then 3 else 1)
  ((t.setCredit t.tiers.credit).wear).limited

/-- The units of the module at a cold reset, mapped by the Star chart in force, or in ascending order with event 0x1109 of
SEQ 0 where there is none (R369). -/
def State.bootUnits (s : State) : State :=
  let t := if s.flt.starInForce then s else s.ev 0x1109 0 0 0 0 0
  let t := (List.range 12).foldl (fun (t : State) k => t.bootStack k) t.bootTiles
  let t := (t.bootSlices).bootStar
  ((List.range 32).foldl (fun (t : State) p => t.applyRole p (t.get (SL_CFG_ROLE p))) t).bootDeep

/-! ## The Almanac at boot (R65) -/

/-- An Almanac slot verified, expanded, checked and applied; one that fails is Bad, with event 0x3105. -/
def State.bootImage (s : State) (k : Nat) : State × Bool :=
  let t := s.loadImage 0 (s.slotImage k) (some k)
  match t.checkReport.find? fun f => f.sev == 0 with
  | some f => ((t.closeSession.setSlot k { s.slot k with state := 4 }).ev 0x3105 0 0 k f.code 0, false)
  | none =>
    let n := t.affected.length
    let im := t.cfg.image
    let u := t.activate
    let u := { u with cfg := { u.cfg with activeSvn := imgNum im 24 2, ctxPerVf := u.cfg.active.ctxPerVf } }
    let u := ((u.next CFG_STATUS_CONFIG_GEN).setVolatile).closeSession
    (u.ev 0x3102 0 0 (u.get CFG_STATUS_CONFIG_GEN) (imgNum im 16 8 % 2 ^ 32) n, true)

/-- A slot of the Almanac holds an image that may be booted. -/
def State.bootable (s : State) (k : Nat) : Bool := (s.slot k).state == 2 || (s.slot k).state == 3

/-- The Active slot applied, else the Previous one, else the default configuration with event 0x3106 (R65). -/
def State.bootAlmanac (s : State) : State :=
  let a := s.cfg.dirActive - 1
  let p := s.cfg.dirPrevious
  let r := if s.cfg.dirActive ≠ 0 ∧ s.bootable a then s.bootImage a else (s, false)
  if r.2 then r.1
  else
    let q := if s.cfg.dirHasPrevious ∧ r.1.bootable p then r.1.bootImage p else r
    if q.2 then (q.1.nameActive p).setVolatile else (q.1.setVolatile).ev 0x3106 0 0 0 0 0

/-! ## The boot (R349) -/

/-- The reason for which the ROM fails a slot, 0 where it boots: an erased slot has no MAGIC. -/
def State.slotReason (s : State) (k : Nat) : Nat :=
  match s.fwImage k with
  | [] =>
    if smGet (fun k => k == 0) s.fw.slotGood k then (if Config.madeSvn < s.get FW_STATUS_SVN_FLOOR then 5 else 0) else 1
  | im => s.verifyBoot im

/-- The firmware of a slot runs: functions take work, with event 0xF101, whose boot time is a free value (log 83). -/
def State.running (s : State) (k : Nat) : State :=
  let t := (s.put FW_STATUS_RUN_SLOT k).put FW_STATUS_BOOT_SLOT k
  let t := (t.put FW_STATUS_SVN (s.fwNum k 12 2 Config.madeSvn)).put FW_STATUS_STATE 2
  (t.useFree.trace 0 0 0).ev 0xF101 0 0 k (t.get FW_STATUS_SVN) (Config.freeValue s.free).toNat

/-- The ROM boots the Active slot, else the other one, else the module is in Recovery; `start` is what the boot does before
functions take work. -/
def State.bootRom (s : State) (start : State → State) : State :=
  let k := s.get FW_STATUS_BOOT_SLOT
  let r := s.slotReason k
  if r = 0 then (start s).running k
  else
    let t := s.ev 0xF102 0 0 k r 0
    let r' := t.slotReason (1 - k)
    if r' = 0 then (start t).running (1 - k) else (t.ev 0xF102 0 0 (1 - k) r' 0).put FW_STATUS_STATE 3

/-- The Almanac has not been applied since the cold reset: nothing has set VOLATILE or CONFIG_GEN yet. -/
def State.almanacDue (s : State) : Bool := s.get CFG_STATUS_CONFIG_GEN == 0 && s.get CFG_STATUS_VOLATILE == 0

/-- The boot started again from Recovery (R349). -/
def State.reboot (s : State) : State := s.bootRom fun t => if t.almanacDue then t.bootAlmanac else t

/-- ACTIVATE_FIRMWARE (R349): in Recovery event 0xF103 and a new boot; while the firmware runs it drives ACTIVATE. -/
def execActivateFirmware (s : State) : Host.Outcome State Fault Refusal :=
  .next (s.pldm 0x1A 6
    (let t := { s with fw := { s.fw with fromSideband := false } }.pldmGo 0x1A 0
     if s.get FW_STATUS_STATE = 3 then (t.ev 0xF103 0 0 0 0 0).reboot else t.fwActivate .sideband 2))

/-! ## Power-up (R431, R436) -/

/-- The straps sampled. -/
def State.sampleStraps (s : State) (last : Nat) : State :=
  let t := (s.put HUB_STRAPS_LAST_RESET last).put HUB_STRAPS_JTAG_HOLD (if s.pins.jtagHoldN then 0 else 1)
  ((t.put HUB_STRAPS_MGMT_MODE s.pins.modeStrap).put HUB_STRAPS_MGMT_ADDR s.pins.addrStraps).put HUB_STRAPS_LODESTAR_SEL
    (if s.pins.lodestarStrap then 1 else 0)

/-- The hub released from reset: PWR_GOOD, a latched thermal trip's event 0x1709, whose die is a free value, the units and
the boot, as one step (log 83). -/
def State.bootOn (s : State) : State :=
  let t : State := { s with phase := .on, pins := { s.pins with pwrGood := true } }
  let t := t.emit (.pin "PWR_GOOD" true)
  let t := if s.pwr.thermalLatch then
      ({ t with pwr := { t.pwr with thermalLatch := false } }.useFree).ev 0x1709 0 0 (Config.freeValue s.free).toNat 0
        (t.get EPH_CYCLES_POWER_CYCLES)
    else t
  (t.bootUnits).bootRom State.bootAlmanac

/-- Power-up from the start conditions: the power cycle counted, the straps sampled, and the JTAG hold step where its strap
is low. -/
def State.powerUp (s : State) : State :=
  let t := (s.put EPH_CYCLES_POWER_CYCLES (s.get EPH_CYCLES_POWER_CYCLES + 1)).sampleStraps 0
  if s.pins.jtagHoldN then t.bootOn else { t with phase := .jtagHold }

/-- Power-up starts where the module is off, mated, with PWR_EN high and PACE_REF present (R432, R435; log 83). -/
def State.tryStart (s : State) : State :=
  if s.phase = .off ∧ s.pins.pwrEn ∧ s.pins.mated ∧ s.pace.refPresent then s.powerUp else s

/-- PWR_EN_RISE (R436): during an orderly power-down it waits for the end of that (R437). -/
def execPwrEnRise (s : State) : Host.Outcome State Fault Refusal :=
  .next { s with pins := { s.pins with pwrEn := true } }.tryStart

/-- JTAG_HOLD_RELEASE (R436). -/
def execJtagHoldRelease (s : State) : Host.Outcome State Fault Refusal :=
  let t : State := { s with pins := { s.pins with jtagHoldN := true } }
  .next (if s.phase = .jtagHold then t.bootOn else t)

/-! ## Power-down and loss (R406, R411, R435, R437) -/

/-- The module off: everything but what flash, D and the pins hold is lost. -/
def State.powerOff (s : State) : State :=
  let t := (s.loseWrites).coldBase false
  if s.pins.pwrGood then t.emit (.pin "PWR_GOOD" false) else t

/-- PWR_EN_FALL (R437): forced Nadir with cause 7, and the power-down runs. -/
def execPwrEnFall (s : State) : Host.Outcome State Fault Refusal :=
  let t : State := { s with pins := { s.pins with pwrEn := false } }
  .next (match s.phase with
    | .on =>
      let u := if s.get PWR_STATUS_FORCED = 1 then t.put PWR_STATUS_ALERT_CAUSE 7 else t.enterNadir 7
      { u with phase := .poweringDown }
    | .jtagHold => t.powerOff
    | _ => t)

/-- Credit and life saved to NAND (R187). -/
def State.saveDeep (s : State) : State :=
  { s with tiers := { s.tiers with
    savedCredit := s.tiers.credit, savedLogical := s.tiers.logicalBlocks, savedNand := s.tiers.nandBlocks } }

/-- POWER_DOWN_COMPLETE (R437): every staged record is in flash, vital product data and the credit are saved, PWR_GOOD is low,
and a PWR_EN that rose meanwhile powers the module up again. -/
def execPowerDownComplete (s : State) : Host.Outcome State Fault Refusal :=
  .next (if s.phase = .poweringDown then
      ((((s.programOldest s.eph.staged.length).saveTime).saveDeep).powerOff).tryStart
    else s)

/-- The input lost: THERMTRIP_N is released with it (R411). -/
def State.inputLost (s : State) : State :=
  let t := if s.phase = .off then s else s.powerOff
  { t with pins := { t.pins with thermtripN := true } }

/-- POWER_LOSS (R406): the start conditions after the input's return are PWR_EN_RISE. -/
def execPowerLoss (s : State) : Host.Outcome State Fault Refusal := .next s.inputLost

/-- HARDWARE_THERMAL_TRIP (R411): every regulator but VAUX's is off, and the fault latch and THERMTRIP_N are set. -/
def execHardwareThermalTrip (s : State) : Host.Outcome State Fault Refusal :=
  .next (if s.phase = .off then s
    else
      let t := s.powerOff
      { t with
        pwr := { t.pwr with thermalLatch := true }, pins := { t.pins with thermtripN := false } }.emit
        (.pin "THERMTRIP_N" false))

/-- MODULE_INSERTION (R435): nothing happens until PRESENT_N has mated too. -/
def execModuleInsertion (s : State) : Host.Outcome State Fault Refusal :=
  .next { s with pins := { s.pins with mated := true } }.tryStart

/-- MODULE_REMOVAL (R435): with PWR_EN high it is a power loss. -/
def execModuleRemoval (s : State) : Host.Outcome State Fault Refusal :=
  let t := s.inputLost
  .next { t with pins := { t.pins with mated := false } }

/-! ## PACE_REF (R432) -/

/-- PACE_REF_LOSS (R432): tokens are withheld across the module. -/
def execPaceRefLoss (s : State) : Host.Outcome State Fault Refusal :=
  .next { s with pace := { s.pace with refPresent := false, lossHeld := s.get HUB_HELD_HELD } }

/-- PACE_REF_RESUME (R432): issue resumes; the beats held since the loss are one stretch, recorded with detector 0xFFFF; a
power-up that waited for PACE_REF goes on. -/
def execPaceRefResume (s : State) : Host.Outcome State Fault Refusal :=
  .next (if s.pace.refPresent then s
    else
      let t : State := { s with pace := { s.pace with refPresent := true } }
      if s.on then
        let n := s.get HUB_HELD_HELD - s.pace.lossHeld
        (t.inc HUB_PACE_STATUS_STRETCH_COUNT 1).stretchEvent n 0xFFFF
      else t.tryStart)

/-! ## MCTP control messages (R433) -/

/-- MCTP_CONTROL_MESSAGE (R433): answered from power-up on, during Recovery and Nadir too: the command code and a completion
code, 0 for the commands of DSP0236 and 5 for others (log 85). -/
def execMctpControlMessage (_eid cmd : Nat) (_data : List Byte) (s : State) : Host.Outcome State Fault Refusal :=
  .next (if s.phase ≠ .off then
      s.emit (.mctp 0 (bytesLE 1 cmd ++ bytesLE 1 (if 1 ≤ cmd ∧ cmd ≤ 0x0A then 0 else 5)))
    else s)

/-! ## Cold reset (R438) -/

/-- A cold reset, with VAUX kept: it ends a freeze, and the power-up sequence runs from the release of the hub. -/
def State.coldReset (s : State) (last : Nat) : State :=
  let t := if s.frozen then s.endFreeze else s
  let t := (((t.loseWrites).coldBase true).emit (.pin "PWR_GOOD" false)).sampleStraps last
  t.bootOn

/-- COLD_RESET_N (R438); a power-down absorbs it. -/
def execColdResetN (s : State) : Host.Outcome State Fault Refusal :=
  .next (if s.phase = .on then s.coldReset 1 else s)

/-- HUB_RESET_COLD (R441): from the sideband only; a freeze does not hold it. -/
def execHubResetCold (path : Path) (s : State) : Host.Outcome State Fault Refusal :=
  .next (if s.phase = .on ∧ path = .sideband then s.coldReset 2 else s)

/-! ## Warm reset (R439, R441) -/

/-- A reset waits: a firmware switch runs, or forced Nadir holds it (R441). -/
def State.resetWaits (s : State) : Bool := s.get FW_STATUS_DRAINING == 1 || s.get PWR_STATUS_FORCED == 1

/-- A unit drained and reset; one out of service stays as it is (R365, R378). -/
def State.warmUnit (s : State) (cls idx : Nat) : State :=
  if s.isOut cls idx then s else (s.drainUnit cls idx).unitReset cls idx

/-- The units that a warm reset resets by generation but for stacks, ports and the firmware (R377, R439; log 86). -/
def warmUnits : List (Nat × Nat) :=
  ((List.range 272).map fun t => (1, t)) ++ ((List.range 12).map fun k => (5, k)) ++ ((List.range 4).map fun q => (6, q)) ++
    ((List.range 4).map fun q => (7, q)) ++ [(8, 0)] ++ (List.range 4).map fun q => (10, q)

/-- The stack controllers under a new generation, their exercisers stopped. -/
def State.warmStacks (s : State) : State :=
  (List.range 12).foldl (fun (t : State) k =>
    (t.next (HBM_STACK_STATUS_GENERATION k)).setStk k { t.stk k with exerciser := false }) s

/-- The firmware's registers and soft state at a warm reset: all but SVN_FLOOR, FW_TRACE_EN, the slots and the command journal
start again under a new generation. -/
def State.warmFw (s : State) : State :=
  let w := withBits 31 16 (s.get FW_STATUS_SVN_FLOOR) 0
  let w := withBits 63 48 (s.get FW_STATUS_GENERATION + 1) w
  let t := s.wr FW_STATUS_STATE.off (withBits 4 4 (s.get FW_STATUS_BOOT_SLOT) w)
  let t := ((t.wr FW_UPD_SRC_SRC.off 0).wr FW_UPD_RESULT_REASON.off 0).wr FW_LOG_PTR_SEQ.off 0
  { t with fw := { s.bootFw with journal := s.fw.journal } }

/-- A warm reset runs (R439). -/
def State.warmReset (s : State) (last : Nat) : State :=
  let t := if s.frozen then s.endFreeze else s
  let t := (t.put ECL_STATUS_SOURCE 0).linkReset
  let t := (warmUnits.foldl (fun (t : State) u => t.warmUnit u.1 u.2) t).warmStacks
  let t := t.tiles.foldl (fun (u : State) x => u.setTile x.1 { x.2 with winQuant := 0, winSat := 0, winUfl := 0 }) t
  let t := ((t.put EPH_PAGE_SECTOR 0).put HUB_STRAPS_LAST_RESET last).warmFw
  let t := { t with cfg := { t.cfg with ctxPerVf := t.cfg.active.ctxPerVf } }
  (t.bootRom fun u => u).rejournal

/-! ## Partition reset (R440, R441) -/

/-- The queues of a partition. -/
def State.queuesOf (s : State) (p : Nat) : List QueueId := drainQueues.filter fun q => s.queuePart q == some p

/-- A partition reset waits: a firmware switch, forced Nadir, or an Armed commit that affects the partition (R441). -/
def State.partWaits (s : State) (p : Nat) : Bool :=
  s.resetWaits || s.frozen || s.cfg.armed.any fun a => a.affected.contains p

/-- The tiles of a partition reset without replay, their entries gone (R440 step 3). -/
def State.partTilesReset (s : State) (p : Nat) : State :=
  (s.partTiles p).foldl (fun (t : State) l =>
    let k := t.physOf l
    let old := t.get (TILE_STATUS_GENERATION k)
    let lost := (t.xreqs.filter fun x => tileReq k x).length
    if t.get (TILE_STATUS_STATE k) = 4 ∨ t.get (TILE_STATUS_MAPPED k) = 0 then t
    else
      let u := { t with xreqs := t.xreqs.filter fun x => !tileReq k x }.setTile k tile0
      ((u.next (TILE_STATUS_GENERATION k)).put (TILE_STATUS_STATE k) 0).resetEvent 1 k old lost) s

/-- The streams of a partition. -/
def State.partStreams (s : State) (p : Nat) : List Nat :=
  s.cfg.active.streams.filterMap fun (x : Nat × Option StreamDef) => match x.2 with
    | some d => if d.part = p then some x.1 else none
    | none => none

/-- The work of a partition that its reset drops ends with CANCELLED (log 86). -/
def State.partCancel (s : State) (p : Nat) : State :=
  let mine (q : QueueId) : Bool := s.queuePart q == some p
  let t := (List.range 8).foldl (fun (t : State) w =>
    ((t.wlist p w).inflight).foldl (fun (u : State) i => u.completeEntry p w i.seq .cancelled 0) t) s
  let t := (s.haloOps.filter fun o => mine (.haloQp o.engine o.qp) && o.status.isNone).foldl (fun (t : State) o =>
    t.haloEnd o .cancelled) t
  let t := (s.orrOps.filter fun o => mine (.orrQp o.quad o.qp) && o.status.isNone).foldl (fun (t : State) o =>
    t.orrEnd o .cancelled) t
  (s.coll.ops.filter fun o => mine (.collCh o.quad o.ch) && o.status.isNone).foldl (fun (t : State) o =>
    match t.groupAt o.quad o.ch o.gid with
    | some g => t.collFail g o .cancelled
    | none => t) t

/-- The cache slices of a partition flush-invalidated. -/
def State.partFlush (s : State) (p : Nat) : State :=
  ((List.range 68).filter fun k =>
    s.get (LLM_SLICE_STATUS_PARTITION (k / 17) (k % 17)) == p && s.get (LLM_SLICE_STATUS_STATE (k / 17) (k % 17)) == 1).foldl
    (fun (t : State) k => (t.sliceBlocks k).foldl (fun (u : State) b => u.lineOp 3 b) t) s

/-- The open step of a partition skipped with outcome 6, where the abandonment of its barriers has not already resolved it. -/
def State.partSkip (s : State) (p c : Nat) (isOpen : Bool) : State :=
  if isOpen ∧ s.committed p = c then s.resolveStep p ((c + 1) % 2 ^ 32) 6 else s

/-- A partition reset runs (R440); as one step, so that its contexts are never seen Fenced by it. -/
def State.partReset (s : State) (p : Nat) : State :=
  let c := s.committed p
  let isOpen := s.stepOpen p
  let t := (s.queuesOf p).foldl (fun (t : State) q => if t.get (qEn q) = 1 then t.put (qState q) 2 else t) s
  let t := [0, 1, 2].foldl (fun (u : State) sc =>
    if (u.barrier p sc).arrived.isEmpty then u else u.abandon (u.barrier p sc)) t
  let t := t.partSkip p c isOpen
  let t := (t.partTilesReset p).freeRecs fun r => r.part == p
  let t := { t with
    waits := t.waits.filter fun (w : StreamWait) => !(t.partStreams p).contains w.stream
    feeds := t.feeds.filter fun (f : Feed) => f.part != p }
  let t := (t.partStreams p).foldl (fun (u : State) i => u.resetStream i) t
  let t := ((t.partCancel p).partFlush p).put (HUB_PART_CFG_FENCED p) 0
  let t := (t.queuesOf p).foldl (fun (u : State) q => if u.get (qEn q) = 1 then u.put (qState q) 2 else u) t
  (t.liveCtxs.filter fun n => t.get (CTX_PARTITION n) == p && t.get (CTX_STATE n) == 2 && t.get (CTX_FENCE_REASON n) == 2).foldl
    (fun (u : State) n => (u.put (CTX_STATE n) 1).put (CTX_FENCE_REASON n) 0) t

end Sys2Proof.Machine
end

