-- ==== Sys2Proof/Machine/Resume.lean ====
section
/-!
DEFINITION. Work that waited and goes on: what a freeze held, resets that waited for a commit, a firmware switch or forced
Nadir, and an ACTIVATE that waited for a commit; and the commands after which it may (R8, R35, R53, R57, R58, R133, R136,
R352 to R354, R405, R424, R439 to R441).
-/

namespace Sys2Proof.Machine

open Sys2Proof

/-! ## What a freeze held (R423, R424) -/

/-- The port and packet of a command that receives one. -/
def packetOf (i : Instr) : Option (Nat × Packet) :=
  match i with
  | .readReq x | .readRsp x | .writeReq x | .writeAck x | .rowReq x | .rowRsp x | .pairs x | .statusPkt x
  | .meridianPacket x | .time x | .constHeartbeat x | .takeoverClaimAck x | .constMembership x | .constPoolGrant x
  | .replRequest x | .replGrant x | .replInvalidation x | .replPush x | .replAcknowledgement x | .replDrop x
  | .groupCrcReceive x | .groupAnswer x | .collContribution x | .collResult x | .collProgress x | .collResendRequest x
  | .collStatus x | .noticeAccusation x | .noticeMergedAccusation x | .noticePowerHold x | .noticeFreeze x
  | .noticeRelease x => some (x.port % 32, x.pkt)
  | .ethernetFrameReceive p f => some (p.val, f.pkt)
  | _ => none

/-- A write of a staging mirror (R51, R53): without effect outside the mirrors, held while frozen. -/
def State.mirrorAt (s : State) (path : Path) (off : Nat) (h : Half) (v : Nat) : State :=
  match mirrorTarget off with
  | none => s
  | some k => s.ctrl (.mirrorWrite path off h (BitVec.ofNat 64 v)) (ownerCode path != 0) (s.mirrorWrite path k h v)

/-- The write of an unassigned update command: it ends with REFUSED_PARTITION (R351). -/
def State.fwUnassigned (s : State) (path : Path) (a : RegAddr) (h : Half) (v : Word) : Bool :=
  s.resolve path a == some FW_UPD_CMD_OP.off && decide (h ≠ .high) &&
    (bitsOf 3 0 v.toNat == 0 || decide (5 < bitsOf 3 0 v.toNat))

/-- A register write (R8). -/
def State.regWrite (s : State) (path : Path) (a : RegAddr) (h : Half) (v : Word) : State :=
  if s.fwUnassigned path a h v then s.fwCommand path (bitsOf 3 0 v.toNat) (.registerWrite path a h v) [] fun t => t
  else s.registerWrite path a h v

/-- The meaning of a command that a freeze held. -/
def heldRun (i : Instr) (s : State) : Host.Outcome State Fault Refusal :=
  match i with
  | .queueEnWrite p q e => execQueueEnWrite p q e s
  | .queueRestart p q => execQueueRestart p q s
  | .queueTailWrite p q n => execQueueTailWrite p q n s
  | .completionRingRoom p q n => execCompletionRingRoom p q n s
  | .doorbell f l q n => execDoorbell f l q n s
  | .heartbeat f l => execHeartbeat f l s
  | .loadBuffer p => execLoadBuffer p s
  | .loadSlot p k => execLoadSlot p k s
  | .check p => execCheck p s
  | .arm p w => execArm p w s
  | .discard p => .next (s.cfgDiscard p)
  | .cfgStore p k => execCfgStore p k s
  | .eraseSlot p k => execEraseSlot p k s
  | .revert p => execRevert p s
  | .cfgConfirm p => execCfgConfirm p s
  | .cfgRaiseSvnFloor p => execCfgRaiseSvnFloor p s
  | .cfgOpUnassigned p o => execCfgOpUnassigned p o s
  | .stage p w => execStage p w s
  | .activate p w => execActivate p w s
  | .fwConfirm p => execFwConfirm p s
  | .rollback p => execRollback p s
  | .fwRaiseSvnFloor p => execFwRaiseSvnFloor p s
  | .ifSelWrite p f v => execIfSelWrite p f v s
  | .resume f => execResume f s
  | .teardown f => execTeardown f s
  | .portReset p k => execPortReset p k s
  | .portRetrain p k => execPortRetrain p k s
  | .portClear p k => execPortClear p k s
  | .portCalibrate p k => execPortCalibrate p k s
  | .routeFlip p => execRouteFlip p s
  | .registerWrite p a h v => .next (s.regWrite p a h v)
  | .bar0WindowAccess o h w => .next (s.windowAccess o h w)
  | .bar2Write f o d => execBar2Write f o d s
  | .unitResetRequest p c x => execUnitResetRequest p c x s
  | .unitRetireRequest p c x => execUnitRetireRequest p c x s
  | .clearHistory p c x => execClearHistory p c x s
  | .offline k c => execOffline k c s
  | .online k c => execOnline k c s
  | .exerciserStart k => execExerciserStart k s
  | .exerciserAbort k => execExerciserAbort k s
  | .llmFlush q x => execLlmFlush q x s
  | .llmInvalidate q x => execLlmInvalidate q x s
  | .llmFlushInvalidate q x => execLlmFlushInvalidate q x s
  | .pcieReadCompletion r d => execPcieReadCompletion r d s
  | .flushReadComplete r => execFlushReadComplete r s
  | .pTierRefused r => execPTierRefused r s
  | .pcieCompletionPoisoned r => execPcieCompletionPoisoned r s
  | .pcieCompletionTimeout r => execPcieCompletionTimeout r s
  | .qsatCtlWrite p t h v => execQsatCtlWrite p t h v s
  | .paceSetWrite p v => execPaceSetWrite p v s
  | .mirrorWrite p o h v => .next (s.mirrorAt p o h v.toNat)
  | _ => .next s

/-- The state of a next outcome. -/
def afterRun (s : State) (o : Host.Outcome State Fault Refusal) : State :=
  match o with
  | .next t => t
  | _ => s

/-- A held command or packet takes its effect, or is held again where another freeze has begun. -/
def State.runOne (s : State) (i : Instr) : State :=
  match packetOf i with
  | some x => s.handUp i x.1 x.2
  | none => afterRun s (heldRun i s)

/-- What the freeze held takes its effect, in order of arrival. -/
def State.runHeld (s : State) : State :=
  s.ecl.held.foldl (fun (t : State) i => t.runOne i) { s with ecl := { s.ecl with held := [] } }

/-! ## Resets and update commands that waited (R352, R441) -/

/-- A reset that waits is kept for later. -/
def State.keepReset (s : State) (i : Instr) : State := { s with cfg := { s.cfg with resets := s.cfg.resets ++ [i] } }

/-- A warm reset, which ends a freeze: what that held takes its effect once the firmware runs again. -/
def State.warmRun (s : State) (last : Nat) : State :=
  let t := s.warmReset last
  if s.frozen then t.runHeld else t

/-- A warm or partition reset runs, or waits (R441). -/
def State.tryReset (s : State) (i : Instr) : State :=
  match i with
  | .warmResetN => if s.resetWaits then s.keepReset i else s.warmRun 3
  | .hubResetWarm _ => if s.resetWaits then s.keepReset i else s.warmRun 4
  | .hubResetPartition _ p =>
    if s.partWaits p.val then s.keepReset i else if s.partValid p.val then s.partReset p.val else s
  | _ => s

/-- The resets that waited are tried in order. -/
def State.runResets (s : State) : State :=
  s.cfg.resets.foldl (fun (t : State) i => t.tryReset i) { s with cfg := { s.cfg with resets := [] } }

/-- What waited for the end of a commit, a switch or a hold goes on. -/
def State.settle (s : State) : State :=
  let t := if s.cfg.resets = [] then s else s.runResets
  let u := t.get FW_STATUS_UPD
  if t.fw.deferred = [] ∨ t.stg = 4 ∨ u = 1 ∨ u = 3 ∨ u = 5 then t else t.fwResume

/-- WARM_RESET_N (R439); a power-down absorbs it. -/
def execWarmResetN (s : State) : Host.Outcome State Fault Refusal :=
  .next (if s.phase = .on then s.tryReset .warmResetN else s)

/-- HUB_RESET_WARM (R439, R441): from PF0 and the sideband; a freeze does not hold it. -/
def execHubResetWarm (path : Path) (s : State) : Host.Outcome State Fault Refusal :=
  .next (if s.phase = .on ∧ ctrlPath path then s.tryReset (.hubResetWarm path) else s)

/-- HUB_RESET_PARTITION (R440, R441): from PF0 and the sideband, for a valid partition; a freeze holds it. -/
def execHubResetPartition (path : Path) (p : Fin 128) (s : State) : Host.Outcome State Fault Refusal :=
  .next (if s.phase = .on ∧ ctrlPath path ∧ s.partValid p.val then s.tryReset (.hubResetPartition path p) else s)

/-! ## The end of a freeze (R424) -/

/-- The freeze ends once every source has cleared, and what it held takes its effect. -/
def State.tryThaw (s : State) : State :=
  if s.frozen ∧ s.sourcesClear then ((s.endFreeze).runHeld).settle else s

/-- A 1 written to RESUME. -/
def State.eclResume (s : State) : State := { s with ecl := { s.ecl with waitsResume := false } }.tryThaw

/-- ECL_RESUME (R424). -/
def execEclResume (path : Path) (s : State) : Host.Outcome State Fault Refusal :=
  .next (if s.on && eclPath path then s.eclResume else s)

/-- FREEZE_N_RELEASE (R424). -/
def execFreezeNRelease (s : State) : Host.Outcome State Fault Refusal :=
  let t : State := { s with pins := { s.pins with freezeN := true } }
  .next (if s.on then t.tryThaw else t)

/-- JTAG_ECL_CTL (R426): FREEZE, then RESUME, by the 2-bit data register, which shifts out zeros. -/
def execJtagEclCtl (freeze resume : Bool) (s : State) : Host.Outcome State Fault Refusal :=
  .next (if s.on then
      let t := s.jtagOut 6 0 2
      let t := if freeze then t.freezeFrom 2 else t
      if resume then t.eclResume else t
    else s)

/-! ## Register writes (R8, R35, R53) -/

/-- REGISTER_WRITE (R8, R351): a write that clears a source of a freeze may end it. -/
def execRegisterWrite (path : Path) (a : RegAddr) (h : Half) (v : Word) (s : State) : Host.Outcome State Fault Refusal :=
  .next ((s.regWrite path a h v).tryThaw).settle

/-- BAR0_WINDOW_ACCESS (R35). -/
def execBar0WindowAccess (off : Nat) (h : Half) (write : Option Word) (s : State) : Host.Outcome State Fault Refusal :=
  .next ((s.windowAccess off h write).tryThaw).settle

/-- MIRROR_WRITE (R53). -/
def execMirrorWrite (path : Path) (off : Nat) (h : Half) (v : Word) (s : State) : Host.Outcome State Fault Refusal :=
  .next (s.mirrorAt path off h v.toNat).settle

/-- DISCARD (R53). -/
def execDiscard (path : Path) (s : State) : Host.Outcome State Fault Refusal := .next (s.cfgDiscard path).settle

/-! ## The commit, the module Meridian and job releases (R57, R58, R133, R136) -/

/-- DRAIN_END (R57). -/
def execDrainEnd (s : State) : Host.Outcome State Fault Refusal := .next (s.drainEnd).settle

/-- DRAIN_LIMIT_EXPIRE (R57). -/
def execDrainLimitExpire (s : State) : Host.Outcome State Fault Refusal := .next (s.drainLimit).settle

/-- ARM_TIMEOUT_EXPIRE (R58). -/
def execArmTimeoutExpire (s : State) : Host.Outcome State Fault Refusal := .next (s.armTimeout).settle

/-- MODULE_MERIDIAN_RAISE (R133). -/
def execModuleMeridianRaise (s : State) : Host.Outcome State Fault Refusal :=
  .next (if s.live then (s.moduleMeridian).settle else s)

/-- JOB_RELEASE_INSTANT (R136): the release of a job-scope barrier that is neither the check nor the verdict barrier. -/
def execJobReleaseInstant (p : Fin 128) (s : State) : Host.Outcome State Fault Refusal :=
  let b := s.barrier p.val 2
  .next (if s.live && s.relDue p.val && !s.isCheck p.val b && !s.isVerdict p.val b then (s.jobRelease p.val).settle else s)

/-- MERIDIAN_PACKET (R136, R138). -/
def execMeridianPacket (rx : Rx) (s : State) : Host.Outcome State Fault Refusal :=
  .next (s.packetIn (.meridianPacket rx) rx fun p => p.ty == 0x0A).settle

/-! ## The firmware's switches, and the end of forced Nadir (R352 to R354, R405) -/

/-- FW_SWITCH_COMPLETE (R352). -/
def execFwSwitchComplete (selfCheckOk : Bool) (s : State) : Host.Outcome State Fault Refusal :=
  .next (s.switchEnd selfCheckOk).settle

/-- ROLLBACK_COMPLETE (R353). -/
def execRollbackComplete (s : State) : Host.Outcome State Fault Refusal := .next (s.rollbackEnd).settle

/-- FW_WATCHDOG_EXPIRE (R354). -/
def execFwWatchdogExpire (core : Fin 6) (s : State) : Host.Outcome State Fault Refusal := .next (s.fwWatchdog core.val).settle

/-- FORCED_NADIR_END (R405): a reset that the hold kept standing goes on (R441). -/
def execForcedNadirEnd (s : State) : Host.Outcome State Fault Refusal := .next (s.nadirEnd).settle

end Sys2Proof.Machine
end

