-- ==== Sys2Proof/Machine/Dispatch.lean ====
section
/-!
DEFINITION. The command dispatcher: one arm per command of the opcode table.
-/

namespace Sys2Proof.Machine

open Sys2Proof

/-- The effect of a command on everything but the queue. -/
def exec (i : Instr) (s : State) : Host.Outcome State Fault Refusal :=
  match i with
  | .accessUnsupportedSize off size write fn => Sys2Proof.Machine.execAccessUnsupportedSize off size write fn s
  | .accessOutsideBlocks off write fn => Sys2Proof.Machine.execAccessOutsideBlocks off write fn s
  | .registerWrite path a h v => Sys2Proof.Machine.execRegisterWrite path a h v s
  | .rcFieldRead path a h => Sys2Proof.Machine.execRcFieldRead path a h s
  | .extentChangeTakesEffect ctx => Sys2Proof.Machine.execExtentChangeTakesEffect ctx s
  | .bar0WindowAccess off h write => Sys2Proof.Machine.execBar0WindowAccess off h write s
  | .bar2Read fn off len => Sys2Proof.Machine.execBar2Read fn off len s
  | .bar2Write fn off data => Sys2Proof.Machine.execBar2Write fn off data s
  | .pTierRefused req => Sys2Proof.Machine.execPTierRefused req s
  | .pcieCompletionPoisoned req => Sys2Proof.Machine.execPcieCompletionPoisoned req s
  | .pcieCompletionTimeout req => Sys2Proof.Machine.execPcieCompletionTimeout req s
  | .contextFree ctx => Sys2Proof.Machine.execContextFree ctx s
  | .loadBuffer path => Sys2Proof.Machine.execLoadBuffer path s
  | .loadSlot path slot => Sys2Proof.Machine.execLoadSlot path slot s
  | .check path => Sys2Proof.Machine.execCheck path s
  | .checkComplete => Sys2Proof.Machine.execCheckComplete s
  | .arm path w => Sys2Proof.Machine.execArm path w s
  | .discard path => Sys2Proof.Machine.execDiscard path s
  | .cfgStore path slot => Sys2Proof.Machine.execCfgStore path slot s
  | .revert path => Sys2Proof.Machine.execRevert path s
  | .cfgConfirm path => Sys2Proof.Machine.execCfgConfirm path s
  | .eraseSlot path slot => Sys2Proof.Machine.execEraseSlot path slot s
  | .cfgRaiseSvnFloor path => Sys2Proof.Machine.execCfgRaiseSvnFloor path s
  | .cfgOpUnassigned path op => Sys2Proof.Machine.execCfgOpUnassigned path op s
  | .mirrorWrite path off h v => Sys2Proof.Machine.execMirrorWrite path off h v s
  | .drainEnd => Sys2Proof.Machine.execDrainEnd s
  | .drainLimitExpire => Sys2Proof.Machine.execDrainLimitExpire s
  | .armTimeoutExpire => Sys2Proof.Machine.execArmTimeoutExpire s
  | .trialExpire => Sys2Proof.Machine.execTrialExpire s
  | .directoryWriteComplete => Sys2Proof.Machine.execDirectoryWriteComplete s
  | .qsatCtlWrite path t h v => Sys2Proof.Machine.execQsatCtlWrite path t h v s
  | .nop t w => Sys2Proof.Machine.execNop t w s
  | .endOp t w => Sys2Proof.Machine.execEndOp t w s
  | .fence t w => Sys2Proof.Machine.execFence t w s
  | .wait t w => Sys2Proof.Machine.execWait t w s
  | .waitTimeout t => Sys2Proof.Machine.execWaitTimeout t s
  | .signal t w => Sys2Proof.Machine.execSignal t w s
  | .barrier t w => Sys2Proof.Machine.execBarrier t w s
  | .loop t w => Sys2Proof.Machine.execLoop t w s
  | .load t w flt => Sys2Proof.Machine.execLoad t w flt s
  | .gather t w flt => Sys2Proof.Machine.execGather t w flt s
  | .store t w chk => Sys2Proof.Machine.execStore t w chk s
  | .scatter t w chk => Sys2Proof.Machine.execScatter t w chk s
  | .copy t w chk => Sys2Proof.Machine.execCopy t w chk s
  | .send t w chk => Sys2Proof.Machine.execSend t w chk s
  | .prefetch t w => Sys2Proof.Machine.execPrefetch t w s
  | .mm t w chk => Sys2Proof.Machine.execMm t w chk s
  | .mmta t w chk => Sys2Proof.Machine.execMmta t w chk s
  | .vadd t w chk => Sys2Proof.Machine.execVadd t w chk s
  | .vsub t w chk => Sys2Proof.Machine.execVsub t w chk s
  | .vmul t w chk => Sys2Proof.Machine.execVmul t w chk s
  | .vfma t w chk => Sys2Proof.Machine.execVfma t w chk s
  | .vmax t w chk => Sys2Proof.Machine.execVmax t w chk s
  | .vmin t w chk => Sys2Proof.Machine.execVmin t w chk s
  | .vact t w chk => Sys2Proof.Machine.execVact t w chk s
  | .vcmp t w chk => Sys2Proof.Machine.execVcmp t w chk s
  | .vsel t w chk => Sys2Proof.Machine.execVsel t w chk s
  | .vrsum t w chk => Sys2Proof.Machine.execVrsum t w chk s
  | .vrmax t w chk => Sys2Proof.Machine.execVrmax t w chk s
  | .vtopk t w chk => Sys2Proof.Machine.execVtopk t w chk s
  | .vcvt t w chk => Sys2Proof.Machine.execVcvt t w chk s
  | .quant t w chk => Sys2Proof.Machine.execQuant t w chk s
  | .dequant t w chk => Sys2Proof.Machine.execDequant t w chk s
  | .vtrans t w chk => Sys2Proof.Machine.execVtrans t w chk s
  | .vfill t w chk => Sys2Proof.Machine.execVfill t w chk s
  | .vrand t w chk => Sys2Proof.Machine.execVrand t w chk s
  | .vidx t w chk => Sys2Proof.Machine.execVidx t w chk s
  | .xadd t w chk => Sys2Proof.Machine.execXadd t w chk s
  | .xmerge t w chk => Sys2Proof.Machine.execXmerge t w chk s
  | .xround t w chk => Sys2Proof.Machine.execXround t w chk s
  | .xzero t w chk => Sys2Proof.Machine.execXzero t w chk s
  | .sealchk t w chk => Sys2Proof.Machine.execSealchk t w chk s
  | .macroOpComplete t => Sys2Proof.Machine.execMacroOpComplete t s
  | .queueEnWrite path q en => Sys2Proof.Machine.execQueueEnWrite path q en s
  | .queueRestart path q => Sys2Proof.Machine.execQueueRestart path q s
  | .queueTailWrite path q tail => Sys2Proof.Machine.execQueueTailWrite path q tail s
  | .completionRingRoom path q head => Sys2Proof.Machine.execCompletionRingRoom path q head s
  | .run p l => Sys2Proof.Machine.execRun p l s
  | .meridian p l => Sys2Proof.Machine.execMeridian p l s
  | .notify p l => Sys2Proof.Machine.execNotify p l s
  | .entryComplete p l seq => Sys2Proof.Machine.execEntryComplete p l seq s
  | .feedStart p l => Sys2Proof.Machine.execFeedStart p l s
  | .streamAccessResume k => Sys2Proof.Machine.execStreamAccessResume k s
  | .streamWatchdogExpire n => Sys2Proof.Machine.execStreamWatchdogExpire n s
  | .moduleMeridianRaise => Sys2Proof.Machine.execModuleMeridianRaise s
  | .jobReleaseInstant p => Sys2Proof.Machine.execJobReleaseInstant p s
  | .meridianTimeout p scope => Sys2Proof.Machine.execMeridianTimeout p scope s
  | .dimTokenSend p => Sys2Proof.Machine.execDimTokenSend p s
  | .paceSetWrite path v => Sys2Proof.Machine.execPaceSetWrite path v s
  | .paceGroupBoundary groups => Sys2Proof.Machine.execPaceGroupBoundary groups s
  | .droopTrip detector => Sys2Proof.Machine.execDroopTrip detector s
  | .droopClear slots => Sys2Proof.Machine.execDroopClear slots s
  | .paceEpoch => Sys2Proof.Machine.execPaceEpoch s
  | .offline k c => Sys2Proof.Machine.execOffline k c s
  | .online k c => Sys2Proof.Machine.execOnline k c s
  | .sparingCopyComplete k c => Sys2Proof.Machine.execSparingCopyComplete k c s
  | .channelUnreadable k c => Sys2Proof.Machine.execChannelUnreadable k c s
  | .foldComplete k c => Sys2Proof.Machine.execFoldComplete k c s
  | .refresh k pc waits => Sys2Proof.Machine.execRefresh k pc waits s
  | .stackTempSample k temp => Sys2Proof.Machine.execStackTempSample k temp s
  | .t3HoldExpire k => Sys2Proof.Machine.execT3HoldExpire k s
  | .exerciserStart k => Sys2Proof.Machine.execExerciserStart k s
  | .exerciserAbort k => Sys2Proof.Machine.execExerciserAbort k s
  | .exerciserRunComplete k errors marginLo marginHi => Sys2Proof.Machine.execExerciserRunComplete k errors marginLo marginHi s
  | .llmFlush q j => Sys2Proof.Machine.execLlmFlush q j s
  | .llmInvalidate q j => Sys2Proof.Machine.execLlmInvalidate q j s
  | .llmFlushInvalidate q j => Sys2Proof.Machine.execLlmFlushInvalidate q j s
  | .llmOpComplete q j => Sys2Proof.Machine.execLlmOpComplete q j s
  | .llmSliceCopyComplete q j => Sys2Proof.Machine.execLlmSliceCopyComplete q j s
  | .deferralHeadReadmit point => Sys2Proof.Machine.execDeferralHeadReadmit point s
  | .deferralWaitLimit point => Sys2Proof.Machine.execDeferralWaitLimit point s
  | .promotionComplete k tid row ok => Sys2Proof.Machine.execPromotionComplete k tid row ok s
  | .writeBackAck k tid row => Sys2Proof.Machine.execWriteBackAck k tid row s
  | .dWriteAcknowledge id => Sys2Proof.Machine.execDWriteAcknowledge id s
  | .garbageCollection moved => Sys2Proof.Machine.execGarbageCollection moved s
  | .staticWearLevelling moved => Sys2Proof.Machine.execStaticWearLevelling moved s
  | .readDisturbRefresh block moved => Sys2Proof.Machine.execReadDisturbRefresh block moved s
  | .retentionRefresh moved => Sys2Proof.Machine.execRetentionRefresh moved s
  | .badBlockRetirement block lost => Sys2Proof.Machine.execBadBlockRetirement block lost s
  | .deepRestoreComplete => Sys2Proof.Machine.execDeepRestoreComplete s
  | .governorCreditSave => Sys2Proof.Machine.execGovernorCreditSave s
  | .translationRebuildComplete => Sys2Proof.Machine.execTranslationRebuildComplete s
  | .haloGather k qp => Sys2Proof.Machine.execHaloGather k qp s
  | .update k qp => Sys2Proof.Machine.execUpdate k qp s
  | .haloStepEnd k qp => Sys2Proof.Machine.execHaloStepEnd k qp s
  | .lookahead k qp => Sys2Proof.Machine.execLookahead k qp s
  | .migrate k qp => Sys2Proof.Machine.execMigrate k qp s
  | .swap k qp => Sys2Proof.Machine.execSwap k qp s
  | .loadStats k qp => Sys2Proof.Machine.execLoadStats k qp s
  | .override k qp => Sys2Proof.Machine.execOverride k qp s
  | .replPushTimeout k tid row => Sys2Proof.Machine.execReplPushTimeout k tid row s
  | .loadWindowEnd k tid => Sys2Proof.Machine.execLoadWindowEnd k tid s
  | .migrationCopyComplete k tid => Sys2Proof.Machine.execMigrationCopyComplete k tid s
  | .rowMapRebuildComplete k tid replica => Sys2Proof.Machine.execRowMapRebuildComplete k tid replica s
  | .grad q qp => Sys2Proof.Machine.execGrad q qp s
  | .orrStepEnd q qp => Sys2Proof.Machine.execOrrStepEnd q qp s
  | .setHyper q qp => Sys2Proof.Machine.execSetHyper q qp s
  | .exportOp q qp => Sys2Proof.Machine.execExportOp q qp s
  | .importOp q qp => Sys2Proof.Machine.execImportOp q qp s
  | .skip q qp => Sys2Proof.Machine.execSkip q qp s
  | .rootComputeComplete q k => Sys2Proof.Machine.execRootComputeComplete q k s
  | .checkBarrierRelease p => Sys2Proof.Machine.execCheckBarrierRelease p s
  | .verdictRelease p => Sys2Proof.Machine.execVerdictRelease p s
  | .parallaxWindowExpire p => Sys2Proof.Machine.execParallaxWindowExpire p s
  | .signalDetect port lanes => Sys2Proof.Machine.execSignalDetect port lanes s
  | .trainingStepDone port lanes => Sys2Proof.Machine.execTrainingStepDone port lanes s
  | .trainingStepTimeout port => Sys2Proof.Machine.execTrainingStepTimeout port s
  | .signalLost port => Sys2Proof.Machine.execSignalLost port s
  | .calibrationDue port => Sys2Proof.Machine.execCalibrationDue port s
  | .calibrationDone port => Sys2Proof.Machine.execCalibrationDone port s
  | .retrainDone port lanes => Sys2Proof.Machine.execRetrainDone port lanes s
  | .train port payload => Sys2Proof.Machine.execTrain port payload s
  | .linkAck port ack => Sys2Proof.Machine.execLinkAck port ack s
  | .linkNak port ack => Sys2Proof.Machine.execLinkNak port ack s
  | .replayTimerExpire port => Sys2Proof.Machine.execReplayTimerExpire port s
  | .errCounterDecay port => Sys2Proof.Machine.execErrCounterDecay port s
  | .c0MoveComplete port => Sys2Proof.Machine.execC0MoveComplete port s
  | .portRetrain path port => Sys2Proof.Machine.execPortRetrain path port s
  | .portClear path port => Sys2Proof.Machine.execPortClear path port s
  | .portCalibrate path port => Sys2Proof.Machine.execPortCalibrate path port s
  | .portReset path port => Sys2Proof.Machine.execPortReset path port s
  | .portDrainComplete port => Sys2Proof.Machine.execPortDrainComplete port s
  | .routeFlip path => Sys2Proof.Machine.execRouteFlip path s
  | .xtTimeoutExpire unit txn => Sys2Proof.Machine.execXtTimeoutExpire unit txn s
  | .routeWaitExpire unit txn => Sys2Proof.Machine.execRouteWaitExpire unit txn s
  | .portQueueWaitExpire port => Sys2Proof.Machine.execPortQueueWaitExpire port s
  | .ethernetFrameReceive port f => Sys2Proof.Machine.execEthernetFrameReceive port f s
  | .ethernetResendTimer port unit txn => Sys2Proof.Machine.execEthernetResendTimer port unit txn s
  | .readReq rx => Sys2Proof.Machine.execReadReq rx s
  | .readRsp rx => Sys2Proof.Machine.execReadRsp rx s
  | .writeReq rx => Sys2Proof.Machine.execWriteReq rx s
  | .writeAck rx => Sys2Proof.Machine.execWriteAck rx s
  | .rowReq rx => Sys2Proof.Machine.execRowReq rx s
  | .rowRsp rx => Sys2Proof.Machine.execRowRsp rx s
  | .pairs rx => Sys2Proof.Machine.execPairs rx s
  | .statusPkt rx => Sys2Proof.Machine.execStatusPkt rx s
  | .meridianPacket rx => Sys2Proof.Machine.execMeridianPacket rx s
  | .time rx => Sys2Proof.Machine.execTime rx s
  | .lodestarTimeSend => Sys2Proof.Machine.execLodestarTimeSend s
  | .lodestarHeartbeatSend => Sys2Proof.Machine.execLodestarHeartbeatSend s
  | .constHeartbeat rx => Sys2Proof.Machine.execConstHeartbeat rx s
  | .heartbeatLoss us => Sys2Proof.Machine.execHeartbeatLoss us s
  | .takeoverClaimAck rx => Sys2Proof.Machine.execTakeoverClaimAck rx s
  | .constMembership rx => Sys2Proof.Machine.execConstMembership rx s
  | .constPoolGrant rx => Sys2Proof.Machine.execConstPoolGrant rx s
  | .poolFormTimeout tag => Sys2Proof.Machine.execPoolFormTimeout tag s
  | .replRequest rx => Sys2Proof.Machine.execReplRequest rx s
  | .replGrant rx => Sys2Proof.Machine.execReplGrant rx s
  | .replInvalidation rx => Sys2Proof.Machine.execReplInvalidation rx s
  | .replPush rx => Sys2Proof.Machine.execReplPush rx s
  | .allReduce q c => Sys2Proof.Machine.execAllReduce q c s
  | .reduceScatter q c => Sys2Proof.Machine.execReduceScatter q c s
  | .allGather q c => Sys2Proof.Machine.execAllGather q c s
  | .allToAll q c => Sys2Proof.Machine.execAllToAll q c s
  | .broadcast q c => Sys2Proof.Machine.execBroadcast q c s
  | .anyToHome q c => Sys2Proof.Machine.execAnyToHome q c s
  | .tokenRoute q c => Sys2Proof.Machine.execTokenRoute q c s
  | .groupCreate q c => Sys2Proof.Machine.execGroupCreate q c s
  | .groupDestroy q c => Sys2Proof.Machine.execGroupDestroy q c s
  | .groupCrcReceive rx => Sys2Proof.Machine.execGroupCrcReceive rx s
  | .groupAnswer rx => Sys2Proof.Machine.execGroupAnswer rx s
  | .groupTimeoutExpire q c gid => Sys2Proof.Machine.execGroupTimeoutExpire q c gid s
  | .fusionWatchdogExpire q c => Sys2Proof.Machine.execFusionWatchdogExpire q c s
  | .collContribution rx => Sys2Proof.Machine.execCollContribution rx s
  | .collResult rx => Sys2Proof.Machine.execCollResult rx s
  | .collProgress rx => Sys2Proof.Machine.execCollProgress rx s
  | .collResendRequest rx => Sys2Proof.Machine.execCollResendRequest rx s
  | .collStatus rx => Sys2Proof.Machine.execCollStatus rx s
  | .collTimeoutExpire q c gid seq => Sys2Proof.Machine.execCollTimeoutExpire q c gid seq s
  | .collDimProgressSend q c gid seq => Sys2Proof.Machine.execCollDimProgressSend q c gid seq s
  | .pcieLinkReset => Sys2Proof.Machine.execPcieLinkReset s
  | .functionLevelReset f => Sys2Proof.Machine.execFunctionLevelReset f s
  | .numvfsReduction n => Sys2Proof.Machine.execNumvfsReduction n s
  | .doorbell fn slot qn tail => Sys2Proof.Machine.execDoorbell fn slot qn tail s
  | .heartbeat fn slot => Sys2Proof.Machine.execHeartbeat fn slot s
  | .hbTimeoutExpire f => Sys2Proof.Machine.execHbTimeoutExpire f s
  | .resume f => Sys2Proof.Machine.execResume f s
  | .teardown f => Sys2Proof.Machine.execTeardown f s
  | .orphanHoldExpire f => Sys2Proof.Machine.execOrphanHoldExpire f s
  | .hostCopy c => Sys2Proof.Machine.execHostCopy c s
  | .flushReadComplete req => Sys2Proof.Machine.execFlushReadComplete req s
  | .ctxCreate c => Sys2Proof.Machine.execCtxCreate c s
  | .ctxDestroy c => Sys2Proof.Machine.execCtxDestroy c s
  | .ctxFence c => Sys2Proof.Machine.execCtxFence c s
  | .ctxUnfence c => Sys2Proof.Machine.execCtxUnfence c s
  | .extentSet c => Sys2Proof.Machine.execExtentSet c s
  | .peerWindow c answers => Sys2Proof.Machine.execPeerWindow c answers s
  | .tableCreate c => Sys2Proof.Machine.execTableCreate c s
  | .tableDestroy c => Sys2Proof.Machine.execTableDestroy c s
  | .tableParam c => Sys2Proof.Machine.execTableParam c s
  | .tableFlush c => Sys2Proof.Machine.execTableFlush c s
  | .tableCheckpoint c => Sys2Proof.Machine.execTableCheckpoint c s
  | .tableRestore c => Sys2Proof.Machine.execTableRestore c s
  | .shardCreate c => Sys2Proof.Machine.execShardCreate c s
  | .shardDestroy c => Sys2Proof.Machine.execShardDestroy c s
  | .llmRange c => Sys2Proof.Machine.execLlmRange c s
  | .pool c => Sys2Proof.Machine.execPool c s
  | .stepRebase c => Sys2Proof.Machine.execStepRebase c s
  | .stage path w => Sys2Proof.Machine.execStage path w s
  | .stagingComplete reason => Sys2Proof.Machine.execStagingComplete reason s
  | .activate path w => Sys2Proof.Machine.execActivate path w s
  | .fwSwitchComplete selfCheckOk => Sys2Proof.Machine.execFwSwitchComplete selfCheckOk s
  | .fwConfirm path => Sys2Proof.Machine.execFwConfirm path s
  | .rollback path => Sys2Proof.Machine.execRollback path s
  | .rollbackComplete => Sys2Proof.Machine.execRollbackComplete s
  | .fwTrialWindowExpire checksPassed => Sys2Proof.Machine.execFwTrialWindowExpire checksPassed s
  | .fwRaiseSvnFloor path => Sys2Proof.Machine.execFwRaiseSvnFloor path s
  | .fwWatchdogExpire core => Sys2Proof.Machine.execFwWatchdogExpire core s
  | .requestUpdate maxTransfer => Sys2Proof.Machine.execRequestUpdate maxTransfer s
  | .passComponentTable components => Sys2Proof.Machine.execPassComponentTable components s
  | .updateComponent size => Sys2Proof.Machine.execUpdateComponent size s
  | .requestFirmwareData off data => Sys2Proof.Machine.execRequestFirmwareData off data s
  | .transferComplete result => Sys2Proof.Machine.execTransferComplete result s
  | .verifyComplete result => Sys2Proof.Machine.execVerifyComplete result s
  | .applyComplete result => Sys2Proof.Machine.execApplyComplete result s
  | .activateFirmware => Sys2Proof.Machine.execActivateFirmware s
  | .ifSelWrite path f v => Sys2Proof.Machine.execIfSelWrite path f v s
  | .tilePollTimeout t moverAnswers => Sys2Proof.Machine.execTilePollTimeout t moverAnswers s
  | .unitResetRequest path cls idx => Sys2Proof.Machine.execUnitResetRequest path cls idx s
  | .unitRetireRequest path cls idx => Sys2Proof.Machine.execUnitRetireRequest path cls idx s
  | .clearHistory path cls idx => Sys2Proof.Machine.execClearHistory path cls idx s
  | .unitDrainComplete cls idx => Sys2Proof.Machine.execUnitDrainComplete cls idx s
  | .starChartWriteComplete => Sys2Proof.Machine.execStarChartWriteComplete s
  | .deferredRetry id => Sys2Proof.Machine.execDeferredRetry id s
  | .parallaxReplayComplete q p l seq digest status => Sys2Proof.Machine.execParallaxReplayComplete q p l seq digest status s
  | .accusationWindowEnd => Sys2Proof.Machine.execAccusationWindowEnd s
  | .noticeAccusation rx => Sys2Proof.Machine.execNoticeAccusation rx s
  | .noticeMergedAccusation rx => Sys2Proof.Machine.execNoticeMergedAccusation rx s
  | .noticePowerHold rx => Sys2Proof.Machine.execNoticePowerHold rx s
  | .noticeFreeze rx => Sys2Proof.Machine.execNoticeFreeze rx s
  | .noticeRelease rx => Sys2Proof.Machine.execNoticeRelease rx s
  | .pollForPlatformEventMessage acked => Sys2Proof.Machine.execPollForPlatformEventMessage acked s
  | .powerStateTick idle => Sys2Proof.Machine.execPowerStateTick idle s
  | .plannedWake p => Sys2Proof.Machine.execPlannedWake p s
  | .powerSample vinMv iMa railsMv railsUj use => Sys2Proof.Machine.execPowerSample vinMv iMa railsMv railsUj use s
  | .powerLimitTick avgW => Sys2Proof.Machine.execPowerLimitTick avgW s
  | .regulatorAlert cause => Sys2Proof.Machine.execRegulatorAlert cause s
  | .forcedNadirEnd => Sys2Proof.Machine.execForcedNadirEnd s
  | .powerLoss => Sys2Proof.Machine.execPowerLoss s
  | .droopDetectorMask detector => Sys2Proof.Machine.execDroopDetectorMask detector s
  | .junctionSample hub deep quads inlet outlet => Sys2Proof.Machine.execJunctionSample hub deep quads inlet outlet s
  | .effLimitStep => Sys2Proof.Machine.execEffLimitStep s
  | .j3ClearTimer => Sys2Proof.Machine.execJ3ClearTimer s
  | .hardwareThermalTrip => Sys2Proof.Machine.execHardwareThermalTrip s
  | .coolantCheckExpire flow => Sys2Proof.Machine.execCoolantCheckExpire flow s
  | .recordProgramComplete n genFails keepFails => Sys2Proof.Machine.execRecordProgramComplete n genFails keepFails s
  | .sectorEraseComplete keep fails => Sys2Proof.Machine.execSectorEraseComplete keep fails s
  | .opTimeSave => Sys2Proof.Machine.execOpTimeSave s
  | .eclFreeze path => Sys2Proof.Machine.execEclFreeze path s
  | .eclResume path => Sys2Proof.Machine.execEclResume path s
  | .freezeNAssert => Sys2Proof.Machine.execFreezeNAssert s
  | .freezeNRelease => Sys2Proof.Machine.execFreezeNRelease s
  | .freezeAtReached => Sys2Proof.Machine.execFreezeAtReached s
  | .debugWindowRead path off => Sys2Proof.Machine.execDebugWindowRead path off s
  | .debugWindowWrite path off v => Sys2Proof.Machine.execDebugWindowWrite path off v s
  | .bypass tdi => Sys2Proof.Machine.execBypass tdi s
  | .idcode => Sys2Proof.Machine.execIdcode s
  | .samplePreload preload => Sys2Proof.Machine.execSamplePreload preload s
  | .extest => Sys2Proof.Machine.execExtest s
  | .jtagEclAddr v => Sys2Proof.Machine.execJtagEclAddr v s
  | .jtagEclData write => Sys2Proof.Machine.execJtagEclData write s
  | .jtagEclCtl freeze resume => Sys2Proof.Machine.execJtagEclCtl freeze resume s
  | .pwrEnRise => Sys2Proof.Machine.execPwrEnRise s
  | .jtagHoldRelease => Sys2Proof.Machine.execJtagHoldRelease s
  | .pwrEnFall => Sys2Proof.Machine.execPwrEnFall s
  | .powerDownComplete => Sys2Proof.Machine.execPowerDownComplete s
  | .coldResetN => Sys2Proof.Machine.execColdResetN s
  | .warmResetN => Sys2Proof.Machine.execWarmResetN s
  | .hubResetWarm path => Sys2Proof.Machine.execHubResetWarm path s
  | .hubResetPartition path p => Sys2Proof.Machine.execHubResetPartition path p s
  | .hubResetCold path => Sys2Proof.Machine.execHubResetCold path s
  | .paceRefLoss => Sys2Proof.Machine.execPaceRefLoss s
  | .paceRefResume => Sys2Proof.Machine.execPaceRefResume s
  | .moduleInsertion => Sys2Proof.Machine.execModuleInsertion s
  | .moduleRemoval => Sys2Proof.Machine.execModuleRemoval s
  | .configurationRequest fn reg write => Sys2Proof.Machine.execConfigurationRequest fn reg write s
  | .perstRelease => Sys2Proof.Machine.execPerstRelease s
  | .mctpControlMessage eid cmd data => Sys2Proof.Machine.execMctpControlMessage eid cmd data s
  | .interruptDelayExpire c => Sys2Proof.Machine.execInterruptDelayExpire c s
  | .replAcknowledgement rx => Sys2Proof.Machine.execReplAcknowledgement rx s
  | .replDrop rx => Sys2Proof.Machine.execReplDrop rx s
  | .laneSignalLost port lane => Sys2Proof.Machine.execLaneSignalLost port lane s
  | .priorityFlowControlFrame port cls pauses pfc => Sys2Proof.Machine.execPriorityFlowControlFrame port cls pauses pfc s
  | .unitStopsAnswering cls idx => Sys2Proof.Machine.execUnitStopsAnswering cls idx s
  | .creditAccrual us => Sys2Proof.Machine.execCreditAccrual us s
  | .almanacProgramComplete ok => Sys2Proof.Machine.execAlmanacProgramComplete ok s
  | .pcieReadCompletion req data => Sys2Proof.Machine.execPcieReadCompletion req data s

end Sys2Proof.Machine
end

