-- ==== Sys2Proof/Safety.lean ====
section
/-!
DEFINITION. What a well-kept state is, and when a command at the head of a queue, a macro-op at the head of a tile or a
packet on a port passes every check that comes before its own effect.  The statements take these as their premises.
-/

namespace Sys2Proof.Machine

open Sys2Proof

/-! ## The canonical form -/

/-- The sparse arrays beside memory and registers are in canonical form. -/
def State.canonGroups (s : State) : Bool :=
  smWf (fun _ => ctxData0) s.ctxs && smWf (fun _ => queue0) s.queues && smWf (fun _ => tile0) s.tiles &&
  smWf (fun _ => workList0) s.lists && smWf (fun _ => commit0) s.commits && smWf (fun _ => port0) s.ports &&
  smWf (fun _ => fn0) s.fns && smWf (fun _ => stack0) s.stks && smWf (fun _ => 0) s.txns && smWf (fun _ => 0) s.seenGen &&
  smWf (fun _ => 0) s.spray && smWf (fun _ => 0) s.cfgSpace

/-- Registers, memory, seals and the other sparse arrays hold strictly rising keys and list no entry equal to what an
unlisted key reads as. -/
def State.canon (s : State) : Bool :=
  smWf regReset s.regs && Memory.wf s.mem && smWf sealAt0 s.seals && s.canonGroups

/-! ## Commands at the heads of their queues -/

/-- Control writes take effect: the module is powered and not frozen. -/
def State.takesWrites (s : State) : Bool := s.on && !s.frozen

/-- The command of OP `op` at the head of a context's command ring is `e`, and it passes every check that comes before its
own effect (R332). -/
def State.cmdReady (s : State) (n op : Nat) (e : Entry) : Bool :=
  s.live && s.qRunning (.cmdRing n) && s.ringHas (.cmdRing n) && s.get FW_STATUS_DRAINING != 1 &&
  s.get FW_STATUS_STATE == 2 && s.ringEntry (.cmdRing n) == some e && (opIssuer (cmdOp e)).isSome && cmdOp e == op &&
  !s.cmdWaits n e && (opIssuer op != some .pf0 || s.fnOf n == 0) && !s.cmdBad n e

/-- The entry of kind `kind` at the head of a work list is `e`, and it passes the conditions of R120 and R122 that come
before its own effect. -/
def State.listHeadReady (s : State) (p w kind : Nat) (e : Entry) : Bool :=
  s.ringHas (.workList p w) && s.ringEntry (.workList p w) == some e && s.listRuns p w (weStep e) &&
  (s.entryBad p w e).isNone && weKind e == kind &&
  !(Entry_bits e 2 31 31 == 1 && (decide (s.get (HUB_WL_SEQ_NEXT_SEQ p (Entry_bits e 2 30 28)) ≤ Entry_bits e 3 47 0) ||
    s.isInflight p (Entry_bits e 2 30 28) (Entry_bits e 3 47 0))) &&
  gate (s.committed p) (weStep e) (weEval e) == some false

/-- The descriptor of op `op` at the head of a Halo queue pair is `e`, it passes every check that comes before its own
effect, and its engine serves (R199 to R202). -/
def State.haloHeadReady (s : State) (k qp op : Nat) (e : Entry) : Bool :=
  s.ringHas (.haloQp k qp) && s.ringEntry (.haloQp k qp) == some e &&
  s.pairRuns (.haloQp k qp) (s.get (HALO_QP_CFG_PARTITION k qp)) (Entry_bits e 1 63 32) && !s.haloBad k qp e &&
  Entry_bits e 0 63 56 == op &&
  haloGate (s.committed (s.get (HALO_QP_CFG_PARTITION k qp))) e (s.get (HALO_QP_CFG_LOOKAHEAD k qp)) == some false &&
  s.haloServes k

/-- The descriptor of op `op` at the head of an Orrery queue pair is `e`, it passes every check that comes before its own
effect, and its Orrery serves (R231, R250). -/
def State.orrHeadReady (s : State) (q qp op : Nat) (e : Entry) : Bool :=
  s.ringHas (.orrQp q qp) && s.ringEntry (.orrQp q qp) == some e &&
  s.pairRuns (.orrQp q qp) (s.orrPart q qp) (Entry_bits e 1 63 32) && !s.orrBad q qp e && Entry_bits e 0 63 56 == op &&
  orrGate (s.committed (s.orrPart q qp)) e == some false && s.orrServes q

/-- The descriptor of op `op` at the head of a collective channel is `e`, it passes every check that comes before its own
effect (R287, R292). -/
def State.collHeadReady (s : State) (q c op : Nat) (e : Entry) : Bool :=
  s.ringHas (.collCh q c) && s.ringEntry (.collCh q c) == some e &&
  s.pairRuns (.collCh q c) (s.get (COLL_CH_CFG_PARTITION q c)) (Entry_bits e 1 63 32) && !s.collBad q c e && ceOp e == op

/-! ## Macro-ops at the head of a tile -/

/-- A macro-op with the strides of its tile's loop applied (R102). -/
def State.opForm (s : State) (t : Nat) (blocks : Entry → Nat) (w : Entry) : Entry :=
  match (s.tile t).loop with
  | some l => strided l (blocks w) w
  | none => w

/-- The macro-op `op` at the head of a tile's issue is `w`, it is well formed by R98, its unit takes it and it meets no
hazard (R95, R96). -/
def State.opReady (s : State) (t op : Nat) (w : Entry) (chk : Entry → Option Nat) (regs : Entry → List Reg)
    (blocks : Entry → Nat) : Bool :=
  let x := s.tile t
  let rs := regs (s.opForm t blocks w)
  s.canIssue t && decide (s.get (TILE_PC_PC t) < x.progStart + x.progLen) && s.raw t == w && (opUnit (opCode w)).isSome &&
  opCode w == op && Entry_bits w 0 55 52 == 1 && reservedZero w (macroMasks op) && (chk (s.opForm t blocks w)).isNone &&
  !(rs.any fun r => r.wr && rangesMeet r.off r.len x.progStart x.progLen) && !s.unitFull t ((opUnit op).getD 0) &&
  !s.hazard t rs

/-- A control macro-op is ready: it names no slots. -/
def State.ctlReady (s : State) (t op : Nat) (w : Entry) : Bool :=
  s.opReady t op w (fun _ => none) (fun _ => []) (fun _ => 0)

/-- The blocks of D of a vector macro-op, as its loop strides count them. -/
def vBlocks (c : Nat) (v : Entry) : Nat :=
  if vUsesD c then blocksFor (lvFmt v 3) (vShapeD c v).1 (vShapeD c v).2 else 0

/-- The macro-op's slots carry the tags, formats and seals that R115 asks for. -/
def State.slotsGood (s : State) (t : Nat) (rs : List Reg) : Bool := (s.slotCheck t rs).isNone

/-- A vector macro-op `c` is ready, its slots are good, and it is not of an in-place form (R112, R113). -/
def State.vecReady (s : State) (t c : Nat) (w : Entry) : Bool :=
  s.opReady t c w (vBad c) (vRegs c) (vBlocks c) && s.slotsGood t (vRegs c (s.opForm t (vBlocks c) w)) &&
  !(c == 0x48 || c == 0x49 || (vUsesA c && vUsesD c && lvAddr (s.opForm t (vBlocks c) w) 1 ==
    lvAddr (s.opForm t (vBlocks c) w) 3))

/-! ## Commands of the configuration engine and of the firmware -/

/-- A command of the configuration engine by a path is served at once: the module runs, its firmware runs, no other path holds
the session, and the engine is not busy (R52, R53). -/
def State.cfgReady (s : State) (path : Path) : Bool :=
  s.takesWrites && ownerCode path != 0 && s.get FW_STATUS_STATE == 2 && decide (s.get PWR_STATUS_STATE < 3) &&
  s.cfgPath path && !s.cfg.returning && s.get CFG_STATUS_BUSY != 1 && s.get FW_STATUS_DRAINING != 1

/-- An update command by a path is served at once (R351). -/
def State.fwReady (s : State) (path : Path) : Bool :=
  s.takesWrites && ownerCode path != 0 && s.get FW_STATUS_STATE == 2 && decide (s.get PWR_STATUS_STATE < 3)

/-! ## Commands of registers alone -/

/-- Commands whose effect is on registers, timers, events and what the module sends, and on no byte of memory and no seal. -/
def Instr_registersOnly : Instr → Bool
  | .rcFieldRead _ _ _ | .interruptDelayExpire _ | .heartbeat _ _ | .queueEnWrite _ _ _ | .contextFree _
  | .configurationRequest _ _ _ | .perstRelease | .waitTimeout _ | .nop _ _ | .fence _ _ | .loop _ _ | .wait _ _
  | .paceSetWrite _ _ | .paceEpoch | .paceGroupBoundary _ | .paceRefLoss | .droopTrip _ | .droopClear _
  | .refresh _ _ _ | .exerciserStart _ | .exerciserAbort _ | .exerciserRunComplete _ _ _ _ | .offline _ _
  | .online _ _ | .t3HoldExpire _ | .llmFlush _ _ | .llmInvalidate _ _ | .llmFlushInvalidate _ _ | .creditAccrual _
  | .governorCreditSave | .deferredRetry _ | .rowMapRebuildComplete _ _ _ | .replPushTimeout _ _ _
  | .loadWindowEnd _ _ | .signalDetect _ _ | .errCounterDecay _ | .priorityFlowControlFrame _ _ _ _
  | .portDrainComplete _ | .calibrationDone _ | .routeFlip _ | .collDimProgressSend _ _ _ _ | .arm _ _ | .loadBuffer _
  | .check _ | .loadSlot _ _ | .revert _ | .cfgConfirm _ | .cfgRaiseSvnFloor _ | .cfgOpUnassigned _ _
  | .requestUpdate _ | .passComponentTable _ | .updateComponent _ | .requestFirmwareData _ _ | .transferComplete _
  | .powerSample _ _ _ _ _ | .junctionSample _ _ _ _ _ | .effLimitStep | .plannedWake _ | .coolantCheckExpire _
  | .regulatorAlert _ | .j3ClearTimer | .sectorEraseComplete _ _ | .opTimeSave | .starChartWriteComplete
  | .freezeNAssert | .freezeAtReached | .eclFreeze _ | .debugWindowRead _ _ | .idcode | .bypass _ | .extest
  | .samplePreload _ | .jtagEclAddr _ => true
  | _ => false

/-! ## Packets on a port -/

/-- A packet arrives good and in order on a Starlane port that is Up or Calibrating, of a known type and of the port's
protocol version (R258 to R261). -/
def State.rxReady (s : State) (rx : Rx) : Bool :=
  let p := rx.port % 32
  s.on && s.get PWR_STATUS_FORCED != 1 && s.get (SL_STATUS_ROLE p) == 1 && (s.portState p == 3 || s.portState p == 4) &&
  rx.good && (rx.seq + 4096 - (s.port p).lastGood) % 4096 == 1 && knownType rx.pkt.ty &&
  rx.pkt.proto == s.get (SL_STATUS_PROTO p)

/-- The state that has accepted it: LAST_GOOD is its sequence number, a link word acknowledges it, and its own ACK frees
retry buffers (R261). -/
def State.rxTaken (s : State) (rx : Rx) : State :=
  let p := rx.port % 32
  ((s.setPort p { s.port p with lastGood := rx.seq % 4096 }).emit (.linkWord p false (rx.seq % 4096))).linkAck p rx.ack

end Sys2Proof.Machine
end

