-- ==== Sys2Proof/WellFormed.lean ====
section
/-!
DEFINITION. Well-formed commands: operands within the ranges that the spec gives what they name.  The meanings do not rest
on it; it says which terms stand for something that can reach the module.
-/

namespace Sys2Proof

/-- A path of a function other than PF0 names a VF, 1 to 255 (R326). -/
def pathWf (p : Path) : Bool :=
  match p with
  | .vf f => decide (1 ≤ f) && decide (f < 256)
  | _ => true

/-- A queue lies in its table (R118, R199, R231, R287, R332). -/
def queueWf (q : QueueId) : Bool :=
  match q with
  | .workList p w => decide (p < 128) && decide (w < 8)
  | .haloQp s qp => decide (s < 12) && decide (qp < 32)
  | .orrQp q qp => decide (q < 4) && decide (qp < 16)
  | .collCh q c => decide (q < 4) && decide (c < 16)
  | .cmdRing n => decide (n < 4096)

/-- A register access is 8-byte aligned, or 4-byte aligned with its half named (R7), and lies in the 4 GiB of control space
or in a context page of 64 KiB (R33, R36). -/
def regAddrWf (a : RegAddr) : Bool :=
  match a with
  | .ctrl off => decide (off < 2 ^ 32) && off % 8 == 0
  | .page f slot rel => decide (f < 256) && decide (slot < 64) && decide (rel < 65536) && rel % 8 == 0

/-- The fields of a packet's header fit their widths, and the payload its length (R259). -/
def packetWf (p : Packet) : Bool :=
  decide (p.ty < 256) && decide (p.proto < 16) && decide (p.cls < 4) && decide (p.dstModule < 2 ^ 24) &&
  decide (p.dstUnit < 256) && decide (p.srcModule < 2 ^ 24) && decide (p.srcUnit < 256) && decide (p.jobDomain < 2 ^ 16) &&
  decide (p.srcInc < 256) && decide (p.hops < 16) && decide (p.targetGen < 2 ^ 16) && decide (p.status < 256) &&
  decide (p.txn < 2 ^ 32) && decide (p.arg < 2 ^ 64) && decide (p.payload.length ≤ 4112)

/-- A packet comes on one of 32 ports with 12-bit sequence numbers (R252, R259). -/
def rxWf (x : Rx) : Bool := decide (x.port < 32) && decide (x.seq < 4096) && decide (x.ack < 4096) && packetWf x.pkt

/-- A unit's CLASS and INDEX fit HUB_UNIT_RESET (R366). -/
def unitWf (cls idx : Nat) : Bool := decide (cls < 256) && decide (idx < 2 ^ 16)

/-- A mask of the four lanes of a port (R252). -/
def lanesWf (m : Nat) : Bool := decide (m < 16)

/-- The path that a command of control space comes on. -/
def Instr_path (i : Instr) : Option Path :=
  match i with
  | .registerWrite p _ _ _ => some p
  | .rcFieldRead p _ _ => some p
  | .loadBuffer p => some p
  | .loadSlot p _ => some p
  | .check p => some p
  | .arm p _ => some p
  | .discard p => some p
  | .cfgStore p _ => some p
  | .revert p => some p
  | .cfgConfirm p => some p
  | .eraseSlot p _ => some p
  | .cfgRaiseSvnFloor p => some p
  | .cfgOpUnassigned p _ => some p
  | .mirrorWrite p _ _ _ => some p
  | .qsatCtlWrite p _ _ _ => some p
  | .queueEnWrite p _ _ => some p
  | .queueRestart p _ => some p
  | .queueTailWrite p _ _ => some p
  | .completionRingRoom p _ _ => some p
  | .paceSetWrite p _ => some p
  | .portRetrain p _ => some p
  | .portClear p _ => some p
  | .portCalibrate p _ => some p
  | .portReset p _ => some p
  | .routeFlip p => some p
  | .stage p _ => some p
  | .activate p _ => some p
  | .fwConfirm p => some p
  | .rollback p => some p
  | .fwRaiseSvnFloor p => some p
  | .ifSelWrite p _ _ => some p
  | .unitResetRequest p _ _ => some p
  | .unitRetireRequest p _ _ => some p
  | .clearHistory p _ _ => some p
  | .eclFreeze p => some p
  | .eclResume p => some p
  | .debugWindowRead p _ => some p
  | .debugWindowWrite p _ _ => some p
  | .hubResetWarm p => some p
  | .hubResetPartition p _ => some p
  | .hubResetCold p => some p
  | _ => none

/-- The operands of a command beside its path lie within their ranges. -/
def operandsWf (i : Instr) : Bool :=
  match i with
  | .accessUnsupportedSize off size _ fn => decide (off < 2 ^ 32) && decide (0 < size) && decide (fn < 256)
  | .accessOutsideBlocks off _ fn => decide (off < 2 ^ 32) && decide (fn < 256)
  | .registerWrite _ a _ _ => regAddrWf a
  | .rcFieldRead _ a _ => regAddrWf a
  | .bar0WindowAccess off _ _ => decide (off < 2 ^ 30) && off % 8 == 0
  | .bar2Read _ off len => decide (off < 2 ^ 36) && decide (0 < len) && decide (len ≤ 4096)
  | .bar2Write _ off data => decide (off < 2 ^ 36) && decide (0 < data.length) && decide (data.length ≤ 512)
  | .mirrorWrite _ off _ _ => decide (off < 2 ^ 32) && off % 8 == 0
  | .cfgOpUnassigned _ op => op == 0 || (decide (11 ≤ op) && decide (op < 16))
  | .queueEnWrite _ q _ => queueWf q
  | .queueRestart _ q => queueWf q
  | .queueTailWrite _ q tail => queueWf q && decide (tail < 2 ^ 16)
  | .completionRingRoom _ q head => queueWf q && decide (head < 2 ^ 16)
  | .doorbell _ slot qn tail => decide (slot < 64) && decide (qn < 2 ^ 16) && decide (tail < 2 ^ 16)
  | .heartbeat _ slot => decide (slot < 64)
  | .paceSetWrite _ v => decide (v < 512)
  | .stackTempSample _ temp => decide (temp < 1024)
  | .signalDetect _ lanes => lanesWf lanes
  | .trainingStepDone _ lanes => lanesWf lanes
  | .retrainDone _ lanes => lanesWf lanes
  | .linkAck _ ack => decide (ack < 4096)
  | .linkNak _ ack => decide (ack < 4096)
  | .readReq x | .readRsp x | .writeReq x | .writeAck x | .rowReq x | .rowRsp x | .pairs x | .statusPkt x
  | .meridianPacket x | .time x | .constHeartbeat x | .takeoverClaimAck x | .constMembership x | .constPoolGrant x
  | .replRequest x | .replGrant x | .replInvalidation x | .replPush x | .replAcknowledgement x | .replDrop x
  | .groupCrcReceive x | .groupAnswer x | .collContribution x | .collResult x | .collProgress x | .collResendRequest x
  | .collStatus x | .noticeAccusation x | .noticeMergedAccusation x | .noticePowerHold x | .noticeFreeze x
  | .noticeRelease x => rxWf x
  | .ethernetFrameReceive _ f => packetWf f.pkt
  | .priorityFlowControlFrame _ cls pauses _ => decide (cls < 8) && decide (pauses < 2 ^ 16)
  | .numvfsReduction n => decide (n < 256)
  | .ifSelWrite _ _ v => decide (v < 2 ^ 16)
  | .unitResetRequest _ cls idx => unitWf cls idx
  | .unitRetireRequest _ cls idx => unitWf cls idx
  | .clearHistory _ cls idx => unitWf cls idx
  | .unitDrainComplete cls idx => unitWf cls idx
  | .unitStopsAnswering cls idx => unitWf cls idx
  | .regulatorAlert cause => decide (1 ≤ cause) && decide (cause ≤ 5)
  | .debugWindowRead _ off => decide (off < 65536)
  | .debugWindowWrite _ off _ => decide (off < 65536)
  | .tilePollTimeout _ _ => true
  | _ => true

/-- A command is well-formed: its path and its operands are. -/
def wellFormed (i : Instr) : Bool :=
  (match Instr_path i with
    | some p => pathWf p
    | none => true) && operandsWf i

end Sys2Proof
end

