-- ==== Sys2Proof/Certificates/Slice0/Obligations.lean ====
section
/-!
DEFINITION. The statements of this model: what a step does, what it keeps, and for every command the next state that it
answers where its premises hold.
-/

open Sys2Proof Sys2Proof.Machine

/-! ## The whole module -/

/-- One step with a command at the front of the queue is that command's effect on the state with the queue's rest; on an
empty queue the module idles (DESIGN CHOICE, log 1). -/
def Obligations.StepRunsFrontCommand : Prop :=
  (∀ (c : Instr) (s : State), step { s with pending := c :: s.pending } = exec c s) ∧
  (∀ s : State, s.pending = [] → step s = .next s)

/-- No command of the table ends in a fault or a refusal: every command answers a next state in every state. -/
def Obligations.EveryCommandAnswersNext : Prop := ∀ (c : Instr) (s : State), ∃ t, exec c s = .next t

/-- The state right after reset: every register holds its table's reset value (R10), every sparse array is empty and so in
canonical form, nothing waits, nothing has been sent, and the module is without power. -/
def Obligations.ResetState : Prop :=
  (∀ off, State.reset.rd off = (regReset off).toNat) ∧ State.reset.canon = true ∧ State.reset.pending = [] ∧
  State.reset.out = [] ∧ State.reset.on = false ∧
  State.reset.get HUB_PACE_CFG_PACE_SET = 0x180 ∧ State.reset.get HUB_PACE_STATUS_PACE_NOW = 0x180 ∧
  State.reset.get (PCIE_FN_CFG_HB_TIMEOUT 3) = 1000 ∧ State.reset.get (PCIE_FN_CFG_HOLD_MIN 3) = 1440 ∧
  State.reset.get (HBM_THERM_CTL_HOLD_MS 5) = 200 ∧ State.reset.get PWR_LIMIT_CFG_LIMIT_W = 2800

/-- The canonical form of registers, memory, seals and every other sparse array is kept by every step from every state
that has it. -/
def Obligations.StepKeepsCanonicalForm : Prop :=
  ∀ s t : State, s.canon = true → step s = .next t → t.canon = true

/-- A step takes exactly the front command off the queue: no command's effect changes the commands that wait. -/
def Obligations.StepTakesOneCommand : Prop := ∀ s t : State, step s = .next t → t.pending = s.pending.tail

/-- What the module has sent is never taken back, and a free value is never used twice: a step only appends outputs, and
the count of free values used never goes down. -/
def Obligations.StepOnlyAppends : Prop :=
  ∀ s t : State, step s = .next t → s.out <+: t.out ∧ s.free ≤ t.free

/-! ## Registers and memory -/

/-- A register field written holds the low bits of what was written, every other field of the same register and every other
register keeps its value, and memory and seals are unchanged. -/
def Obligations.RegisterFieldWrite : Prop :=
  ∀ (s : State) (f g : Fld) (v : Nat), f.lo ≤ f.hi → f.hi < 64 → g.lo ≤ g.hi → g.hi < 64 →
    (s.put f v).get f = v % 2 ^ (f.hi + 1 - f.lo) ∧
    (g.off ≠ f.off ∨ g.hi < f.lo ∨ f.hi < g.lo → (s.put f v).get g = s.get g) ∧
    (∀ off, off ≠ f.off → (s.put f v).rd off = s.rd off) ∧
    (s.put f v).mem = s.mem ∧ (s.put f v).seals = s.seals

/-- Bytes written are read back, and every byte outside them, of the same space or of another, keeps its value. -/
def Obligations.MemoryReadAfterWrite : Prop :=
  ∀ (s : State) (sp sp' : Space) (a a' : Nat) (bs : List Byte), a + bs.length ≤ 2 ^ 64 → a' < 2 ^ 64 →
    (s.setBytes sp a bs).byte sp' a' =
      (if sp' = sp ∧ a ≤ a' ∧ a' < a + bs.length then bs.getD (a' - a) 0 else s.byte sp' a') ∧
    (s.setBytes sp a bs).regs = s.regs ∧ (s.setBytes sp a bs).seals = s.seals

/-- Accesses of the host to control space and to BAR2 answer and act: a plain register write and a read that clears
what it returns (R8), an unsupported size (R7), an offset outside every block (R33), the sliding window (R35), a write
of a staging mirror (R53), and a BAR2 read and write (R37). -/
def Obligations.HostAccessesComplete : Prop :=
  (∀ path a h v s k, s.takesWrites = true → s.resolve path a = some k → isSt k = false →
    s.fwUnassigned path a h v = false →
    exec (.registerWrite path a h v) s = .next ((s.writeReg k h v.toNat).tryThaw.settle)) ∧
  (∀ path a h s k, s.on = true → s.resolve path a = some k →
    exec (.rcFieldRead path a h) s = .next ((s.readClear k h).emit (.readData (halfRead h (s.readReg k))))) ∧
  (∀ off size fn s, s.on = true → ((size = 4 ∨ size = 8) → off % size ≠ 0) → insideBlock off = true →
    exec (.accessUnsupportedSize off size true fn) s = .next (s.evOnce 0x1901 (off / 8 * 8) off size fn) ∧
    exec (.accessUnsupportedSize off size false fn) s =
      .next ((s.evOnce 0x1901 (off / 8 * 8) off size fn).emit (.readData (2 ^ (8 * size) - 1)))) ∧
  (∀ off fn s, s.on = true → insideBlock off = false →
    exec (.accessOutsideBlocks off true fn) s = .next (s.evOnce 0x1902 off off 1 fn) ∧
    exec (.accessOutsideBlocks off false fn) s =
      .next ((s.evOnce 0x1902 off off 0 fn).emit (.readData (2 ^ 64 - 1)))) ∧
  (∀ off h v s, s.takesWrites = true → 0x30000000 ≤ off → off < 0x40000000 → s.get HUB_BAR0_WIN_BASE = 0 →
    insideBlock (off - 0x30000000) = true →
    exec (.bar0WindowAccess off h (some v)) s =
      .next ((s.writeAny .pf0 (off - 0x30000000) h v.toNat).tryThaw.settle)) ∧
  (∀ off s, s.on = true → 0x30000000 ≤ off → off < 0x40000000 → 6 ≤ s.get HUB_BAR0_WIN_BASE →
    exec (.bar0WindowAccess off .full none) s = .next ((s.emit (.readData (2 ^ 64 - 1))).tryThaw.settle)) ∧
  (∀ path off k h v s, s.takesWrites = true → mirrorTarget off = some k → isSt k = true → ownerCode path ≠ 0 →
    s.cfgPath path = true →
    exec (.mirrorWrite path off h v) s = .next ((s.stageWrite (ownerCode path) k h v.toNat).settle)) ∧
  (∀ (fn : Fin 256) off len s e rel, s.on = true →
    s.view (s.get (PCIE_FN_CFG_BAR2_CTX fn.val)) (s.bar2Addr fn.val off) len false [1] = .extent e rel →
    (∀ b ∈ blocksOf rel len, (s.sealOf .h (Extent_phys e b)).poison = false) → e.sealed = false → e.tier = 1 →
    exec (.bar2Read fn off len) s = .next (s.emit (.readBytes (s.extRead e rel len)))) ∧
  (∀ (fn : Fin 256) off data s e rel, s.takesWrites = true →
    s.view (s.get (PCIE_FN_CFG_BAR2_CTX fn.val)) (s.bar2Addr fn.val off) data.length true [1] = .extent e rel →
    exec (.bar2Write fn off data) s = .next (if e.sealed then
      s.violate (s.get (PCIE_FN_CFG_BAR2_CTX fn.val)) 0x2104 0 (offOf (s.bar2Addr fn.val off)) else s.extWrite e rel data))

/-! ## Queues, doorbells and interrupts -/

/-- The writes that start, restart and feed a queue: EN 1 on a queue whose setup is good sets EN and STATE Running, and EN 0
stops it (R118); RESTART resumes a Stopped queue (R118); TAIL takes an index below 2^SIZE_LOG and wakes the queue's
partition, and a larger one is discarded with the event of status REFUSED_CAPACITY (R118); CQ_HEAD frees room (R331); a
doorbell is a heartbeat and a TAIL write of a queue of its own context (R329); a heartbeat sets LAST_HB (R339); and the
interrupt delay raises the vector (R330). -/
def Obligations.QueueWritesComplete : Prop :=
  (∀ path q s, s.takesWrites = true → s.queuePath path q = true → s.get (qEn q) = 0 → s.queueSetupGood q = true →
    (QueueId_isList q = true →
      exec (.queueEnWrite path q true) s = .next ((s.setEn q 1).put (qState q) 1)) ∧
    (QueueId_isList q = false →
      exec (.queueEnWrite path q true) s = .next (((s.setEn q 1).put (qState q) 1).setQueue q
        { ((s.setEn q 1).put (qState q) 1).queue q with phase := true }))) ∧
  (∀ path q s, s.takesWrites = true → s.queuePath path q = true → QueueId_isList q = false →
    exec (.queueEnWrite path q false) s = .next ((s.setEn q 0).put (qState q) 0)) ∧
  (∀ path q s, s.takesWrites = true → s.queuePath path q = true → s.get (qState q) = 2 →
    (s.queue (s.cqOf q)).heldRecs = [] → exec (.queueRestart path q) s = .next (s.put (qState q) 1)) ∧
  (∀ path q tail s p, s.takesWrites = true → s.queuePath path q = true → tail < s.ringSize q → s.queuePart q = some p →
    exec (.queueTailWrite path q tail) s = .next ((s.wakePart p).put (qTail q) tail)) ∧
  (∀ path q tail s, s.takesWrites = true → s.queuePath path q = true → s.ringSize q ≤ tail →
    exec (.queueTailWrite path q tail) s = .next (s.queueEvent q (s.get (qHead q)) 0x12)) ∧
  (∀ path q head s, s.takesWrites = true → s.queuePath path q = true → QueueId_isList q = false → head < s.ringSize q →
    exec (.completionRingRoom path q head) s =
      .next ((s.put (cqHead q) head).drainRecs q (s.queue q).heldRecs)) ∧
  (∀ (fn : Fin 256) slot qn tail s n q, s.takesWrites = true → s.ctxOf fn.val slot = some n →
    s.get (PCIE_FN_CFG_STATE fn.val) ≠ 2 → queueOfNumber n qn = some q → (s.beat fn.val).owner q = n →
    exec (.doorbell fn slot qn tail) s = .next ((s.beat fn.val).writeTail q tail)) ∧
  (∀ (fn : Fin 256) slot s n, s.takesWrites = true → s.ctxOf fn.val slot = some n →
    ∃ t, exec (.heartbeat fn slot) s = .next t ∧ t.get (PCIE_FN_CFG_LAST_HB fn.val) = s.now ∧
      (∀ off, off ≠ (PCIE_FN_CFG_LAST_HB fn.val).off → t.rd off = s.rd off) ∧ t.mem = s.mem ∧ t.seals = s.seals ∧
      t.out = s.out ∧ t.eph = s.eph) ∧
  (∀ (c : Fin 4096) s, s.on = true → (s.ctx c.val).irqPending = true → s.get (CTX_PAGE_ITR_US c.val) ≠ 0 →
    exec (.interruptDelayExpire c) s = .next (s.raiseIrq c.val))

/-! ## Contexts and functions -/

/-- The commands of a context's command ring that make, end, fence and free contexts, and that give them extents and
peer windows (R40, R332, R338, R446, R447). -/
def Obligations.ContextCommandsComplete : Prop :=
  (∀ (c : Fin 4096) s e, s.cmdReady c.val 0x10 e = true →
    let t := s.advance (.cmdRing c.val) 1
    let i := s.get (qHead (.cmdRing c.val))
    (t.createRefusal e = none → exec (.ctxCreate c) s =
      .next ((t.createCtx e).cmdDone c.val i .done (t.get (CTX_INCARNATION (Entry_bits e 1 11 0))))) ∧
    (∀ st, t.createRefusal e = some st → exec (.ctxCreate c) s = .next (t.cmdDone c.val i st 0))) ∧
  (∀ (c : Fin 4096) s e, s.cmdReady c.val 0x11 e = true →
    let t := s.advance (.cmdRing c.val) 1
    let i := s.get (qHead (.cmdRing c.val))
    t.manageable (t.cmdTarget c.val e) = true →
    exec (.ctxDestroy c) s = .next ((t.toClosing (t.cmdTarget c.val e)).cmdDone c.val i .done 0)) ∧
  (∀ (c : Fin 4096) s e, s.cmdReady c.val 0x12 e = true →
    let t := s.advance (.cmdRing c.val) 1
    let i := s.get (qHead (.cmdRing c.val))
    let n := t.cmdTarget c.val e
    (t.get (CTX_STATE n) = 1 → exec (.ctxFence c) s =
      .next (((t.put (CTX_STATE n) 2).put (CTX_FENCE_REASON n) 3).cmdDone c.val i .done 0)) ∧
    (t.get (CTX_STATE n) = 2 → exec (.ctxFence c) s = .next (t.cmdDone c.val i .done 0)) ∧
    (t.get (CTX_STATE n) = 4 → exec (.ctxFence c) s = .next (t.cmdDone c.val i .refusedPartition 0))) ∧
  (∀ (c : Fin 4096) s e, s.cmdReady c.val 0x13 e = true →
    let t := s.advance (.cmdRing c.val) 1
    let i := s.get (qHead (.cmdRing c.val))
    let n := t.cmdTarget c.val e
    t.get (CTX_STATE n) = 2 → exec (.ctxUnfence c) s = .next
      ((((t.put (CTX_STATE n) 1).put (CTX_FENCE_REASON n) 0).put (CTX_VIOL_COUNT n) 0).cmdDone c.val i .done 0)) ∧
  (∀ (c : Fin 4096) answers s e, s.cmdReady c.val 0x15 e = true →
    let t := s.advance (.cmdRing c.val) 1
    let i := s.get (qHead (.cmdRing c.val))
    let n := t.cmdTarget c.val e
    t.manageable n = true → Entry_bits e 1 3 3 = 1 →
    exec (.peerWindow c answers) s = .next ((t.setPeer n (Entry_bits e 1 2 0) none).cmdDone c.val i .done 0)) ∧
  (∀ (c : Fin 4096) s e, s.cmdReady c.val 0x14 e = true →
    let t := s.advance (.cmdRing c.val) 1
    let i := s.get (qHead (.cmdRing c.val))
    let n := t.cmdTarget c.val e
    t.manageable n = true → Entry_bits e 1 2 2 = 0 →
    t.extentRefusal n (Entry_bits e 1 1 0) (Entry_bits e 1 13 8) (Entry_bits e 2 63 0) (Entry_bits e 3 63 0) = none →
    exec (.extentSet c) s = .next ((t.cmdOpen c.val i).admitExtent c.val i n e false))

/-- An extent change takes effect once every request issued under the old extents has completed (R29): until then the command
changes nothing; then the extents are those of the change, and its command completes with DONE. -/
def Obligations.ExtentChangeWaits : Prop :=
  (∀ (c : Fin 4096) s, s.ctxBusy c.val = true → exec (.extentChangeTakesEffect c) s = .next s) ∧
  (∀ (c : Fin 4096) s x l, s.live = true → s.ctxBusy c.val = false → (s.ctx c.val).changes = x :: l →
    exec (.extentChangeTakesEffect c) s = .next (s.applyChange c.val x))

/-- The events of a function and of the PCIe link: a context leaves Closing for Free 10 ms after its last request (R44);
a heartbeat lost puts the function in Orphan (R339); RESUME, TEARDOWN and the end of the hold end Orphan (R342); a
function-level reset and fewer VFs (R328) and a link reset (R327); a configuration request (R349); and PERST_N high
(R436). -/
def Obligations.FunctionEventsComplete : Prop :=
  (∀ (c : Fin 4096) s, s.live = true → s.get (CTX_STATE c.val) = 4 → s.ctxBusy c.val = false →
    (s.ctx c.val).closingAt + 10000000 ≤ s.now → (s.ctx c.val).lastRetire + 10000000 ≤ s.now →
    exec (.contextFree c) s = .next (s.freeCtx c.val)) ∧
  (∀ (f : Fin 256) s, s.takesWrites = true →
    s.get (PCIE_FN_CFG_LAST_HB f.val) + s.get (PCIE_FN_CFG_HB_TIMEOUT f.val) * 1000000 + (s.fn f.val).hbFrozen ≤ s.now →
    exec (.hbTimeoutExpire f) s = .next (s.orphan f.val 1)) ∧
  (∀ (f : Fin 256) s, s.takesWrites = true → s.get (FW_IF_IF_SEL f.val) ≠ 0 → s.get (PCIE_FN_CFG_STATE f.val) = 2 →
    (s.fn f.val).ckptRun = [] → exec (.resume f) s = .next (s.resumeNow f.val)) ∧
  (∀ (f : Fin 256) s, s.takesWrites = true → s.get (PCIE_FN_CFG_STATE f.val) = 2 → (s.fn f.val).ckptRun = [] →
    exec (.teardown f) s = .next (s.teardownNow f.val 2 (s.fn f.val).cause)) ∧
  (∀ (f : Fin 256) s, s.takesWrites = true → s.get (PCIE_FN_CFG_STATE f.val) = 2 → (s.fn f.val).ckptRun = [] →
    (s.fn f.val).orphanAt + s.get (PCIE_FN_CFG_HOLD_MIN f.val) * 60000000000 + (s.fn f.val).hbFrozen ≤ s.now →
    exec (.orphanHoldExpire f) s = .next (s.teardownNow f.val 3 4)) ∧
  (∀ (f : Fin 256) s, s.on = true → s.get (PCIE_FN_CFG_STATE f.val) ≠ 2 → s.fnCtxs f.val ≠ [] →
    exec (.functionLevelReset f) s = .next
      ((((s.fnCtxs f.val).foldl (fun (t : State) n => if t.manageable n then t.toClosing n else t) s).put
        (PCIE_FN_CFG_STATE f.val) 4).setFn f.val
        { ((s.fnCtxs f.val).foldl (fun (t : State) n => if t.manageable n then t.toClosing n else t) s).fn f.val with
          cause := 3 })) ∧
  (∀ n s, s.on = true → n < s.numVfs →
    exec (.numvfsReduction n) s = .next { ((List.range (s.numVfs - n)).map (n + 1 + ·)).foldl
      (fun (t : State) f => t.flr f) s with numVfs := n }) ∧
  (∀ s, s.on = true → exec .pcieLinkReset s = .next
    { (List.range 256).foldl (fun (t : State) f => t.orphan f 2) s with numVfs := 0, cfgSpace := [] }) ∧
  (∀ (fn : Fin 256) reg w s, s.on = true → s.get FW_STATUS_STATE ≠ 2 →
    exec (.configurationRequest fn reg w) s = .next (s.emit .retryStatus)) ∧
  (∀ s, s.on = true → s.get FW_STATUS_STATE = 2 →
    exec (.configurationRequest 0 0 none) s = .next (s.emit (.configData s.numVfs))) ∧
  (∀ s, exec .perstRelease s = .next { s with pins := { s.pins with perstN := true } })

/-! ## Tables, shards and host copies -/

/-- The commands of the command ring about tables, shards and copies (R178, R179, R192, R211, R227, R325, R332, R333):
each passes its checks and answers as its rule says, at once or when the work that it opens ends. -/
def Obligations.TableCommandsComplete : Prop :=
  (∀ (c : Fin 4096) s e u d x, s.cmdReady c.val 0x20 e = true →
    let t := s.advance (.cmdRing c.val) 1
    let i := s.get (qHead (.cmdRing c.val))
    let n := t.cmdTarget c.val e
    t.manageable n = true → t.readDesc c.val i e = (u, some d) → tdLegal d = true →
    findExtent (u.ctx n).extents 1 (offOf (tdValueH d)) 1 = some x →
    let k := stackOf (Extent_phys x (offOf (tdValueH d) - x.off))
    k < 12 → u.tableAt k (u.get (CTX_JOB_DOMAIN n)) (Desc_bits d 0 63 48) = none → u.tdRegions n k d = true →
    (u.tables.filter fun b => b.engine == k).length < 256 →
    exec (.tableCreate c) s = .next ((u.addTable n k d).cmdDone c.val i .done 0)) ∧
  (∀ (c : Fin 4096) s e b, s.cmdReady c.val 0x21 e = true →
    let t := s.advance (.cmdRing c.val) 1
    let i := s.get (qHead (.cmdRing c.val))
    t.manageable (t.cmdTarget c.val e) = true → t.doomedTable c.val e = some b →
    exec (.tableDestroy c) s = .next ((((t.cmdOpen c.val i).dropReplicas b fun _ => true).mapTable b.key fun y =>
      { y with destroying := some (c.val, i) }).tablesLeave)) ∧
  (∀ (c : Fin 4096) s e b, s.cmdReady c.val 0x22 e = true →
    let t := s.advance (.cmdRing c.val) 1
    let i := s.get (qHead (.cmdRing c.val))
    t.cmdTable c.val e = some b →
    (finite32 (Entry_bits e 2 63 32) && positive32 (Entry_bits e 2 31 0) && unit32 (Entry_bits e 3 63 32) &&
      unit32 (Entry_bits e 3 31 0)) = true →
    exec (.tableParam c) s = .next ((t.cmdOpen c.val i).mapTable b.key fun y => { y with
      pendingParams := y.pendingParams ++
        [(c.val, i, ⟨Entry_bits e 2 63 32, Entry_bits e 2 31 0, Entry_bits e 3 63 32, Entry_bits e 3 31 0⟩)] })) ∧
  (∀ (c : Fin 4096) s e b, s.cmdReady c.val 0x23 e = true →
    let t := s.advance (.cmdRing c.val) 1
    let i := s.get (qHead (.cmdRing c.val))
    t.cmdTable c.val e = some b →
    ((b.rows.filter fun x => x.state == 3) = [] → exec (.tableFlush c) s = .next (t.cmdDone c.val i .done 0)) ∧
    ((b.rows.filter fun x => x.state == 3) ≠ [] → tdHOnly b.desc = false → t.deepReadOnly = false →
      let u := t.cmdOpen c.val i
      exec (.tableFlush c) s = .next (({ u with tiers := { u.tiers with
        flushes := u.tiers.flushes ++ [(c.val, i, b.key, (b.rows.filter fun x => x.state == 3).map
          fun (x : Row) => (x.row, x.version))] } } : State).writeBack b (b.rows.filter fun x => x.state == 3) false
            (cmdClass e)))) ∧
  (∀ (c : Fin 4096) s e b bs u, s.cmdReady c.val 0x24 e = true →
    let t := s.advance (.cmdRing c.val) 1
    let i := s.get (qHead (.cmdRing c.val))
    t.cmdTable c.val e = some b → t.applying b.part = false → t.tableFile b = .inr bs →
    t.fileSend c.val i (Entry_bits e 2 63 0) 3 bs (.cmd c.val i e) = (u, none) →
    exec (.tableCheckpoint c) s = .next (u.cmdOpen c.val i)) ∧
  (∀ (c : Fin 4096) s e b u bs, s.cmdReady c.val 0x25 e = true →
    let t := s.advance (.cmdRing c.val) 1
    let i := s.get (qHead (.cmdRing c.val))
    t.cmdTable c.val e = some b → t.partIdle b.part = true →
    t.fileFetch c.val i (Entry_bits e 2 63 0) [1, 2, 3, 4] headLength 0 (.cmd c.val i e) = (u, .have_ bs) →
    exec (.tableRestore c) s = .next ((u.cmdOpen c.val i).restoreNow c.val i e bs)) ∧
  (∀ (c : Fin 4096) s e u d k, s.cmdReady c.val 0x26 e = true →
    let t := s.advance (.cmdRing c.val) 1
    let i := s.get (qHead (.cmdRing c.val))
    let n := t.cmdTarget c.val e
    t.manageable n = true → t.readDesc c.val i e = (u, some d) → u.shardSlot n d = .inr k → Entry_bits e 3 63 0 = 0 →
    exec (.shardCreate c) s = .next ((u.addShard n k d (List.replicate (sdSize d) 0)).cmdDone c.val i .done 0)) ∧
  (∀ (c : Fin 4096) s e x, s.cmdReady c.val 0x27 e = true →
    let t := s.advance (.cmdRing c.val) 1
    let i := s.get (qHead (.cmdRing c.val))
    let n := t.cmdTarget c.val e
    t.manageable n = true → t.shardOf (Entry_bits e 1 18 16) (t.get (CTX_JOB_DOMAIN n)) (Entry_bits e 1 15 0) = some x →
    x.destroying = none →
    exec (.shardDestroy c) s = .next (((t.cmdOpen c.val i).setShard { x with destroying := some (c.val, i) }).shardsLeave)) ∧
  (∀ (c : Fin 4096) s e, s.cmdReady c.val 0x2A e = true →
    let t := s.advance (.cmdRing c.val) 1
    let i := s.get (qHead (.cmdRing c.val))
    let p := Entry_bits e 1 6 0
    t.partValid p = true → t.partIdle p = false → exec (.stepRebase c) s = .next (t.cmdDone c.val i .refusedPartition 0)) ∧
  (∀ (c : Fin 4096) s e, s.cmdReady c.val 0x2A e = true →
    let t := s.advance (.cmdRing c.val) 1
    let i := s.get (qHead (.cmdRing c.val))
    let p := Entry_bits e 1 6 0
    t.partValid p = true → t.partIdle p = true → (∀ kv ∈ t.cfg.active.streams, ∀ d, kv.2 = some d → d.part ≠ p) →
    let u := (((t.put (HUB_PART_RUN_COMMITTED_STEP p) (Entry_bits e 2 31 0)).put (HUB_PART_COMMIT_NONFINITE p) 0).put
      (HUB_PART_COMMIT_SUSPECT p) 0).setCommit p commit0
    exec (.stepRebase c) s = .next (({ u with shards := u.shards.map fun (x : Shard) =>
      if x.part = p then { x with gradStep := none } else x } : State).cmdDone c.val i .done 0)) ∧
  (∀ (c : Fin 4096) s e, s.cmdReady c.val 0x01 e = true →
    let t := s.advance (.cmdRing c.val) 1
    let i := s.get (qHead (.cmdRing c.val))
    copyBad e = false → t.copyRefusal c.val e = none → t.copyServes c.val e = true → hostTier (cpDst e) = false →
    let k : Copy := ⟨t.nextPcie, c.val, i, e, 0, false, none, false, false, [], false⟩
    exec (.hostCopy c) s = .next (State.copyNext (copyFuel k)
      { t with copies := t.copies ++ [k], nextPcie := t.nextPcie + 1 } k))

/-- What comes back over PCIe ends or goes on with the request that waits for it: read data (R333), a flush read (R336),
a refusal with one violation (R445), a poisoned completion (R328), and a time-out (R326). -/
def Obligations.PcieCompletionsComplete : Prop :=
  (∀ req data s r id k, s.takesWrites = true → s.pcieReq req = some r → data.length = r.len → r.what = .copyRead id →
    s.copyOf id = some k → exec (.pcieReadCompletion req data) s = .next ((s.dropReq req).copyArrive k data)) ∧
  (∀ req s r id k, s.takesWrites = true → s.pcieReq req = some r → r.what = .copyFlush id → s.copyOf id = some k →
    exec (.flushReadComplete req) s = .next ((s.dropReq req).copyFinish k)) ∧
  (∀ req s r, s.takesWrites = true → s.pcieReq req = some r →
    let t := (s.violate r.ctx 0x2108 0 r.addr).windowRefused r
    (s.reqCopy r = none → exec (.pTierRefused req) s = .next (t.reqEnd r .refusedPartition)) ∧
    (∀ k, s.reqCopy r = some k → exec (.pTierRefused req) s = .next ((t.copySpoil k).reqEnd r .refusedPartition))) ∧
  (∀ req s r, s.takesWrites = true → s.pcieReq req = some r →
    exec (.pcieCompletionPoisoned req) s = .next (s.reqEnd r .poisoned)) ∧
  (∀ req s r, s.takesWrites = true → s.pcieReq req = some r →
    exec (.pcieCompletionTimeout req) s = .next (s.reqEnd r .timeout))

/-! ## Tiles -/

/-- The control macro-ops at the head of a tile: NOP and END issue done, END marking the program ended (R97, R101);
FENCE and SIGNAL issue once nothing is in flight; WAIT waits for its counter; LOOP opens its loop (R102); BARRIER
arrives at its Meridian (R134). And the tile's other events: a macro-op that has finished retires (R97), a WAIT's timer,
and a write of the counters' control (R89). -/
def Obligations.TileControlCompletes : Prop :=
  (∀ (t : Fin 272) w s, s.ctlReady t.val 0x00 w = true →
    exec (.nop t w) s = .next (s.issueDone t.val (s.opForm t.val (fun _ => 0) w) .done [])) ∧
  (∀ (t : Fin 272) w s, s.ctlReady t.val 0x01 w = true →
    let a := s.issueDone t.val (s.opForm t.val (fun _ => 0) w) .done []
    exec (.endOp t w) s = .next (a.setTile t.val { a.tile t.val with ended := true })) ∧
  (∀ (t : Fin 272) w s, s.ctlReady t.val 0x02 w = true →
    ((s.tile t.val).issued = [] →
      exec (.fence t w) s = .next (s.issueDone t.val (s.opForm t.val (fun _ => 0) w) .done [])) ∧
    ((s.tile t.val).issued ≠ [] → exec (.fence t w) s = .next s)) ∧
  (∀ (t : Fin 272) w s, s.ctlReady t.val 0x03 w = true →
    let v := s.opForm t.val (fun _ => 0) w
    let a := s.issueOp t.val v .done true 0 qcount0 []
    exec (.wait t w) s = .next ((a.setTile t.val
      { a.tile t.val with wait := some ⟨Entry_bits v 0 31 28, Entry_bits v 1 31 0⟩ }).checkWait t.val)) ∧
  (∀ (t : Fin 272) w s, s.ctlReady t.val 0x04 w = true → (s.tile t.val).issued = [] →
    let v := s.opForm t.val (fun _ => 0) w
    (Entry_bits v 0 15 15 = 0 → exec (.signal t w) s = .next ((s.issueDone t.val v .done []).deliverOnce t.val fun a =>
      a.signal t.val (Entry_bits v 0 31 28) (Entry_bits v 1 31 0))) ∧
    (Entry_bits v 0 15 15 = 1 → s.tilePart (Entry_bits v 0 23 16) = some (s.tileCtx t.val).part →
      exec (.signal t w) s = .next ((s.issueDone t.val v .done []).deliverOnce t.val fun a =>
        a.signal (a.physOf (Entry_bits v 0 23 16)) (Entry_bits v 0 31 28) (Entry_bits v 1 31 0)))) ∧
  (∀ (t : Fin 272) w s,
    s.opReady t.val 0x06 w (fun v => if s.loopBad t.val v then some 0x09 else none) (fun _ => []) (fun _ => 0) = true →
    let v := s.opForm t.val (fun _ => 0) w
    let a := s.issueDone t.val v .done []
    exec (.loop t w) s = .next (a.setTile t.val { a.tile t.val with
      loop := some ⟨s.get (TILE_PC_PC t.val) + 64, 64 * (Entry_bits v 0 15 12 + 1), Entry_bits v 0 31 16 + 1, 0,
        Entry_bits v 1 63 32, Entry_bits v 1 31 0, Entry_bits v 2 63 32⟩ })) ∧
  (∀ (t : Fin 272) w s,
    s.opReady t.val 0x05 w (fun v => if Entry_bits v 0 1 0 = 3 then some 0x08 else none) (fun _ => []) (fun _ => 0) = true →
    (s.tile t.val).skipDeliveries ≤ (s.tile t.val).delivered →
    let v := s.opForm t.val (fun _ => 0) w
    let sc := Entry_bits v 0 1 0
    let l := s.get (TILE_STATUS_LOGICAL_ID t.val)
    let p := (s.tileCtx t.val).part
    (s.barrier p sc).arrived.contains (.tile l) = false →
    exec (.barrier t w) s = .next (((s.issueOp t.val v .done true 0 qcount0 []).deliverOnce t.val fun b =>
      (b.haloArrive p sc).arrive p sc (.tile l) 0 0xFF none).arriveLater p)) ∧
  (∀ (t : Fin 272) s i, s.live = true → ((s.tile t.val).issued.find? fun i => !i.waits) = some i →
    exec (.macroOpComplete t) s = .next (s.retireOp t.val i)) ∧
  (∀ (t : Fin 272) s, s.live = true → (s.tile t.val).wait.isSome = true →
    exec (.waitTimeout t) s = .next (s.endWait t.val .timeout)) ∧
  (∀ path (t : Fin 272) h v s, s.takesWrites = true → ctrlPath path = true →
    exec (.qsatCtlWrite path t h v) s =
      .next ((s.writeAny path (0x10000400 + t.val * 0x10000) h v.toNat).restartWindow t.val))

/-- The block mover's macro-ops (R102, R103, R115, R130): LOAD and GATHER bring blocks in from memory, STORE and SCATTER
take slots out, COPY and SEND move slots between local stores, PREFETCH asks the LLM for H blocks, and SEALCHK checks
its slots. -/
def Obligations.MoverCompletes : Prop :=
  (∀ (t : Fin 272) w flt s,
    s.opReady t.val 0x10 w (fun v => moBad v [] true false none) (fun v => [moSlots v false true]) (fun _ => 0) = true →
    let v := s.opForm t.val (fun _ => 0) w
    exec (.load t w flt) s = .next (s.moveIn t.val v [moSlots v false true] flt false)) ∧
  (∀ (t : Fin 272) w flt s,
    s.opReady t.val 0x11 w (fun v => moBad v [moListReg v, moSlots v false true] true false none)
      (fun v => [moListReg v, moSlots v false true]) (fun _ => 0) = true →
    let v := s.opForm t.val (fun _ => 0) w
    exec (.gather t w flt) s = .next (s.moveIn t.val v [moListReg v, moSlots v false true] flt true)) ∧
  (∀ (t : Fin 272) w s,
    s.opReady t.val 0x12 w (fun v => moBad v [] true false none) (fun v => [moSlots v true false]) (fun _ => 0) = true →
    let v := s.opForm t.val (fun _ => 0) w
    exec (.store t w .pass) s = .next (s.moveOut t.val v [moSlots v true false] false)) ∧
  (∀ (t : Fin 272) w s,
    s.opReady t.val 0x13 w (fun v => moBad v [moListReg v] true false none)
      (fun v => [moSlots v true false, moListReg v]) (fun _ => 0) = true →
    let v := s.opForm t.val (fun _ => 0) w
    exec (.scatter t w .pass) s = .next (s.moveOut t.val v [moSlots v true false, moListReg v] true)) ∧
  (∀ (t : Fin 272) w s,
    let regs (v : Entry) : List Reg :=
      [moSlots v true false, ⟨Entry_bits v 1 22 0, 4096 * moBlocks v, false, true, none, none⟩]
    s.opReady t.val 0x14 w (fun v => moBad v (regs v) false false (some (Entry_bits v 1 22 0))) regs (fun _ => 0) = true →
    let v := s.opForm t.val (fun _ => 0) w
    exec (.copy t w .pass) s = .next (s.moveLocal t.val v (regs v) t.val (Entry_bits v 1 22 0))) ∧
  (∀ (t : Fin 272) w s,
    let regs (v : Entry) : List Reg := moSlots v true false ::
      (if (Entry_bits v 4 7 0 == s.get (TILE_STATUS_LOGICAL_ID t.val)) = true then
        [⟨Entry_bits v 1 22 0, 4096 * moBlocks v, false, true, none, none⟩] else [])
    s.opReady t.val 0x15 w (fun v => moBad v (regs v) false false (some (Entry_bits v 1 22 0))) regs (fun _ => 0) = true →
    let v := s.opForm t.val (fun _ => 0) w
    s.tilePart (Entry_bits v 4 7 0) = some (s.tileCtx t.val).part →
    exec (.send t w .pass) s =
      .next (s.moveLocal t.val v (regs v) (s.physOf (Entry_bits v 4 7 0)) (Entry_bits v 1 22 0))) ∧
  (∀ (t : Fin 272) w s,
    s.opReady t.val 0x16 w (fun v => moBad v [] true true none) (fun _ => []) (fun _ => 0) = true →
    let v := s.opForm t.val (fun _ => 0) w
    s.moverBusy t.val = false → (s.ctx (s.tileCtx t.val).ctx).changes = [] →
    (s.cacheSlices (s.tileCtx t.val).part).isEmpty = true →
    exec (.prefetch t w) s = .next (s.issueDone t.val v .done [])) ∧
  (∀ (t : Fin 272) w s,
    s.opReady t.val 0x50 w (fun v => moBad v [] false false none) (fun v => [moSlots v true false]) (fun _ => 0) = true →
    let v := s.opForm t.val (fun _ => 0) w
    s.moverBusy t.val = false →
    let r := runBlocks (fun (b : State) j _ => b.sealSlot t.val v j) s (List.replicate (moBlocks v) (.here 0 0))
    exec (.sealchk t w .pass) s = .next (r.1.issueDone t.val v r.2 [moSlots v true false]))

/-- The elementwise macro-ops (R71, R79, R101, R112): element i of D is the named function of elements i of A, B and C,
rounded once to FP32 where it computes, and then stored in D's format. -/
def Obligations.ElementwiseCompletes : Prop :=
  (∀ (t : Fin 272) w s, s.vecReady t.val 0x30 w = true →
    let v := s.opForm t.val (vBlocks 0x30) w
    let rs := vRegs 0x30 v
    exec (.vadd t w .pass) s = .next (s.vMap t.val 0x30 v rs fun x y _ => round32 (vRnd v) (Val_add x y))) ∧
  (∀ (t : Fin 272) w s, s.vecReady t.val 0x31 w = true →
    let v := s.opForm t.val (vBlocks 0x31) w
    let rs := vRegs 0x31 v
    exec (.vsub t w .pass) s = .next (s.vMap t.val 0x31 v rs fun x y _ => round32 (vRnd v) (Val_add x (Val_flip y)))) ∧
  (∀ (t : Fin 272) w s, s.vecReady t.val 0x32 w = true →
    let v := s.opForm t.val (vBlocks 0x32) w
    let rs := vRegs 0x32 v
    exec (.vmul t w .pass) s = .next (s.vMap t.val 0x32 v rs fun x y _ => round32 (vRnd v) (Val_mul x y))) ∧
  (∀ (t : Fin 272) w s, s.vecReady t.val 0x33 w = true →
    let v := s.opForm t.val (vBlocks 0x33) w
    let rs := vRegs 0x33 v
    exec (.vfma t w .pass) s = .next (s.vMap t.val 0x33 v rs fun x y z => round32 (vRnd v) (Val_add (Val_mul x y) z))) ∧
  (∀ (t : Fin 272) w s, s.vecReady t.val 0x34 w = true →
    let v := s.opForm t.val (vBlocks 0x34) w
    let rs := vRegs 0x34 v
    exec (.vmax t w .pass) s = .next (s.vMap t.val 0x34 v rs fun x y _ => Val_max x y)) ∧
  (∀ (t : Fin 272) w s, s.vecReady t.val 0x35 w = true →
    let v := s.opForm t.val (vBlocks 0x35) w
    let rs := vRegs 0x35 v
    exec (.vmin t w .pass) s = .next (s.vMap t.val 0x35 v rs fun x y _ => Val_min x y)) ∧
  (∀ (t : Fin 272) w s, s.vecReady t.val 0x36 w = true →
    let v := s.opForm t.val (vBlocks 0x36) w
    let rs := vRegs 0x36 v
    exec (.vact t w .pass) s = .next (s.vMap t.val 0x36 v rs fun x _ _ => actFn (vFunc v) x)) ∧
  (∀ (t : Fin 272) w s, s.vecReady t.val 0x37 w = true →
    let v := s.opForm t.val (vBlocks 0x37) w
    let rs := vRegs 0x37 v
    exec (.vcmp t w .pass) s = .next (s.vMap t.val 0x37 v rs fun x y _ => if cmpFn (vFunc v) x y then .fin false 1 1 else Val_zero)) ∧
  (∀ (t : Fin 272) w s, s.vecReady t.val 0x38 w = true →
    let v := s.opForm t.val (vBlocks 0x38) w
    let rs := vRegs 0x38 v
    exec (.vsel t w .pass) s = .next (s.vMap t.val 0x38 v rs fun x y z => if Val_isZero z then x else y)) ∧
  (∀ (t : Fin 272) w s, s.vecReady t.val 0x3C w = true →
    let v := s.opForm t.val (vBlocks 0x3C) w
    let rs := vRegs 0x3C v
    exec (.vcvt t w .pass) s = .next (s.vMap t.val 0x3C v rs fun x _ _ => x)) ∧
  (∀ (t : Fin 272) w s, s.vecReady t.val 0x3D w = true →
    let v := s.opForm t.val (vBlocks 0x3D) w
    let rs := vRegs 0x3D v
    exec (.quant t w .pass) s = .next (s.vMap t.val 0x3D v rs fun x _ _ => x)) ∧
  (∀ (t : Fin 272) w s, s.vecReady t.val 0x3E w = true →
    let v := s.opForm t.val (vBlocks 0x3E) w
    let rs := vRegs 0x3E v
    exec (.dequant t w .pass) s = .next (s.vMap t.val 0x3E v rs fun x _ _ => x))

/-- Row reductions, layout, fills, draws, and the exact macro-ops that read or clear a region (R101, R111, R112, R310):
VRSUM adds each row exactly and rounds once; VRMAX and VTOPK take the largest; VTRANS transposes codes; VFILL stores one
FP32 value; VRAND stores 24-bit draws; VIDX picks rows; XROUND rounds each element of a region once; XZERO clears a
region. -/
def Obligations.ReductionsComplete : Prop :=
  (∀ (t : Fin 272) w s, s.vecReady t.val 0x39 w = true →
    let v := s.opForm t.val (vBlocks 0x39) w
    let rs := vRegs 0x39 v
    let sums := (s.vRowsOf t.val 0x39 v).map exactSum
    (sums.any fun x => x.2) = false →
    exec (.vrsum t w .pass) s =
      .next (s.vStore t.val 0x39 v rs (vRows v) 1 (sums.map fun x => exactVal x.1))) ∧
  (∀ (t : Fin 272) w s, s.vecReady t.val 0x3A w = true →
    let v := s.opForm t.val (vBlocks 0x3A) w
    let rs := vRegs 0x3A v
    exec (.vrmax t w .pass) s =
      .next (s.vStore t.val 0x3A v rs (vRows v) 1 ((s.vRowsOf t.val 0x3A v).map rowMax))) ∧
  (∀ (t : Fin 272) w s, s.vecReady t.val 0x3B w = true →
    let v := s.opForm t.val (vBlocks 0x3B) w
    let rs := vRegs 0x3B v
    let tops := (s.vRowsOf t.val 0x3B v).map (topK (vK v))
    lvFmt v 3 = 0 →
    exec (.vtopk t w .pass) s = .next ((s.writeSlots t.val (lvAddr v 2) (lvTensor v 2) 0 0
      (wideBlocks 0 (tops.flatMap fun r => r.map fun x => x.2))).vStore t.val 0x3B v rs (vRows v) (vK v)
        ((tops.map fun r => r.map fun x => x.1).flatMap fun r => r))) ∧
  (∀ (t : Fin 272) w s, s.vecReady t.val 0x3F w = true →
    let v := s.opForm t.val (vBlocks 0x3F) w
    let rs := vRegs 0x3F v
    let n := vRows v * vCols v
    let cs := s.codesAt t.val (lvAddr v 1) (lvFmt v 1) n
    exec (.vtrans t w .pass) s = .next (s.plainD t.val v rs (lvFmt v 1)
      ((List.range n).map fun i => cs.getD (i % vRows v * vCols v + i / vRows v) 0))) ∧
  (∀ (t : Fin 272) w s, s.vecReady t.val 0x40 w = true →
    let v := s.opForm t.val (vBlocks 0x40) w
    let rs := vRegs 0x40 v
    exec (.vfill t w .pass) s = .next (s.vStore t.val 0x40 v rs (vRows v) (vCols v)
      (List.replicate (vRows v * vCols v) (ofFp32 (Entry_bits v 5 63 32))))) ∧
  (∀ (t : Fin 272) w s, s.vecReady t.val 0x41 w = true →
    let v := s.opForm t.val (vBlocks 0x41) w
    let rs := vRegs 0x41 v
    exec (.vrand t w .pass) s = .next (s.vStore t.val 0x41 v rs (vRows v) (vCols v)
      ((List.range (vRows v * vCols v)).map fun i => .fin false (s.drawAt t.val v i / 256) (2 ^ 24)))) ∧
  (∀ (t : Fin 272) w s, s.vecReady t.val 0x42 w = true →
    let v := s.opForm t.val (vBlocks 0x42) w
    let rs := vRegs 0x42 v
    let cs := s.codesAt t.val (lvAddr v 1) (lvFmt v 1) (vRows v * vCols v)
    let is := s.codesAt t.val (lvAddr v 2) 0 (vRows v)
    (∀ i ∈ is, i < vRows v) →
    exec (.vidx t w .pass) s = .next (s.plainD t.val v rs (lvFmt v 1)
      (is.flatMap fun i => (List.range (vCols v)).map fun c => cs.getD (i * vCols v + c) 0))) ∧
  (∀ (t : Fin 272) w s, s.vecReady t.val 0x4A w = true →
    let v := s.opForm t.val (vBlocks 0x4A) w
    let rs := vRegs 0x4A v
    exec (.xround t w .pass) s = .next (s.plainD t.val v rs (lvFmt v 3)
      ((s.regionAt t.val (vAux v) (vRows v * vCols v)).zipIdx.map fun x =>
        (encodeF (lvFmt v 3) (vRnd v) (s.drawAt t.val v x.2 / 65536) (Entry_bits v 4 5 5 == 1) (exactVal x.1)).1))) ∧
  (∀ (t : Fin 272) w s, s.vecReady t.val 0x4B w = true →
    let v := s.opForm t.val (vBlocks 0x4B) w
    let rs := vRegs 0x4B v
    exec (.xzero t w .pass) s =
      .next (s.regionWrite t.val v rs (List.replicate (vRows v * vCols v) (exact0, false))))

/-- The macro-ops that update in place save their pre-images first (R113) and then work: MM and MMTA without accumulation of an
in-place form run at once (R105), and XADD and XMERGE add to a region of exact elements (R109, R110). -/
def Obligations.MatrixAndExactComplete : Prop :=
  (∀ (t : Fin 272) w s,
    let blocks (v : Entry) : Nat := if mmWrites v then blocksFor (mmD v) (mmM v) (mmN v) else 0
    s.opReady t.val 0x20 w (mmBad false) (mmRegs false) blocks = true →
    let v := s.opForm t.val blocks w
    s.slotsGood t.val (mmRegs false v) = true → mmAcc v < 2 →
    exec (.mm t w .pass) s = .next (s.matrixRun t.val false v (mmRegs false v))) ∧
  (∀ (t : Fin 272) w s,
    let blocks (v : Entry) : Nat := if mmWrites v then blocksFor (mmD v) (mmM v) (mmN v) else 0
    s.opReady t.val 0x21 w (mmBad true) (mmRegs true) blocks = true →
    let v := s.opForm t.val blocks w
    s.slotsGood t.val (mmRegs true v) = true → mmAcc v < 2 →
    exec (.mmta t w .pass) s = .next (s.matrixRun t.val true v (mmRegs true v))) ∧
  (∀ (t : Fin 272) w s,
    s.opReady t.val 0x48 w (vBad 0x48) (vRegs 0x48) (vBlocks 0x48) = true →
    let v := s.opForm t.val (vBlocks 0x48) w
    let rs := vRegs 0x48 v
    s.slotsGood t.val rs = true →
    exec (.xadd t w .pass) s = .next (s.withPre t.val v rs rs [] fun a => a.regionWrite t.val v rs
      (((a.regionAt t.val (vAux v) (vRows v * vCols v)).zip (a.vA t.val 0x48 v)).map fun x => exactAdd x.1 x.2))) ∧
  (∀ (t : Fin 272) w s,
    s.opReady t.val 0x49 w (vBad 0x49) (vRegs 0x49) (vBlocks 0x49) = true →
    let v := s.opForm t.val (vBlocks 0x49) w
    let rs := vRegs 0x49 v
    s.slotsGood t.val rs = true →
    exec (.xmerge t w .pass) s = .next (s.withPre t.val v rs rs [] fun a => a.regionWrite t.val v rs
      (((a.regionAt t.val (vAux v) (vRows v * vCols v)).zip (a.regionAt t.val (Entry_bits v 6 22 0)
        (vRows v * vCols v))).map fun x => exactMerge x.1 x.2)))

/-! ## Work lists, streams and pace -/

/-- The entries of a work list (R119, R120, R122, R126, R130, R135): a RUN whose tile is idle and whose source serves
starts its program, a feed starts, a NOTIFY and a MERIDIAN are dispatched; the end of a program completes its entry; and
streams go on or time out. -/
def Obligations.WorkListCompletes : Prop :=
  (∀ (p : Fin 128) (l : Fin 8) s e, s.listHeadReady p.val l.val 1 e = true →
    let t := s.physOf (weTile e)
    s.get (QD_JOURNAL_STATUS_RECORDS (quadOfTile t)) < 65536 → s.get (TILE_STATUS_STATE t) = 0 →
    s.flt.draining.contains (10, quadOfTile t) = false → s.sourceServes e = true → Entry_bits e 0 46 46 = 0 →
    exec (.run p l) s = .next (s.startRun p.val l.val e t)) ∧
  (∀ (p : Fin 128) (l : Fin 8) s e, s.listHeadReady p.val l.val 1 e = true →
    let t := s.physOf (weTile e)
    65536 ≤ s.get (QD_JOURNAL_STATUS_RECORDS (quadOfTile t)) →
    exec (.run p l) s = .next (s.inc (QD_JOURNAL_COUNT_WAITS (quadOfTile t)) 1)) ∧
  (∀ (p : Fin 128) (l : Fin 8) s e t, s.listHeadReady p.val l.val 1 e = true → Entry_bits e 0 46 46 = 1 →
    s.feedStarted p.val l.val (weSeq e) (Entry_bits e 6 63 52) = false → s.startFeed p.val l.val e = some t →
    exec (.feedStart p l) s = .next (t.markFeed p.val l.val (weSeq e) (Entry_bits e 6 63 52))) ∧
  (∀ (p : Fin 128) (l : Fin 8) s e, s.listHeadReady p.val l.val 3 e = true →
    let t := s.dispatch p.val l.val e
    let x := t.wlist p.val l.val
    exec (.notify p l) s = .next (State.notifyHeads (x.inflight.length + 1)
      (t.setWlist p.val l.val { x with later := x.later ++ [⟨weSeq e, 3, 0⟩] }) p.val l.val)) ∧
  (∀ (p : Fin 128) (l : Fin 8) s e, s.listHeadReady p.val l.val 2 e = true →
    let t := s.dispatch p.val l.val e
    let x := t.wlist p.val l.val
    exec (.meridian p l) s = .next (((t.setWlist p.val l.val
      { x with later := x.later ++ [⟨weSeq e, Entry_bits e 4 1 0, Entry_bits e 5 31 0⟩] }).haloArrive p.val
        (Entry_bits e 4 1 0)).arriveLater p.val)) ∧
  (∀ (p : Fin 128) (l : Fin 8) seq s kv st, s.live = true → s.isInflight p.val l.val seq = true →
    (s.tiles.find? fun kv => kv.2.entry.any fun e => e.part == p.val && e.list == l.val && e.seq == seq) = some kv →
    kv.2.finished = some st → s.flt.draining.contains (10, quadOfTile kv.1) = false →
    exec (.entryComplete p l seq) s = .next (s.finishRun p.val l.val seq kv.1 st)) ∧
  (∀ (i : Fin 1024) s, s.live = true →
    let t := (s.feeds.filter fun f => f.stream == i.val).foldl (fun (t : State) f => t.feedResume f) s
    (∀ w ∈ t.waits, w.stream ≠ i.val) → exec (.streamAccessResume i) s = .next t) ∧
  (∀ (i : Fin 1024) s d w, s.live = true → s.stream i.val = some d →
    (s.waits.find? fun w => w.stream == i.val) = some w → w.since + s.watchdog d.part * 1000 ≤ s.now →
    exec (.streamWatchdogExpire i) s =
      .next ((({ s with waits := s.waits.filter (· != w) } : State).endIssued w.tile w.n .timeout).evLim 0x7106 i.val 0 0
        i.val (if w.load then 1 else 0)))

/-- A PACE_SET write sets the nearest value of 16 to 384 (R140), notes whether it was clamped, and leaves every other register,
memory and seal as it was; what is recorded waits for the group boundary. -/
def Obligations.PaceSetClamps : Prop :=
  ∀ path v s, s.takesWrites = true → ctrlPath path = true →
    ∃ t, exec (.paceSetWrite path v) s = .next t ∧
      (16 ≤ v → v ≤ 384 → t.get HUB_PACE_CFG_PACE_SET = v ∧ t.pace = s.pace) ∧
      (384 < v → t.get HUB_PACE_CFG_PACE_SET = 384 ∧ t.pace.clamped = true) ∧
      (v < 16 → t.get HUB_PACE_CFG_PACE_SET = 16 ∧ t.pace.clamped = true) ∧
      (∀ off, off ≠ HUB_PACE_CFG_PACE_SET.off → t.rd off = s.rd off) ∧ t.mem = s.mem ∧ t.seals = s.seals ∧
      t.eph = s.eph ∧ t.out = s.out

/-- At a boundary of a 16-cycle PACE_REF group the time goes on by 160 ns a group, and BEAT plus HELD has counted every beat slot
of the pattern at the PACE_NOW in force (R139, R141): HELD counted the held ones as they were held, and BEAT takes the rest;
PACE_NOW is then the lower of PACE_SET and the power controller's cap (R140). -/
def Obligations.PaceGroupCountsSlots : Prop :=
  ∀ groups s, s.on = true → s.frozen = false → s.get PWR_STATUS_FORCED ≠ 1 → s.get PWR_STATUS_STATE < 3 →
    s.pace.refPresent = true →
    ∃ t, exec (.paceGroupBoundary groups) s = .next t ∧
      t.get HUB_TIME_TIME = (s.get HUB_TIME_TIME + 160 * groups) % 2 ^ 64 ∧
      t.get HUB_BEAT_BEAT = (s.get HUB_BEAT_BEAT + (s.get HUB_PACE_STATUS_PACE_NOW * groups -
        min s.pace.groupHeld (s.get HUB_PACE_STATUS_PACE_NOW * groups))) % 2 ^ 64 ∧
      t.get HUB_HELD_HELD = s.get HUB_HELD_HELD ∧ t.get HUB_PACE_STATUS_PACE_NOW = s.paceNext.1 % 512 ∧
      t.get HUB_PACE_STATUS_LIMITER = s.paceNext.2 % 8 ∧ t.mem = s.mem ∧ t.seals = s.seals

/-- Stretches and the reference clock (R141, R142, R432): a detector that trips starts a hold; when all have cleared,
the slots held count in HELD and the run once in STRETCH_COUNT; at the edge of PACE_EPOCH BEAT is 0 and the time takes
the value that the Lodestar distributed; and PACE_REF lost and back. -/
def Obligations.PaceEventsComplete : Prop :=
  (∀ (d : Fin 1088) s, s.on = true → s.pwr.masked.contains d.val = false →
    exec (.droopTrip d) s = .next { s with
      pace := { s.pace with drooping := true }
      pwr := { s.pwr with tripped := d.val :: s.pwr.tripped.filter (· != d.val), lastDet := d.val } }) ∧
  (∀ slots s, s.on = true → s.pace.drooping = true →
    let t : State := { s with
      pace := { s.pace with drooping := false, groupHeld := s.pace.groupHeld + slots }
      pwr := { s.pwr with tripped := [], holdBeats := s.pwr.holdBeats + slots } }
    exec (.droopClear slots) s = .next (((t.put HUB_HELD_HELD (s.get HUB_HELD_HELD + slots)).inc
      HUB_PACE_STATUS_STRETCH_COUNT 1).stretchEvent slots s.pwr.lastDet)) ∧
  (∀ s, s.on = true → ∃ t, exec .paceEpoch s = .next t ∧ t.get HUB_BEAT_BEAT = 0 ∧
    (∀ v, s.const.epochValue = some v → t.get HUB_TIME_TIME = v % 2 ^ 64) ∧
    (s.const.epochValue = none → t.get HUB_TIME_TIME = s.get HUB_TIME_TIME) ∧
    t.get HUB_HELD_HELD = s.get HUB_HELD_HELD ∧ t.mem = s.mem ∧ t.seals = s.seals ∧ t.out = s.out) ∧
  (∀ s, exec .paceRefLoss s =
    .next { s with pace := { s.pace with refPresent := false, lossHeld := s.get HUB_HELD_HELD } }) ∧
  (∀ s, s.pace.refPresent = false → s.on = true →
    let t : State := { s with pace := { s.pace with refPresent := true } }
    exec .paceRefResume s = .next ((t.inc HUB_PACE_STATUS_STRETCH_COUNT 1).stretchEvent
      (s.get HUB_HELD_HELD - s.pace.lossHeld) 0xFFFF))

/-! ## Stacks and the last-level memory -/

/-- The commands and events of a stack (R149 to R151, R154, R155, R158, R159): a channel taken offline or online starts
its copy, which ends; a channel that can no longer be read; a fold; refresh waits; the exerciser; temperature samples
and the T3 hold. -/
def Obligations.StackEventsComplete : Prop :=
  (∀ (k : Fin 12) (c : Fin 34) s d, s.takesWrites = true → s.get (HBM_CH_STATUS_STATE k.val c.val) = 1 →
    s.freeSpare k.val = some d →
    exec (.offline k c) s = .next (((s.setChannel k.val c.val 3).setSparing k.val c.val (some ⟨1, d, false⟩)).put
      (HBM_CH_STATUS_COPY_PCT k.val c.val) 0)) ∧
  (∀ (k : Fin 12) (c : Fin 34) s, s.takesWrites = true → s.get (HBM_CH_STATUS_STATE k.val c.val) = 4 →
    exec (.online k c) s = .next (((s.setChannel k.val c.val 3).setSparing k.val c.val (some ⟨2, c.val, false⟩)).put
      (HBM_CH_STATUS_COPY_PCT k.val c.val) 0)) ∧
  (∀ (k : Fin 12) (c : Fin 34) s d, s.live = true → s.sparing k.val c.val = some ⟨1, d, false⟩ →
    let slot := s.get (HBM_CH_STATUS_SLOT k.val c.val)
    let t := ((((s.put (HBM_CH_STATUS_SLOT k.val d) slot).setChannel k.val d 1).put (HBM_CH_STATUS_COPY_PCT k.val c.val)
      100).setChannel k.val c.val 4).setSparing k.val c.val none
    exec (.sparingCopyComplete k c) s = .next ((t.setStk k.val { t.stk k.val with
      replacedBy := smSet (fun _ => none) (t.stk k.val).replacedBy c.val (some d) }).nextRepair k.val)) ∧
  (∀ (k : Fin 12) (c : Fin 34) s, s.live = true → s.get (HBM_CH_STATUS_STATE k.val c.val) = 3 →
    exec (.channelUnreadable k c) s =
      .next (s.poisonSlot k.val (s.get (HBM_CH_STATUS_SLOT k.val c.val)) c.val)) ∧
  (∀ (k : Fin 12) (c : Fin 34) s x, s.live = true → s.sparing k.val c.val = some x → x.kind = 3 →
    let n := s.get (HBM_STACK_STATUS_FOLDS k.val) + 1
    let lim := (64 - 2 * n) * 512
    s.extentsIn (k.val * 2 ^ 36 + lim * 2 ^ 21) ((k.val + 1) * 2 ^ 36) ≤ (s.freeH k.val lim).length →
    let t := ((s.evacuate k.val lim).put (HBM_STACK_STATUS_FOLDS k.val) n).put (HBM_STACK_STATUS_CAP_GIB k.val) (64 - 2 * n)
    let t := t.setStk k.val { t.stk k.val with
      folded := (t.stk k.val).folded ++ [s.get (HBM_CH_STATUS_SLOT k.val c.val)] }
    exec (.foldComplete k c) s = .next
      (((t.channelRetired k.val c.val 3 none).ev 0x8103 (0x10 + k.val) 0 1 n c.val).scaleGuarantees.nextRepair k.val)) ∧
  (∀ (k : Fin 12) pc w s, s.on = true → w.1 < 128 →
    exec (.refresh k pc [w]) s = .next (s.inc (HUB_PART_TIMING_REFRESH_WAIT w.1) w.2)) ∧
  (∀ (k : Fin 12) s, s.takesWrites = true → (s.stk k.val).exerciser = false → s.get (HBM_EXER_CTL_CHANNEL k.val) ≤ 33 →
    s.get (HBM_CH_STATUS_STATE k.val (s.get (HBM_EXER_CTL_CHANNEL k.val))) = 2 →
    exec (.exerciserStart k) s = .next ((s.put (HBM_EXER_RESULT_DONE k.val) 0).setStk k.val
      { s.stk k.val with exerciser := true })) ∧
  (∀ (k : Fin 12) s, s.takesWrites = true → (s.stk k.val).exerciser = true →
    exec (.exerciserAbort k) s = .next ((((s.useFree.useFree.setStk k.val { s.stk k.val with exerciser := false }).put
      (HBM_EXER_RESULT_ERRORS k.val) (Config.freeValue s.free).toNat).put (HBM_EXER_RESULT_STATUS k.val)
      (Config.freeValue (s.free + 1)).toNat).put (HBM_EXER_RESULT_DONE k.val) 1)) ∧
  (∀ (k : Fin 12) errors lo hi s, s.on = true → (s.stk k.val).exerciser = true → s.get (HBM_EXER_CTL_MODE k.val) = 0 →
    ∃ t, exec (.exerciserRunComplete k errors lo hi) s = .next t ∧ t.get (HBM_EXER_RESULT_DONE k.val) = 1 ∧
      t.get (HBM_EXER_RESULT_PASS k.val) = (if errors = 0 then 1 else 0) ∧
      t.get (HBM_EXER_RESULT_ERRORS k.val) = min errors 0xFFFFFFFF ∧ t.get (HBM_EXER_RESULT_STATUS k.val) = 0 ∧
      (t.stk k.val).exerciser = false ∧ t.mem = s.mem ∧ t.seals = s.seals ∧ t.eph = s.eph ∧
      (∀ off, off ≠ 0x20004008 + k.val * 0x100000 → t.rd off = s.rd off)) ∧
  (∀ (k : Fin 12) temp s, s.on = true → 4 ≤ s.get (HBM_STACK_STATUS_LEVEL k.val) →
    exec (.stackTempSample k temp) s = .next (s.put (HBM_STACK_STATUS_TEMP k.val) (min temp 1023))) ∧
  (∀ (k : Fin 12) s a, s.takesWrites = true → s.get (HBM_STACK_STATUS_LEVEL k.val) = 3 → (s.stk k.val).t3At = some a →
    let hold := max 1 (s.get (HBM_THERM_CTL_HOLD_MS k.val))
    a + hold * 1000000 ≤ s.now →
    let t := s.put (HBM_STACK_STATUS_LEVEL k.val) 4
    let t := t.setStk k.val { t.stk k.val with t3At := none, outOfService := true }
    exec (.t3HoldExpire k) s = .next
      ((t.ev 0x8106 (0x10 + k.val) 0 (t.get (HBM_STACK_STATUS_TEMP k.val)) hold 0).emit (.failover 2 k.val)))

/-- The operations of the last-level memory (R165, R167): a slice's FLUSH, INVALIDATE or FLUSH_INVALIDATE begins by a
register write, LLM_RANGE by a command, a running one moves its lines and completes, and a slice's copy to a spare
remaps it. -/
def Obligations.LastLevelCompletes : Prop :=
  (∀ (q : Fin 4) (i : Fin 17) s, s.takesWrites = true →
    exec (.llmFlush q i) s = .next (s.regOp q.val i.val 1) ∧
    exec (.llmInvalidate q i) s = .next (s.regOp q.val i.val 2) ∧
    exec (.llmFlushInvalidate q i) s = .next (s.regOp q.val i.val 3)) ∧
  (∀ (q : Fin 4) (i : Fin 17) s o, s.live = true →
    (s.llmOps.find? fun o => o.running && o.slices.contains (17 * q.val + i.val)) = some o → s.opBlocked o = false →
    let t := ((s.opBlocks o).foldl (fun (t : State) b => t.lineOp o.op b) s).endOp o .done
    (t.llmOps.find? fun x => !x.running && x.slices.contains (17 * q.val + i.val)) = none →
    exec (.llmOpComplete q i) s = .next t) ∧
  (∀ (c : Fin 4096) s e x rel, s.cmdReady c.val 0x28 e = true →
    let t := s.advance (.cmdRing c.val) 1
    let i := s.get (qHead (.cmdRing c.val))
    Entry_bits e 1 1 0 ≠ 0 → t.view c.val (Entry_bits e 2 63 0) (Entry_bits e 3 63 0) false [1] = .extent x rel →
    t.cacheSlices (t.get (CTX_PARTITION c.val)) = [] → exec (.llmRange c) s = .next (t.cmdDone c.val i .done 0)) ∧
  (∀ (q : Fin 4) (i : Fin 17) s d, s.live = true → s.flt.draining.contains (3, 17 * q.val + i.val) = true →
    let t : State := { s with flt := { s.flt with
      draining := s.flt.draining.filter (· != (3, 17 * q.val + i.val)) } }
    t.spareSlice q.val = some d → exec (.llmSliceCopyComplete q i) s =
      .next ((t.remapSlice q.val i.val d).sliceRetired q.val i.val (s.get (LLM_SLICE_STATUS_ACTIVE_INDEX q.val i.val)) 0 0
        (some d)))

/-! ## The Deep tier -/

/-- Credit accrues at ACCRUE per mille of 32 TiB a day and stops at BURST_TIB (R187): whatever it was, after an accrual it is
at most the cap, memory and seals are as they were, and the next state is answered whenever the module has power. -/
def Obligations.CreditStopsAtCap : Prop :=
  ∀ us s, s.on = true → ∃ t, exec (.creditAccrual us) s = .next t ∧ t.tiers.credit ≤ s.creditCap * creditUnit

/-- The events of the Deep-tier controller: accrual, the save of credit and wear, moves of the flash translation layer,
a bad block, an acknowledged write, deferred requests let in or refused, and the end of a reset (R174, R182, R183, R184,
R186, R187, R190). -/
def Obligations.DeepTierCompletes : Prop :=
  (∀ s, s.on = true → exec .governorCreditSave s = .next (({ s with tiers := { s.tiers with
    savedCredit := s.tiers.credit, savedLogical := s.tiers.logicalBlocks, savedNand := s.tiers.nandBlocks } } : State).wear)) ∧
  (∀ moved block s, s.on = true → exec (.garbageCollection moved) s = .next (s.nand 0 moved) ∧
    exec (.readDisturbRefresh block moved) s = .next (s.nand 0 moved) ∧
    exec (.retentionRefresh moved) s = .next (s.nand 0 moved)) ∧
  (∀ moved s, s.on = true → s.tiers.rebuilding = true →
    exec (.staticWearLevelling moved) s = .next (s.nand 0 moved)) ∧
  (∀ block s, s.on = true → s.tiers.retiredErase.contains block = false →
    exec (.badBlockRetirement block []) s = .next (({ s with tiers := { s.tiers with
      retiredErase := s.tiers.retiredErase ++ [block] } } : State).wear)) ∧
  (∀ s, s.live = true → s.tiers.rebuilding = true →
    exec .translationRebuildComplete s = .next { s with tiers := { s.tiers with rebuildReady := true } }) ∧
  (∀ id s w key rs, s.live = true → (s.tiers.dwrites.find? fun w => w.id == id) = some w → w.credited = true →
    s.earlierWrite w = false → w.what = .rows key rs →
    exec (.dWriteAcknowledge id) s = .next ((s.dAck w).reflush)) ∧
  (∀ point s d, s.live = true → s.deferHead point = some d → point % 16 = 1 →
    exec (.deferralHeadReadmit point) s = .next (s.readmitExtent d)) ∧
  (∀ point s d ring, s.live = true → point ≠ 5 → s.deferHead point = some d → point % 16 = 1 →
    d.since + 1000000000 ≤ s.now → d.ring = .cmdRing ring →
    exec (.deferralWaitLimit point) s = .next (((s.dropDeferral d).countRefusal d.ctx d.tier 1 .refusedCapacity).cmdClose
      ring d.index .refusedCapacity 0 0)) ∧
  (∀ s, s.live = true → s.get DEEP_STATUS_STATE = 2 → s.flt.draining.contains (8, 0) = false → s.isOut 8 0 = false →
    let t := (s.put DEEP_STATUS_STATE (if s.readOnlyCause.isSome then 3 else 1)).next DEEP_STATUS_GENERATION
    exec .deepRestoreComplete s = .next ((({ t with tiers := { t.tiers with
      rebuildReady := false, forwarded := 0, rebuildSince := s.now, returned := 0 } } : State).ev 0x910A 0x040 0
        (s.get DEEP_STATUS_GENERATION) s.tiers.returned ((s.now - s.tiers.resetAt) / 1000000)).reflush))

/-! ## Halo engines -/

/-- The descriptors of a Halo queue pair: GATHER, UPDATE and LOOKAHEAD are taken and try their work; STEP_END marks the
end of the step's updates; SWAP and OVERRIDE wait for their step with the table; MIGRATE starts a migration; and
LOAD_STATS writes the closed window's counts (R203, R207, R208, R209, R216, R217, R219, R221). -/
def Obligations.HaloDescriptorsComplete : Prop :=
  (∀ (k : Fin 12) (qp : Fin 32) s e, s.haloHeadReady k.val qp.val 1 e = true →
    exec (.haloGather k qp) s =
      .next ((s.haloTaken k.val qp.val 1 e).haloTry (s.haloOpOf k.val qp.val 1 e) State.gather)) ∧
  (∀ (k : Fin 12) (qp : Fin 32) s e, s.haloHeadReady k.val qp.val 2 e = true →
    let t := s.haloTaken k.val qp.val 2 e
    exec (.update k qp) s = .next ((t.haloTry (s.haloOpOf k.val qp.val 2 e) State.update).haloChecks
      (t.get (HALO_QP_CFG_PARTITION k.val qp.val)))) ∧
  (∀ (k : Fin 12) (qp : Fin 32) s e, s.haloHeadReady k.val qp.val 3 e = true →
    let t := s.haloTaken k.val qp.val 3 e
    let p := t.get (HALO_QP_CFG_PARTITION k.val qp.val)
    exec (.haloStepEnd k qp) s = .next ((t.setCommit p { t.commit p with
      haloStepEnds := (t.commit p).haloStepEnds ++ [(k.val, qp.val)] }).haloEnd (s.haloOpOf k.val qp.val 3 e) .done)) ∧
  (∀ (k : Fin 12) (qp : Fin 32) s e, s.haloHeadReady k.val qp.val 4 e = true →
    exec (.lookahead k qp) s =
      .next ((s.haloTaken k.val qp.val 4 e).haloTry (s.haloOpOf k.val qp.val 4 e) State.lookahead)) ∧
  (∀ (k : Fin 12) (qp : Fin 32) s e b n, s.haloHeadReady k.val qp.val 6 e = true →
    let t := s.haloTaken k.val qp.val 6 e
    let o := s.haloOpOf k.val qp.val 6 e
    t.tableKey o.key = some b → t.tableAt k.val (t.tableDomain b) (Entry_bits e 2 15 0) = some n →
    (n.ctx == b.ctx && n.key != b.key && tdRows n.desc == tdRows b.desc && tdDim n.desc == tdDim b.desc &&
      tdFmt n.desc == tdFmt b.desc && tdKind n.desc == tdKind b.desc && tdShards n.desc == tdShards b.desc) = true →
    exec (.swap k qp) s = .next ((t.mapTable o.key fun b => { b with
      pendingSwap := b.pendingSwap ++ [(o.step, Entry_bits e 2 15 0, o.qp, o.index)] }).haloHold o)) ∧
  (∀ (k : Fin 12) (qp : Fin 32) s e u bs, s.haloHeadReady k.val qp.val 8 e = true →
    let t := s.haloTaken k.val qp.val 8 e
    let o := s.haloOpOf k.val qp.val 8 e
    t.haloFetch (t.owner (.haloQp k.val qp.val)) o.index (Entry_bits e 2 63 0) (16 * haloCount e) = (u, some bs) →
    let l := (List.range (haloCount e)).map fun i => overrideOf ((bs.drop (16 * i)).take 16)
    (∀ x ∈ l, x ≠ none) → overridesMeet (l.filterMap fun x => x) = false →
    exec (.override k qp) s = .next ((u.mapTable o.key fun b => { b with
      pendingOverride := b.pendingOverride ++ [(o.step, o.qp, o.index, l.filterMap fun x => x)] }).haloHold o)) ∧
  (∀ (k : Fin 12) (qp : Fin 32) s e b x u, s.haloHeadReady k.val qp.val 5 e = true →
    let t := s.haloTaken k.val qp.val 5 e
    let o := s.haloOpOf k.val qp.val 5 e
    let first := Entry_bits e 2 47 0
    t.tableKey o.key = some b → haloCount e = 1 → t.rowOf b first = some x → x.state = 2 →
    Entry_bits e 4 23 0 = t.self → Entry_bits e 4 27 24 ≤ 11 → Entry_bits e 4 27 24 ≠ k.val →
    (t.localHome b (Entry_bits e 4 23 0) (Entry_bits e 4 27 24)).isSome = true →
    ((t.localHome b (Entry_bits e 4 23 0) (Entry_bits e 4 27 24)).bind fun h => (t.haloHold o).migAdmit h first 1) = some u →
    let g : Migration := ⟨first, 1, Entry_bits e 4 23 0, Entry_bits e 4 27 24, qp.val, o.index, o.step, true, false, false⟩
    exec (.migrate k qp) s = .next (((u.dropReplicas b fun r => Migration_has g r).mapTable b.key fun y =>
      { y with migrations := y.migrations ++ [g] }).migSteps b.key)) ∧
  (∀ (k : Fin 12) (qp : Fin 32) s e b u, s.haloHeadReady k.val qp.val 7 e = true →
    let t := s.haloTaken k.val qp.val 7 e
    let o := s.haloOpOf k.val qp.val 7 e
    let ctx := t.owner (.haloQp k.val qp.val)
    t.tableKey o.key = some b → Entry_bits e 0 0 0 = 0 →
    let bs := statsBytes b.desc b.tid (t.get (HALO_QP_CFG_LOADFMT k.val qp.val) == 1)
      (b.closed.getD ⟨0, 0, [], [], [], 0⟩)
    let blocks := (cutList 4096 bs.length bs).map fun l => l ++ List.replicate (4096 - l.length) 0
    t.haloDest ctx o.index (Entry_bits e 5 63 0) (4096 * blocks.length) = (u, true) →
    exec (.loadStats k qp) s =
      .next ((u.haloOut ctx (Entry_bits e 5 63 0) (tdTag b.desc) 0 o.step blocks).haloEnd o .done))

/-- The events of the Halo engines: a promotion, a write-back acknowledged, a migration's copy, a row map rebuilt, a
replica push that times out, and the end of a load window (R176, R215, R216, R218, R220). -/
def Obligations.HaloEventsComplete : Prop :=
  (∀ (k : Fin 12) tid row s b x, s.live = true → s.get DEEP_STATUS_STATE ≠ 2 → s.haloServes k.val = true →
    (s.tables.find? fun b => b.engine == k.val && b.tid == tid && !b.retired &&
      b.rows.any fun x => x.row == row && x.state == 1) = some b →
    (b.rows.find? fun x => x.row == row) = some x →
    let r := s.readHome b x
    (Status_ok r.1 = true → exec (.promotionComplete k tid row true) s =
      .next (((((s.writeRow b x.slot r.2.2.2 r.2.1).writeState b x.slot r.2.2.2 r.2.2.1).setRow b.key
        { x with state := 2 }).rowsMoved))) ∧
    exec (.promotionComplete k tid row false) s = .next (((s.coldRow b x).failRow b row .sealMismatch).rowsMoved)) ∧
  (∀ (k : Fin 12) tid row s b x, s.live = true →
    (s.tables.find? fun b => b.engine == k.val && b.tid == tid && b.rows.any fun x => x.row == row && x.state == 4) = some b →
    (b.rows.find? fun x => x.row == row) = some x → s.tiers.dwrites = [] → x.version = x.wbVersion → x.evict = false →
    let t := (s.setRow b.key { x with state := 2, dirty := false }).flushAcked b.key row x.wbVersion
    t.deferHead (rowPoint k.val) = none →
    exec (.writeBackAck k tid row) s = .next t.rowsMoved) ∧
  (∀ (k : Fin 12) tid s b g, s.live = true →
    (s.tables.filter fun b => b.engine == k.val && b.tid == tid && !b.retired) = [b] →
    let t := s.migSteps b.key
    ∀ c, t.tableKey b.key = some c → (c.migrations.filter fun g => g.admitted && !g.copied) = [g] →
    ((List.range g.count).all fun i => (t.rowOf c (g.first + i)).any fun x => x.state == 5) = true →
    (t.xreqs.any fun x => x.what == .migrate k.val tid) = false →
    exec (.migrationCopyComplete k tid) s = .next (t.mapMig b.key g fun z => { z with copied := true })) ∧
  (∀ (k : Fin 12) tid s b, s.live = true →
    (s.tables.filter fun b => b.engine == k.val && b.tid == tid && !b.retired) = [b] →
    exec (.rowMapRebuildComplete k tid false) s =
      .next (s.mapTable b.key fun y => if y.rebuildRow then { y with rowsReady := true } else y)) ∧
  (∀ (k : Fin 12) tid row s b, s.live = true →
    (s.tables.filter fun b => b.engine == k.val && b.tid == tid && !b.retired) = [b] →
    (b.replicas.any fun x => x.row == row && x.state == 2) = true →
    exec (.replPushTimeout k tid row) s = .next (s.dropReplica b.key row)) ∧
  (∀ (k : Fin 12) tid s b, s.live = true →
    (s.tables.filter fun b => b.engine == k.val && b.tid == tid && !b.retired &&
      decide (Desc_bits b.desc 12 15 0 ≤ b.window)) = [b] → b.replicas = [] →
    exec (.loadWindowEnd k tid) s = .next (s.mapTable b.key fun y => { y with
      closed := some ⟨y.window, y.windowFirst, y.rowReads, y.replReads, y.rowUpdates, y.imported⟩
      window := 0, windowFirst := (s.committed y.part + 1) % 2 ^ 32, rowReads := [], replReads := [], rowUpdates := []
      imported := 0, remoteReads := []
      rows := y.rows.map fun (x : Row) => { x with load := 0 }
      replicas := (y.replicas.filter fun x => decide (Desc_bits y.desc 12 31 16 ≤ 2 * x.reads)).map fun (x : Replica) =>
        { x with reads := 0 } }))

/-! ## Orrery, commits and the Meridian -/

/-- The descriptors of an Orrery queue pair: each is taken, and the Orrery that serves tries its work; a GRAD also marks
the step that its shard has a gradient of. The oldest unfinished roots of a shard complete (R231, R232, R237, R240,
R244, R246, R248). -/
def Obligations.OrreryCompletes : Prop :=
  (∀ (q : Fin 4) (qp : Fin 16) s e, s.orrHeadReady q.val qp.val 1 e = true →
    exec (.grad q qp) s = .next ((s.orrTaken q.val qp.val 1 e).orrTry (s.orrOpOf q.val qp.val 1 e))) ∧
  (∀ (q : Fin 4) (qp : Fin 16) s e, s.orrHeadReady q.val qp.val 2 e = true →
    exec (.orrStepEnd q qp) s = .next ((s.orrTaken q.val qp.val 2 e).orrTry (s.orrOpOf q.val qp.val 2 e))) ∧
  (∀ (q : Fin 4) (qp : Fin 16) s e, s.orrHeadReady q.val qp.val 3 e = true →
    exec (.setHyper q qp) s = .next ((s.orrTaken q.val qp.val 3 e).orrTry (s.orrOpOf q.val qp.val 3 e))) ∧
  (∀ (q : Fin 4) (qp : Fin 16) s e, s.orrHeadReady q.val qp.val 4 e = true →
    exec (.exportOp q qp) s = .next ((s.orrTaken q.val qp.val 4 e).orrTry (s.orrOpOf q.val qp.val 4 e))) ∧
  (∀ (q : Fin 4) (qp : Fin 16) s e, s.orrHeadReady q.val qp.val 5 e = true →
    exec (.importOp q qp) s = .next ((s.orrTaken q.val qp.val 5 e).orrTry (s.orrOpOf q.val qp.val 5 e))) ∧
  (∀ (q : Fin 4) (qp : Fin 16) s e, s.orrHeadReady q.val qp.val 6 e = true →
    exec (.skip q qp) s = .next ((s.orrTaken q.val qp.val 6 e).orrTry (s.orrOpOf q.val qp.val 6 e))) ∧
  (∀ q qp e (s : State) x, s.orrShard q qp e = some x →
    let t := s.orrTaken q qp 1 e
    t.orrOps = s.orrOps ++ [s.orrOpOf q qp 1 e] ∧
    t.shards = ((s.advance (.orrQp q qp) 1).setShard { x with gradStep := some (Entry_bits e 1 63 32) }).shards ∧
    t.mem = s.mem ∧ t.seals = s.seals) ∧
  (∀ (q : Fin 4) (k : Fin 512) s, s.live = true → s.orrServes q.val = true →
    exec (.rootComputeComplete q k) s = .next (s.rootsDone q.val k.val))

/-- The events of a step's check and of the Meridian: a Parallax replay compared, the Parallax window's end, the release
of the check, verdict and ordinary job barriers, a barrier abandoned at its time-out, a DIM token, and the Meridian of
the module, at which commits, route flips, table flips and a firmware switch take effect (R133, R136, R137, R138, R241,
R242, R383). -/
def Obligations.CommitEventsComplete : Prop :=
  (∀ (q : Fin 4) (p : Fin 128) (l : Fin 8) seq digest status s r, s.live = true → (s.commit p.val).verdict = true →
    (s.commit p.val).arrived = false →
    ((s.pinned p.val).find? fun r => r.quad == q.val && r.list == l.val && r.seq == seq && !r.compared &&
      r.replayTile.isSome) = some r →
    exec (.parallaxReplayComplete q p l seq digest status) s =
      .next ((((s.inc (HUB_PART_PARALLAX_REPLAYED p.val) 1).compared r (status == .done && digest == r.outDigest)
        (status == .nonfinite)).verdictArrive p.val false))) ∧
  (∀ (p : Fin 128) s, s.live = true → (s.commit p.val).verdict = true → (s.commit p.val).arrived = false →
    (s.commit p.val).checkInstant + clampTo 100 100000 (s.get (HUB_PART_COMMIT_PARALLAX_WINDOW p.val)) * 1000 ≤ s.now →
    exec (.parallaxWindowExpire p) s = .next (s.verdictArrive p.val true)) ∧
  (∀ (p : Fin 128) s, s.live = true → s.relDue p.val = true →
    (s.isCheck p.val (s.barrier p.val 2) = true → exec (.checkBarrierRelease p) s = .next (s.jobRelease p.val)) ∧
    (s.isVerdict p.val (s.barrier p.val 2) = true → exec (.verdictRelease p) s = .next (s.jobRelease p.val)) ∧
    (s.isCheck p.val (s.barrier p.val 2) = false → s.isVerdict p.val (s.barrier p.val 2) = false →
      exec (.jobReleaseInstant p) s = .next ((s.jobRelease p.val).settle))) ∧
  (∀ (p : Fin 128) (scope : Fin 3) s, s.live = true → (s.barrier p.val scope.val).arrived.isEmpty = false →
    (s.barrier p.val scope.val).tRel = none → s.deadline (s.barrier p.val scope.val) ≤ s.now →
    exec (.meridianTimeout p scope) s = .next (s.abandon (s.barrier p.val scope.val))) ∧
  (∀ (p : Fin 128) (k : Nat) s, s.live = true → k < 12 → s.get (HBM_STACK_STATUS_LEVEL k) = 2 →
    bitsOf 31 31 (s.rd (HUB_MER_JOB_LEAD p.val).off) = 0 → s.partValid p.val = true →
    exec (.dimTokenSend p) s = .next (s.sendMer (bitsOf 28 24 (s.rd (HUB_MER_JOB_LEAD p.val).off)) true
      (merPayload 2 p.val 0 0 (s.barrier p.val 2).number none 0))) ∧
  (∀ s, s.live = true → exec .moduleMeridianRaise s =
    .next (((((s.commitAt).routeFlipAt).haloFlips).deepFlip).switchStart.settle))

/-! ## Packets -/

/-- Every kind of packet that carries a request, a reply, rows or replicas arrives good and in order: its sequence
number is the port's LAST_GOOD, a link word acknowledges it, its own ACK frees retry buffers, and the packet goes to
what it is for, or is held while the module is frozen (R31, R203, R208, R214, R215, R267, R258, R261). -/
def Obligations.RequestPacketsArrive : Prop :=
  (∀ rx s, s.rxReady rx = true → rx.pkt.ty = 0x01 → 
    exec (.readReq rx) s = .next ((s.rxTaken rx).handUp (.readReq rx) (rx.port % 32) rx.pkt)) ∧
  (∀ rx s, s.rxReady rx = true → rx.pkt.ty = 0x02 → 
    exec (.readRsp rx) s = .next ((s.rxTaken rx).handUp (.readRsp rx) (rx.port % 32) rx.pkt)) ∧
  (∀ rx s, s.rxReady rx = true → rx.pkt.ty = 0x03 → 
    exec (.writeReq rx) s = .next ((s.rxTaken rx).handUp (.writeReq rx) (rx.port % 32) rx.pkt)) ∧
  (∀ rx s, s.rxReady rx = true → rx.pkt.ty = 0x04 → 
    exec (.writeAck rx) s = .next ((s.rxTaken rx).handUp (.writeAck rx) (rx.port % 32) rx.pkt)) ∧
  (∀ rx s, s.rxReady rx = true → rx.pkt.ty = 0x05 → 
    exec (.rowReq rx) s = .next ((s.rxTaken rx).handUp (.rowReq rx) (rx.port % 32) rx.pkt)) ∧
  (∀ rx s, s.rxReady rx = true → rx.pkt.ty = 0x06 → 
    exec (.rowRsp rx) s = .next ((s.rxTaken rx).handUp (.rowRsp rx) (rx.port % 32) rx.pkt)) ∧
  (∀ rx s, s.rxReady rx = true → rx.pkt.ty = 0x07 → 
    exec (.pairs rx) s = .next ((s.rxTaken rx).handUp (.pairs rx) (rx.port % 32) rx.pkt)) ∧
  (∀ rx s, s.rxReady rx = true → rx.pkt.ty = 0x09 → 
    exec (.statusPkt rx) s = .next ((s.rxTaken rx).handUp (.statusPkt rx) (rx.port % 32) rx.pkt)) ∧
  (∀ rx s, s.rxReady rx = true → rx.pkt.ty = 0x0E → payNum rx.pkt 0 1 = 0 → 
    exec (.replRequest rx) s = .next ((s.rxTaken rx).handUp (.replRequest rx) (rx.port % 32) rx.pkt)) ∧
  (∀ rx s, s.rxReady rx = true → rx.pkt.ty = 0x0E → payNum rx.pkt 0 1 = 1 → 
    exec (.replGrant rx) s = .next ((s.rxTaken rx).handUp (.replGrant rx) (rx.port % 32) rx.pkt)) ∧
  (∀ rx s, s.rxReady rx = true → rx.pkt.ty = 0x0E → payNum rx.pkt 0 1 = 3 → 
    exec (.replInvalidation rx) s = .next ((s.rxTaken rx).handUp (.replInvalidation rx) (rx.port % 32) rx.pkt)) ∧
  (∀ rx s, s.rxReady rx = true → rx.pkt.ty = 0x0E → payNum rx.pkt 0 1 = 4 → 
    exec (.replPush rx) s = .next ((s.rxTaken rx).handUp (.replPush rx) (rx.port % 32) rx.pkt)) ∧
  (∀ rx s, s.rxReady rx = true → rx.pkt.ty = 0x0E → payNum rx.pkt 0 1 = 5 → 
    exec (.replAcknowledgement rx) s = .next ((s.rxTaken rx).handUp (.replAcknowledgement rx) (rx.port % 32) rx.pkt)) ∧
  (∀ rx s, s.rxReady rx = true → rx.pkt.ty = 0x0E → payNum rx.pkt 0 1 = 7 → 
    exec (.replDrop rx) s = .next ((s.rxTaken rx).handUp (.replDrop rx) (rx.port % 32) rx.pkt))

/-- Every kind of packet of the constellation, of collectives, of notices and of the Meridian arrives good and in order
in the same way (R136, R279, R281, R282, R284, R289, R299, R305, R306, R307, R385, R386, R387). -/
def Obligations.ControlPacketsArrive : Prop :=
  (∀ rx s, s.rxReady rx = true → rx.pkt.ty = 0x0C → 
    exec (.time rx) s = .next ((s.rxTaken rx).handUp (.time rx) (rx.port % 32) rx.pkt)) ∧
  (∀ rx s, s.rxReady rx = true → rx.pkt.ty = 0x0D → payNum rx.pkt 0 1 = 0 → 
    exec (.constHeartbeat rx) s = .next ((s.rxTaken rx).handUp (.constHeartbeat rx) (rx.port % 32) rx.pkt)) ∧
  (∀ rx s, s.rxReady rx = true → rx.pkt.ty = 0x0D → payNum rx.pkt 0 1 = 1 → 
    exec (.constMembership rx) s = .next ((s.rxTaken rx).handUp (.constMembership rx) (rx.port % 32) rx.pkt)) ∧
  (∀ rx s, s.rxReady rx = true → rx.pkt.ty = 0x0D → payNum rx.pkt 0 1 = 3 → 
    exec (.takeoverClaimAck rx) s = .next ((s.rxTaken rx).handUp (.takeoverClaimAck rx) (rx.port % 32) rx.pkt)) ∧
  (∀ rx s, s.rxReady rx = true → rx.pkt.ty = 0x0D → payNum rx.pkt 0 1 = 5 → 
    exec (.constPoolGrant rx) s = .next ((s.rxTaken rx).handUp (.constPoolGrant rx) (rx.port % 32) rx.pkt)) ∧
  (∀ rx s, s.rxReady rx = true → rx.pkt.ty = 0x08 → cOp rx.pkt = 0 → cKind rx.pkt = 0 → 
    exec (.groupCrcReceive rx) s = .next ((s.rxTaken rx).handUp (.groupCrcReceive rx) (rx.port % 32) rx.pkt)) ∧
  (∀ rx s, s.rxReady rx = true → rx.pkt.ty = 0x08 → cOp rx.pkt = 0 → cKind rx.pkt = 4 → 
    exec (.groupAnswer rx) s = .next ((s.rxTaken rx).handUp (.groupAnswer rx) (rx.port % 32) rx.pkt)) ∧
  (∀ rx s, s.rxReady rx = true → rx.pkt.ty = 0x08 → cOp rx.pkt ≠ 0 → cKind rx.pkt = 0 → 
    exec (.collContribution rx) s = .next ((s.rxTaken rx).handUp (.collContribution rx) (rx.port % 32) rx.pkt)) ∧
  (∀ rx s, s.rxReady rx = true → rx.pkt.ty = 0x08 → cOp rx.pkt ≠ 0 → cKind rx.pkt = 1 → 
    exec (.collResult rx) s = .next ((s.rxTaken rx).handUp (.collResult rx) (rx.port % 32) rx.pkt)) ∧
  (∀ rx s, s.rxReady rx = true → rx.pkt.ty = 0x08 → cOp rx.pkt ≠ 0 → cKind rx.pkt = 2 → 
    exec (.collProgress rx) s = .next ((s.rxTaken rx).handUp (.collProgress rx) (rx.port % 32) rx.pkt)) ∧
  (∀ rx s, s.rxReady rx = true → rx.pkt.ty = 0x08 → cOp rx.pkt ≠ 0 → cKind rx.pkt = 3 → 
    exec (.collResendRequest rx) s = .next ((s.rxTaken rx).handUp (.collResendRequest rx) (rx.port % 32) rx.pkt)) ∧
  (∀ rx s, s.rxReady rx = true → rx.pkt.ty = 0x08 → cOp rx.pkt ≠ 0 → cKind rx.pkt = 4 → 
    exec (.collStatus rx) s = .next ((s.rxTaken rx).handUp (.collStatus rx) (rx.port % 32) rx.pkt)) ∧
  (∀ rx s, s.rxReady rx = true → rx.pkt.ty = 0x0B → payNum rx.pkt 0 1 = 1 → 
    exec (.noticeAccusation rx) s = .next ((s.rxTaken rx).handUp (.noticeAccusation rx) (rx.port % 32) rx.pkt)) ∧
  (∀ rx s, s.rxReady rx = true → rx.pkt.ty = 0x0B → payNum rx.pkt 0 1 = 2 → 
    exec (.noticeMergedAccusation rx) s = .next ((s.rxTaken rx).handUp (.noticeMergedAccusation rx) (rx.port % 32) rx.pkt)) ∧
  (∀ rx s, s.rxReady rx = true → rx.pkt.ty = 0x0B → payNum rx.pkt 0 1 = 3 → 
    exec (.noticePowerHold rx) s = .next ((s.rxTaken rx).handUp (.noticePowerHold rx) (rx.port % 32) rx.pkt)) ∧
  (∀ rx s, s.rxReady rx = true → rx.pkt.ty = 0x0B → payNum rx.pkt 0 1 = 4 → 
    exec (.noticeFreeze rx) s = .next ((s.rxTaken rx).handUp (.noticeFreeze rx) (rx.port % 32) rx.pkt)) ∧
  (∀ rx s, s.rxReady rx = true → rx.pkt.ty = 0x0B → payNum rx.pkt 0 1 = 5 → 
    exec (.noticeRelease rx) s = .next ((s.rxTaken rx).handUp (.noticeRelease rx) (rx.port % 32) rx.pkt)) ∧
  (∀ rx s, s.rxReady rx = true → rx.pkt.ty = 0x0A →
    exec (.meridianPacket rx) s = .next (((s.rxTaken rx).handUp (.meridianPacket rx) (rx.port % 32) rx.pkt).settle))

/-- A packet that arrives damaged is not handed on: it counts LCRC_FAIL, a link word asks for it again, and the port
counts a receive error; one that does not follow the last good one is answered with the last good sequence number alone
(R261). -/
def Obligations.DamagedPacketAsksAgain : Prop :=
  (∀ rx s, s.on = true → s.get PWR_STATUS_FORCED ≠ 1 → s.get (SL_STATUS_ROLE (rx.port % 32)) = 1 →
    s.portState (rx.port % 32) = 3 → rx.good = false →
    let p := rx.port % 32
    exec (.readReq rx) s = .next (((s.inc (SL_CNT_LCRC_FAIL p) 1).emit (.linkWord p true (s.port p).lastGood)).raiseErr p
      (SL_ERR_RX_ERR p) 1)) ∧
  (∀ rx s, s.on = true → s.get PWR_STATUS_FORCED ≠ 1 → s.get (SL_STATUS_ROLE (rx.port % 32)) = 1 →
    s.portState (rx.port % 32) = 3 → rx.good = true → rx.pkt.ty = 0x03 → rx.seq = (s.port (rx.port % 32)).lastGood →
    (s.port (rx.port % 32)).lastGood < 4096 →
    exec (.writeReq rx) s = .next (s.emit (.linkWord (rx.port % 32) false (s.port (rx.port % 32)).lastGood)))

/-- The ends of requests that wait on the network: a retry falls due, an accusation window ends, the X-tier time-out and
the route wait end a request; and an Ethernet frame arrives (R267, R268, R277, R379, R385). -/
def Obligations.NetworkTimersComplete : Prop :=
  (∀ id s r x, s.live = true → (s.flt.retries.find? fun r => r.1 == id) = some r → s.xreq r.2.1 r.2.2 = some x →
    exec (.deferredRetry id) s = .next
      (({ s with flt := { s.flt with retries := s.flt.retries.filter fun z => z.1 != id } } : State).xAgain x)) ∧
  (∀ s, s.takesWrites = true → s.flt.accusations = [] →
    exec .accusationWindowEnd s = .next { s with flt := { s.flt with accusations := [], accusedAt := none } }) ∧
  (∀ a s, s.takesWrites = true → s.flt.accusations = [a] → s.aggregates = true →
    exec .accusationWindowEnd s = .next
      (({ s with flt := { s.flt with accusations := [], accusedAt := none } } : State).deliverAccusation a)) ∧
  (∀ unit txn s x, s.live = true → s.xreq unit txn = some x → x.waitingPort = false →
    (∀ q c gid seq, x.what ≠ .coll q c gid seq) →
    exec (.xtTimeoutExpire unit txn) s =
      .next ((s.accuse 3 (x.pkt.dstModule + x.pkt.dstUnit * 2 ^ 24) x.part).xEnd x .timeout [])) ∧
  (∀ unit txn s x, s.live = true → s.xreq unit txn = some x → x.waitingPort = true →
    exec (.routeWaitExpire unit txn) s =
      .next ((s.notDelivered (s.eventPort x.pkt.dstModule) 1 x.pkt.dstModule).xEnd x .portNotReady [])) ∧
  (∀ (port : Fin 32) f s, s.on = true → s.get PWR_STATUS_FORCED ≠ 1 → s.get (SL_STATUS_ROLE port.val) = 2 →
    s.portState port.val = 3 → f.fcsGood = false →
    exec (.ethernetFrameReceive port f) s = .next (s.raiseErr port.val (SL_ERR_RX_ERR port.val) 1)) ∧
  (∀ (port : Fin 32) f s, s.on = true → s.get PWR_STATUS_FORCED ≠ 1 → s.get (SL_STATUS_ROLE port.val) = 2 →
    s.portState port.val = 3 → f.fcsGood = true → f.dstPrefix = s.get HUB_SL_ETH_MAC_PREFIX → f.dstModule = s.self →
    f.etherType = s.get HUB_SL_ETH_ETHERTYPE → f.wellFormed = true → packetForm f.pkt = true → f.pkt.ty < 0x0A →
    exec (.ethernetFrameReceive port f) s = .next (s.handUp (.ethernetFrameReceive port f) port.val f.pkt))

/-! ## Collectives -/

/-- The descriptors of a collective channel: a data operation of a formed group that passes its gate and its view checks
is taken and posted; GROUP_CREATE and GROUP_DESTROY are taken and start; and the timers of groups, of fused sets and of
operations end them (R288, R289, R291, R295, R296, R297, R299, R307). -/
def Obligations.CollectivesComplete : Prop :=
  (∀ (q : Fin 4) (c : Fin 16) s e g op u, s.collHeadReady q.val c.val op e = true → op < 8 →
    s.groupAt q.val c.val (Entry_bits e 0 47 32) = some g → g.formed = true →
    gate (s.committed (s.get (COLL_CH_CFG_PARTITION q.val c.val))) (Entry_bits e 1 63 32) (Entry_bits e 0 49 49 == 1) =
      some false →
    let i := s.get (qHead (.collCh q.val c.val))
    let t := (s.advance (.collCh q.val c.val) 1).closeUnfit q.val c.val true e
    t.collRanges g i e = (u, true) →
    let r := Host.Outcome.next (u.collPost q.val c.val i e)
    (op = 1 → exec (.allReduce q c) s = r) ∧ (op = 2 → exec (.reduceScatter q c) s = r) ∧
    (op = 3 → exec (.allGather q c) s = r) ∧ (op = 4 → exec (.allToAll q c) s = r) ∧
    (op = 5 → exec (.broadcast q c) s = r) ∧ (op = 6 → exec (.anyToHome q c) s = r) ∧
    (op = 7 → exec (.tokenRoute q c) s = r)) ∧
  (∀ (q : Fin 4) (c : Fin 16) s e, s.collHeadReady q.val c.val 0x10 e = true →
    let t := s.closeUnfit q.val c.val false e
    exec (.groupCreate q c) s = .next ((t.advance (.collCh q.val c.val) 1).groupCreate q.val c.val
      (t.get (qHead (.collCh q.val c.val))) e)) ∧
  (∀ (q : Fin 4) (c : Fin 16) s e g, s.collHeadReady q.val c.val 0x11 e = true →
    s.groupAt q.val c.val (Entry_bits e 0 47 32) = some g → g.formed = true →
    let t := s.closeUnfit q.val c.val false e
    exec (.groupDestroy q c) s = .next ((t.advance (.collCh q.val c.val) 1).groupDestroy q.val c.val
      (t.get (qHead (.collCh q.val c.val))) g.gid)) ∧
  (∀ (q : Fin 4) (c : Fin 16) gid s g, s.live = true → s.groupAt q.val c.val gid = some g → g.formed = false →
    (g.rank = 0 → exec (.groupTimeoutExpire q c gid) s = .next (s.groupAnswer g .timeout)) ∧
    (g.rank ≠ 0 → exec (.groupTimeoutExpire q c gid) s = .next (s.groupEnd g .timeout))) ∧
  (∀ (q : Fin 4) (c : Fin 16) s f, s.live = true →
    (s.coll.fused.find? fun f => f.1 == q.val && f.2.1 == c.val) = some f →
    exec (.fusionWatchdogExpire q c) s = .next (f.2.2.2.foldl (fun (t : State) i =>
      t.complete (.collCh q.val c.val) i (Entry_bits (f.2.2.1.headD 0) 1 63 32) .timeout 0 0)
      { s with coll := { s.coll with fused := s.coll.fused.erase f } })) ∧
  (∀ (q : Fin 4) (c : Fin 16) gid seq s g o, s.live = true → s.groupAt q.val c.val gid = some g → s.collAt g seq = some o →
    o.waiting = false →
    let r := waitedRank g o
    exec (.collTimeoutExpire q c gid seq) s = .next (((s.collFail g o .timeout).ev 0xD103 (1 + q.val) 0 gid seq r).accuse 2
      (g.ranks.getD r 0 % 2 ^ 24 + (0x40 + q.val) * 2 ^ 24) g.part)) ∧
  (∀ (q : Fin 4) (c : Fin 16) gid seq s g o k, s.live = true → s.groupAt q.val c.val gid = some g →
    s.collAt g seq = some o → k < 12 → s.get (HBM_STACK_STATUS_LEVEL k) = 2 →
    exec (.collDimProgressSend q c gid seq) s = .next (s.opCast g o 2 true 0))

/-! ## Ports and the constellation -/

/-- A port comes up: a signal starts training, each step that ends leads to the next, TRAIN settles the protocol and the
peer, and the last one brings the port Up; steps that fail or time out count a failure (R256, R257). -/
def Obligations.PortTrainingCompletes : Prop :=
  (∀ (port : Fin 32) lanes s, s.on = true → s.portState port.val = 1 → 2 ≤ laneCountOf lanes →
    s.get (SL_STATUS_ROLE port.val) = 1 → (s.port port.val).startedAt = none →
    exec (.signalDetect port lanes) s = .next (s.startTraining port.val (lanes % 16))) ∧
  (∀ (port : Fin 32) lanes s, s.on = true → s.portState port.val = 2 → (s.port port.val).step = 2 →
    s.lanesNeeded port.val ≤ laneCountOf ((s.port port.val).lanes &&& lanes % 16) →
    exec (.trainingStepDone port lanes) s = .next (s.setPort port.val { s.port port.val with
      lanes := (s.port port.val).lanes &&& lanes % 16, step := 3 })) ∧
  (∀ (port : Fin 32) s, s.on = true → s.portState port.val = 2 → 2 ≤ (s.port port.val).step →
    exec (.trainingStepTimeout port) s = .next (s.trainFail port.val)) ∧
  (∀ (port : Fin 32) payload s, s.on = true → s.portState port.val = 2 → (s.port port.val).step = 5 →
    bitsOf 7 4 (ofBytesLE (payload.take 1)) = 1 → bitsOf 3 0 (ofBytesLE (payload.take 1)) ≤ 1 →
    2 ≤ laneCountOf ((s.port port.val).lanes &&& ofBytesLE ((payload.drop 1).take 1) % 16) →
    let b (i n : Nat) : Nat := ofBytesLE ((payload.drop i).take n)
    let t := (s.setPort port.val { s.port port.val with
      lanes := (s.port port.val).lanes &&& ofBytesLE ((payload.drop 1).take 1) % 16, step := 6 }).put
      (SL_STATUS_PROTO port.val) 1
    exec (.train port payload) s = .next ((t.put (SL_STATUS_PEER_MODULE port.val) (b 2 3)).matchMember port.val (b 2 3)
      (b 5 1) (b 6 2) (b 10 1 % 2))) ∧
  (∀ (port : Fin 32) lanes s, s.on = true → s.portState port.val = 2 → (s.port port.val).step = 6 →
    exec (.trainingStepDone port lanes) s = .next ((s.trained port.val).memberUp port.val))

/-- The events and commands of a port in service: acknowledgements, replays, calibration, a retrain, lost lanes and
signal, decaying error counts, waiting queues, pauses and re-sent frames, and RETRAIN, CLEAR, CALIBRATE, RESET and FLIP
(R252, R257, R258, R261, R266, R270, R271, R273, R274, R275, R276, R278). -/
def Obligations.PortEventsComplete : Prop :=
  (∀ (port : Fin 32) ack s, s.on = true → s.get (SL_STATUS_ROLE port.val) = 1 → s.inService port.val = true →
    exec (.linkAck port ack) s = .next (s.linkAck port.val ack) ∧
    exec (.linkNak port ack) s = .next (s.linkNak port.val ack)) ∧
  (∀ (port : Fin 32) s, s.on = true → s.get (SL_STATUS_ROLE port.val) = 1 →
    exec (.replayTimerExpire port) s = .next (s.replay port.val)) ∧
  (∀ (port : Fin 32) s, s.on = true → s.portState port.val = 3 → (s.port port.val).pending = none →
    exec (.calibrationDue port) s = .next (s.changeTo port.val 4)) ∧
  (∀ (port : Fin 32) s, s.on = true → s.portState port.val = 4 →
    exec (.calibrationDone port) s = .next (s.portUp port.val)) ∧
  (∀ (port : Fin 32) lanes s, s.on = true → s.portState port.val = 5 → (s.port port.val).degraded = false →
    s.lanesNeeded port.val ≤ laneCountOf ((s.port port.val).lanes &&& lanes % 16) →
    exec (.retrainDone port lanes) s = .next (((((s.setPort port.val { s.port port.val with degraded := false }).put
      (SL_STATUS_LANE_MASK port.val) ((s.port port.val).lanes &&& lanes % 16))).replayOut port.val).portUp port.val)) ∧
  (∀ (port : Fin 32) (lane : Fin 4) s, s.on = true → s.inService port.val = true →
    bitAt (s.get (SL_STATUS_LANE_MASK port.val)) lane.val = true →
    laneCountOf (s.get (SL_STATUS_LANE_MASK port.val) - 2 ^ lane.val) < 2 →
    exec (.laneSignalLost port lane) s = .next (s.changeTo port.val 6)) ∧
  (∀ (port : Fin 32) s, s.on = true → s.portState port.val = 3 →
    exec (.signalLost port) s = .next (s.portOut port.val 1)) ∧
  (∀ (port : Fin 32) s target, s.on = true → (s.port port.val).pending = some target →
    exec (.c0MoveComplete port) s = .next ((s.moveC0 port.val).enterState port.val target)) ∧
  (∀ (port : Fin 32) s, s.on = true → s.portState port.val ≠ 6 →
    let t := (s.put (SL_ERR_TX_ERR port.val) (s.get (SL_ERR_TX_ERR port.val) - 1)).put (SL_ERR_RX_ERR port.val)
      (s.get (SL_ERR_RX_ERR port.val) - 1)
    t.errHigh port.val < 64 → exec (.errCounterDecay port) s =
      .next (t.setPort port.val { t.port port.val with warnArmed := true, degradeArmed := true })) ∧
  (∀ (port : Fin 32) s k l, s.live = true → s.portState port.val ≠ 3 → (s.port port.val).queues = k :: l →
    let due (y : Kept) : Bool := y == k || decide (y.first + 50000 ≤ s.now)
    exec (.portQueueWaitExpire port) s = .next (((s.setPort port.val { s.port port.val with
      queues := (k :: l).filter fun y => !due y }).inc (SL_CNT_NOT_READY port.val) ((k :: l).filter due).length).handOnAll
        port.val ((k :: l).filter due))) ∧
  (∀ (port : Fin 32) cls pauses s, s.on = true → s.get (SL_STATUS_ROLE port.val) = 2 → cls ≤ 2 → pauses ≠ 0 →
    exec (.priorityFlowControlFrame port cls pauses true) s = .next ((s.setPort port.val { s.port port.val with
      pfcPaused := cls :: (s.port port.val).pfcPaused.filter (· != cls) }).pump port.val)) ∧
  (∀ (port : Fin 32) unit txn s k, s.on = true →
    ((s.port port.val).ethUnacked.find? fun k => k.pkt.srcUnit == unit && k.pkt.txn == txn) = some k →
    s.portState port.val = 3 → (s.port port.val).pfcPaused = [] → onceOnly k.pkt.ty = false → k.sends < 9 →
    exec (.ethernetResendTimer port unit txn) s = .next (((s.setPort port.val { s.port port.val with
      ethUnacked := (s.port port.val).ethUnacked.map fun y => if y = k then { y with sends := y.sends + 1 } else y }).emit
        (.packet port.val 0 0 k.pkt)).raiseErr port.val (SL_ERR_TX_ERR port.val) 1)) ∧
  (∀ path (port : Fin 32) s, s.takesWrites = true → ctrlPath path = true → s.portState port.val = 3 →
    exec (.portRetrain path port) s =
      .next ((s.setPort port.val { s.port port.val with lanes := 15 }).changeTo port.val 5)) ∧
  (∀ path (port : Fin 32) s, s.takesWrites = true → ctrlPath path = true → s.portState port.val = 6 →
    let t := (s.put (SL_ERR_TX_ERR port.val) 0).put (SL_ERR_RX_ERR port.val) 0
    exec (.portClear path port) s = .next ((t.setPort port.val { t.port port.val with
      warnArmed := true, degradeArmed := true }).startTraining port.val 15)) ∧
  (∀ path (port : Fin 32) s, s.takesWrites = true → ctrlPath path = true → s.portState port.val = 3 →
    (s.port port.val).pending = none → exec (.portCalibrate path port) s = .next (s.changeTo port.val 4)) ∧
  (∀ path (port : Fin 32) s, s.takesWrites = true → ctrlPath path = true →
    exec (.portReset path port) s = .next (s.portReset port.val)) ∧
  (∀ (port : Fin 32) s, s.on = true → s.portState port.val = 8 → s.isOut 9 port.val = false →
    exec (.portDrainComplete port) s = .next ((((s.put (SL_STATUS_STATE port.val) 1).next
      (SL_STATUS_GENERATION port.val)).put (SL_STATUS_PROTO port.val) 0).setPort port.val
        { ((s.put (SL_STATUS_STATE port.val) 1).next (SL_STATUS_GENERATION port.val)).port port.val with
          step := 0, lanes := 0 })) ∧
  (∀ path s, s.takesWrites = true → ctrlPath path = true →
    exec (.routeFlip path) s = .next (s.put HUB_SL_RCTL_PENDING 1))

/-- The constellation: the Lodestar sends time and heartbeats, a heartbeat lost makes the lowest live member claim, POOL
asks for a pool or releases one, and a pool that does not form is given up (R280, R282, R284). -/
def Obligations.ConstellationCompletes : Prop :=
  (∀ s, s.takesWrites = true → s.isLodestar = true → s.jobParent = none →
    exec .lodestarTimeSend s = .next (s.constPorts.foldl (fun (t : State) p => t.sendC0On p {
      ty := 0x0C, cls := 0, dstModule := s.get (SL_STATUS_PEER_MODULE p), srcModule := s.self
      payload := timePayload 0 s.now 0 }) s)) ∧
  (∀ s, s.takesWrites = true → s.isLodestar = true →
    exec .lodestarHeartbeatSend s = .next (s.tellMembers (s.constMsg 0 0 (0, 0, 0, 0)))) ∧
  (∀ us s, s.takesWrites = true → 50 ≤ us → us < 100 → s.isLodestar = false → s.members ≠ 0 →
    s.get HUB_CONST_STATUS_MINORITY ≠ 1 → s.const.liveBefore ≠ 0 →
    (memberList s.members).find? (· != s.get HUB_CONST_STATUS_LODESTAR) ≠ some s.cascade →
    exec (.heartbeatLoss us) s = .next { s with const := { s.const with lossUs := us } }) ∧
  (∀ us s, s.takesWrites = true → 50 ≤ us → us < 100 → s.isLodestar = false → s.members ≠ 0 →
    s.get HUB_CONST_STATUS_MINORITY ≠ 1 → s.const.liveBefore ≠ 0 →
    (memberList s.members).find? (· != s.get HUB_CONST_STATUS_LODESTAR) = some s.cascade →
    let t : State := { s with const := { s.const with
      lossUs := us, claiming := true, claimAcks := s.const.claimAcks ||| 2 ^ s.cascade } }
    exec (.heartbeatLoss us) s = .next ((t.tellMembers (t.constMsg 2 0 (0, 0, 0, 0))).tryTakeover)) ∧
  (∀ (c : Fin 4096) s e x, s.cmdReady c.val 0x29 e = true →
    let t := s.advance (.cmdRing c.val) 1
    let i := s.get (qHead (.cmdRing c.val))
    Entry_bits e 1 11 8 ≤ 2 → Entry_bits e 1 15 12 = 1 → bitAt (Entry_bits e 1 7 0) t.cascade = true →
    Entry_bits e 1 7 0 &&& t.members = Entry_bits e 1 7 0 → t.get HUB_CONST_STATUS_MINORITY ≠ 1 →
    t.poolOf (Entry_bits e 2 63 0) = some x → x.granted = true →
    exec (.pool c) s = .next (((t.setPool (Entry_bits e 2 63 0) none).tellMembers
      (t.constMsg 6 0 (x.members, x.kind, Entry_bits e 2 63 0, x.param))).cmdDone c.val i .done 0)) ∧
  (∀ tag s x, s.takesWrites = true → s.poolOf tag = some x → x.granted = false → s.isLodestar = true →
    exec (.poolFormTimeout tag) s = .next (s.poolDecide x .refusedPartition))

/-! ## Configuration -/

/-- The commands of the configuration engine: in the states that a command names it takes its effect, and its status is
recorded; a checking, programming or directory write that ends frees the engine; and the events that end a drain, an
arming or a trial (R53, R55, R57, R58, R60, R61, R62, R63, R64). -/
def Obligations.ConfigurationCompletes : Prop :=
  (∀ path s, s.cfgReady path = true → s.stg = 0 →
    exec (.loadBuffer path) s =
      .next (s.loadImage (ownerCode path) (s.bytes .img 0 (imageLength (s.num .img 12 4))) none)) ∧
  (∀ path (k : Fin 8) s, s.cfgReady path = true → s.stg = 0 →
    exec (.loadSlot path k) s = .next (s.loadImage (ownerCode path) (s.slotImage k.val) (some k.val))) ∧
  (∀ path s, s.cfgReady path = true → s.stg = 1 → exec (.check path) s = .next s.startCheck) ∧
  (∀ s, s.live = true → s.get CFG_STATUS_BUSY = 1 → s.cfg.programming = none → s.stg = 2 →
    exec .checkComplete s = .next ((s.endCheck.put CFG_STATUS_BUSY 0).cfgResume)) ∧
  (∀ path w s, s.cfgReady path = true → s.stg = 3 → s.get FW_STATUS_UPD = 0 →
    exec (.arm path w) s = .next (s.armSet (bitsOf 11 11 w.toNat == 1) (bitsOf 30 24 w.toNat) (bitsOf 23 16 w.toNat)
      (bitsOf 63 32 w.toNat))) ∧
  (∀ path s, s.cfgReady path = true → s.stg = 1 →
    exec (.discard path) s = .next ((((s.closeSession).cfgDone .done).releaseHeld).settle)) ∧
  (∀ path (k : Fin 8) s, s.cfgReady path = true → s.stg = 1 → s.get CFG_STATUS_EDITED = 0 → s.cfg.image ≠ [] →
    (s.slot k.val).state = 0 → s.get CFG_STATUS_TRIAL_PENDING = 0 →
    exec (.cfgStore path k) s = .next ((({ s with cfg := { s.cfg with
      programming := some (k.val, true)
      slotBytes := smSet (fun _ => []) s.cfg.slotBytes k.val s.cfg.image } } : State).setSlot k.val
        ⟨4, imgNum s.cfg.image 16 8⟩).put CFG_STATUS_BUSY 1)) ∧
  (∀ path (k : Fin 8) s, s.cfgReady path = true → s.stg = 0 → (s.slot k.val).state = 1 →
    s.get CFG_STATUS_TRIAL_PENDING = 0 →
    exec (.eraseSlot path k) s = .next ((({ s with cfg := { s.cfg with
      programming := some (k.val, false), slotBytes := smSet (fun _ => []) s.cfg.slotBytes k.val [] } } : State).setSlot
        k.val ⟨4, 0⟩).put CFG_STATUS_BUSY 1)) ∧
  (∀ path s, s.cfgReady path = true → s.stg = 0 → s.get CFG_STATUS_TRIAL_PENDING = 0 →
    (s.get CFG_STATUS_PREVIOUS_VALID = 1 → exec (.revert path) s = .next (s.loadImage (ownerCode path)
      (s.slotImage (s.get CFG_STATUS_PREVIOUS_SLOT)) (some (s.get CFG_STATUS_PREVIOUS_SLOT)))) ∧
    (s.get CFG_STATUS_PREVIOUS_VALID = 0 → exec (.revert path) s = .next (s.cfgDone .refusedCapacity))) ∧
  (∀ path s, s.cfgReady path = true → s.get CFG_STATUS_TRIAL_PENDING = 1 → s.cfg.trialSlot = none →
    exec (.cfgConfirm path) s =
      .next ((({ s with cfg := { s.cfg with trialSlot := none } } : State).put CFG_STATUS_TRIAL_PENDING 0).setVolatile.cfgDone
        .done)) ∧
  (∀ path s, s.cfgReady path = true → s.stg = 0 → ∃ t, exec (.cfgRaiseSvnFloor path) s = .next t ∧
    t.cfg.svnFloor = max s.cfg.svnFloor s.cfg.activeSvn ∧ t.get CFG_STATUS_LAST_STATUS = 0 ∧ t.mem = s.mem ∧
    (∀ off, off ≠ CFG_STATUS_LAST_STATUS.off → t.rd off = s.rd off)) ∧
  (∀ path s, s.cfgReady path = true →
    exec (.cfgOpUnassigned path 0) s = .next (s.cfgDone .refusedPartition)) ∧
  (∀ s k, s.live = true → s.cfg.programming = some (k, false) →
    exec (.almanacProgramComplete true) s = .next (((((({ s with cfg := { s.cfg with programming := none } } : State).put
      CFG_STATUS_BUSY 0).setSlot k ⟨0, 0⟩).cfgDone .done)).cfgResume)) ∧
  (∀ s, s.live = true → s.get CFG_STATUS_DIR_PENDING = 1 →
    exec .directoryWriteComplete s = .next { s.put CFG_STATUS_DIR_PENDING 0 with cfg := { s.cfg with
      dirActive := s.get CFG_STATUS_ACTIVE_SLOT + 1, dirPrevious := s.get CFG_STATUS_PREVIOUS_SLOT
      dirHasPrevious := s.get CFG_STATUS_PREVIOUS_VALID == 1 } }) ∧
  (∀ s, s.live = true → s.get CFG_STATUS_TRIAL_PENDING = 1 → s.cfg.returning = false → s.cfg.trialEnds ≤ s.now →
    exec .trialExpire s = .next s.trialReturn) ∧
  (∀ s a, s.live = true → s.cfg.armed = some a → a.drained = false →
    (a.lastStep.all fun x => s.partDrained x.1 x.2) = true → s.liveRuleBroken = false → a.jobScope = false →
    exec .drainEnd s = .next ((({ s with cfg := { s.cfg with armed := some { a with
      drained := true, voted := false } } } : State).moduleMeridian).settle)) ∧
  (∀ s a, s.live = true → s.cfg.armed = some a → a.drained = false →
    a.since + s.cfg.active.drainLimit * 1000000 ≤ s.now →
    exec .drainLimitExpire s = .next ((s.abandonFor 1).settle)) ∧
  (∀ s a, s.live = true → s.cfg.armed = some a → a.jobScope = true →
    a.since + s.cfg.active.armTimeout * 1000000 ≤ s.now →
    exec .armTimeoutExpire s = .next ((s.abandonFor 2).settle))

/-! ## Firmware -/

/-- Update commands: STAGE programs the other slot, ACTIVATE starts the switch of a slot that verifies, CONFIRM,
ROLLBACK and the end of the trial settle it, and RAISE_SVN_FLOOR; a staging or switch that ends, a control core that
stops, and the interface version that a function selects (R351, R352, R353, R354, R355). -/
def Obligations.FirmwareCompletes : Prop :=
  (∀ path w s im, s.fwReady path = true → s.get FW_STATUS_UPD = 0 → 4224 ≤ bitsOf 63 32 w.toNat →
    bitsOf 63 32 w.toNat ≤ 16777216 → s.stageSource (bitsOf 63 32 w.toNat) = some im →
    exec (.stage path w) s = .next ((s.programSlot s.otherSlot im).put FW_STATUS_UPD 1)) ∧
  (∀ reason s, s.live = true → s.get FW_STATUS_UPD = 1 →
    exec (.stagingComplete reason) s = .next ((s.stagingEnd (reason != 8)).fwResume)) ∧
  (∀ path w s, s.fwReady path = true → s.get FW_STATUS_UPD = 2 → s.stg ≠ 4 →
    s.verifyUpdate (s.fwImage s.otherSlot) = 0 →
    exec (.activate path w) s = .next (({ s with fw := { s.fw with
      selfCheck := if bitsOf 31 20 w.toNat = 0 then 600 else bitsOf 31 20 w.toNat
      confirmReq := bitsOf 19 19 w.toNat == 1, switchPending := true } } : State).put FW_STATUS_UPD 3)) ∧
  (∀ path s, s.fwReady path = true → s.get FW_STATUS_UPD = 4 →
    exec (.fwConfirm path) s = .next (s.trialCommit.fwDone 3 .done 0) ∧
    exec (.rollback path) s = .next (s.rollbackStart 3)) ∧
  (∀ path s, s.fwReady path = true → s.get FW_STATUS_UPD = 0 →
    exec (.fwRaiseSvnFloor path) s = .next ((s.put FW_STATUS_SVN_FLOOR (max (s.get FW_STATUS_SVN_FLOOR)
      (s.get FW_STATUS_SVN))).fwDone 5 .done 0)) ∧
  (∀ s, s.live = true → s.get FW_STATUS_UPD = 4 → s.fw.trialStart + s.fw.selfCheck * 1000000000 ≤ s.now →
    exec (.fwTrialWindowExpire false) s = .next (s.rollbackStart 2) ∧
    (s.fw.confirmReq = false → exec (.fwTrialWindowExpire true) s = .next s.trialCommit) ∧
    (s.fw.confirmReq = true → exec (.fwTrialWindowExpire true) s = .next (s.rollbackStart 4))) ∧
  (∀ s, s.live = true → s.get FW_STATUS_UPD = 3 → s.get FW_STATUS_DRAINING = 1 →
    let t := s.switchTo s.otherSlot 4
    let t : State := { t with fw := { t.fw with bootTrial := true, trialStart := s.now } }
    let t := t.ev 0xF105 0 0 (s.get FW_STATUS_GENERATION) s.otherSlot ((s.now - s.fw.heldSince) / 1000)
    exec (.fwSwitchComplete true) s = .next (((t.fwDone 2 .done 0).fwResume.cfgResume).settle)) ∧
  (∀ s, s.live = true → s.get FW_STATUS_UPD = 5 → s.get FW_STATUS_DRAINING = 1 →
    let t := s.switchTo (s.get FW_STATUS_BOOT_SLOT) 0
    let t : State := { t with fw := { t.fw with bootTrial := false } }
    exec .rollbackComplete s = .next (((t.fwDone 4 .done 0).fwResume.cfgResume).settle)) ∧
  (∀ (core : Fin 6) s, s.live = true → s.get FW_STATUS_STATE = 2 →
    exec (.fwWatchdogExpire core) s = .next ((s.fwWatchdog core.val).settle)) ∧
  (∀ f v s, s.takesWrites = true → f < 256 → s.ifMin ≤ v → v ≤ s.ifMax → v / 256 = s.ifMax / 256 →
    exec (.ifSelWrite (.vf f) (Fin.ofNat 256 f) v) s = .next (s.put (FW_IF_IF_SEL f) v)) ∧
  (∀ v s, s.takesWrites = true → s.ifMax < v →
    exec (.ifSelWrite .pf0 0 v) s = .next (s.evLim3 0xF10A 0 0 0 0 v s.ifMax))

/-- The update protocol of the sideband: each request is answered, and in the state that it belongs to it goes on to the
next; the answers' codes are the model's (PRESUMED, log 78) (R349, R433). -/
def Obligations.SidebandUpdateCompletes : Prop :=
  (∀ n s, s.pldmOn = true → s.fw.pldm = 0 → 32 ≤ n → s.get FW_STATUS_UPD = 0 →
    exec (.requestUpdate n) s = .next (({ s with fw := { s.fw with
      fromSideband := true, staging := [], pldmGot := 0, pldmSize := 0 } } : State).pldmGo 0x10 1)) ∧
  (∀ s, s.pldmOn = true → s.fw.pldm = 1 → exec (.passComponentTable 1) s = .next (s.pldmGo 0x13 2)) ∧
  (∀ size s, s.pldmOn = true → s.fw.pldm = 2 → 4224 ≤ size → size ≤ 16777216 →
    exec (.updateComponent size) s = .next (({ s with fw := { s.fw with pldmSize := size } } : State).pldmGo 0x14 3)) ∧
  (∀ data s, s.pldmOn = true → s.fw.pldm = 3 → s.fw.pldmGot + data.length ≤ s.fw.pldmSize →
    exec (.requestFirmwareData s.fw.pldmGot data) s = .next (({ s with fw := { s.fw with
      staging := s.fw.staging ++ data, pldmGot := s.fw.pldmGot + data.length } } : State).pldmAnswer 0x15 0)) ∧
  (∀ s, s.pldmOn = true → s.fw.pldm = 3 → s.fw.pldmGot = s.fw.pldmSize → s.get FW_STATUS_STATE = 2 →
    let t := (s.programSlot s.pldmSlot s.fw.staging).put FW_STATUS_UPD 1
    exec (.transferComplete 0) s = .next (({ t with fw := { t.fw with staging := [] } } : State).pldmGo 0x16 4)) ∧
  (∀ s, s.pldmOn = true → s.fw.pldm = 4 → s.get FW_STATUS_STATE = 2 → (s.stagingEnd true).get FW_STATUS_UPD = 2 →
    exec (.verifyComplete 0) s = .next ((s.stagingEnd true).pldmGo 0x17 5)) ∧
  (∀ s, s.pldmOn = true → s.fw.pldm = 5 →
    exec (.applyComplete 0) s = .next (({ s with fw := { s.fw with
      slotGood := smSet (fun k => k == 0) s.fw.slotGood s.pldmSlot true } } : State).pldmGo 0x18 6)) ∧
  (∀ s, s.pldmOn = true → s.fw.pldm = 6 → s.get FW_STATUS_STATE = 2 →
    exec .activateFirmware s = .next (((({ s with fw := { s.fw with fromSideband := false } } : State).pldmGo 0x1A 0)).fwActivate
      .sideband 2)) ∧
  (∀ eid cmd data s, s.phase ≠ .off →
    exec (.mctpControlMessage eid cmd data) s =
      .next (s.emit (.mctp 0 (bytesLE 1 cmd ++ bytesLE 1 (if 1 ≤ cmd ∧ cmd ≤ 0x0A then 0 else 5)))))

/-! ## Repair -/

/-- Units that fail, drain, reset and retire: requests of the control paths, a tile that does not answer, a unit that
stops answering, the end of a drain, the Star chart's write, and the poll for error records (R362, R366, R368, R378,
R391). -/
def Obligations.RepairCompletes : Prop :=
  (∀ path cls idx s, s.takesWrites = true → ctrlPath path = true → 1 ≤ cls → cls ≤ 10 → unitExists cls idx = true →
    (cls = 1 ∨ 5 ≤ cls) → exec (.unitResetRequest path cls idx) s = .next (s.drainUnit cls idx)) ∧
  (∀ path idx s, s.takesWrites = true → ctrlPath path = true → unitExists 1 idx = true →
    exec (.unitRetireRequest path 1 idx) s = .next (s.retireTile idx)) ∧
  (∀ path cls idx s, s.takesWrites = true → ctrlPath path = true → 1 ≤ cls → cls ≤ 10 → unitExists cls idx = true →
    exec (.clearHistory path cls idx) s = .next { s with flt := { s.flt with
      history := s.flt.history.filter fun (h : FaultHist) => !(h.cls == cls && h.idx == idx) } }) ∧
  (∀ cls idx s, s.live = true → s.isDraining cls idx = true → s.isOut cls idx = false → cls ≠ 9 → cls ≠ 3 →
    exec (.unitDrainComplete cls idx) s = .next (s.unitReset cls idx)) ∧
  (∀ (t : Fin 272) m s, s.live = true → s.get (TILE_STATUS_STATE t.val) ≠ 4 →
    exec (.tilePollTimeout t m) s = .next (((s.countFault 1 t.val 2).1).retireTile t.val)) ∧
  (∀ cls idx s, s.live = true → 5 ≤ cls → unitExists cls idx = true → s.canDrain cls idx = true →
    (s.countFault cls idx 3).2 < faultLimit cls 3 →
    exec (.unitStopsAnswering cls idx) s = .next ((s.countFault cls idx 3).1.drainUnit cls idx)) ∧
  (∀ s, s.on = true → s.get HUB_STAR_STATUS_WRITE_PENDING = 1 →
    let n := s.get HUB_STAR_STATUS_SEQ + 1
    let t := (s.put HUB_STAR_STATUS_SEQ n).put HUB_STAR_STATUS_WRITE_PENDING (if 0 < s.flt.writeQueued then 1 else 0)
    exec .starChartWriteComplete s = .next (({ t with flt := { s.flt with
      chart := s.makeChart, starInForce := true, writeQueued := 0, starPendingSince := s.flt.queuedSince
      starPendingCount := s.flt.writeQueued } } : State).ev 0x1109 0 0 n s.flt.starPendingCount
        ((s.now - s.flt.starPendingSince) / 1000000))) ∧
  (∀ acked s, s.on = true → exec (.pollForPlatformEventMessage acked) s =
    .next (({ s with flt := { s.flt with
      undelivered := s.flt.undelivered.filter fun (n : Nat) => !acked.contains n } } : State).emits
        ((s.flt.undelivered.filter fun (n : Nat) => !acked.contains n).map fun n => Output.cper n)))

/-! ## Power and cooling -/

/-- The power controller: states are chosen and woken, samples and limit ticks, the limit's thermal steps, the coolant
checks, the regulators' alert, forced Nadir and its end, trips of the junctions, and droop detectors masked (R396, R398,
R403, R404, R405, R407, R409, R410). -/
def Obligations.PowerCompletes : Prop :=
  (∀ s, s.on = true → s.get PWR_STATUS_FORCED = 0 → s.validParts = [] →
    exec (.powerStateTick []) s = .next (s.chooseModule false)) ∧
  (∀ p s, s.on = true → s.get PWR_STATUS_FORCED = 0 → s.validParts = [p] → s.get (PWR_PART_CFG_STATE p) < 2 →
    exec (.powerStateTick []) s = .next ((s.choosePart p 0).chooseModule false)) ∧
  (∀ (q : Fin 128) s, s.on = true → s.get PWR_STATUS_FORCED = 0 → s.partEvents q.val ≠ [] →
    s.timeTo (s.partEvents q.val) ≤ wakeNs (s.get (PWR_PART_CFG_STATE q.val)) → 1 ≤ s.get (PWR_PART_CFG_STATE q.val) →
    s.get (PWR_PART_CFG_STATE q.val) ≤ 2 →
    exec (.plannedWake (some q)) s = .next ((s.put (PWR_PART_CFG_STATE q.val) 0).showPower)) ∧
  (∀ vin i use s, s.on = true →
    let e := s.pwr.energyFrac + vin * i
    let t := s.put PWR_STATUS_VIN_QV (min 255 (vin / 250))
    exec (.powerSample vin i [] [] use) s = .next ((({ t with pwr := { t.pwr with
      energyFrac := e % 100000, volts := smSet (fun _ => 0) t.pwr.volts 0 vin
      recent := ((vin * i / 1000) :: t.pwr.recent).take 100, samples := t.pwr.samples + 1 } } : State).addEnergy
        (e / 100000) use []).fastGuard)) ∧
  (∀ avg s, s.on = true →
    let eff := s.get PWR_LIMIT_CFG_EFF_LIMIT_W
    let p := s.meanPower 100
    exec (.powerLimitTick avg) s = .next ((((s.put PWR_STATUS_AVG_W avg).put PWR_STATUS_POWER_W (min 65535
      (p / 1000))).limitRule (clampTo (9 * eff) 33000 (20 * eff - 10 * avg)) p avg).dutyHold.stretchCheck)) ∧
  (∀ cause s, s.on = true → 1 ≤ cause → cause ≤ 5 → exec (.regulatorAlert cause) s = .next (s.enterNadir cause)) ∧
  (∀ s, s.on = true → s.get PWR_STATUS_FORCED = 1 → s.get PWR_STATUS_ALERT_CAUSE ≠ 7 → s.pwr.j3 = false →
    exec .forcedNadirEnd s = .next (s.nadirEnd.settle)) ∧
  (∀ hub deep inlet outlet s, s.on = true → hub < 380 → inlet < 220 → s.get PWR_STATUS_TRIP = 0 →
    let t : State := { s with pwr := { s.pwr with tempHub := some (hub / 4), tempDeep := some (deep / 4) } }
    exec (.junctionSample hub deep [] inlet outlet) s = .next ((((t.put PWR_THERM_INLET (min 1023 inlet)).put
      PWR_THERM_OUTLET (min 1023 outlet)).put PWR_THERM_HOTTEST (min 1023 hub)).put PWR_THERM_FLOW_DL
        (flowDl (s.get PWR_STATUS_POWER_W) inlet outlet))) ∧
  (∀ s, s.on = true → s.get PWR_STATUS_TRIP ≠ 0 → exec .effLimitStep s = .next (({ s with pwr := { s.pwr with
    lowered := min (s.get PWR_LIMIT_CFG_LIMIT_W - 1000) (s.pwr.lowered + 100) } } : State).setEff)) ∧
  (∀ s, s.on = true → s.get PWR_STATUS_TRIP = 3 → s.get PWR_THERM_HOTTEST < 368 → s.get PWR_THERM_INLET < 200 →
    exec .j3ClearTimer s = .next { s.setTrip 0 with pwr := { s.pwr with j3 := false } }) ∧
  (∀ s, s.on = true → 180 < s.get PWR_THERM_INLET → exec (.coolantCheckExpire false) s =
    .next (s.ev 0x1708 0 0 1 (s.get PWR_THERM_INLET) (s.get PWR_THERM_FLOW_DL))) ∧
  (∀ s, s.on = true → 500 < s.get PWR_STATUS_POWER_W → s.get PWR_THERM_FLOW_DL < 18 → exec (.coolantCheckExpire true) s =
    .next (s.ev 0x1708 0 0 2 (s.get PWR_THERM_INLET) (s.get PWR_THERM_FLOW_DL))) ∧
  (∀ (d : Fin 1088) s, s.on = true → s.pwr.tripped.contains d.val = true → s.pwr.masked = [] →
    let t : State := { s with pwr := { s.pwr with
      masked := [d.val], tripped := s.pwr.tripped.filter (· != d.val) } }
    exec (.droopDetectorMask d) s = .next ((t.put PWR_DROOP_CFG_MASKED 1).ev 0x1706 (0x200 + d.val / 4) 0 (d.val % 4)
      (s.slotsPerMs / 100) 1))

/-! ## The recorder, freezes and JTAG -/

/-- The recorder's flash: the oldest staged records are programmed, a sector's erase ends, and operating time is saved
(R416, R417). -/
def Obligations.RecorderCompletes : Prop :=
  (∀ n s, s.on = true → s.eph.staged ≠ [] → n ≠ 0 →
    exec (.recordProgramComplete n 0 0) s = .next ((s.programOldest n).dropEvent)) ∧
  (∀ k s, s.on = true → s.eph.keepErase = some k →
    exec (.sectorEraseComplete true 0) s =
      .next { s with eph := { s.eph with keepErase := none, keep := emptySector s.eph.keep k } }) ∧
  (∀ k s, s.on = true → s.eph.genErase = some k →
    exec (.sectorEraseComplete false 0) s =
      .next { s with eph := { s.eph with genErase := none, general := emptySector s.eph.general k } }) ∧
  (∀ s, s.on = true → exec .opTimeSave s = .next { s with eph := { s.eph with
    savedOpTime := s.get EPH_TIME_OP_TIME, savedCycles := s.get EPH_CYCLES_POWER_CYCLES } })

/-- Freezes start and end: by command, by the pin, at a time and by JTAG; and the debug window reads a frozen array's
word and deposits one (R422, R424, R425, R427). -/
def Obligations.FreezeCompletes : Prop :=
  (∀ s, s.on = true → exec (.eclFreeze .pf0) s = .next (s.freezeFrom 2) ∧
    exec (.eclFreeze .sideband) s = .next (s.freezeFrom 2)) ∧
  (∀ s, s.on = true → s.get ECL_CFG_PIN_EN = 1 → exec .freezeNAssert s =
    .next (({ s with pins := { s.pins with freezeN := false } } : State).freezeFrom 1)) ∧
  (∀ s, s.on = true → s.get ECL_FREEZE_AT_AT ≠ 0 → s.get ECL_FREEZE_AT_AT ≤ s.now →
    s.ecl.frozenAt < s.get ECL_FREEZE_AT_AT → exec .freezeAtReached s = .next (s.freezeFrom 4)) ∧
  (∀ path s, s.on = true → eclPath path = true → exec (.eclResume path) s =
    .next (({ s with ecl := { s.ecl with waitsResume := false } } : State).tryThaw)) ∧
  (∀ s, s.on = true →
    exec .freezeNRelease s = .next (({ s with pins := { s.pins with freezeN := true } } : State).tryThaw)) ∧
  (∀ path off s, s.on = true → ctrlPath path = true → off < 65536 →
    exec (.debugWindowRead path off) s = .next (s.emit (.readData (s.arrayWord (s.windowAddr off))))) ∧
  (∀ path off v s, s.on = true → ctrlPath path = true → off < 65536 →
    exec (.debugWindowWrite path off v) s = .next (s.deposit (s.windowAddr off) v.toNat)) ∧
  (∀ (addr v : Nat) (s : State), s.frozen = false ∨ s.get ECL_CFG_DEPOSIT_EN = 0 → s.deposit addr v = s)

/-- The JTAG instructions: IDCODE shifts out 0x2720024B, BYPASS delays one bit, the boundary register holds what PRELOAD
shifted in while the pins it samples are free values, and ECL_ADDR, ECL_DATA and ECL_CTL reach the freeze controller
(R426, R427). -/
def Obligations.JtagCompletes : Prop :=
  (∀ s, s.phase ≠ .off → exec .idcode s =
    .next (({ s with jtag := { s.jtag with ir := 1 } } : State).emit (.jtag 0x2720024B 32))) ∧
  (∀ tdi s, s.phase ≠ .off → ∃ t, exec (.bypass tdi) s = .next t ∧ t.jtag.ir = 3 ∧
    t.jtag.tdo = (if tdi then 1 else 0) ∧ t.out = s.out ++ [.jtag (if s.jtag.ir = 3 then s.jtag.tdo else 0) 1] ∧
    t.regs = s.regs ∧ t.mem = s.mem ∧ t.seals = s.seals) ∧
  (∀ v s, s.phase ≠ .off → exec (.samplePreload v) s = .next (({ s.useFree with jtag := { s.jtag with
    boundary := v } } : State).jtagOut 2 (Config.freeValue s.free).toNat 32)) ∧
  (∀ s, s.phase = .jtagHold → exec .extest s = .next (s.useFree.jtagOut 0 (Config.freeValue s.free).toNat 32)) ∧
  (∀ s, s.phase = .on → exec .extest s = .next (s.jtagOut 3 (if s.jtag.ir = 3 then s.jtag.tdo else 0) 1)) ∧
  (∀ v s, s.on = true → exec (.jtagEclAddr v) s =
    .next ((s.jtagOut 4 (s.get ECL_ADDR_ADDR) 64).put ECL_ADDR_ADDR v.toNat)) ∧
  (∀ s, s.on = true → exec (.jtagEclData none) s = .next ((s.jtagOut 5 (s.arrayWord (s.get ECL_ADDR_ADDR)) 64).put
    ECL_ADDR_ADDR (s.windowAddr 8))) ∧
  (∀ s, s.on = true → exec (.jtagEclCtl true false) s = .next ((s.jtagOut 6 0 2).freezeFrom 2))

/-! ## Power-up and resets -/

/-- Power and resets: the module starts when PWR_EN, the mating and PACE_REF are all there; PWR_EN falling begins an
orderly power-down, which ends with what R437 keeps; a loss of the input, a thermal trip and a removal at once; and
cold, warm and partition resets (R406, R411, R435, R436, R437, R438, R439, R440). -/
def Obligations.ResetsComplete : Prop :=
  (∀ s, s.phase = .off → s.pins.mated = true → s.pace.refPresent = true →
    exec .pwrEnRise s = .next (({ s with pins := { s.pins with pwrEn := true } } : State).powerUp)) ∧
  (∀ s, s.phase = .off → s.pins.mated = false →
    exec .pwrEnRise s = .next { s with pins := { s.pins with pwrEn := true } }) ∧
  (∀ s, s.phase = .off → s.pins.pwrEn = true → s.pace.refPresent = true →
    exec .moduleInsertion s = .next (({ s with pins := { s.pins with mated := true } } : State).powerUp)) ∧
  (∀ s, s.phase = .jtagHold →
    exec .jtagHoldRelease s = .next (({ s with pins := { s.pins with jtagHoldN := true } } : State).bootOn)) ∧
  (∀ s, s.phase = .on → s.get PWR_STATUS_FORCED ≠ 1 → exec .pwrEnFall s =
    .next { (({ s with pins := { s.pins with pwrEn := false } } : State).enterNadir 7) with phase := .poweringDown }) ∧
  (∀ s, s.phase = .poweringDown → exec .powerDownComplete s =
    .next ((((s.programOldest s.eph.staged.length).saveTime.saveDeep).powerOff).tryStart)) ∧
  (∀ s, s.phase ≠ .off → exec .powerLoss s =
    .next { s.powerOff with pins := { s.powerOff.pins with thermtripN := true } }) ∧
  (∀ s, s.phase ≠ .off → exec .hardwareThermalTrip s = .next (({ s.powerOff with
    pwr := { s.powerOff.pwr with thermalLatch := true }, pins := { s.powerOff.pins with thermtripN := false } } : State).emit
      (.pin "THERMTRIP_N" false))) ∧
  (∀ s, exec .moduleRemoval s = .next { s.inputLost with pins := { s.inputLost.pins with mated := false } }) ∧
  (∀ s, s.phase = .on → exec .coldResetN s = .next (s.coldReset 1) ∧
    exec (.hubResetCold .sideband) s = .next (s.coldReset 2)) ∧
  (∀ path s, s.phase = .on → s.frozen = false → s.get FW_STATUS_DRAINING ≠ 1 → s.get PWR_STATUS_FORCED ≠ 1 →
    exec .warmResetN s = .next (s.warmReset 3) ∧
    (ctrlPath path = true → exec (.hubResetWarm path) s = .next (s.warmReset 4))) ∧
  (∀ path (p : Fin 128) s, s.phase = .on → ctrlPath path = true → s.partValid p.val = true → s.partWaits p.val = false →
    exec (.hubResetPartition path p) s = .next (s.partReset p.val)) ∧
  (∀ path (p : Fin 128) s, s.phase = .on → ctrlPath path = true → s.partValid p.val = true → s.partWaits p.val = true →
    exec (.hubResetPartition path p) s =
      .next { s with cfg := { s.cfg with resets := s.cfg.resets ++ [.hubResetPartition path p] } })

/-! ## Values, gates, records and rules over the whole module -/

/-- Every NaN that a conversion to a floating-point format produces is the canonical quiet NaN of that format, and every code
that stands for NaN is read as the one NaN, whatever its sign and payload (R69): a NaN converted, and any code that a
conversion produced and that reads as NaN, is that canonical code; the codes with an exponent of ones and a payload, and 0x7F
and 0xFF of FP8-E4M3, all read as the one NaN. -/
def Obligations.CanonicalNaN : Prop :=
  (∀ (f mode u : Nat) (sat : Bool) (v : Val), f < 5 →
    (encodeF f mode u sat .nan).1 = [0x7FC00000, 0x7FC0, 0x7E00, 0x7F, 0x7E].getD f 0 ∧
    (decodeF f (encodeF f mode u sat v).1 = .nan →
      (encodeF f mode u sat v).1 = [0x7FC00000, 0x7FC0, 0x7E00, 0x7F, 0x7E].getD f 0 ∧ v = .nan)) ∧
  (∀ f sign payload : Nat, f ∈ [0, 1, 2, 4] → sign < 2 → 0 < payload → payload < 2 ^ fmtM f →
    decodeF f (sign * 2 ^ (fmtE f + fmtM f) + (2 ^ fmtE f - 1) * 2 ^ fmtM f + payload) = .nan) ∧
  decodeF 3 0x7F = .nan ∧ decodeF 3 0xFF = .nan

/-- The exact sum of at most 2^32 values, each a NaN, an infinity or finite with magnitude below 2^128, never leaves its range,
holds the exact sum of the finite ones, and is the same element in every order (R110). -/
def Obligations.ExactSumInEveryOrder : Prop :=
  ∀ vs ws : List Val, vs.Perm ws → vs.length ≤ 2 ^ 32 →
    (∀ v ∈ vs, ∀ n a b, v = .fin n a b → a * 2 ^ 149 / b < 2 ^ 277) →
    exactSum vs = exactSum ws ∧ (exactSum vs).2 = false ∧
    (exactSum vs).1.value = (vs.map fun v => match v with
      | .fin n a b => signedNum n (a * 2 ^ 149 / b)
      | _ => 0).sum

/-- The severity of a CPER record follows from its event and its action (R390): ACTION 1 gives Corrected; ACTION 2 or 3 gives
Recoverable; ACTION 4 or 5 gives Fatal; without one of these actions a Parallax disagreement (0x1103) gives Recoverable, any
other record of severity Fatal gives Fatal, and every other record gives Recoverable. -/
def Obligations.CperSeverityFollowsAction : Prop :=
  ∀ c : Cper,
    (c.action = 1 → cperSeverity c = 2) ∧
    (c.action = 2 ∨ c.action = 3 → cperSeverity c = 0) ∧
    (c.action = 4 ∨ c.action = 5 → cperSeverity c = 1) ∧
    (c.action = 0 ∨ 5 < c.action →
      (c.code = 0x1103 → cperSeverity c = 0) ∧
      (c.code ≠ 0x1103 → c.sev = 3 → cperSeverity c = 1) ∧
      (c.code ≠ 0x1103 → c.sev ≠ 3 → cperSeverity c = 0))

/-- The step gate (R121), with steps compared modulo 2^32: an entry with EVAL 0 dispatches at STEP = C + 1 and is cancelled at
STEP ≤ C; one with EVAL 1 dispatches at STEP = C and is cancelled at STEP < C; any other waits. A cancelled RUN, NOTIFY or
MERIDIAN completes with CANCELLED without running, one that waits changes nothing, and while a drain holds the partition (the
list reads Held) an entry of a step after its last one changes nothing. -/
def Obligations.StepGateHolds : Prop :=
  (∀ c step : Nat, c < 2 ^ 32 → step < 2 ^ 32 →
    (gate c step false = some true ↔ (c + 2 ^ 32 - step) % 2 ^ 32 < 2 ^ 31) ∧
    (gate c step false = some false ↔ step = (c + 1) % 2 ^ 32) ∧
    (gate c step true = some false ↔ step = c) ∧
    (gate c step true = some true ↔ step ≠ c ∧ (c + 2 ^ 32 - step) % 2 ^ 32 < 2 ^ 31)) ∧
  (∀ (p : Fin 128) (l : Fin 8) s e, s.ringHas (.workList p.val l.val) = true →
    s.ringEntry (.workList p.val l.val) = some e → s.entryBad p.val l.val e = none → Entry_bits e 2 31 31 = 0 →
    (s.listRuns p.val l.val (weStep e) = true → gate (s.committed p.val) (weStep e) (weEval e) = some true →
      let t := (s.consume p.val l.val).complete (.workList p.val l.val) (weSeq e) (weStep e) .cancelled 0 0
      (weKind e = 1 → exec (.run p l) s = .next t) ∧ (weKind e = 2 → exec (.meridian p l) s = .next t) ∧
      (weKind e = 3 → exec (.notify p l) s = .next t)) ∧
    (s.listRuns p.val l.val (weStep e) = false ∨ gate (s.committed p.val) (weStep e) (weEval e) = none →
      exec (.run p l) s = .next s ∧ exec (.meridian p l) s = .next s ∧ exec (.notify p l) s = .next s)) ∧
  (∀ (s : State) p l step a last, s.get (qState (.workList p l)) = 3 → s.cfg.armed = some a →
    a.lastStep.find? (fun x => x.1 == p) = some (p, last) → stepLe step last = false → s.listRuns p l step = false)

/-- The step gate of the Halo descriptors (R201): GATHER with EVAL 0, UPDATE, STEP_END and LOAD_STATS dispatch at STEP = C + 1,
GATHER with EVAL 1 at STEP = C; a descriptor below its gate completes with CANCELLED, and one above it waits. -/
def Obligations.HaloGateHolds : Prop :=
  (∀ (c look : Nat) (e : Entry), c < 2 ^ 32 → Entry_bits e 0 63 56 ∈ [1, 2, 3, 7] →
    let step := Entry_bits e 1 63 32
    (haloGate c e look = some false ↔ step = if haloEval e then c else (c + 1) % 2 ^ 32) ∧
    (haloGate c e look = some true ↔
      (c + 2 ^ 32 - step) % 2 ^ 32 < 2 ^ 31 ∧ ¬ (haloEval e = true ∧ step = c))) ∧
  (∀ (k : Fin 12) (qp : Fin 32) s e, s.ringHas (.haloQp k.val qp.val) = true → s.ringEntry (.haloQp k.val qp.val) = some e →
    s.pairRuns (.haloQp k.val qp.val) (s.get (HALO_QP_CFG_PARTITION k.val qp.val)) (Entry_bits e 1 63 32) = true →
    s.haloBad k.val qp.val e = false →
    let g := haloGate (s.committed (s.get (HALO_QP_CFG_PARTITION k.val qp.val))) e (s.get (HALO_QP_CFG_LOOKAHEAD k.val qp.val))
    (g = some true →
      let t := (s.advance (.haloQp k.val qp.val) 1).complete (.haloQp k.val qp.val) (s.get (qHead (.haloQp k.val qp.val)))
        (Entry_bits e 1 63 32) .cancelled 0 0
      (Entry_bits e 0 63 56 = 1 → exec (.haloGather k qp) s = .next t) ∧
      (Entry_bits e 0 63 56 = 2 → exec (.update k qp) s = .next t) ∧
      (Entry_bits e 0 63 56 = 3 → exec (.haloStepEnd k qp) s = .next t) ∧
      (Entry_bits e 0 63 56 = 7 → exec (.loadStats k qp) s = .next t)) ∧
    (g = none → exec (.haloGather k qp) s = .next s ∧ exec (.update k qp) s = .next s ∧
      exec (.haloStepEnd k qp) s = .next s ∧ exec (.loadStats k qp) s = .next s))

/-- Isolation events (R48): the first of a code in a context is recorded at once, with the context, 1 and the low 32 bits of the
address; one within 10 ms of the last record is folded and records nothing; the next one after that is recorded with the number
of events folded into it and the first folded address. The severities are those of the table. -/
def Obligations.IsolationEventsFold : Prop :=
  (∀ (s : State) code ctx op addr, findLimit s.eph.limits code ctx = none →
    s.evIso code ctx op addr =
      ({ s with eph := { s.eph with limits := setLimit s.eph.limits ⟨code, ctx, s.now, 0, 0⟩ } } : State).evS code
        (evSev code) 0 op ctx 1 addr) ∧
  (∀ (s : State) code ctx op addr x, findLimit s.eph.limits code ctx = some x → s.now < x.last + 10000000 →
    s.evIso code ctx op addr = { s with eph := { s.eph with limits := (s.evIso code ctx op addr).eph.limits } } ∧
    ∃ y, findLimit (s.evIso code ctx op addr).eph.limits code ctx = some y ∧ y.last = x.last ∧ y.folded = x.folded + 1 ∧
      y.first = if x.folded = 0 then addr else x.first) ∧
  (∀ (s : State) code ctx op addr x, findLimit s.eph.limits code ctx = some x → x.last + 10000000 ≤ s.now →
    s.evIso code ctx op addr =
      ({ s with eph := { s.eph with limits := setLimit s.eph.limits ⟨code, ctx, s.now, 0, 0⟩ } } : State).evS code
        (evSev code) 0 op ctx (x.folded + 1) (if x.folded = 0 then addr else x.first)) ∧
  (∀ (s : State) code sev unit op p0 p1 p2, s.eph.staged.length < 4096 → s.get ECL_CFG_TRIG_EN = 0 →
    (s.evS code sev unit op p0 p1 p2).eph.staged = s.eph.staged ++ [s.mkRec code sev unit op p0 p1 p2]) ∧
  [0x2101, 0x2102, 0x2103, 0x2104, 0x2105, 0x2106, 0x2107, 0x2108].map evSev = [1, 1, 1, 1, 1, 2, 0, 1]

/-- The staging ring (R419): it never holds more than 4,096 records; a record that arrives while there is room is staged at the
tail; a full ring loses only a record less severe than the arrival, the oldest of the least severity that is staged, or else,
when the arrival is not Fatal, the arrival itself, and counts that drop. -/
def Obligations.StagingRingKeepsSevere : Prop :=
  (∀ (s : State) r, s.eph.staged.length ≤ 4096 → (s.stage r).eph.staged.length ≤ 4096) ∧
  (∀ (s : State) r, s.eph.staged.length < 4096 → (s.stage r).eph.staged = s.eph.staged ++ [r]) ∧
  (∀ (s : State) r v, s.eph.staged.length = 4096 → r.sev ≤ 3 → v < r.sev → (∃ x ∈ s.eph.staged, x.sev = v) →
    (∀ x ∈ s.eph.staged, v ≤ x.sev) →
    (s.stage r).eph.staged = dropFirstSev v s.eph.staged ++ [r] ∧
    (s.stage r).get (dropFld v) = min 0xFFFF (s.get (dropFld v) + 1)) ∧
  (∀ (s : State) r, s.eph.staged.length = 4096 → r.sev ≤ 2 → (∀ x ∈ s.eph.staged, r.sev ≤ x.sev) →
    (s.stage r).eph.staged = s.eph.staged ∧ (s.stage r).get (dropFld r.sev) = min 0xFFFF (s.get (dropFld r.sev) + 1)) ∧
  (∀ (s : State) r x, s.eph.staged.length ≤ 4096 → r.sev ≤ 2 → r.sev ≤ x.sev →
    s.eph.staged.count x ≤ (s.stage r).eph.staged.count x)

/-- Tier C (R34): an address of tier C is refused to a context without PRIV_CTRL, with 0x2105, whatever tiers an engine takes;
and a CTX_CREATE that sets PRIV_CTRL for a context of a VF completes with REFUSED_PARTITION and creates nothing. -/
def Obligations.ControlTierGuarded : Prop :=
  (∀ (s : State) ctx addr len write tiers, tierOf addr = 15 → s.get (CTX_PRIV_CTRL ctx) = 0 →
    s.view ctx addr len write tiers = .refuse 0x2105) ∧
  (∀ (c : Fin 4096) s e, s.cmdReady c.val 0x10 e = true → Entry_bits e 2 21 21 = 1 → Entry_bits e 1 23 16 ≠ 0 →
    exec (.ctxCreate c) s = .next ((s.advance (.cmdRing c.val) 1).cmdDone c.val (s.get (qHead (.cmdRing c.val)))
      .refusedPartition 0))

/-- A unit that holds four macro-ops that have not completed, or slots that overlap those of one in flight, stops issue at the
next macro-op for it: nothing changes (R96). -/
def Obligations.FullUnitStopsIssue : Prop :=
  (∀ (s : State) t u, 4 ≤ ((s.tile t).issued.filter fun i => i.unit == u).length → s.unitFull t u = true) ∧
  (∀ (s : State) t op w chk regs blocks body, s.canIssue t = true → s.get (TILE_PC_PC t) <
    (s.tile t).progStart + (s.tile t).progLen → s.raw t = w → opCode w = op → opUnit op ≠ none →
    Entry_bits w 0 55 52 = 1 → reservedZero w (macroMasks op) = true → chk (s.opForm t blocks w) = none →
    ((regs (s.opForm t blocks w)).any fun r => r.wr && rangesMeet r.off r.len (s.tile t).progStart (s.tile t).progLen) =
      false →
    (s.unitFull t ((opUnit op).getD 0) = true ∨ s.hazard t (regs (s.opForm t blocks w)) = true) →
    s.macroOp t op w chk regs blocks body = s)

/-- Frame of the commands of registers alone: whatever state they are given and however they go on, every byte of every
memory space reads as before, and so does every seal. -/
def Obligations.RegisterCommandsKeepMemory : Prop :=
  ∀ (s t : State) (c : Instr), Instr_registersOnly c = true → exec c s = .next t →
    ∀ sp a, t.byte sp a = s.byte sp a ∧ t.sealOf sp a = s.sealOf sp a
end

