-- ==== Sys2Proof/Laws/Sparse.lean ====
section
/-!
SUPPORT. The laws of sparse arrays: a read after a write, and the canonical form that every write keeps.
-/

namespace Sys2Proof.Machine

variable {α : Type} (d : Nat → α)

theorem smGet_smErase (m : SMap α) (k k' : Nat) :
    smGet d (smErase m k) k' = if k' = k then d k else smGet d m k' := by
  induction m with
  | nil => by_cases h : k' = k <;> simp [smErase, smGet, h]
  | cons e m ih =>
    obtain ⟨j, v⟩ := e
    simp only [smErase]
    by_cases hj : j = k
    · rw [if_pos hj, ih, smGet]
      by_cases h : k' = k
      · simp [h]
      · rw [if_neg h, if_neg h, if_neg (by omega)]
    · rw [if_neg hj, smGet, ih, smGet]
      by_cases h : k' = k
      · rw [if_pos h, if_neg (by omega), if_pos h]
      · simp [h]

theorem smGet_smInsert (m : SMap α) (k k' : Nat) (x : α) :
    smGet d (smInsert m k x) k' = if k' = k then x else smGet d m k' := by
  induction m with
  | nil =>
    by_cases h : k' = k
    · simp [smInsert, smGet, h]
    · simp [smInsert, smGet, h, Ne.symm h]
  | cons e m ih =>
    obtain ⟨j, v⟩ := e
    simp only [smInsert]
    split
    · by_cases h : k' = k
      · simp [smGet, h]
      · simp [smGet, h, Ne.symm h]
    · split
      · next hj =>
        subst hj
        by_cases h : k' = j
        · simp [smGet, h]
        · simp [smGet, h, Ne.symm h]
      · rw [smGet, ih, smGet]
        by_cases h : j = k'
        · subst h; simp [*]
        · simp [h]

variable [DecidableEq α]

/-- A read after a write of the same key gives the value written, and a write leaves every other key alone. -/
theorem smGet_smSet (m : SMap α) (k k' : Nat) (x : α) :
    smGet d (smSet d m k x) k' = if k' = k then x else smGet d m k' := by
  unfold smSet
  split
  · next h => rw [smGet_smErase, h]
  · exact smGet_smInsert d m k k' x

@[simp] theorem smGet_smSet_same (m : SMap α) (k : Nat) (x : α) : smGet d (smSet d m k x) k = x := by
  simp [smGet_smSet]

theorem smGet_smSet_other (m : SMap α) {k k' : Nat} (x : α) (h : k' ≠ k) :
    smGet d (smSet d m k x) k' = smGet d m k' := by
  simp [smGet_smSet, h]

/-- A write of consecutive entries, read back. -/
theorem smGet_smSetList (xs : List α) : ∀ (m : SMap α) (k k' : Nat),
    smGet d (smSetList d m k xs) k' =
      if h : k ≤ k' ∧ k' < k + xs.length then xs[k' - k]'(by omega) else smGet d m k' := by
  induction xs with
  | nil => intro m k k'; simp [smSetList]
  | cons x xs ih =>
    intro m k k'
    rw [smSetList, ih]
    by_cases h : k + 1 ≤ k' ∧ k' < k + 1 + xs.length
    · rw [dif_pos h, dif_pos (by simp only [List.length_cons]; omega)]
      have e : k' - k = (k' - (k + 1)) + 1 := by omega
      simp [e]
    · rw [dif_neg h, smGet_smSet]
      by_cases e : k' = k
      · subst e; simp
      · rw [if_neg e, dif_neg (by simp only [List.length_cons]; omega)]

/-! ## The canonical form -/

theorem smWfFrom_mono {m : SMap α} {b b' : Nat} (h : b' ≤ b) (w : smWfFrom d b m = true) : smWfFrom d b' m = true := by
  cases m with
  | nil => rfl
  | cons e m =>
    simp only [smWfFrom, Bool.and_eq_true, decide_eq_true_eq] at *
    exact ⟨⟨by omega, w.1.2⟩, w.2⟩

theorem smWfFrom_smErase {m : SMap α} {b : Nat} (k : Nat) (w : smWfFrom d b m = true) :
    smWfFrom d b (smErase m k) = true := by
  induction m generalizing b with
  | nil => rfl
  | cons e m ih =>
    obtain ⟨j, v⟩ := e
    simp only [smWfFrom, smErase, Bool.and_eq_true, decide_eq_true_eq] at *
    split
    · exact ih (smWfFrom_mono d (by omega) w.2)
    · simp only [smWfFrom, Bool.and_eq_true, decide_eq_true_eq]; exact ⟨w.1, ih w.2⟩

theorem smWfFrom_smInsert {m : SMap α} {b k : Nat} {x : α} (hb : b ≤ k) (hx : x ≠ d k) (w : smWfFrom d b m = true) :
    smWfFrom d b (smInsert m k x) = true := by
  induction m generalizing b with
  | nil => simp [smInsert, smWfFrom, hb, hx]
  | cons e m ih =>
    obtain ⟨j, v⟩ := e
    simp only [smWfFrom, smInsert, Bool.and_eq_true, decide_eq_true_eq] at *
    split
    · simp only [smWfFrom, Bool.and_eq_true, decide_eq_true_eq]
      exact ⟨⟨hb, hx⟩, ⟨by omega, w.1.2⟩, w.2⟩
    · split
      · next h => simp only [smWfFrom, Bool.and_eq_true, decide_eq_true_eq]; exact ⟨⟨hb, hx⟩, h ▸ w.2⟩
      · simp only [smWfFrom, Bool.and_eq_true, decide_eq_true_eq]; exact ⟨w.1, ih (by omega) w.2⟩

/-- A write keeps the canonical form. -/
theorem smWf_smSet {m : SMap α} (k : Nat) (x : α) (w : smWf d m = true) : smWf d (smSet d m k x) = true := by
  unfold smWf smSet at *
  split
  · exact smWfFrom_smErase d k w
  · next h => exact smWfFrom_smInsert d (Nat.zero_le k) h w

theorem smWf_smSetList (xs : List α) : ∀ {m : SMap α} (k : Nat), smWf d m = true → smWf d (smSetList d m k xs) = true := by
  induction xs with
  | nil => intro m k w; exact w
  | cons x xs ih => intro m k w; exact ih (k + 1) (smWf_smSet d k x w)

theorem smWfFrom_filter {m : SMap α} (p : Nat × α → Bool) {b : Nat} (w : smWfFrom d b m = true) :
    smWfFrom d b (m.filter p) = true := by
  induction m generalizing b with
  | nil => rfl
  | cons e m ih =>
    obtain ⟨j, v⟩ := e
    simp only [smWfFrom, Bool.and_eq_true, decide_eq_true_eq] at w
    cases hp : p (j, v) with
    | true =>
      rw [List.filter_cons_of_pos hp]
      simp only [smWfFrom, Bool.and_eq_true, decide_eq_true_eq]; exact ⟨w.1, ih w.2⟩
    | false =>
      rw [List.filter_cons_of_neg (by simp [hp])]
      exact ih (smWfFrom_mono d (by omega) w.2)

/-- Entries left out keep the canonical form. -/
theorem smWf_filter {m : SMap α} (p : Nat × α → Bool) (w : smWf d m = true) : smWf d (m.filter p) = true :=
  smWfFrom_filter d p w

theorem smWf_nil : smWf d ([] : SMap α) = true := rfl

/-- A fold of writes keeps the canonical form. -/
theorem smWf_foldl_smSet {β : Type} (f : β → Nat) (g : β → α) (l : List β) :
    ∀ {m : SMap α}, smWf d m = true → smWf d (l.foldl (fun m x => smSet d m (f x) (g x)) m) = true := by
  induction l with
  | nil => intro m w; exact w
  | cons x l ih => intro m w; exact ih (smWf_smSet d (f x) (g x) w)

end Sys2Proof.Machine
end

