-- ==== Sys2Proof/Laws/State.lean ====
section
/-!
SUPPORT. What each named update of the state leaves as it was, one lemma per field, and what it reads back.  Each proof is
`(rfl)` so that a rewrite with it is a step of its own, which the kernel need not unfold.
-/

namespace Sys2Proof.Machine

variable (s : State)

/-! ## `wr` -/

@[simp] theorem State.wr_mem (off v : Nat) : (s.wr off v).mem = s.mem := (rfl)
@[simp] theorem State.wr_seals (off v : Nat) : (s.wr off v).seals = s.seals := (rfl)
@[simp] theorem State.wr_eph (off v : Nat) : (s.wr off v).eph = s.eph := (rfl)
@[simp] theorem State.wr_ecl (off v : Nat) : (s.wr off v).ecl = s.ecl := (rfl)
@[simp] theorem State.wr_jtag (off v : Nat) : (s.wr off v).jtag = s.jtag := (rfl)
@[simp] theorem State.wr_ctxs (off v : Nat) : (s.wr off v).ctxs = s.ctxs := (rfl)
@[simp] theorem State.wr_queues (off v : Nat) : (s.wr off v).queues = s.queues := (rfl)
@[simp] theorem State.wr_tiles (off v : Nat) : (s.wr off v).tiles = s.tiles := (rfl)
@[simp] theorem State.wr_lists (off v : Nat) : (s.wr off v).lists = s.lists := (rfl)
@[simp] theorem State.wr_waits (off v : Nat) : (s.wr off v).waits = s.waits := (rfl)
@[simp] theorem State.wr_feeds (off v : Nat) : (s.wr off v).feeds = s.feeds := (rfl)
@[simp] theorem State.wr_barriers (off v : Nat) : (s.wr off v).barriers = s.barriers := (rfl)
@[simp] theorem State.wr_journal (off v : Nat) : (s.wr off v).journal = s.journal := (rfl)
@[simp] theorem State.wr_tables (off v : Nat) : (s.wr off v).tables = s.tables := (rfl)
@[simp] theorem State.wr_haloOps (off v : Nat) : (s.wr off v).haloOps = s.haloOps := (rfl)
@[simp] theorem State.wr_fetched (off v : Nat) : (s.wr off v).fetched = s.fetched := (rfl)
@[simp] theorem State.wr_shards (off v : Nat) : (s.wr off v).shards = s.shards := (rfl)
@[simp] theorem State.wr_orrOps (off v : Nat) : (s.wr off v).orrOps = s.orrOps := (rfl)
@[simp] theorem State.wr_commits (off v : Nat) : (s.wr off v).commits = s.commits := (rfl)
@[simp] theorem State.wr_ports (off v : Nat) : (s.wr off v).ports = s.ports := (rfl)
@[simp] theorem State.wr_xreqs (off v : Nat) : (s.wr off v).xreqs = s.xreqs := (rfl)
@[simp] theorem State.wr_txns (off v : Nat) : (s.wr off v).txns = s.txns := (rfl)
@[simp] theorem State.wr_seenGen (off v : Nat) : (s.wr off v).seenGen = s.seenGen := (rfl)
@[simp] theorem State.wr_delivered (off v : Nat) : (s.wr off v).delivered = s.delivered := (rfl)
@[simp] theorem State.wr_spray (off v : Nat) : (s.wr off v).spray = s.spray := (rfl)
@[simp] theorem State.wr_const (off v : Nat) : (s.wr off v).const = s.const := (rfl)
@[simp] theorem State.wr_pcie (off v : Nat) : (s.wr off v).pcie = s.pcie := (rfl)
@[simp] theorem State.wr_copies (off v : Nat) : (s.wr off v).copies = s.copies := (rfl)
@[simp] theorem State.wr_files (off v : Nat) : (s.wr off v).files = s.files := (rfl)
@[simp] theorem State.wr_nextPcie (off v : Nat) : (s.wr off v).nextPcie = s.nextPcie := (rfl)
@[simp] theorem State.wr_fns (off v : Nat) : (s.wr off v).fns = s.fns := (rfl)
@[simp] theorem State.wr_numVfs (off v : Nat) : (s.wr off v).numVfs = s.numVfs := (rfl)
@[simp] theorem State.wr_cfgSpace (off v : Nat) : (s.wr off v).cfgSpace = s.cfgSpace := (rfl)
@[simp] theorem State.wr_cfg (off v : Nat) : (s.wr off v).cfg = s.cfg := (rfl)
@[simp] theorem State.wr_stks (off v : Nat) : (s.wr off v).stks = s.stks := (rfl)
@[simp] theorem State.wr_lines (off v : Nat) : (s.wr off v).lines = s.lines := (rfl)
@[simp] theorem State.wr_llmOps (off v : Nat) : (s.wr off v).llmOps = s.llmOps := (rfl)
@[simp] theorem State.wr_tiers (off v : Nat) : (s.wr off v).tiers = s.tiers := (rfl)
@[simp] theorem State.wr_coll (off v : Nat) : (s.wr off v).coll = s.coll := (rfl)
@[simp] theorem State.wr_fw (off v : Nat) : (s.wr off v).fw = s.fw := (rfl)
@[simp] theorem State.wr_flt (off v : Nat) : (s.wr off v).flt = s.flt := (rfl)
@[simp] theorem State.wr_pwr (off v : Nat) : (s.wr off v).pwr = s.pwr := (rfl)
@[simp] theorem State.wr_pace (off v : Nat) : (s.wr off v).pace = s.pace := (rfl)
@[simp] theorem State.wr_phase (off v : Nat) : (s.wr off v).phase = s.phase := (rfl)
@[simp] theorem State.wr_pins (off v : Nat) : (s.wr off v).pins = s.pins := (rfl)
@[simp] theorem State.wr_recorded (off v : Nat) : (s.wr off v).recorded = s.recorded := (rfl)
@[simp] theorem State.wr_free (off v : Nat) : (s.wr off v).free = s.free := (rfl)
@[simp] theorem State.wr_out (off v : Nat) : (s.wr off v).out = s.out := (rfl)
@[simp] theorem State.wr_pending (off v : Nat) : (s.wr off v).pending = s.pending := (rfl)
@[simp] theorem State.wr_byte (off v : Nat) (sp' : Space) (a' : Nat) : (s.wr off v).byte sp' a' = s.byte sp' a' := (rfl)
@[simp] theorem State.wr_sealOf (off v : Nat) (sp' : Space) (a' : Nat) : (s.wr off v).sealOf sp' a' = s.sealOf sp' a' := (rfl)
@[simp] theorem State.wr_ctx (off v : Nat) (k' : Nat) : (s.wr off v).ctx k' = s.ctx k' := (rfl)
@[simp] theorem State.wr_tile (off v : Nat) (k' : Nat) : (s.wr off v).tile k' = s.tile k' := (rfl)
@[simp] theorem State.wr_commit (off v : Nat) (k' : Nat) : (s.wr off v).commit k' = s.commit k' := (rfl)
@[simp] theorem State.wr_port (off v : Nat) (k' : Nat) : (s.wr off v).port k' = s.port k' := (rfl)
@[simp] theorem State.wr_fn (off v : Nat) (k' : Nat) : (s.wr off v).fn k' = s.fn k' := (rfl)
@[simp] theorem State.wr_stk (off v : Nat) (k' : Nat) : (s.wr off v).stk k' = s.stk k' := (rfl)
@[simp] theorem State.wr_queue (off v : Nat) (q' : QueueId) : (s.wr off v).queue q' = s.queue q' := (rfl)
@[simp] theorem State.wr_wlist (off v : Nat) (p' w' : Nat) : (s.wr off v).wlist p' w' = s.wlist p' w' := (rfl)

/-! ## `put` -/

@[simp] theorem State.put_mem (f : Fld) (v : Nat) : (s.put f v).mem = s.mem := (rfl)
@[simp] theorem State.put_seals (f : Fld) (v : Nat) : (s.put f v).seals = s.seals := (rfl)
@[simp] theorem State.put_eph (f : Fld) (v : Nat) : (s.put f v).eph = s.eph := (rfl)
@[simp] theorem State.put_ecl (f : Fld) (v : Nat) : (s.put f v).ecl = s.ecl := (rfl)
@[simp] theorem State.put_jtag (f : Fld) (v : Nat) : (s.put f v).jtag = s.jtag := (rfl)
@[simp] theorem State.put_ctxs (f : Fld) (v : Nat) : (s.put f v).ctxs = s.ctxs := (rfl)
@[simp] theorem State.put_queues (f : Fld) (v : Nat) : (s.put f v).queues = s.queues := (rfl)
@[simp] theorem State.put_tiles (f : Fld) (v : Nat) : (s.put f v).tiles = s.tiles := (rfl)
@[simp] theorem State.put_lists (f : Fld) (v : Nat) : (s.put f v).lists = s.lists := (rfl)
@[simp] theorem State.put_waits (f : Fld) (v : Nat) : (s.put f v).waits = s.waits := (rfl)
@[simp] theorem State.put_feeds (f : Fld) (v : Nat) : (s.put f v).feeds = s.feeds := (rfl)
@[simp] theorem State.put_barriers (f : Fld) (v : Nat) : (s.put f v).barriers = s.barriers := (rfl)
@[simp] theorem State.put_journal (f : Fld) (v : Nat) : (s.put f v).journal = s.journal := (rfl)
@[simp] theorem State.put_tables (f : Fld) (v : Nat) : (s.put f v).tables = s.tables := (rfl)
@[simp] theorem State.put_haloOps (f : Fld) (v : Nat) : (s.put f v).haloOps = s.haloOps := (rfl)
@[simp] theorem State.put_fetched (f : Fld) (v : Nat) : (s.put f v).fetched = s.fetched := (rfl)
@[simp] theorem State.put_shards (f : Fld) (v : Nat) : (s.put f v).shards = s.shards := (rfl)
@[simp] theorem State.put_orrOps (f : Fld) (v : Nat) : (s.put f v).orrOps = s.orrOps := (rfl)
@[simp] theorem State.put_commits (f : Fld) (v : Nat) : (s.put f v).commits = s.commits := (rfl)
@[simp] theorem State.put_ports (f : Fld) (v : Nat) : (s.put f v).ports = s.ports := (rfl)
@[simp] theorem State.put_xreqs (f : Fld) (v : Nat) : (s.put f v).xreqs = s.xreqs := (rfl)
@[simp] theorem State.put_txns (f : Fld) (v : Nat) : (s.put f v).txns = s.txns := (rfl)
@[simp] theorem State.put_seenGen (f : Fld) (v : Nat) : (s.put f v).seenGen = s.seenGen := (rfl)
@[simp] theorem State.put_delivered (f : Fld) (v : Nat) : (s.put f v).delivered = s.delivered := (rfl)
@[simp] theorem State.put_spray (f : Fld) (v : Nat) : (s.put f v).spray = s.spray := (rfl)
@[simp] theorem State.put_const (f : Fld) (v : Nat) : (s.put f v).const = s.const := (rfl)
@[simp] theorem State.put_pcie (f : Fld) (v : Nat) : (s.put f v).pcie = s.pcie := (rfl)
@[simp] theorem State.put_copies (f : Fld) (v : Nat) : (s.put f v).copies = s.copies := (rfl)
@[simp] theorem State.put_files (f : Fld) (v : Nat) : (s.put f v).files = s.files := (rfl)
@[simp] theorem State.put_nextPcie (f : Fld) (v : Nat) : (s.put f v).nextPcie = s.nextPcie := (rfl)
@[simp] theorem State.put_fns (f : Fld) (v : Nat) : (s.put f v).fns = s.fns := (rfl)
@[simp] theorem State.put_numVfs (f : Fld) (v : Nat) : (s.put f v).numVfs = s.numVfs := (rfl)
@[simp] theorem State.put_cfgSpace (f : Fld) (v : Nat) : (s.put f v).cfgSpace = s.cfgSpace := (rfl)
@[simp] theorem State.put_cfg (f : Fld) (v : Nat) : (s.put f v).cfg = s.cfg := (rfl)
@[simp] theorem State.put_stks (f : Fld) (v : Nat) : (s.put f v).stks = s.stks := (rfl)
@[simp] theorem State.put_lines (f : Fld) (v : Nat) : (s.put f v).lines = s.lines := (rfl)
@[simp] theorem State.put_llmOps (f : Fld) (v : Nat) : (s.put f v).llmOps = s.llmOps := (rfl)
@[simp] theorem State.put_tiers (f : Fld) (v : Nat) : (s.put f v).tiers = s.tiers := (rfl)
@[simp] theorem State.put_coll (f : Fld) (v : Nat) : (s.put f v).coll = s.coll := (rfl)
@[simp] theorem State.put_fw (f : Fld) (v : Nat) : (s.put f v).fw = s.fw := (rfl)
@[simp] theorem State.put_flt (f : Fld) (v : Nat) : (s.put f v).flt = s.flt := (rfl)
@[simp] theorem State.put_pwr (f : Fld) (v : Nat) : (s.put f v).pwr = s.pwr := (rfl)
@[simp] theorem State.put_pace (f : Fld) (v : Nat) : (s.put f v).pace = s.pace := (rfl)
@[simp] theorem State.put_phase (f : Fld) (v : Nat) : (s.put f v).phase = s.phase := (rfl)
@[simp] theorem State.put_pins (f : Fld) (v : Nat) : (s.put f v).pins = s.pins := (rfl)
@[simp] theorem State.put_recorded (f : Fld) (v : Nat) : (s.put f v).recorded = s.recorded := (rfl)
@[simp] theorem State.put_free (f : Fld) (v : Nat) : (s.put f v).free = s.free := (rfl)
@[simp] theorem State.put_out (f : Fld) (v : Nat) : (s.put f v).out = s.out := (rfl)
@[simp] theorem State.put_pending (f : Fld) (v : Nat) : (s.put f v).pending = s.pending := (rfl)
@[simp] theorem State.put_byte (f : Fld) (v : Nat) (sp' : Space) (a' : Nat) : (s.put f v).byte sp' a' = s.byte sp' a' := (rfl)
@[simp] theorem State.put_sealOf (f : Fld) (v : Nat) (sp' : Space) (a' : Nat) : (s.put f v).sealOf sp' a' = s.sealOf sp' a' := (rfl)
@[simp] theorem State.put_ctx (f : Fld) (v : Nat) (k' : Nat) : (s.put f v).ctx k' = s.ctx k' := (rfl)
@[simp] theorem State.put_tile (f : Fld) (v : Nat) (k' : Nat) : (s.put f v).tile k' = s.tile k' := (rfl)
@[simp] theorem State.put_commit (f : Fld) (v : Nat) (k' : Nat) : (s.put f v).commit k' = s.commit k' := (rfl)
@[simp] theorem State.put_port (f : Fld) (v : Nat) (k' : Nat) : (s.put f v).port k' = s.port k' := (rfl)
@[simp] theorem State.put_fn (f : Fld) (v : Nat) (k' : Nat) : (s.put f v).fn k' = s.fn k' := (rfl)
@[simp] theorem State.put_stk (f : Fld) (v : Nat) (k' : Nat) : (s.put f v).stk k' = s.stk k' := (rfl)
@[simp] theorem State.put_queue (f : Fld) (v : Nat) (q' : QueueId) : (s.put f v).queue q' = s.queue q' := (rfl)
@[simp] theorem State.put_wlist (f : Fld) (v : Nat) (p' w' : Nat) : (s.put f v).wlist p' w' = s.wlist p' w' := (rfl)

/-! ## `inc` -/

@[simp] theorem State.inc_mem (f : Fld) (n : Nat) : (s.inc f n).mem = s.mem := (rfl)
@[simp] theorem State.inc_seals (f : Fld) (n : Nat) : (s.inc f n).seals = s.seals := (rfl)
@[simp] theorem State.inc_eph (f : Fld) (n : Nat) : (s.inc f n).eph = s.eph := (rfl)
@[simp] theorem State.inc_ecl (f : Fld) (n : Nat) : (s.inc f n).ecl = s.ecl := (rfl)
@[simp] theorem State.inc_jtag (f : Fld) (n : Nat) : (s.inc f n).jtag = s.jtag := (rfl)
@[simp] theorem State.inc_ctxs (f : Fld) (n : Nat) : (s.inc f n).ctxs = s.ctxs := (rfl)
@[simp] theorem State.inc_queues (f : Fld) (n : Nat) : (s.inc f n).queues = s.queues := (rfl)
@[simp] theorem State.inc_tiles (f : Fld) (n : Nat) : (s.inc f n).tiles = s.tiles := (rfl)
@[simp] theorem State.inc_lists (f : Fld) (n : Nat) : (s.inc f n).lists = s.lists := (rfl)
@[simp] theorem State.inc_waits (f : Fld) (n : Nat) : (s.inc f n).waits = s.waits := (rfl)
@[simp] theorem State.inc_feeds (f : Fld) (n : Nat) : (s.inc f n).feeds = s.feeds := (rfl)
@[simp] theorem State.inc_barriers (f : Fld) (n : Nat) : (s.inc f n).barriers = s.barriers := (rfl)
@[simp] theorem State.inc_journal (f : Fld) (n : Nat) : (s.inc f n).journal = s.journal := (rfl)
@[simp] theorem State.inc_tables (f : Fld) (n : Nat) : (s.inc f n).tables = s.tables := (rfl)
@[simp] theorem State.inc_haloOps (f : Fld) (n : Nat) : (s.inc f n).haloOps = s.haloOps := (rfl)
@[simp] theorem State.inc_fetched (f : Fld) (n : Nat) : (s.inc f n).fetched = s.fetched := (rfl)
@[simp] theorem State.inc_shards (f : Fld) (n : Nat) : (s.inc f n).shards = s.shards := (rfl)
@[simp] theorem State.inc_orrOps (f : Fld) (n : Nat) : (s.inc f n).orrOps = s.orrOps := (rfl)
@[simp] theorem State.inc_commits (f : Fld) (n : Nat) : (s.inc f n).commits = s.commits := (rfl)
@[simp] theorem State.inc_ports (f : Fld) (n : Nat) : (s.inc f n).ports = s.ports := (rfl)
@[simp] theorem State.inc_xreqs (f : Fld) (n : Nat) : (s.inc f n).xreqs = s.xreqs := (rfl)
@[simp] theorem State.inc_txns (f : Fld) (n : Nat) : (s.inc f n).txns = s.txns := (rfl)
@[simp] theorem State.inc_seenGen (f : Fld) (n : Nat) : (s.inc f n).seenGen = s.seenGen := (rfl)
@[simp] theorem State.inc_delivered (f : Fld) (n : Nat) : (s.inc f n).delivered = s.delivered := (rfl)
@[simp] theorem State.inc_spray (f : Fld) (n : Nat) : (s.inc f n).spray = s.spray := (rfl)
@[simp] theorem State.inc_const (f : Fld) (n : Nat) : (s.inc f n).const = s.const := (rfl)
@[simp] theorem State.inc_pcie (f : Fld) (n : Nat) : (s.inc f n).pcie = s.pcie := (rfl)
@[simp] theorem State.inc_copies (f : Fld) (n : Nat) : (s.inc f n).copies = s.copies := (rfl)
@[simp] theorem State.inc_files (f : Fld) (n : Nat) : (s.inc f n).files = s.files := (rfl)
@[simp] theorem State.inc_nextPcie (f : Fld) (n : Nat) : (s.inc f n).nextPcie = s.nextPcie := (rfl)
@[simp] theorem State.inc_fns (f : Fld) (n : Nat) : (s.inc f n).fns = s.fns := (rfl)
@[simp] theorem State.inc_numVfs (f : Fld) (n : Nat) : (s.inc f n).numVfs = s.numVfs := (rfl)
@[simp] theorem State.inc_cfgSpace (f : Fld) (n : Nat) : (s.inc f n).cfgSpace = s.cfgSpace := (rfl)
@[simp] theorem State.inc_cfg (f : Fld) (n : Nat) : (s.inc f n).cfg = s.cfg := (rfl)
@[simp] theorem State.inc_stks (f : Fld) (n : Nat) : (s.inc f n).stks = s.stks := (rfl)
@[simp] theorem State.inc_lines (f : Fld) (n : Nat) : (s.inc f n).lines = s.lines := (rfl)
@[simp] theorem State.inc_llmOps (f : Fld) (n : Nat) : (s.inc f n).llmOps = s.llmOps := (rfl)
@[simp] theorem State.inc_tiers (f : Fld) (n : Nat) : (s.inc f n).tiers = s.tiers := (rfl)
@[simp] theorem State.inc_coll (f : Fld) (n : Nat) : (s.inc f n).coll = s.coll := (rfl)
@[simp] theorem State.inc_fw (f : Fld) (n : Nat) : (s.inc f n).fw = s.fw := (rfl)
@[simp] theorem State.inc_flt (f : Fld) (n : Nat) : (s.inc f n).flt = s.flt := (rfl)
@[simp] theorem State.inc_pwr (f : Fld) (n : Nat) : (s.inc f n).pwr = s.pwr := (rfl)
@[simp] theorem State.inc_pace (f : Fld) (n : Nat) : (s.inc f n).pace = s.pace := (rfl)
@[simp] theorem State.inc_phase (f : Fld) (n : Nat) : (s.inc f n).phase = s.phase := (rfl)
@[simp] theorem State.inc_pins (f : Fld) (n : Nat) : (s.inc f n).pins = s.pins := (rfl)
@[simp] theorem State.inc_recorded (f : Fld) (n : Nat) : (s.inc f n).recorded = s.recorded := (rfl)
@[simp] theorem State.inc_free (f : Fld) (n : Nat) : (s.inc f n).free = s.free := (rfl)
@[simp] theorem State.inc_out (f : Fld) (n : Nat) : (s.inc f n).out = s.out := (rfl)
@[simp] theorem State.inc_pending (f : Fld) (n : Nat) : (s.inc f n).pending = s.pending := (rfl)
@[simp] theorem State.inc_byte (f : Fld) (n : Nat) (sp' : Space) (a' : Nat) : (s.inc f n).byte sp' a' = s.byte sp' a' := (rfl)
@[simp] theorem State.inc_sealOf (f : Fld) (n : Nat) (sp' : Space) (a' : Nat) : (s.inc f n).sealOf sp' a' = s.sealOf sp' a' := (rfl)
@[simp] theorem State.inc_ctx (f : Fld) (n : Nat) (k' : Nat) : (s.inc f n).ctx k' = s.ctx k' := (rfl)
@[simp] theorem State.inc_tile (f : Fld) (n : Nat) (k' : Nat) : (s.inc f n).tile k' = s.tile k' := (rfl)
@[simp] theorem State.inc_commit (f : Fld) (n : Nat) (k' : Nat) : (s.inc f n).commit k' = s.commit k' := (rfl)
@[simp] theorem State.inc_port (f : Fld) (n : Nat) (k' : Nat) : (s.inc f n).port k' = s.port k' := (rfl)
@[simp] theorem State.inc_fn (f : Fld) (n : Nat) (k' : Nat) : (s.inc f n).fn k' = s.fn k' := (rfl)
@[simp] theorem State.inc_stk (f : Fld) (n : Nat) (k' : Nat) : (s.inc f n).stk k' = s.stk k' := (rfl)
@[simp] theorem State.inc_queue (f : Fld) (n : Nat) (q' : QueueId) : (s.inc f n).queue q' = s.queue q' := (rfl)
@[simp] theorem State.inc_wlist (f : Fld) (n : Nat) (p' w' : Nat) : (s.inc f n).wlist p' w' = s.wlist p' w' := (rfl)

/-! ## `next` -/

@[simp] theorem State.next_mem (f : Fld) : (s.next f).mem = s.mem := (rfl)
@[simp] theorem State.next_seals (f : Fld) : (s.next f).seals = s.seals := (rfl)
@[simp] theorem State.next_eph (f : Fld) : (s.next f).eph = s.eph := (rfl)
@[simp] theorem State.next_ecl (f : Fld) : (s.next f).ecl = s.ecl := (rfl)
@[simp] theorem State.next_jtag (f : Fld) : (s.next f).jtag = s.jtag := (rfl)
@[simp] theorem State.next_ctxs (f : Fld) : (s.next f).ctxs = s.ctxs := (rfl)
@[simp] theorem State.next_queues (f : Fld) : (s.next f).queues = s.queues := (rfl)
@[simp] theorem State.next_tiles (f : Fld) : (s.next f).tiles = s.tiles := (rfl)
@[simp] theorem State.next_lists (f : Fld) : (s.next f).lists = s.lists := (rfl)
@[simp] theorem State.next_waits (f : Fld) : (s.next f).waits = s.waits := (rfl)
@[simp] theorem State.next_feeds (f : Fld) : (s.next f).feeds = s.feeds := (rfl)
@[simp] theorem State.next_barriers (f : Fld) : (s.next f).barriers = s.barriers := (rfl)
@[simp] theorem State.next_journal (f : Fld) : (s.next f).journal = s.journal := (rfl)
@[simp] theorem State.next_tables (f : Fld) : (s.next f).tables = s.tables := (rfl)
@[simp] theorem State.next_haloOps (f : Fld) : (s.next f).haloOps = s.haloOps := (rfl)
@[simp] theorem State.next_fetched (f : Fld) : (s.next f).fetched = s.fetched := (rfl)
@[simp] theorem State.next_shards (f : Fld) : (s.next f).shards = s.shards := (rfl)
@[simp] theorem State.next_orrOps (f : Fld) : (s.next f).orrOps = s.orrOps := (rfl)
@[simp] theorem State.next_commits (f : Fld) : (s.next f).commits = s.commits := (rfl)
@[simp] theorem State.next_ports (f : Fld) : (s.next f).ports = s.ports := (rfl)
@[simp] theorem State.next_xreqs (f : Fld) : (s.next f).xreqs = s.xreqs := (rfl)
@[simp] theorem State.next_txns (f : Fld) : (s.next f).txns = s.txns := (rfl)
@[simp] theorem State.next_seenGen (f : Fld) : (s.next f).seenGen = s.seenGen := (rfl)
@[simp] theorem State.next_delivered (f : Fld) : (s.next f).delivered = s.delivered := (rfl)
@[simp] theorem State.next_spray (f : Fld) : (s.next f).spray = s.spray := (rfl)
@[simp] theorem State.next_const (f : Fld) : (s.next f).const = s.const := (rfl)
@[simp] theorem State.next_pcie (f : Fld) : (s.next f).pcie = s.pcie := (rfl)
@[simp] theorem State.next_copies (f : Fld) : (s.next f).copies = s.copies := (rfl)
@[simp] theorem State.next_files (f : Fld) : (s.next f).files = s.files := (rfl)
@[simp] theorem State.next_nextPcie (f : Fld) : (s.next f).nextPcie = s.nextPcie := (rfl)
@[simp] theorem State.next_fns (f : Fld) : (s.next f).fns = s.fns := (rfl)
@[simp] theorem State.next_numVfs (f : Fld) : (s.next f).numVfs = s.numVfs := (rfl)
@[simp] theorem State.next_cfgSpace (f : Fld) : (s.next f).cfgSpace = s.cfgSpace := (rfl)
@[simp] theorem State.next_cfg (f : Fld) : (s.next f).cfg = s.cfg := (rfl)
@[simp] theorem State.next_stks (f : Fld) : (s.next f).stks = s.stks := (rfl)
@[simp] theorem State.next_lines (f : Fld) : (s.next f).lines = s.lines := (rfl)
@[simp] theorem State.next_llmOps (f : Fld) : (s.next f).llmOps = s.llmOps := (rfl)
@[simp] theorem State.next_tiers (f : Fld) : (s.next f).tiers = s.tiers := (rfl)
@[simp] theorem State.next_coll (f : Fld) : (s.next f).coll = s.coll := (rfl)
@[simp] theorem State.next_fw (f : Fld) : (s.next f).fw = s.fw := (rfl)
@[simp] theorem State.next_flt (f : Fld) : (s.next f).flt = s.flt := (rfl)
@[simp] theorem State.next_pwr (f : Fld) : (s.next f).pwr = s.pwr := (rfl)
@[simp] theorem State.next_pace (f : Fld) : (s.next f).pace = s.pace := (rfl)
@[simp] theorem State.next_phase (f : Fld) : (s.next f).phase = s.phase := (rfl)
@[simp] theorem State.next_pins (f : Fld) : (s.next f).pins = s.pins := (rfl)
@[simp] theorem State.next_recorded (f : Fld) : (s.next f).recorded = s.recorded := (rfl)
@[simp] theorem State.next_free (f : Fld) : (s.next f).free = s.free := (rfl)
@[simp] theorem State.next_out (f : Fld) : (s.next f).out = s.out := (rfl)
@[simp] theorem State.next_pending (f : Fld) : (s.next f).pending = s.pending := (rfl)
@[simp] theorem State.next_byte (f : Fld) (sp' : Space) (a' : Nat) : (s.next f).byte sp' a' = s.byte sp' a' := (rfl)
@[simp] theorem State.next_sealOf (f : Fld) (sp' : Space) (a' : Nat) : (s.next f).sealOf sp' a' = s.sealOf sp' a' := (rfl)
@[simp] theorem State.next_ctx (f : Fld) (k' : Nat) : (s.next f).ctx k' = s.ctx k' := (rfl)
@[simp] theorem State.next_tile (f : Fld) (k' : Nat) : (s.next f).tile k' = s.tile k' := (rfl)
@[simp] theorem State.next_commit (f : Fld) (k' : Nat) : (s.next f).commit k' = s.commit k' := (rfl)
@[simp] theorem State.next_port (f : Fld) (k' : Nat) : (s.next f).port k' = s.port k' := (rfl)
@[simp] theorem State.next_fn (f : Fld) (k' : Nat) : (s.next f).fn k' = s.fn k' := (rfl)
@[simp] theorem State.next_stk (f : Fld) (k' : Nat) : (s.next f).stk k' = s.stk k' := (rfl)
@[simp] theorem State.next_queue (f : Fld) (q' : QueueId) : (s.next f).queue q' = s.queue q' := (rfl)
@[simp] theorem State.next_wlist (f : Fld) (p' w' : Nat) : (s.next f).wlist p' w' = s.wlist p' w' := (rfl)

/-! ## `advance` -/

@[simp] theorem State.advance_mem (q : QueueId) (n : Nat) : (s.advance q n).mem = s.mem := (rfl)
@[simp] theorem State.advance_seals (q : QueueId) (n : Nat) : (s.advance q n).seals = s.seals := (rfl)
@[simp] theorem State.advance_eph (q : QueueId) (n : Nat) : (s.advance q n).eph = s.eph := (rfl)
@[simp] theorem State.advance_ecl (q : QueueId) (n : Nat) : (s.advance q n).ecl = s.ecl := (rfl)
@[simp] theorem State.advance_jtag (q : QueueId) (n : Nat) : (s.advance q n).jtag = s.jtag := (rfl)
@[simp] theorem State.advance_ctxs (q : QueueId) (n : Nat) : (s.advance q n).ctxs = s.ctxs := (rfl)
@[simp] theorem State.advance_queues (q : QueueId) (n : Nat) : (s.advance q n).queues = s.queues := (rfl)
@[simp] theorem State.advance_tiles (q : QueueId) (n : Nat) : (s.advance q n).tiles = s.tiles := (rfl)
@[simp] theorem State.advance_lists (q : QueueId) (n : Nat) : (s.advance q n).lists = s.lists := (rfl)
@[simp] theorem State.advance_waits (q : QueueId) (n : Nat) : (s.advance q n).waits = s.waits := (rfl)
@[simp] theorem State.advance_feeds (q : QueueId) (n : Nat) : (s.advance q n).feeds = s.feeds := (rfl)
@[simp] theorem State.advance_barriers (q : QueueId) (n : Nat) : (s.advance q n).barriers = s.barriers := (rfl)
@[simp] theorem State.advance_journal (q : QueueId) (n : Nat) : (s.advance q n).journal = s.journal := (rfl)
@[simp] theorem State.advance_tables (q : QueueId) (n : Nat) : (s.advance q n).tables = s.tables := (rfl)
@[simp] theorem State.advance_haloOps (q : QueueId) (n : Nat) : (s.advance q n).haloOps = s.haloOps := (rfl)
@[simp] theorem State.advance_fetched (q : QueueId) (n : Nat) : (s.advance q n).fetched = s.fetched := (rfl)
@[simp] theorem State.advance_shards (q : QueueId) (n : Nat) : (s.advance q n).shards = s.shards := (rfl)
@[simp] theorem State.advance_orrOps (q : QueueId) (n : Nat) : (s.advance q n).orrOps = s.orrOps := (rfl)
@[simp] theorem State.advance_commits (q : QueueId) (n : Nat) : (s.advance q n).commits = s.commits := (rfl)
@[simp] theorem State.advance_ports (q : QueueId) (n : Nat) : (s.advance q n).ports = s.ports := (rfl)
@[simp] theorem State.advance_xreqs (q : QueueId) (n : Nat) : (s.advance q n).xreqs = s.xreqs := (rfl)
@[simp] theorem State.advance_txns (q : QueueId) (n : Nat) : (s.advance q n).txns = s.txns := (rfl)
@[simp] theorem State.advance_seenGen (q : QueueId) (n : Nat) : (s.advance q n).seenGen = s.seenGen := (rfl)
@[simp] theorem State.advance_delivered (q : QueueId) (n : Nat) : (s.advance q n).delivered = s.delivered := (rfl)
@[simp] theorem State.advance_spray (q : QueueId) (n : Nat) : (s.advance q n).spray = s.spray := (rfl)
@[simp] theorem State.advance_const (q : QueueId) (n : Nat) : (s.advance q n).const = s.const := (rfl)
@[simp] theorem State.advance_pcie (q : QueueId) (n : Nat) : (s.advance q n).pcie = s.pcie := (rfl)
@[simp] theorem State.advance_copies (q : QueueId) (n : Nat) : (s.advance q n).copies = s.copies := (rfl)
@[simp] theorem State.advance_files (q : QueueId) (n : Nat) : (s.advance q n).files = s.files := (rfl)
@[simp] theorem State.advance_nextPcie (q : QueueId) (n : Nat) : (s.advance q n).nextPcie = s.nextPcie := (rfl)
@[simp] theorem State.advance_fns (q : QueueId) (n : Nat) : (s.advance q n).fns = s.fns := (rfl)
@[simp] theorem State.advance_numVfs (q : QueueId) (n : Nat) : (s.advance q n).numVfs = s.numVfs := (rfl)
@[simp] theorem State.advance_cfgSpace (q : QueueId) (n : Nat) : (s.advance q n).cfgSpace = s.cfgSpace := (rfl)
@[simp] theorem State.advance_cfg (q : QueueId) (n : Nat) : (s.advance q n).cfg = s.cfg := (rfl)
@[simp] theorem State.advance_stks (q : QueueId) (n : Nat) : (s.advance q n).stks = s.stks := (rfl)
@[simp] theorem State.advance_lines (q : QueueId) (n : Nat) : (s.advance q n).lines = s.lines := (rfl)
@[simp] theorem State.advance_llmOps (q : QueueId) (n : Nat) : (s.advance q n).llmOps = s.llmOps := (rfl)
@[simp] theorem State.advance_tiers (q : QueueId) (n : Nat) : (s.advance q n).tiers = s.tiers := (rfl)
@[simp] theorem State.advance_coll (q : QueueId) (n : Nat) : (s.advance q n).coll = s.coll := (rfl)
@[simp] theorem State.advance_fw (q : QueueId) (n : Nat) : (s.advance q n).fw = s.fw := (rfl)
@[simp] theorem State.advance_flt (q : QueueId) (n : Nat) : (s.advance q n).flt = s.flt := (rfl)
@[simp] theorem State.advance_pwr (q : QueueId) (n : Nat) : (s.advance q n).pwr = s.pwr := (rfl)
@[simp] theorem State.advance_pace (q : QueueId) (n : Nat) : (s.advance q n).pace = s.pace := (rfl)
@[simp] theorem State.advance_phase (q : QueueId) (n : Nat) : (s.advance q n).phase = s.phase := (rfl)
@[simp] theorem State.advance_pins (q : QueueId) (n : Nat) : (s.advance q n).pins = s.pins := (rfl)
@[simp] theorem State.advance_recorded (q : QueueId) (n : Nat) : (s.advance q n).recorded = s.recorded := (rfl)
@[simp] theorem State.advance_free (q : QueueId) (n : Nat) : (s.advance q n).free = s.free := (rfl)
@[simp] theorem State.advance_out (q : QueueId) (n : Nat) : (s.advance q n).out = s.out := (rfl)
@[simp] theorem State.advance_pending (q : QueueId) (n : Nat) : (s.advance q n).pending = s.pending := (rfl)
@[simp] theorem State.advance_byte (q : QueueId) (n : Nat) (sp' : Space) (a' : Nat) : (s.advance q n).byte sp' a' = s.byte sp' a' := (rfl)
@[simp] theorem State.advance_sealOf (q : QueueId) (n : Nat) (sp' : Space) (a' : Nat) : (s.advance q n).sealOf sp' a' = s.sealOf sp' a' := (rfl)
@[simp] theorem State.advance_ctx (q : QueueId) (n : Nat) (k' : Nat) : (s.advance q n).ctx k' = s.ctx k' := (rfl)
@[simp] theorem State.advance_tile (q : QueueId) (n : Nat) (k' : Nat) : (s.advance q n).tile k' = s.tile k' := (rfl)
@[simp] theorem State.advance_commit (q : QueueId) (n : Nat) (k' : Nat) : (s.advance q n).commit k' = s.commit k' := (rfl)
@[simp] theorem State.advance_port (q : QueueId) (n : Nat) (k' : Nat) : (s.advance q n).port k' = s.port k' := (rfl)
@[simp] theorem State.advance_fn (q : QueueId) (n : Nat) (k' : Nat) : (s.advance q n).fn k' = s.fn k' := (rfl)
@[simp] theorem State.advance_stk (q : QueueId) (n : Nat) (k' : Nat) : (s.advance q n).stk k' = s.stk k' := (rfl)
@[simp] theorem State.advance_queue (q : QueueId) (n : Nat) (q' : QueueId) : (s.advance q n).queue q' = s.queue q' := (rfl)
@[simp] theorem State.advance_wlist (q : QueueId) (n : Nat) (p' w' : Nat) : (s.advance q n).wlist p' w' = s.wlist p' w' := (rfl)

/-! ## `emit` -/

@[simp] theorem State.emit_regs (o : Output) : (s.emit o).regs = s.regs := (rfl)
@[simp] theorem State.emit_mem (o : Output) : (s.emit o).mem = s.mem := (rfl)
@[simp] theorem State.emit_seals (o : Output) : (s.emit o).seals = s.seals := (rfl)
@[simp] theorem State.emit_eph (o : Output) : (s.emit o).eph = s.eph := (rfl)
@[simp] theorem State.emit_ecl (o : Output) : (s.emit o).ecl = s.ecl := (rfl)
@[simp] theorem State.emit_jtag (o : Output) : (s.emit o).jtag = s.jtag := (rfl)
@[simp] theorem State.emit_ctxs (o : Output) : (s.emit o).ctxs = s.ctxs := (rfl)
@[simp] theorem State.emit_queues (o : Output) : (s.emit o).queues = s.queues := (rfl)
@[simp] theorem State.emit_tiles (o : Output) : (s.emit o).tiles = s.tiles := (rfl)
@[simp] theorem State.emit_lists (o : Output) : (s.emit o).lists = s.lists := (rfl)
@[simp] theorem State.emit_waits (o : Output) : (s.emit o).waits = s.waits := (rfl)
@[simp] theorem State.emit_feeds (o : Output) : (s.emit o).feeds = s.feeds := (rfl)
@[simp] theorem State.emit_barriers (o : Output) : (s.emit o).barriers = s.barriers := (rfl)
@[simp] theorem State.emit_journal (o : Output) : (s.emit o).journal = s.journal := (rfl)
@[simp] theorem State.emit_tables (o : Output) : (s.emit o).tables = s.tables := (rfl)
@[simp] theorem State.emit_haloOps (o : Output) : (s.emit o).haloOps = s.haloOps := (rfl)
@[simp] theorem State.emit_fetched (o : Output) : (s.emit o).fetched = s.fetched := (rfl)
@[simp] theorem State.emit_shards (o : Output) : (s.emit o).shards = s.shards := (rfl)
@[simp] theorem State.emit_orrOps (o : Output) : (s.emit o).orrOps = s.orrOps := (rfl)
@[simp] theorem State.emit_commits (o : Output) : (s.emit o).commits = s.commits := (rfl)
@[simp] theorem State.emit_ports (o : Output) : (s.emit o).ports = s.ports := (rfl)
@[simp] theorem State.emit_xreqs (o : Output) : (s.emit o).xreqs = s.xreqs := (rfl)
@[simp] theorem State.emit_txns (o : Output) : (s.emit o).txns = s.txns := (rfl)
@[simp] theorem State.emit_seenGen (o : Output) : (s.emit o).seenGen = s.seenGen := (rfl)
@[simp] theorem State.emit_delivered (o : Output) : (s.emit o).delivered = s.delivered := (rfl)
@[simp] theorem State.emit_spray (o : Output) : (s.emit o).spray = s.spray := (rfl)
@[simp] theorem State.emit_const (o : Output) : (s.emit o).const = s.const := (rfl)
@[simp] theorem State.emit_pcie (o : Output) : (s.emit o).pcie = s.pcie := (rfl)
@[simp] theorem State.emit_copies (o : Output) : (s.emit o).copies = s.copies := (rfl)
@[simp] theorem State.emit_files (o : Output) : (s.emit o).files = s.files := (rfl)
@[simp] theorem State.emit_nextPcie (o : Output) : (s.emit o).nextPcie = s.nextPcie := (rfl)
@[simp] theorem State.emit_fns (o : Output) : (s.emit o).fns = s.fns := (rfl)
@[simp] theorem State.emit_numVfs (o : Output) : (s.emit o).numVfs = s.numVfs := (rfl)
@[simp] theorem State.emit_cfgSpace (o : Output) : (s.emit o).cfgSpace = s.cfgSpace := (rfl)
@[simp] theorem State.emit_cfg (o : Output) : (s.emit o).cfg = s.cfg := (rfl)
@[simp] theorem State.emit_stks (o : Output) : (s.emit o).stks = s.stks := (rfl)
@[simp] theorem State.emit_lines (o : Output) : (s.emit o).lines = s.lines := (rfl)
@[simp] theorem State.emit_llmOps (o : Output) : (s.emit o).llmOps = s.llmOps := (rfl)
@[simp] theorem State.emit_tiers (o : Output) : (s.emit o).tiers = s.tiers := (rfl)
@[simp] theorem State.emit_coll (o : Output) : (s.emit o).coll = s.coll := (rfl)
@[simp] theorem State.emit_fw (o : Output) : (s.emit o).fw = s.fw := (rfl)
@[simp] theorem State.emit_flt (o : Output) : (s.emit o).flt = s.flt := (rfl)
@[simp] theorem State.emit_pwr (o : Output) : (s.emit o).pwr = s.pwr := (rfl)
@[simp] theorem State.emit_pace (o : Output) : (s.emit o).pace = s.pace := (rfl)
@[simp] theorem State.emit_phase (o : Output) : (s.emit o).phase = s.phase := (rfl)
@[simp] theorem State.emit_pins (o : Output) : (s.emit o).pins = s.pins := (rfl)
@[simp] theorem State.emit_recorded (o : Output) : (s.emit o).recorded = s.recorded := (rfl)
@[simp] theorem State.emit_free (o : Output) : (s.emit o).free = s.free := (rfl)
@[simp] theorem State.emit_pending (o : Output) : (s.emit o).pending = s.pending := (rfl)
@[simp] theorem State.emit_rd (o : Output) (k : Nat) : (s.emit o).rd k = s.rd k := (rfl)
@[simp] theorem State.emit_get (o : Output) (g : Fld) : (s.emit o).get g = s.get g := (rfl)
@[simp] theorem State.emit_now (o : Output) : (s.emit o).now = s.now := (rfl)
@[simp] theorem State.emit_byte (o : Output) (sp' : Space) (a' : Nat) : (s.emit o).byte sp' a' = s.byte sp' a' := (rfl)
@[simp] theorem State.emit_sealOf (o : Output) (sp' : Space) (a' : Nat) : (s.emit o).sealOf sp' a' = s.sealOf sp' a' := (rfl)
@[simp] theorem State.emit_ctx (o : Output) (k' : Nat) : (s.emit o).ctx k' = s.ctx k' := (rfl)
@[simp] theorem State.emit_tile (o : Output) (k' : Nat) : (s.emit o).tile k' = s.tile k' := (rfl)
@[simp] theorem State.emit_commit (o : Output) (k' : Nat) : (s.emit o).commit k' = s.commit k' := (rfl)
@[simp] theorem State.emit_port (o : Output) (k' : Nat) : (s.emit o).port k' = s.port k' := (rfl)
@[simp] theorem State.emit_fn (o : Output) (k' : Nat) : (s.emit o).fn k' = s.fn k' := (rfl)
@[simp] theorem State.emit_stk (o : Output) (k' : Nat) : (s.emit o).stk k' = s.stk k' := (rfl)
@[simp] theorem State.emit_queue (o : Output) (q' : QueueId) : (s.emit o).queue q' = s.queue q' := (rfl)
@[simp] theorem State.emit_wlist (o : Output) (p' w' : Nat) : (s.emit o).wlist p' w' = s.wlist p' w' := (rfl)

/-! ## `emits` -/

@[simp] theorem State.emits_regs (os : List Output) : (s.emits os).regs = s.regs := (rfl)
@[simp] theorem State.emits_mem (os : List Output) : (s.emits os).mem = s.mem := (rfl)
@[simp] theorem State.emits_seals (os : List Output) : (s.emits os).seals = s.seals := (rfl)
@[simp] theorem State.emits_eph (os : List Output) : (s.emits os).eph = s.eph := (rfl)
@[simp] theorem State.emits_ecl (os : List Output) : (s.emits os).ecl = s.ecl := (rfl)
@[simp] theorem State.emits_jtag (os : List Output) : (s.emits os).jtag = s.jtag := (rfl)
@[simp] theorem State.emits_ctxs (os : List Output) : (s.emits os).ctxs = s.ctxs := (rfl)
@[simp] theorem State.emits_queues (os : List Output) : (s.emits os).queues = s.queues := (rfl)
@[simp] theorem State.emits_tiles (os : List Output) : (s.emits os).tiles = s.tiles := (rfl)
@[simp] theorem State.emits_lists (os : List Output) : (s.emits os).lists = s.lists := (rfl)
@[simp] theorem State.emits_waits (os : List Output) : (s.emits os).waits = s.waits := (rfl)
@[simp] theorem State.emits_feeds (os : List Output) : (s.emits os).feeds = s.feeds := (rfl)
@[simp] theorem State.emits_barriers (os : List Output) : (s.emits os).barriers = s.barriers := (rfl)
@[simp] theorem State.emits_journal (os : List Output) : (s.emits os).journal = s.journal := (rfl)
@[simp] theorem State.emits_tables (os : List Output) : (s.emits os).tables = s.tables := (rfl)
@[simp] theorem State.emits_haloOps (os : List Output) : (s.emits os).haloOps = s.haloOps := (rfl)
@[simp] theorem State.emits_fetched (os : List Output) : (s.emits os).fetched = s.fetched := (rfl)
@[simp] theorem State.emits_shards (os : List Output) : (s.emits os).shards = s.shards := (rfl)
@[simp] theorem State.emits_orrOps (os : List Output) : (s.emits os).orrOps = s.orrOps := (rfl)
@[simp] theorem State.emits_commits (os : List Output) : (s.emits os).commits = s.commits := (rfl)
@[simp] theorem State.emits_ports (os : List Output) : (s.emits os).ports = s.ports := (rfl)
@[simp] theorem State.emits_xreqs (os : List Output) : (s.emits os).xreqs = s.xreqs := (rfl)
@[simp] theorem State.emits_txns (os : List Output) : (s.emits os).txns = s.txns := (rfl)
@[simp] theorem State.emits_seenGen (os : List Output) : (s.emits os).seenGen = s.seenGen := (rfl)
@[simp] theorem State.emits_delivered (os : List Output) : (s.emits os).delivered = s.delivered := (rfl)
@[simp] theorem State.emits_spray (os : List Output) : (s.emits os).spray = s.spray := (rfl)
@[simp] theorem State.emits_const (os : List Output) : (s.emits os).const = s.const := (rfl)
@[simp] theorem State.emits_pcie (os : List Output) : (s.emits os).pcie = s.pcie := (rfl)
@[simp] theorem State.emits_copies (os : List Output) : (s.emits os).copies = s.copies := (rfl)
@[simp] theorem State.emits_files (os : List Output) : (s.emits os).files = s.files := (rfl)
@[simp] theorem State.emits_nextPcie (os : List Output) : (s.emits os).nextPcie = s.nextPcie := (rfl)
@[simp] theorem State.emits_fns (os : List Output) : (s.emits os).fns = s.fns := (rfl)
@[simp] theorem State.emits_numVfs (os : List Output) : (s.emits os).numVfs = s.numVfs := (rfl)
@[simp] theorem State.emits_cfgSpace (os : List Output) : (s.emits os).cfgSpace = s.cfgSpace := (rfl)
@[simp] theorem State.emits_cfg (os : List Output) : (s.emits os).cfg = s.cfg := (rfl)
@[simp] theorem State.emits_stks (os : List Output) : (s.emits os).stks = s.stks := (rfl)
@[simp] theorem State.emits_lines (os : List Output) : (s.emits os).lines = s.lines := (rfl)
@[simp] theorem State.emits_llmOps (os : List Output) : (s.emits os).llmOps = s.llmOps := (rfl)
@[simp] theorem State.emits_tiers (os : List Output) : (s.emits os).tiers = s.tiers := (rfl)
@[simp] theorem State.emits_coll (os : List Output) : (s.emits os).coll = s.coll := (rfl)
@[simp] theorem State.emits_fw (os : List Output) : (s.emits os).fw = s.fw := (rfl)
@[simp] theorem State.emits_flt (os : List Output) : (s.emits os).flt = s.flt := (rfl)
@[simp] theorem State.emits_pwr (os : List Output) : (s.emits os).pwr = s.pwr := (rfl)
@[simp] theorem State.emits_pace (os : List Output) : (s.emits os).pace = s.pace := (rfl)
@[simp] theorem State.emits_phase (os : List Output) : (s.emits os).phase = s.phase := (rfl)
@[simp] theorem State.emits_pins (os : List Output) : (s.emits os).pins = s.pins := (rfl)
@[simp] theorem State.emits_recorded (os : List Output) : (s.emits os).recorded = s.recorded := (rfl)
@[simp] theorem State.emits_free (os : List Output) : (s.emits os).free = s.free := (rfl)
@[simp] theorem State.emits_pending (os : List Output) : (s.emits os).pending = s.pending := (rfl)
@[simp] theorem State.emits_rd (os : List Output) (k : Nat) : (s.emits os).rd k = s.rd k := (rfl)
@[simp] theorem State.emits_get (os : List Output) (g : Fld) : (s.emits os).get g = s.get g := (rfl)
@[simp] theorem State.emits_now (os : List Output) : (s.emits os).now = s.now := (rfl)
@[simp] theorem State.emits_byte (os : List Output) (sp' : Space) (a' : Nat) : (s.emits os).byte sp' a' = s.byte sp' a' := (rfl)
@[simp] theorem State.emits_sealOf (os : List Output) (sp' : Space) (a' : Nat) : (s.emits os).sealOf sp' a' = s.sealOf sp' a' := (rfl)
@[simp] theorem State.emits_ctx (os : List Output) (k' : Nat) : (s.emits os).ctx k' = s.ctx k' := (rfl)
@[simp] theorem State.emits_tile (os : List Output) (k' : Nat) : (s.emits os).tile k' = s.tile k' := (rfl)
@[simp] theorem State.emits_commit (os : List Output) (k' : Nat) : (s.emits os).commit k' = s.commit k' := (rfl)
@[simp] theorem State.emits_port (os : List Output) (k' : Nat) : (s.emits os).port k' = s.port k' := (rfl)
@[simp] theorem State.emits_fn (os : List Output) (k' : Nat) : (s.emits os).fn k' = s.fn k' := (rfl)
@[simp] theorem State.emits_stk (os : List Output) (k' : Nat) : (s.emits os).stk k' = s.stk k' := (rfl)
@[simp] theorem State.emits_queue (os : List Output) (q' : QueueId) : (s.emits os).queue q' = s.queue q' := (rfl)
@[simp] theorem State.emits_wlist (os : List Output) (p' w' : Nat) : (s.emits os).wlist p' w' = s.wlist p' w' := (rfl)

/-! ## `useFree` -/

@[simp] theorem State.useFree_regs  : (s.useFree).regs = s.regs := (rfl)
@[simp] theorem State.useFree_mem  : (s.useFree).mem = s.mem := (rfl)
@[simp] theorem State.useFree_seals  : (s.useFree).seals = s.seals := (rfl)
@[simp] theorem State.useFree_eph  : (s.useFree).eph = s.eph := (rfl)
@[simp] theorem State.useFree_ecl  : (s.useFree).ecl = s.ecl := (rfl)
@[simp] theorem State.useFree_jtag  : (s.useFree).jtag = s.jtag := (rfl)
@[simp] theorem State.useFree_ctxs  : (s.useFree).ctxs = s.ctxs := (rfl)
@[simp] theorem State.useFree_queues  : (s.useFree).queues = s.queues := (rfl)
@[simp] theorem State.useFree_tiles  : (s.useFree).tiles = s.tiles := (rfl)
@[simp] theorem State.useFree_lists  : (s.useFree).lists = s.lists := (rfl)
@[simp] theorem State.useFree_waits  : (s.useFree).waits = s.waits := (rfl)
@[simp] theorem State.useFree_feeds  : (s.useFree).feeds = s.feeds := (rfl)
@[simp] theorem State.useFree_barriers  : (s.useFree).barriers = s.barriers := (rfl)
@[simp] theorem State.useFree_journal  : (s.useFree).journal = s.journal := (rfl)
@[simp] theorem State.useFree_tables  : (s.useFree).tables = s.tables := (rfl)
@[simp] theorem State.useFree_haloOps  : (s.useFree).haloOps = s.haloOps := (rfl)
@[simp] theorem State.useFree_fetched  : (s.useFree).fetched = s.fetched := (rfl)
@[simp] theorem State.useFree_shards  : (s.useFree).shards = s.shards := (rfl)
@[simp] theorem State.useFree_orrOps  : (s.useFree).orrOps = s.orrOps := (rfl)
@[simp] theorem State.useFree_commits  : (s.useFree).commits = s.commits := (rfl)
@[simp] theorem State.useFree_ports  : (s.useFree).ports = s.ports := (rfl)
@[simp] theorem State.useFree_xreqs  : (s.useFree).xreqs = s.xreqs := (rfl)
@[simp] theorem State.useFree_txns  : (s.useFree).txns = s.txns := (rfl)
@[simp] theorem State.useFree_seenGen  : (s.useFree).seenGen = s.seenGen := (rfl)
@[simp] theorem State.useFree_delivered  : (s.useFree).delivered = s.delivered := (rfl)
@[simp] theorem State.useFree_spray  : (s.useFree).spray = s.spray := (rfl)
@[simp] theorem State.useFree_const  : (s.useFree).const = s.const := (rfl)
@[simp] theorem State.useFree_pcie  : (s.useFree).pcie = s.pcie := (rfl)
@[simp] theorem State.useFree_copies  : (s.useFree).copies = s.copies := (rfl)
@[simp] theorem State.useFree_files  : (s.useFree).files = s.files := (rfl)
@[simp] theorem State.useFree_nextPcie  : (s.useFree).nextPcie = s.nextPcie := (rfl)
@[simp] theorem State.useFree_fns  : (s.useFree).fns = s.fns := (rfl)
@[simp] theorem State.useFree_numVfs  : (s.useFree).numVfs = s.numVfs := (rfl)
@[simp] theorem State.useFree_cfgSpace  : (s.useFree).cfgSpace = s.cfgSpace := (rfl)
@[simp] theorem State.useFree_cfg  : (s.useFree).cfg = s.cfg := (rfl)
@[simp] theorem State.useFree_stks  : (s.useFree).stks = s.stks := (rfl)
@[simp] theorem State.useFree_lines  : (s.useFree).lines = s.lines := (rfl)
@[simp] theorem State.useFree_llmOps  : (s.useFree).llmOps = s.llmOps := (rfl)
@[simp] theorem State.useFree_tiers  : (s.useFree).tiers = s.tiers := (rfl)
@[simp] theorem State.useFree_coll  : (s.useFree).coll = s.coll := (rfl)
@[simp] theorem State.useFree_fw  : (s.useFree).fw = s.fw := (rfl)
@[simp] theorem State.useFree_flt  : (s.useFree).flt = s.flt := (rfl)
@[simp] theorem State.useFree_pwr  : (s.useFree).pwr = s.pwr := (rfl)
@[simp] theorem State.useFree_pace  : (s.useFree).pace = s.pace := (rfl)
@[simp] theorem State.useFree_phase  : (s.useFree).phase = s.phase := (rfl)
@[simp] theorem State.useFree_pins  : (s.useFree).pins = s.pins := (rfl)
@[simp] theorem State.useFree_recorded  : (s.useFree).recorded = s.recorded := (rfl)
@[simp] theorem State.useFree_out  : (s.useFree).out = s.out := (rfl)
@[simp] theorem State.useFree_pending  : (s.useFree).pending = s.pending := (rfl)
@[simp] theorem State.useFree_rd  (k : Nat) : (s.useFree).rd k = s.rd k := (rfl)
@[simp] theorem State.useFree_get  (g : Fld) : (s.useFree).get g = s.get g := (rfl)
@[simp] theorem State.useFree_now  : (s.useFree).now = s.now := (rfl)
@[simp] theorem State.useFree_byte  (sp' : Space) (a' : Nat) : (s.useFree).byte sp' a' = s.byte sp' a' := (rfl)
@[simp] theorem State.useFree_sealOf  (sp' : Space) (a' : Nat) : (s.useFree).sealOf sp' a' = s.sealOf sp' a' := (rfl)
@[simp] theorem State.useFree_ctx  (k' : Nat) : (s.useFree).ctx k' = s.ctx k' := (rfl)
@[simp] theorem State.useFree_tile  (k' : Nat) : (s.useFree).tile k' = s.tile k' := (rfl)
@[simp] theorem State.useFree_commit  (k' : Nat) : (s.useFree).commit k' = s.commit k' := (rfl)
@[simp] theorem State.useFree_port  (k' : Nat) : (s.useFree).port k' = s.port k' := (rfl)
@[simp] theorem State.useFree_fn  (k' : Nat) : (s.useFree).fn k' = s.fn k' := (rfl)
@[simp] theorem State.useFree_stk  (k' : Nat) : (s.useFree).stk k' = s.stk k' := (rfl)
@[simp] theorem State.useFree_queue  (q' : QueueId) : (s.useFree).queue q' = s.queue q' := (rfl)
@[simp] theorem State.useFree_wlist  (p' w' : Nat) : (s.useFree).wlist p' w' = s.wlist p' w' := (rfl)

/-! ## `setBytes` -/

@[simp] theorem State.setBytes_regs (sp : Space) (a : Nat) (bs : List Byte) : (s.setBytes sp a bs).regs = s.regs := (rfl)
@[simp] theorem State.setBytes_seals (sp : Space) (a : Nat) (bs : List Byte) : (s.setBytes sp a bs).seals = s.seals := (rfl)
@[simp] theorem State.setBytes_eph (sp : Space) (a : Nat) (bs : List Byte) : (s.setBytes sp a bs).eph = s.eph := (rfl)
@[simp] theorem State.setBytes_ecl (sp : Space) (a : Nat) (bs : List Byte) : (s.setBytes sp a bs).ecl = s.ecl := (rfl)
@[simp] theorem State.setBytes_jtag (sp : Space) (a : Nat) (bs : List Byte) : (s.setBytes sp a bs).jtag = s.jtag := (rfl)
@[simp] theorem State.setBytes_ctxs (sp : Space) (a : Nat) (bs : List Byte) : (s.setBytes sp a bs).ctxs = s.ctxs := (rfl)
@[simp] theorem State.setBytes_queues (sp : Space) (a : Nat) (bs : List Byte) : (s.setBytes sp a bs).queues = s.queues := (rfl)
@[simp] theorem State.setBytes_tiles (sp : Space) (a : Nat) (bs : List Byte) : (s.setBytes sp a bs).tiles = s.tiles := (rfl)
@[simp] theorem State.setBytes_lists (sp : Space) (a : Nat) (bs : List Byte) : (s.setBytes sp a bs).lists = s.lists := (rfl)
@[simp] theorem State.setBytes_waits (sp : Space) (a : Nat) (bs : List Byte) : (s.setBytes sp a bs).waits = s.waits := (rfl)
@[simp] theorem State.setBytes_feeds (sp : Space) (a : Nat) (bs : List Byte) : (s.setBytes sp a bs).feeds = s.feeds := (rfl)
@[simp] theorem State.setBytes_barriers (sp : Space) (a : Nat) (bs : List Byte) : (s.setBytes sp a bs).barriers = s.barriers := (rfl)
@[simp] theorem State.setBytes_journal (sp : Space) (a : Nat) (bs : List Byte) : (s.setBytes sp a bs).journal = s.journal := (rfl)
@[simp] theorem State.setBytes_tables (sp : Space) (a : Nat) (bs : List Byte) : (s.setBytes sp a bs).tables = s.tables := (rfl)
@[simp] theorem State.setBytes_haloOps (sp : Space) (a : Nat) (bs : List Byte) : (s.setBytes sp a bs).haloOps = s.haloOps := (rfl)
@[simp] theorem State.setBytes_fetched (sp : Space) (a : Nat) (bs : List Byte) : (s.setBytes sp a bs).fetched = s.fetched := (rfl)
@[simp] theorem State.setBytes_shards (sp : Space) (a : Nat) (bs : List Byte) : (s.setBytes sp a bs).shards = s.shards := (rfl)
@[simp] theorem State.setBytes_orrOps (sp : Space) (a : Nat) (bs : List Byte) : (s.setBytes sp a bs).orrOps = s.orrOps := (rfl)
@[simp] theorem State.setBytes_commits (sp : Space) (a : Nat) (bs : List Byte) : (s.setBytes sp a bs).commits = s.commits := (rfl)
@[simp] theorem State.setBytes_ports (sp : Space) (a : Nat) (bs : List Byte) : (s.setBytes sp a bs).ports = s.ports := (rfl)
@[simp] theorem State.setBytes_xreqs (sp : Space) (a : Nat) (bs : List Byte) : (s.setBytes sp a bs).xreqs = s.xreqs := (rfl)
@[simp] theorem State.setBytes_txns (sp : Space) (a : Nat) (bs : List Byte) : (s.setBytes sp a bs).txns = s.txns := (rfl)
@[simp] theorem State.setBytes_seenGen (sp : Space) (a : Nat) (bs : List Byte) : (s.setBytes sp a bs).seenGen = s.seenGen := (rfl)
@[simp] theorem State.setBytes_delivered (sp : Space) (a : Nat) (bs : List Byte) : (s.setBytes sp a bs).delivered = s.delivered := (rfl)
@[simp] theorem State.setBytes_spray (sp : Space) (a : Nat) (bs : List Byte) : (s.setBytes sp a bs).spray = s.spray := (rfl)
@[simp] theorem State.setBytes_const (sp : Space) (a : Nat) (bs : List Byte) : (s.setBytes sp a bs).const = s.const := (rfl)
@[simp] theorem State.setBytes_pcie (sp : Space) (a : Nat) (bs : List Byte) : (s.setBytes sp a bs).pcie = s.pcie := (rfl)
@[simp] theorem State.setBytes_copies (sp : Space) (a : Nat) (bs : List Byte) : (s.setBytes sp a bs).copies = s.copies := (rfl)
@[simp] theorem State.setBytes_files (sp : Space) (a : Nat) (bs : List Byte) : (s.setBytes sp a bs).files = s.files := (rfl)
@[simp] theorem State.setBytes_nextPcie (sp : Space) (a : Nat) (bs : List Byte) : (s.setBytes sp a bs).nextPcie = s.nextPcie := (rfl)
@[simp] theorem State.setBytes_fns (sp : Space) (a : Nat) (bs : List Byte) : (s.setBytes sp a bs).fns = s.fns := (rfl)
@[simp] theorem State.setBytes_numVfs (sp : Space) (a : Nat) (bs : List Byte) : (s.setBytes sp a bs).numVfs = s.numVfs := (rfl)
@[simp] theorem State.setBytes_cfgSpace (sp : Space) (a : Nat) (bs : List Byte) : (s.setBytes sp a bs).cfgSpace = s.cfgSpace := (rfl)
@[simp] theorem State.setBytes_cfg (sp : Space) (a : Nat) (bs : List Byte) : (s.setBytes sp a bs).cfg = s.cfg := (rfl)
@[simp] theorem State.setBytes_stks (sp : Space) (a : Nat) (bs : List Byte) : (s.setBytes sp a bs).stks = s.stks := (rfl)
@[simp] theorem State.setBytes_lines (sp : Space) (a : Nat) (bs : List Byte) : (s.setBytes sp a bs).lines = s.lines := (rfl)
@[simp] theorem State.setBytes_llmOps (sp : Space) (a : Nat) (bs : List Byte) : (s.setBytes sp a bs).llmOps = s.llmOps := (rfl)
@[simp] theorem State.setBytes_tiers (sp : Space) (a : Nat) (bs : List Byte) : (s.setBytes sp a bs).tiers = s.tiers := (rfl)
@[simp] theorem State.setBytes_coll (sp : Space) (a : Nat) (bs : List Byte) : (s.setBytes sp a bs).coll = s.coll := (rfl)
@[simp] theorem State.setBytes_fw (sp : Space) (a : Nat) (bs : List Byte) : (s.setBytes sp a bs).fw = s.fw := (rfl)
@[simp] theorem State.setBytes_flt (sp : Space) (a : Nat) (bs : List Byte) : (s.setBytes sp a bs).flt = s.flt := (rfl)
@[simp] theorem State.setBytes_pwr (sp : Space) (a : Nat) (bs : List Byte) : (s.setBytes sp a bs).pwr = s.pwr := (rfl)
@[simp] theorem State.setBytes_pace (sp : Space) (a : Nat) (bs : List Byte) : (s.setBytes sp a bs).pace = s.pace := (rfl)
@[simp] theorem State.setBytes_phase (sp : Space) (a : Nat) (bs : List Byte) : (s.setBytes sp a bs).phase = s.phase := (rfl)
@[simp] theorem State.setBytes_pins (sp : Space) (a : Nat) (bs : List Byte) : (s.setBytes sp a bs).pins = s.pins := (rfl)
@[simp] theorem State.setBytes_recorded (sp : Space) (a : Nat) (bs : List Byte) : (s.setBytes sp a bs).recorded = s.recorded := (rfl)
@[simp] theorem State.setBytes_free (sp : Space) (a : Nat) (bs : List Byte) : (s.setBytes sp a bs).free = s.free := (rfl)
@[simp] theorem State.setBytes_out (sp : Space) (a : Nat) (bs : List Byte) : (s.setBytes sp a bs).out = s.out := (rfl)
@[simp] theorem State.setBytes_pending (sp : Space) (a : Nat) (bs : List Byte) : (s.setBytes sp a bs).pending = s.pending := (rfl)
@[simp] theorem State.setBytes_rd (sp : Space) (a : Nat) (bs : List Byte) (k : Nat) : (s.setBytes sp a bs).rd k = s.rd k := (rfl)
@[simp] theorem State.setBytes_get (sp : Space) (a : Nat) (bs : List Byte) (g : Fld) : (s.setBytes sp a bs).get g = s.get g := (rfl)
@[simp] theorem State.setBytes_now (sp : Space) (a : Nat) (bs : List Byte) : (s.setBytes sp a bs).now = s.now := (rfl)
@[simp] theorem State.setBytes_sealOf (sp : Space) (a : Nat) (bs : List Byte) (sp' : Space) (a' : Nat) : (s.setBytes sp a bs).sealOf sp' a' = s.sealOf sp' a' := (rfl)
@[simp] theorem State.setBytes_ctx (sp : Space) (a : Nat) (bs : List Byte) (k' : Nat) : (s.setBytes sp a bs).ctx k' = s.ctx k' := (rfl)
@[simp] theorem State.setBytes_tile (sp : Space) (a : Nat) (bs : List Byte) (k' : Nat) : (s.setBytes sp a bs).tile k' = s.tile k' := (rfl)
@[simp] theorem State.setBytes_commit (sp : Space) (a : Nat) (bs : List Byte) (k' : Nat) : (s.setBytes sp a bs).commit k' = s.commit k' := (rfl)
@[simp] theorem State.setBytes_port (sp : Space) (a : Nat) (bs : List Byte) (k' : Nat) : (s.setBytes sp a bs).port k' = s.port k' := (rfl)
@[simp] theorem State.setBytes_fn (sp : Space) (a : Nat) (bs : List Byte) (k' : Nat) : (s.setBytes sp a bs).fn k' = s.fn k' := (rfl)
@[simp] theorem State.setBytes_stk (sp : Space) (a : Nat) (bs : List Byte) (k' : Nat) : (s.setBytes sp a bs).stk k' = s.stk k' := (rfl)
@[simp] theorem State.setBytes_queue (sp : Space) (a : Nat) (bs : List Byte) (q' : QueueId) : (s.setBytes sp a bs).queue q' = s.queue q' := (rfl)
@[simp] theorem State.setBytes_wlist (sp : Space) (a : Nat) (bs : List Byte) (p' w' : Nat) : (s.setBytes sp a bs).wlist p' w' = s.wlist p' w' := (rfl)

/-! ## `setSeal` -/

@[simp] theorem State.setSeal_regs (sp : Space) (a : Nat) (x : Seal) : (s.setSeal sp a x).regs = s.regs := (rfl)
@[simp] theorem State.setSeal_mem (sp : Space) (a : Nat) (x : Seal) : (s.setSeal sp a x).mem = s.mem := (rfl)
@[simp] theorem State.setSeal_eph (sp : Space) (a : Nat) (x : Seal) : (s.setSeal sp a x).eph = s.eph := (rfl)
@[simp] theorem State.setSeal_ecl (sp : Space) (a : Nat) (x : Seal) : (s.setSeal sp a x).ecl = s.ecl := (rfl)
@[simp] theorem State.setSeal_jtag (sp : Space) (a : Nat) (x : Seal) : (s.setSeal sp a x).jtag = s.jtag := (rfl)
@[simp] theorem State.setSeal_ctxs (sp : Space) (a : Nat) (x : Seal) : (s.setSeal sp a x).ctxs = s.ctxs := (rfl)
@[simp] theorem State.setSeal_queues (sp : Space) (a : Nat) (x : Seal) : (s.setSeal sp a x).queues = s.queues := (rfl)
@[simp] theorem State.setSeal_tiles (sp : Space) (a : Nat) (x : Seal) : (s.setSeal sp a x).tiles = s.tiles := (rfl)
@[simp] theorem State.setSeal_lists (sp : Space) (a : Nat) (x : Seal) : (s.setSeal sp a x).lists = s.lists := (rfl)
@[simp] theorem State.setSeal_waits (sp : Space) (a : Nat) (x : Seal) : (s.setSeal sp a x).waits = s.waits := (rfl)
@[simp] theorem State.setSeal_feeds (sp : Space) (a : Nat) (x : Seal) : (s.setSeal sp a x).feeds = s.feeds := (rfl)
@[simp] theorem State.setSeal_barriers (sp : Space) (a : Nat) (x : Seal) : (s.setSeal sp a x).barriers = s.barriers := (rfl)
@[simp] theorem State.setSeal_journal (sp : Space) (a : Nat) (x : Seal) : (s.setSeal sp a x).journal = s.journal := (rfl)
@[simp] theorem State.setSeal_tables (sp : Space) (a : Nat) (x : Seal) : (s.setSeal sp a x).tables = s.tables := (rfl)
@[simp] theorem State.setSeal_haloOps (sp : Space) (a : Nat) (x : Seal) : (s.setSeal sp a x).haloOps = s.haloOps := (rfl)
@[simp] theorem State.setSeal_fetched (sp : Space) (a : Nat) (x : Seal) : (s.setSeal sp a x).fetched = s.fetched := (rfl)
@[simp] theorem State.setSeal_shards (sp : Space) (a : Nat) (x : Seal) : (s.setSeal sp a x).shards = s.shards := (rfl)
@[simp] theorem State.setSeal_orrOps (sp : Space) (a : Nat) (x : Seal) : (s.setSeal sp a x).orrOps = s.orrOps := (rfl)
@[simp] theorem State.setSeal_commits (sp : Space) (a : Nat) (x : Seal) : (s.setSeal sp a x).commits = s.commits := (rfl)
@[simp] theorem State.setSeal_ports (sp : Space) (a : Nat) (x : Seal) : (s.setSeal sp a x).ports = s.ports := (rfl)
@[simp] theorem State.setSeal_xreqs (sp : Space) (a : Nat) (x : Seal) : (s.setSeal sp a x).xreqs = s.xreqs := (rfl)
@[simp] theorem State.setSeal_txns (sp : Space) (a : Nat) (x : Seal) : (s.setSeal sp a x).txns = s.txns := (rfl)
@[simp] theorem State.setSeal_seenGen (sp : Space) (a : Nat) (x : Seal) : (s.setSeal sp a x).seenGen = s.seenGen := (rfl)
@[simp] theorem State.setSeal_delivered (sp : Space) (a : Nat) (x : Seal) : (s.setSeal sp a x).delivered = s.delivered := (rfl)
@[simp] theorem State.setSeal_spray (sp : Space) (a : Nat) (x : Seal) : (s.setSeal sp a x).spray = s.spray := (rfl)
@[simp] theorem State.setSeal_const (sp : Space) (a : Nat) (x : Seal) : (s.setSeal sp a x).const = s.const := (rfl)
@[simp] theorem State.setSeal_pcie (sp : Space) (a : Nat) (x : Seal) : (s.setSeal sp a x).pcie = s.pcie := (rfl)
@[simp] theorem State.setSeal_copies (sp : Space) (a : Nat) (x : Seal) : (s.setSeal sp a x).copies = s.copies := (rfl)
@[simp] theorem State.setSeal_files (sp : Space) (a : Nat) (x : Seal) : (s.setSeal sp a x).files = s.files := (rfl)
@[simp] theorem State.setSeal_nextPcie (sp : Space) (a : Nat) (x : Seal) : (s.setSeal sp a x).nextPcie = s.nextPcie := (rfl)
@[simp] theorem State.setSeal_fns (sp : Space) (a : Nat) (x : Seal) : (s.setSeal sp a x).fns = s.fns := (rfl)
@[simp] theorem State.setSeal_numVfs (sp : Space) (a : Nat) (x : Seal) : (s.setSeal sp a x).numVfs = s.numVfs := (rfl)
@[simp] theorem State.setSeal_cfgSpace (sp : Space) (a : Nat) (x : Seal) : (s.setSeal sp a x).cfgSpace = s.cfgSpace := (rfl)
@[simp] theorem State.setSeal_cfg (sp : Space) (a : Nat) (x : Seal) : (s.setSeal sp a x).cfg = s.cfg := (rfl)
@[simp] theorem State.setSeal_stks (sp : Space) (a : Nat) (x : Seal) : (s.setSeal sp a x).stks = s.stks := (rfl)
@[simp] theorem State.setSeal_lines (sp : Space) (a : Nat) (x : Seal) : (s.setSeal sp a x).lines = s.lines := (rfl)
@[simp] theorem State.setSeal_llmOps (sp : Space) (a : Nat) (x : Seal) : (s.setSeal sp a x).llmOps = s.llmOps := (rfl)
@[simp] theorem State.setSeal_tiers (sp : Space) (a : Nat) (x : Seal) : (s.setSeal sp a x).tiers = s.tiers := (rfl)
@[simp] theorem State.setSeal_coll (sp : Space) (a : Nat) (x : Seal) : (s.setSeal sp a x).coll = s.coll := (rfl)
@[simp] theorem State.setSeal_fw (sp : Space) (a : Nat) (x : Seal) : (s.setSeal sp a x).fw = s.fw := (rfl)
@[simp] theorem State.setSeal_flt (sp : Space) (a : Nat) (x : Seal) : (s.setSeal sp a x).flt = s.flt := (rfl)
@[simp] theorem State.setSeal_pwr (sp : Space) (a : Nat) (x : Seal) : (s.setSeal sp a x).pwr = s.pwr := (rfl)
@[simp] theorem State.setSeal_pace (sp : Space) (a : Nat) (x : Seal) : (s.setSeal sp a x).pace = s.pace := (rfl)
@[simp] theorem State.setSeal_phase (sp : Space) (a : Nat) (x : Seal) : (s.setSeal sp a x).phase = s.phase := (rfl)
@[simp] theorem State.setSeal_pins (sp : Space) (a : Nat) (x : Seal) : (s.setSeal sp a x).pins = s.pins := (rfl)
@[simp] theorem State.setSeal_recorded (sp : Space) (a : Nat) (x : Seal) : (s.setSeal sp a x).recorded = s.recorded := (rfl)
@[simp] theorem State.setSeal_free (sp : Space) (a : Nat) (x : Seal) : (s.setSeal sp a x).free = s.free := (rfl)
@[simp] theorem State.setSeal_out (sp : Space) (a : Nat) (x : Seal) : (s.setSeal sp a x).out = s.out := (rfl)
@[simp] theorem State.setSeal_pending (sp : Space) (a : Nat) (x : Seal) : (s.setSeal sp a x).pending = s.pending := (rfl)
@[simp] theorem State.setSeal_rd (sp : Space) (a : Nat) (x : Seal) (k : Nat) : (s.setSeal sp a x).rd k = s.rd k := (rfl)
@[simp] theorem State.setSeal_get (sp : Space) (a : Nat) (x : Seal) (g : Fld) : (s.setSeal sp a x).get g = s.get g := (rfl)
@[simp] theorem State.setSeal_now (sp : Space) (a : Nat) (x : Seal) : (s.setSeal sp a x).now = s.now := (rfl)
@[simp] theorem State.setSeal_byte (sp : Space) (a : Nat) (x : Seal) (sp' : Space) (a' : Nat) : (s.setSeal sp a x).byte sp' a' = s.byte sp' a' := (rfl)
@[simp] theorem State.setSeal_ctx (sp : Space) (a : Nat) (x : Seal) (k' : Nat) : (s.setSeal sp a x).ctx k' = s.ctx k' := (rfl)
@[simp] theorem State.setSeal_tile (sp : Space) (a : Nat) (x : Seal) (k' : Nat) : (s.setSeal sp a x).tile k' = s.tile k' := (rfl)
@[simp] theorem State.setSeal_commit (sp : Space) (a : Nat) (x : Seal) (k' : Nat) : (s.setSeal sp a x).commit k' = s.commit k' := (rfl)
@[simp] theorem State.setSeal_port (sp : Space) (a : Nat) (x : Seal) (k' : Nat) : (s.setSeal sp a x).port k' = s.port k' := (rfl)
@[simp] theorem State.setSeal_fn (sp : Space) (a : Nat) (x : Seal) (k' : Nat) : (s.setSeal sp a x).fn k' = s.fn k' := (rfl)
@[simp] theorem State.setSeal_stk (sp : Space) (a : Nat) (x : Seal) (k' : Nat) : (s.setSeal sp a x).stk k' = s.stk k' := (rfl)
@[simp] theorem State.setSeal_queue (sp : Space) (a : Nat) (x : Seal) (q' : QueueId) : (s.setSeal sp a x).queue q' = s.queue q' := (rfl)
@[simp] theorem State.setSeal_wlist (sp : Space) (a : Nat) (x : Seal) (p' w' : Nat) : (s.setSeal sp a x).wlist p' w' = s.wlist p' w' := (rfl)

/-! ## `setCtx` -/

@[simp] theorem State.setCtx_regs (n : Nat) (x : CtxData) : (s.setCtx n x).regs = s.regs := (rfl)
@[simp] theorem State.setCtx_mem (n : Nat) (x : CtxData) : (s.setCtx n x).mem = s.mem := (rfl)
@[simp] theorem State.setCtx_seals (n : Nat) (x : CtxData) : (s.setCtx n x).seals = s.seals := (rfl)
@[simp] theorem State.setCtx_eph (n : Nat) (x : CtxData) : (s.setCtx n x).eph = s.eph := (rfl)
@[simp] theorem State.setCtx_ecl (n : Nat) (x : CtxData) : (s.setCtx n x).ecl = s.ecl := (rfl)
@[simp] theorem State.setCtx_jtag (n : Nat) (x : CtxData) : (s.setCtx n x).jtag = s.jtag := (rfl)
@[simp] theorem State.setCtx_queues (n : Nat) (x : CtxData) : (s.setCtx n x).queues = s.queues := (rfl)
@[simp] theorem State.setCtx_tiles (n : Nat) (x : CtxData) : (s.setCtx n x).tiles = s.tiles := (rfl)
@[simp] theorem State.setCtx_lists (n : Nat) (x : CtxData) : (s.setCtx n x).lists = s.lists := (rfl)
@[simp] theorem State.setCtx_waits (n : Nat) (x : CtxData) : (s.setCtx n x).waits = s.waits := (rfl)
@[simp] theorem State.setCtx_feeds (n : Nat) (x : CtxData) : (s.setCtx n x).feeds = s.feeds := (rfl)
@[simp] theorem State.setCtx_barriers (n : Nat) (x : CtxData) : (s.setCtx n x).barriers = s.barriers := (rfl)
@[simp] theorem State.setCtx_journal (n : Nat) (x : CtxData) : (s.setCtx n x).journal = s.journal := (rfl)
@[simp] theorem State.setCtx_tables (n : Nat) (x : CtxData) : (s.setCtx n x).tables = s.tables := (rfl)
@[simp] theorem State.setCtx_haloOps (n : Nat) (x : CtxData) : (s.setCtx n x).haloOps = s.haloOps := (rfl)
@[simp] theorem State.setCtx_fetched (n : Nat) (x : CtxData) : (s.setCtx n x).fetched = s.fetched := (rfl)
@[simp] theorem State.setCtx_shards (n : Nat) (x : CtxData) : (s.setCtx n x).shards = s.shards := (rfl)
@[simp] theorem State.setCtx_orrOps (n : Nat) (x : CtxData) : (s.setCtx n x).orrOps = s.orrOps := (rfl)
@[simp] theorem State.setCtx_commits (n : Nat) (x : CtxData) : (s.setCtx n x).commits = s.commits := (rfl)
@[simp] theorem State.setCtx_ports (n : Nat) (x : CtxData) : (s.setCtx n x).ports = s.ports := (rfl)
@[simp] theorem State.setCtx_xreqs (n : Nat) (x : CtxData) : (s.setCtx n x).xreqs = s.xreqs := (rfl)
@[simp] theorem State.setCtx_txns (n : Nat) (x : CtxData) : (s.setCtx n x).txns = s.txns := (rfl)
@[simp] theorem State.setCtx_seenGen (n : Nat) (x : CtxData) : (s.setCtx n x).seenGen = s.seenGen := (rfl)
@[simp] theorem State.setCtx_delivered (n : Nat) (x : CtxData) : (s.setCtx n x).delivered = s.delivered := (rfl)
@[simp] theorem State.setCtx_spray (n : Nat) (x : CtxData) : (s.setCtx n x).spray = s.spray := (rfl)
@[simp] theorem State.setCtx_const (n : Nat) (x : CtxData) : (s.setCtx n x).const = s.const := (rfl)
@[simp] theorem State.setCtx_pcie (n : Nat) (x : CtxData) : (s.setCtx n x).pcie = s.pcie := (rfl)
@[simp] theorem State.setCtx_copies (n : Nat) (x : CtxData) : (s.setCtx n x).copies = s.copies := (rfl)
@[simp] theorem State.setCtx_files (n : Nat) (x : CtxData) : (s.setCtx n x).files = s.files := (rfl)
@[simp] theorem State.setCtx_nextPcie (n : Nat) (x : CtxData) : (s.setCtx n x).nextPcie = s.nextPcie := (rfl)
@[simp] theorem State.setCtx_fns (n : Nat) (x : CtxData) : (s.setCtx n x).fns = s.fns := (rfl)
@[simp] theorem State.setCtx_numVfs (n : Nat) (x : CtxData) : (s.setCtx n x).numVfs = s.numVfs := (rfl)
@[simp] theorem State.setCtx_cfgSpace (n : Nat) (x : CtxData) : (s.setCtx n x).cfgSpace = s.cfgSpace := (rfl)
@[simp] theorem State.setCtx_cfg (n : Nat) (x : CtxData) : (s.setCtx n x).cfg = s.cfg := (rfl)
@[simp] theorem State.setCtx_stks (n : Nat) (x : CtxData) : (s.setCtx n x).stks = s.stks := (rfl)
@[simp] theorem State.setCtx_lines (n : Nat) (x : CtxData) : (s.setCtx n x).lines = s.lines := (rfl)
@[simp] theorem State.setCtx_llmOps (n : Nat) (x : CtxData) : (s.setCtx n x).llmOps = s.llmOps := (rfl)
@[simp] theorem State.setCtx_tiers (n : Nat) (x : CtxData) : (s.setCtx n x).tiers = s.tiers := (rfl)
@[simp] theorem State.setCtx_coll (n : Nat) (x : CtxData) : (s.setCtx n x).coll = s.coll := (rfl)
@[simp] theorem State.setCtx_fw (n : Nat) (x : CtxData) : (s.setCtx n x).fw = s.fw := (rfl)
@[simp] theorem State.setCtx_flt (n : Nat) (x : CtxData) : (s.setCtx n x).flt = s.flt := (rfl)
@[simp] theorem State.setCtx_pwr (n : Nat) (x : CtxData) : (s.setCtx n x).pwr = s.pwr := (rfl)
@[simp] theorem State.setCtx_pace (n : Nat) (x : CtxData) : (s.setCtx n x).pace = s.pace := (rfl)
@[simp] theorem State.setCtx_phase (n : Nat) (x : CtxData) : (s.setCtx n x).phase = s.phase := (rfl)
@[simp] theorem State.setCtx_pins (n : Nat) (x : CtxData) : (s.setCtx n x).pins = s.pins := (rfl)
@[simp] theorem State.setCtx_recorded (n : Nat) (x : CtxData) : (s.setCtx n x).recorded = s.recorded := (rfl)
@[simp] theorem State.setCtx_free (n : Nat) (x : CtxData) : (s.setCtx n x).free = s.free := (rfl)
@[simp] theorem State.setCtx_out (n : Nat) (x : CtxData) : (s.setCtx n x).out = s.out := (rfl)
@[simp] theorem State.setCtx_pending (n : Nat) (x : CtxData) : (s.setCtx n x).pending = s.pending := (rfl)
@[simp] theorem State.setCtx_rd (n : Nat) (x : CtxData) (k : Nat) : (s.setCtx n x).rd k = s.rd k := (rfl)
@[simp] theorem State.setCtx_get (n : Nat) (x : CtxData) (g : Fld) : (s.setCtx n x).get g = s.get g := (rfl)
@[simp] theorem State.setCtx_now (n : Nat) (x : CtxData) : (s.setCtx n x).now = s.now := (rfl)
@[simp] theorem State.setCtx_byte (n : Nat) (x : CtxData) (sp' : Space) (a' : Nat) : (s.setCtx n x).byte sp' a' = s.byte sp' a' := (rfl)
@[simp] theorem State.setCtx_sealOf (n : Nat) (x : CtxData) (sp' : Space) (a' : Nat) : (s.setCtx n x).sealOf sp' a' = s.sealOf sp' a' := (rfl)
@[simp] theorem State.setCtx_tile (n : Nat) (x : CtxData) (k' : Nat) : (s.setCtx n x).tile k' = s.tile k' := (rfl)
@[simp] theorem State.setCtx_commit (n : Nat) (x : CtxData) (k' : Nat) : (s.setCtx n x).commit k' = s.commit k' := (rfl)
@[simp] theorem State.setCtx_port (n : Nat) (x : CtxData) (k' : Nat) : (s.setCtx n x).port k' = s.port k' := (rfl)
@[simp] theorem State.setCtx_fn (n : Nat) (x : CtxData) (k' : Nat) : (s.setCtx n x).fn k' = s.fn k' := (rfl)
@[simp] theorem State.setCtx_stk (n : Nat) (x : CtxData) (k' : Nat) : (s.setCtx n x).stk k' = s.stk k' := (rfl)
@[simp] theorem State.setCtx_queue (n : Nat) (x : CtxData) (q' : QueueId) : (s.setCtx n x).queue q' = s.queue q' := (rfl)
@[simp] theorem State.setCtx_wlist (n : Nat) (x : CtxData) (p' w' : Nat) : (s.setCtx n x).wlist p' w' = s.wlist p' w' := (rfl)

/-! ## `setTile` -/

@[simp] theorem State.setTile_regs (t : Nat) (x : Tile) : (s.setTile t x).regs = s.regs := (rfl)
@[simp] theorem State.setTile_mem (t : Nat) (x : Tile) : (s.setTile t x).mem = s.mem := (rfl)
@[simp] theorem State.setTile_seals (t : Nat) (x : Tile) : (s.setTile t x).seals = s.seals := (rfl)
@[simp] theorem State.setTile_eph (t : Nat) (x : Tile) : (s.setTile t x).eph = s.eph := (rfl)
@[simp] theorem State.setTile_ecl (t : Nat) (x : Tile) : (s.setTile t x).ecl = s.ecl := (rfl)
@[simp] theorem State.setTile_jtag (t : Nat) (x : Tile) : (s.setTile t x).jtag = s.jtag := (rfl)
@[simp] theorem State.setTile_ctxs (t : Nat) (x : Tile) : (s.setTile t x).ctxs = s.ctxs := (rfl)
@[simp] theorem State.setTile_queues (t : Nat) (x : Tile) : (s.setTile t x).queues = s.queues := (rfl)
@[simp] theorem State.setTile_lists (t : Nat) (x : Tile) : (s.setTile t x).lists = s.lists := (rfl)
@[simp] theorem State.setTile_waits (t : Nat) (x : Tile) : (s.setTile t x).waits = s.waits := (rfl)
@[simp] theorem State.setTile_feeds (t : Nat) (x : Tile) : (s.setTile t x).feeds = s.feeds := (rfl)
@[simp] theorem State.setTile_barriers (t : Nat) (x : Tile) : (s.setTile t x).barriers = s.barriers := (rfl)
@[simp] theorem State.setTile_journal (t : Nat) (x : Tile) : (s.setTile t x).journal = s.journal := (rfl)
@[simp] theorem State.setTile_tables (t : Nat) (x : Tile) : (s.setTile t x).tables = s.tables := (rfl)
@[simp] theorem State.setTile_haloOps (t : Nat) (x : Tile) : (s.setTile t x).haloOps = s.haloOps := (rfl)
@[simp] theorem State.setTile_fetched (t : Nat) (x : Tile) : (s.setTile t x).fetched = s.fetched := (rfl)
@[simp] theorem State.setTile_shards (t : Nat) (x : Tile) : (s.setTile t x).shards = s.shards := (rfl)
@[simp] theorem State.setTile_orrOps (t : Nat) (x : Tile) : (s.setTile t x).orrOps = s.orrOps := (rfl)
@[simp] theorem State.setTile_commits (t : Nat) (x : Tile) : (s.setTile t x).commits = s.commits := (rfl)
@[simp] theorem State.setTile_ports (t : Nat) (x : Tile) : (s.setTile t x).ports = s.ports := (rfl)
@[simp] theorem State.setTile_xreqs (t : Nat) (x : Tile) : (s.setTile t x).xreqs = s.xreqs := (rfl)
@[simp] theorem State.setTile_txns (t : Nat) (x : Tile) : (s.setTile t x).txns = s.txns := (rfl)
@[simp] theorem State.setTile_seenGen (t : Nat) (x : Tile) : (s.setTile t x).seenGen = s.seenGen := (rfl)
@[simp] theorem State.setTile_delivered (t : Nat) (x : Tile) : (s.setTile t x).delivered = s.delivered := (rfl)
@[simp] theorem State.setTile_spray (t : Nat) (x : Tile) : (s.setTile t x).spray = s.spray := (rfl)
@[simp] theorem State.setTile_const (t : Nat) (x : Tile) : (s.setTile t x).const = s.const := (rfl)
@[simp] theorem State.setTile_pcie (t : Nat) (x : Tile) : (s.setTile t x).pcie = s.pcie := (rfl)
@[simp] theorem State.setTile_copies (t : Nat) (x : Tile) : (s.setTile t x).copies = s.copies := (rfl)
@[simp] theorem State.setTile_files (t : Nat) (x : Tile) : (s.setTile t x).files = s.files := (rfl)
@[simp] theorem State.setTile_nextPcie (t : Nat) (x : Tile) : (s.setTile t x).nextPcie = s.nextPcie := (rfl)
@[simp] theorem State.setTile_fns (t : Nat) (x : Tile) : (s.setTile t x).fns = s.fns := (rfl)
@[simp] theorem State.setTile_numVfs (t : Nat) (x : Tile) : (s.setTile t x).numVfs = s.numVfs := (rfl)
@[simp] theorem State.setTile_cfgSpace (t : Nat) (x : Tile) : (s.setTile t x).cfgSpace = s.cfgSpace := (rfl)
@[simp] theorem State.setTile_cfg (t : Nat) (x : Tile) : (s.setTile t x).cfg = s.cfg := (rfl)
@[simp] theorem State.setTile_stks (t : Nat) (x : Tile) : (s.setTile t x).stks = s.stks := (rfl)
@[simp] theorem State.setTile_lines (t : Nat) (x : Tile) : (s.setTile t x).lines = s.lines := (rfl)
@[simp] theorem State.setTile_llmOps (t : Nat) (x : Tile) : (s.setTile t x).llmOps = s.llmOps := (rfl)
@[simp] theorem State.setTile_tiers (t : Nat) (x : Tile) : (s.setTile t x).tiers = s.tiers := (rfl)
@[simp] theorem State.setTile_coll (t : Nat) (x : Tile) : (s.setTile t x).coll = s.coll := (rfl)
@[simp] theorem State.setTile_fw (t : Nat) (x : Tile) : (s.setTile t x).fw = s.fw := (rfl)
@[simp] theorem State.setTile_flt (t : Nat) (x : Tile) : (s.setTile t x).flt = s.flt := (rfl)
@[simp] theorem State.setTile_pwr (t : Nat) (x : Tile) : (s.setTile t x).pwr = s.pwr := (rfl)
@[simp] theorem State.setTile_pace (t : Nat) (x : Tile) : (s.setTile t x).pace = s.pace := (rfl)
@[simp] theorem State.setTile_phase (t : Nat) (x : Tile) : (s.setTile t x).phase = s.phase := (rfl)
@[simp] theorem State.setTile_pins (t : Nat) (x : Tile) : (s.setTile t x).pins = s.pins := (rfl)
@[simp] theorem State.setTile_recorded (t : Nat) (x : Tile) : (s.setTile t x).recorded = s.recorded := (rfl)
@[simp] theorem State.setTile_free (t : Nat) (x : Tile) : (s.setTile t x).free = s.free := (rfl)
@[simp] theorem State.setTile_out (t : Nat) (x : Tile) : (s.setTile t x).out = s.out := (rfl)
@[simp] theorem State.setTile_pending (t : Nat) (x : Tile) : (s.setTile t x).pending = s.pending := (rfl)
@[simp] theorem State.setTile_rd (t : Nat) (x : Tile) (k : Nat) : (s.setTile t x).rd k = s.rd k := (rfl)
@[simp] theorem State.setTile_get (t : Nat) (x : Tile) (g : Fld) : (s.setTile t x).get g = s.get g := (rfl)
@[simp] theorem State.setTile_now (t : Nat) (x : Tile) : (s.setTile t x).now = s.now := (rfl)
@[simp] theorem State.setTile_byte (t : Nat) (x : Tile) (sp' : Space) (a' : Nat) : (s.setTile t x).byte sp' a' = s.byte sp' a' := (rfl)
@[simp] theorem State.setTile_sealOf (t : Nat) (x : Tile) (sp' : Space) (a' : Nat) : (s.setTile t x).sealOf sp' a' = s.sealOf sp' a' := (rfl)
@[simp] theorem State.setTile_ctx (t : Nat) (x : Tile) (k' : Nat) : (s.setTile t x).ctx k' = s.ctx k' := (rfl)
@[simp] theorem State.setTile_commit (t : Nat) (x : Tile) (k' : Nat) : (s.setTile t x).commit k' = s.commit k' := (rfl)
@[simp] theorem State.setTile_port (t : Nat) (x : Tile) (k' : Nat) : (s.setTile t x).port k' = s.port k' := (rfl)
@[simp] theorem State.setTile_fn (t : Nat) (x : Tile) (k' : Nat) : (s.setTile t x).fn k' = s.fn k' := (rfl)
@[simp] theorem State.setTile_stk (t : Nat) (x : Tile) (k' : Nat) : (s.setTile t x).stk k' = s.stk k' := (rfl)
@[simp] theorem State.setTile_queue (t : Nat) (x : Tile) (q' : QueueId) : (s.setTile t x).queue q' = s.queue q' := (rfl)
@[simp] theorem State.setTile_wlist (t : Nat) (x : Tile) (p' w' : Nat) : (s.setTile t x).wlist p' w' = s.wlist p' w' := (rfl)

/-! ## `setWlist` -/

@[simp] theorem State.setWlist_regs (p w : Nat) (x : WorkList) : (s.setWlist p w x).regs = s.regs := (rfl)
@[simp] theorem State.setWlist_mem (p w : Nat) (x : WorkList) : (s.setWlist p w x).mem = s.mem := (rfl)
@[simp] theorem State.setWlist_seals (p w : Nat) (x : WorkList) : (s.setWlist p w x).seals = s.seals := (rfl)
@[simp] theorem State.setWlist_eph (p w : Nat) (x : WorkList) : (s.setWlist p w x).eph = s.eph := (rfl)
@[simp] theorem State.setWlist_ecl (p w : Nat) (x : WorkList) : (s.setWlist p w x).ecl = s.ecl := (rfl)
@[simp] theorem State.setWlist_jtag (p w : Nat) (x : WorkList) : (s.setWlist p w x).jtag = s.jtag := (rfl)
@[simp] theorem State.setWlist_ctxs (p w : Nat) (x : WorkList) : (s.setWlist p w x).ctxs = s.ctxs := (rfl)
@[simp] theorem State.setWlist_queues (p w : Nat) (x : WorkList) : (s.setWlist p w x).queues = s.queues := (rfl)
@[simp] theorem State.setWlist_tiles (p w : Nat) (x : WorkList) : (s.setWlist p w x).tiles = s.tiles := (rfl)
@[simp] theorem State.setWlist_waits (p w : Nat) (x : WorkList) : (s.setWlist p w x).waits = s.waits := (rfl)
@[simp] theorem State.setWlist_feeds (p w : Nat) (x : WorkList) : (s.setWlist p w x).feeds = s.feeds := (rfl)
@[simp] theorem State.setWlist_barriers (p w : Nat) (x : WorkList) : (s.setWlist p w x).barriers = s.barriers := (rfl)
@[simp] theorem State.setWlist_journal (p w : Nat) (x : WorkList) : (s.setWlist p w x).journal = s.journal := (rfl)
@[simp] theorem State.setWlist_tables (p w : Nat) (x : WorkList) : (s.setWlist p w x).tables = s.tables := (rfl)
@[simp] theorem State.setWlist_haloOps (p w : Nat) (x : WorkList) : (s.setWlist p w x).haloOps = s.haloOps := (rfl)
@[simp] theorem State.setWlist_fetched (p w : Nat) (x : WorkList) : (s.setWlist p w x).fetched = s.fetched := (rfl)
@[simp] theorem State.setWlist_shards (p w : Nat) (x : WorkList) : (s.setWlist p w x).shards = s.shards := (rfl)
@[simp] theorem State.setWlist_orrOps (p w : Nat) (x : WorkList) : (s.setWlist p w x).orrOps = s.orrOps := (rfl)
@[simp] theorem State.setWlist_commits (p w : Nat) (x : WorkList) : (s.setWlist p w x).commits = s.commits := (rfl)
@[simp] theorem State.setWlist_ports (p w : Nat) (x : WorkList) : (s.setWlist p w x).ports = s.ports := (rfl)
@[simp] theorem State.setWlist_xreqs (p w : Nat) (x : WorkList) : (s.setWlist p w x).xreqs = s.xreqs := (rfl)
@[simp] theorem State.setWlist_txns (p w : Nat) (x : WorkList) : (s.setWlist p w x).txns = s.txns := (rfl)
@[simp] theorem State.setWlist_seenGen (p w : Nat) (x : WorkList) : (s.setWlist p w x).seenGen = s.seenGen := (rfl)
@[simp] theorem State.setWlist_delivered (p w : Nat) (x : WorkList) : (s.setWlist p w x).delivered = s.delivered := (rfl)
@[simp] theorem State.setWlist_spray (p w : Nat) (x : WorkList) : (s.setWlist p w x).spray = s.spray := (rfl)
@[simp] theorem State.setWlist_const (p w : Nat) (x : WorkList) : (s.setWlist p w x).const = s.const := (rfl)
@[simp] theorem State.setWlist_pcie (p w : Nat) (x : WorkList) : (s.setWlist p w x).pcie = s.pcie := (rfl)
@[simp] theorem State.setWlist_copies (p w : Nat) (x : WorkList) : (s.setWlist p w x).copies = s.copies := (rfl)
@[simp] theorem State.setWlist_files (p w : Nat) (x : WorkList) : (s.setWlist p w x).files = s.files := (rfl)
@[simp] theorem State.setWlist_nextPcie (p w : Nat) (x : WorkList) : (s.setWlist p w x).nextPcie = s.nextPcie := (rfl)
@[simp] theorem State.setWlist_fns (p w : Nat) (x : WorkList) : (s.setWlist p w x).fns = s.fns := (rfl)
@[simp] theorem State.setWlist_numVfs (p w : Nat) (x : WorkList) : (s.setWlist p w x).numVfs = s.numVfs := (rfl)
@[simp] theorem State.setWlist_cfgSpace (p w : Nat) (x : WorkList) : (s.setWlist p w x).cfgSpace = s.cfgSpace := (rfl)
@[simp] theorem State.setWlist_cfg (p w : Nat) (x : WorkList) : (s.setWlist p w x).cfg = s.cfg := (rfl)
@[simp] theorem State.setWlist_stks (p w : Nat) (x : WorkList) : (s.setWlist p w x).stks = s.stks := (rfl)
@[simp] theorem State.setWlist_lines (p w : Nat) (x : WorkList) : (s.setWlist p w x).lines = s.lines := (rfl)
@[simp] theorem State.setWlist_llmOps (p w : Nat) (x : WorkList) : (s.setWlist p w x).llmOps = s.llmOps := (rfl)
@[simp] theorem State.setWlist_tiers (p w : Nat) (x : WorkList) : (s.setWlist p w x).tiers = s.tiers := (rfl)
@[simp] theorem State.setWlist_coll (p w : Nat) (x : WorkList) : (s.setWlist p w x).coll = s.coll := (rfl)
@[simp] theorem State.setWlist_fw (p w : Nat) (x : WorkList) : (s.setWlist p w x).fw = s.fw := (rfl)
@[simp] theorem State.setWlist_flt (p w : Nat) (x : WorkList) : (s.setWlist p w x).flt = s.flt := (rfl)
@[simp] theorem State.setWlist_pwr (p w : Nat) (x : WorkList) : (s.setWlist p w x).pwr = s.pwr := (rfl)
@[simp] theorem State.setWlist_pace (p w : Nat) (x : WorkList) : (s.setWlist p w x).pace = s.pace := (rfl)
@[simp] theorem State.setWlist_phase (p w : Nat) (x : WorkList) : (s.setWlist p w x).phase = s.phase := (rfl)
@[simp] theorem State.setWlist_pins (p w : Nat) (x : WorkList) : (s.setWlist p w x).pins = s.pins := (rfl)
@[simp] theorem State.setWlist_recorded (p w : Nat) (x : WorkList) : (s.setWlist p w x).recorded = s.recorded := (rfl)
@[simp] theorem State.setWlist_free (p w : Nat) (x : WorkList) : (s.setWlist p w x).free = s.free := (rfl)
@[simp] theorem State.setWlist_out (p w : Nat) (x : WorkList) : (s.setWlist p w x).out = s.out := (rfl)
@[simp] theorem State.setWlist_pending (p w : Nat) (x : WorkList) : (s.setWlist p w x).pending = s.pending := (rfl)
@[simp] theorem State.setWlist_rd (p w : Nat) (x : WorkList) (k : Nat) : (s.setWlist p w x).rd k = s.rd k := (rfl)
@[simp] theorem State.setWlist_get (p w : Nat) (x : WorkList) (g : Fld) : (s.setWlist p w x).get g = s.get g := (rfl)
@[simp] theorem State.setWlist_now (p w : Nat) (x : WorkList) : (s.setWlist p w x).now = s.now := (rfl)
@[simp] theorem State.setWlist_byte (p w : Nat) (x : WorkList) (sp' : Space) (a' : Nat) : (s.setWlist p w x).byte sp' a' = s.byte sp' a' := (rfl)
@[simp] theorem State.setWlist_sealOf (p w : Nat) (x : WorkList) (sp' : Space) (a' : Nat) : (s.setWlist p w x).sealOf sp' a' = s.sealOf sp' a' := (rfl)
@[simp] theorem State.setWlist_ctx (p w : Nat) (x : WorkList) (k' : Nat) : (s.setWlist p w x).ctx k' = s.ctx k' := (rfl)
@[simp] theorem State.setWlist_tile (p w : Nat) (x : WorkList) (k' : Nat) : (s.setWlist p w x).tile k' = s.tile k' := (rfl)
@[simp] theorem State.setWlist_commit (p w : Nat) (x : WorkList) (k' : Nat) : (s.setWlist p w x).commit k' = s.commit k' := (rfl)
@[simp] theorem State.setWlist_port (p w : Nat) (x : WorkList) (k' : Nat) : (s.setWlist p w x).port k' = s.port k' := (rfl)
@[simp] theorem State.setWlist_fn (p w : Nat) (x : WorkList) (k' : Nat) : (s.setWlist p w x).fn k' = s.fn k' := (rfl)
@[simp] theorem State.setWlist_stk (p w : Nat) (x : WorkList) (k' : Nat) : (s.setWlist p w x).stk k' = s.stk k' := (rfl)
@[simp] theorem State.setWlist_queue (p w : Nat) (x : WorkList) (q' : QueueId) : (s.setWlist p w x).queue q' = s.queue q' := (rfl)

/-! ## `setQueue` -/

@[simp] theorem State.setQueue_regs (q : QueueId) (x : QueueData) : (s.setQueue q x).regs = s.regs := (rfl)
@[simp] theorem State.setQueue_mem (q : QueueId) (x : QueueData) : (s.setQueue q x).mem = s.mem := (rfl)
@[simp] theorem State.setQueue_seals (q : QueueId) (x : QueueData) : (s.setQueue q x).seals = s.seals := (rfl)
@[simp] theorem State.setQueue_eph (q : QueueId) (x : QueueData) : (s.setQueue q x).eph = s.eph := (rfl)
@[simp] theorem State.setQueue_ecl (q : QueueId) (x : QueueData) : (s.setQueue q x).ecl = s.ecl := (rfl)
@[simp] theorem State.setQueue_jtag (q : QueueId) (x : QueueData) : (s.setQueue q x).jtag = s.jtag := (rfl)
@[simp] theorem State.setQueue_ctxs (q : QueueId) (x : QueueData) : (s.setQueue q x).ctxs = s.ctxs := (rfl)
@[simp] theorem State.setQueue_tiles (q : QueueId) (x : QueueData) : (s.setQueue q x).tiles = s.tiles := (rfl)
@[simp] theorem State.setQueue_lists (q : QueueId) (x : QueueData) : (s.setQueue q x).lists = s.lists := (rfl)
@[simp] theorem State.setQueue_waits (q : QueueId) (x : QueueData) : (s.setQueue q x).waits = s.waits := (rfl)
@[simp] theorem State.setQueue_feeds (q : QueueId) (x : QueueData) : (s.setQueue q x).feeds = s.feeds := (rfl)
@[simp] theorem State.setQueue_barriers (q : QueueId) (x : QueueData) : (s.setQueue q x).barriers = s.barriers := (rfl)
@[simp] theorem State.setQueue_journal (q : QueueId) (x : QueueData) : (s.setQueue q x).journal = s.journal := (rfl)
@[simp] theorem State.setQueue_tables (q : QueueId) (x : QueueData) : (s.setQueue q x).tables = s.tables := (rfl)
@[simp] theorem State.setQueue_haloOps (q : QueueId) (x : QueueData) : (s.setQueue q x).haloOps = s.haloOps := (rfl)
@[simp] theorem State.setQueue_fetched (q : QueueId) (x : QueueData) : (s.setQueue q x).fetched = s.fetched := (rfl)
@[simp] theorem State.setQueue_shards (q : QueueId) (x : QueueData) : (s.setQueue q x).shards = s.shards := (rfl)
@[simp] theorem State.setQueue_orrOps (q : QueueId) (x : QueueData) : (s.setQueue q x).orrOps = s.orrOps := (rfl)
@[simp] theorem State.setQueue_commits (q : QueueId) (x : QueueData) : (s.setQueue q x).commits = s.commits := (rfl)
@[simp] theorem State.setQueue_ports (q : QueueId) (x : QueueData) : (s.setQueue q x).ports = s.ports := (rfl)
@[simp] theorem State.setQueue_xreqs (q : QueueId) (x : QueueData) : (s.setQueue q x).xreqs = s.xreqs := (rfl)
@[simp] theorem State.setQueue_txns (q : QueueId) (x : QueueData) : (s.setQueue q x).txns = s.txns := (rfl)
@[simp] theorem State.setQueue_seenGen (q : QueueId) (x : QueueData) : (s.setQueue q x).seenGen = s.seenGen := (rfl)
@[simp] theorem State.setQueue_delivered (q : QueueId) (x : QueueData) : (s.setQueue q x).delivered = s.delivered := (rfl)
@[simp] theorem State.setQueue_spray (q : QueueId) (x : QueueData) : (s.setQueue q x).spray = s.spray := (rfl)
@[simp] theorem State.setQueue_const (q : QueueId) (x : QueueData) : (s.setQueue q x).const = s.const := (rfl)
@[simp] theorem State.setQueue_pcie (q : QueueId) (x : QueueData) : (s.setQueue q x).pcie = s.pcie := (rfl)
@[simp] theorem State.setQueue_copies (q : QueueId) (x : QueueData) : (s.setQueue q x).copies = s.copies := (rfl)
@[simp] theorem State.setQueue_files (q : QueueId) (x : QueueData) : (s.setQueue q x).files = s.files := (rfl)
@[simp] theorem State.setQueue_nextPcie (q : QueueId) (x : QueueData) : (s.setQueue q x).nextPcie = s.nextPcie := (rfl)
@[simp] theorem State.setQueue_fns (q : QueueId) (x : QueueData) : (s.setQueue q x).fns = s.fns := (rfl)
@[simp] theorem State.setQueue_numVfs (q : QueueId) (x : QueueData) : (s.setQueue q x).numVfs = s.numVfs := (rfl)
@[simp] theorem State.setQueue_cfgSpace (q : QueueId) (x : QueueData) : (s.setQueue q x).cfgSpace = s.cfgSpace := (rfl)
@[simp] theorem State.setQueue_cfg (q : QueueId) (x : QueueData) : (s.setQueue q x).cfg = s.cfg := (rfl)
@[simp] theorem State.setQueue_stks (q : QueueId) (x : QueueData) : (s.setQueue q x).stks = s.stks := (rfl)
@[simp] theorem State.setQueue_lines (q : QueueId) (x : QueueData) : (s.setQueue q x).lines = s.lines := (rfl)
@[simp] theorem State.setQueue_llmOps (q : QueueId) (x : QueueData) : (s.setQueue q x).llmOps = s.llmOps := (rfl)
@[simp] theorem State.setQueue_tiers (q : QueueId) (x : QueueData) : (s.setQueue q x).tiers = s.tiers := (rfl)
@[simp] theorem State.setQueue_coll (q : QueueId) (x : QueueData) : (s.setQueue q x).coll = s.coll := (rfl)
@[simp] theorem State.setQueue_fw (q : QueueId) (x : QueueData) : (s.setQueue q x).fw = s.fw := (rfl)
@[simp] theorem State.setQueue_flt (q : QueueId) (x : QueueData) : (s.setQueue q x).flt = s.flt := (rfl)
@[simp] theorem State.setQueue_pwr (q : QueueId) (x : QueueData) : (s.setQueue q x).pwr = s.pwr := (rfl)
@[simp] theorem State.setQueue_pace (q : QueueId) (x : QueueData) : (s.setQueue q x).pace = s.pace := (rfl)
@[simp] theorem State.setQueue_phase (q : QueueId) (x : QueueData) : (s.setQueue q x).phase = s.phase := (rfl)
@[simp] theorem State.setQueue_pins (q : QueueId) (x : QueueData) : (s.setQueue q x).pins = s.pins := (rfl)
@[simp] theorem State.setQueue_recorded (q : QueueId) (x : QueueData) : (s.setQueue q x).recorded = s.recorded := (rfl)
@[simp] theorem State.setQueue_free (q : QueueId) (x : QueueData) : (s.setQueue q x).free = s.free := (rfl)
@[simp] theorem State.setQueue_out (q : QueueId) (x : QueueData) : (s.setQueue q x).out = s.out := (rfl)
@[simp] theorem State.setQueue_pending (q : QueueId) (x : QueueData) : (s.setQueue q x).pending = s.pending := (rfl)
@[simp] theorem State.setQueue_rd (q : QueueId) (x : QueueData) (k : Nat) : (s.setQueue q x).rd k = s.rd k := (rfl)
@[simp] theorem State.setQueue_get (q : QueueId) (x : QueueData) (g : Fld) : (s.setQueue q x).get g = s.get g := (rfl)
@[simp] theorem State.setQueue_now (q : QueueId) (x : QueueData) : (s.setQueue q x).now = s.now := (rfl)
@[simp] theorem State.setQueue_byte (q : QueueId) (x : QueueData) (sp' : Space) (a' : Nat) : (s.setQueue q x).byte sp' a' = s.byte sp' a' := (rfl)
@[simp] theorem State.setQueue_sealOf (q : QueueId) (x : QueueData) (sp' : Space) (a' : Nat) : (s.setQueue q x).sealOf sp' a' = s.sealOf sp' a' := (rfl)
@[simp] theorem State.setQueue_ctx (q : QueueId) (x : QueueData) (k' : Nat) : (s.setQueue q x).ctx k' = s.ctx k' := (rfl)
@[simp] theorem State.setQueue_tile (q : QueueId) (x : QueueData) (k' : Nat) : (s.setQueue q x).tile k' = s.tile k' := (rfl)
@[simp] theorem State.setQueue_commit (q : QueueId) (x : QueueData) (k' : Nat) : (s.setQueue q x).commit k' = s.commit k' := (rfl)
@[simp] theorem State.setQueue_port (q : QueueId) (x : QueueData) (k' : Nat) : (s.setQueue q x).port k' = s.port k' := (rfl)
@[simp] theorem State.setQueue_fn (q : QueueId) (x : QueueData) (k' : Nat) : (s.setQueue q x).fn k' = s.fn k' := (rfl)
@[simp] theorem State.setQueue_stk (q : QueueId) (x : QueueData) (k' : Nat) : (s.setQueue q x).stk k' = s.stk k' := (rfl)
@[simp] theorem State.setQueue_wlist (q : QueueId) (x : QueueData) (p' w' : Nat) : (s.setQueue q x).wlist p' w' = s.wlist p' w' := (rfl)

/-! ## `setCommit` -/

@[simp] theorem State.setCommit_regs (p : Nat) (x : CommitData) : (s.setCommit p x).regs = s.regs := (rfl)
@[simp] theorem State.setCommit_mem (p : Nat) (x : CommitData) : (s.setCommit p x).mem = s.mem := (rfl)
@[simp] theorem State.setCommit_seals (p : Nat) (x : CommitData) : (s.setCommit p x).seals = s.seals := (rfl)
@[simp] theorem State.setCommit_eph (p : Nat) (x : CommitData) : (s.setCommit p x).eph = s.eph := (rfl)
@[simp] theorem State.setCommit_ecl (p : Nat) (x : CommitData) : (s.setCommit p x).ecl = s.ecl := (rfl)
@[simp] theorem State.setCommit_jtag (p : Nat) (x : CommitData) : (s.setCommit p x).jtag = s.jtag := (rfl)
@[simp] theorem State.setCommit_ctxs (p : Nat) (x : CommitData) : (s.setCommit p x).ctxs = s.ctxs := (rfl)
@[simp] theorem State.setCommit_queues (p : Nat) (x : CommitData) : (s.setCommit p x).queues = s.queues := (rfl)
@[simp] theorem State.setCommit_tiles (p : Nat) (x : CommitData) : (s.setCommit p x).tiles = s.tiles := (rfl)
@[simp] theorem State.setCommit_lists (p : Nat) (x : CommitData) : (s.setCommit p x).lists = s.lists := (rfl)
@[simp] theorem State.setCommit_waits (p : Nat) (x : CommitData) : (s.setCommit p x).waits = s.waits := (rfl)
@[simp] theorem State.setCommit_feeds (p : Nat) (x : CommitData) : (s.setCommit p x).feeds = s.feeds := (rfl)
@[simp] theorem State.setCommit_barriers (p : Nat) (x : CommitData) : (s.setCommit p x).barriers = s.barriers := (rfl)
@[simp] theorem State.setCommit_journal (p : Nat) (x : CommitData) : (s.setCommit p x).journal = s.journal := (rfl)
@[simp] theorem State.setCommit_tables (p : Nat) (x : CommitData) : (s.setCommit p x).tables = s.tables := (rfl)
@[simp] theorem State.setCommit_haloOps (p : Nat) (x : CommitData) : (s.setCommit p x).haloOps = s.haloOps := (rfl)
@[simp] theorem State.setCommit_fetched (p : Nat) (x : CommitData) : (s.setCommit p x).fetched = s.fetched := (rfl)
@[simp] theorem State.setCommit_shards (p : Nat) (x : CommitData) : (s.setCommit p x).shards = s.shards := (rfl)
@[simp] theorem State.setCommit_orrOps (p : Nat) (x : CommitData) : (s.setCommit p x).orrOps = s.orrOps := (rfl)
@[simp] theorem State.setCommit_ports (p : Nat) (x : CommitData) : (s.setCommit p x).ports = s.ports := (rfl)
@[simp] theorem State.setCommit_xreqs (p : Nat) (x : CommitData) : (s.setCommit p x).xreqs = s.xreqs := (rfl)
@[simp] theorem State.setCommit_txns (p : Nat) (x : CommitData) : (s.setCommit p x).txns = s.txns := (rfl)
@[simp] theorem State.setCommit_seenGen (p : Nat) (x : CommitData) : (s.setCommit p x).seenGen = s.seenGen := (rfl)
@[simp] theorem State.setCommit_delivered (p : Nat) (x : CommitData) : (s.setCommit p x).delivered = s.delivered := (rfl)
@[simp] theorem State.setCommit_spray (p : Nat) (x : CommitData) : (s.setCommit p x).spray = s.spray := (rfl)
@[simp] theorem State.setCommit_const (p : Nat) (x : CommitData) : (s.setCommit p x).const = s.const := (rfl)
@[simp] theorem State.setCommit_pcie (p : Nat) (x : CommitData) : (s.setCommit p x).pcie = s.pcie := (rfl)
@[simp] theorem State.setCommit_copies (p : Nat) (x : CommitData) : (s.setCommit p x).copies = s.copies := (rfl)
@[simp] theorem State.setCommit_files (p : Nat) (x : CommitData) : (s.setCommit p x).files = s.files := (rfl)
@[simp] theorem State.setCommit_nextPcie (p : Nat) (x : CommitData) : (s.setCommit p x).nextPcie = s.nextPcie := (rfl)
@[simp] theorem State.setCommit_fns (p : Nat) (x : CommitData) : (s.setCommit p x).fns = s.fns := (rfl)
@[simp] theorem State.setCommit_numVfs (p : Nat) (x : CommitData) : (s.setCommit p x).numVfs = s.numVfs := (rfl)
@[simp] theorem State.setCommit_cfgSpace (p : Nat) (x : CommitData) : (s.setCommit p x).cfgSpace = s.cfgSpace := (rfl)
@[simp] theorem State.setCommit_cfg (p : Nat) (x : CommitData) : (s.setCommit p x).cfg = s.cfg := (rfl)
@[simp] theorem State.setCommit_stks (p : Nat) (x : CommitData) : (s.setCommit p x).stks = s.stks := (rfl)
@[simp] theorem State.setCommit_lines (p : Nat) (x : CommitData) : (s.setCommit p x).lines = s.lines := (rfl)
@[simp] theorem State.setCommit_llmOps (p : Nat) (x : CommitData) : (s.setCommit p x).llmOps = s.llmOps := (rfl)
@[simp] theorem State.setCommit_tiers (p : Nat) (x : CommitData) : (s.setCommit p x).tiers = s.tiers := (rfl)
@[simp] theorem State.setCommit_coll (p : Nat) (x : CommitData) : (s.setCommit p x).coll = s.coll := (rfl)
@[simp] theorem State.setCommit_fw (p : Nat) (x : CommitData) : (s.setCommit p x).fw = s.fw := (rfl)
@[simp] theorem State.setCommit_flt (p : Nat) (x : CommitData) : (s.setCommit p x).flt = s.flt := (rfl)
@[simp] theorem State.setCommit_pwr (p : Nat) (x : CommitData) : (s.setCommit p x).pwr = s.pwr := (rfl)
@[simp] theorem State.setCommit_pace (p : Nat) (x : CommitData) : (s.setCommit p x).pace = s.pace := (rfl)
@[simp] theorem State.setCommit_phase (p : Nat) (x : CommitData) : (s.setCommit p x).phase = s.phase := (rfl)
@[simp] theorem State.setCommit_pins (p : Nat) (x : CommitData) : (s.setCommit p x).pins = s.pins := (rfl)
@[simp] theorem State.setCommit_recorded (p : Nat) (x : CommitData) : (s.setCommit p x).recorded = s.recorded := (rfl)
@[simp] theorem State.setCommit_free (p : Nat) (x : CommitData) : (s.setCommit p x).free = s.free := (rfl)
@[simp] theorem State.setCommit_out (p : Nat) (x : CommitData) : (s.setCommit p x).out = s.out := (rfl)
@[simp] theorem State.setCommit_pending (p : Nat) (x : CommitData) : (s.setCommit p x).pending = s.pending := (rfl)
@[simp] theorem State.setCommit_rd (p : Nat) (x : CommitData) (k : Nat) : (s.setCommit p x).rd k = s.rd k := (rfl)
@[simp] theorem State.setCommit_get (p : Nat) (x : CommitData) (g : Fld) : (s.setCommit p x).get g = s.get g := (rfl)
@[simp] theorem State.setCommit_now (p : Nat) (x : CommitData) : (s.setCommit p x).now = s.now := (rfl)
@[simp] theorem State.setCommit_byte (p : Nat) (x : CommitData) (sp' : Space) (a' : Nat) : (s.setCommit p x).byte sp' a' = s.byte sp' a' := (rfl)
@[simp] theorem State.setCommit_sealOf (p : Nat) (x : CommitData) (sp' : Space) (a' : Nat) : (s.setCommit p x).sealOf sp' a' = s.sealOf sp' a' := (rfl)
@[simp] theorem State.setCommit_ctx (p : Nat) (x : CommitData) (k' : Nat) : (s.setCommit p x).ctx k' = s.ctx k' := (rfl)
@[simp] theorem State.setCommit_tile (p : Nat) (x : CommitData) (k' : Nat) : (s.setCommit p x).tile k' = s.tile k' := (rfl)
@[simp] theorem State.setCommit_port (p : Nat) (x : CommitData) (k' : Nat) : (s.setCommit p x).port k' = s.port k' := (rfl)
@[simp] theorem State.setCommit_fn (p : Nat) (x : CommitData) (k' : Nat) : (s.setCommit p x).fn k' = s.fn k' := (rfl)
@[simp] theorem State.setCommit_stk (p : Nat) (x : CommitData) (k' : Nat) : (s.setCommit p x).stk k' = s.stk k' := (rfl)
@[simp] theorem State.setCommit_queue (p : Nat) (x : CommitData) (q' : QueueId) : (s.setCommit p x).queue q' = s.queue q' := (rfl)
@[simp] theorem State.setCommit_wlist (p : Nat) (x : CommitData) (p' w' : Nat) : (s.setCommit p x).wlist p' w' = s.wlist p' w' := (rfl)

/-! ## `setPort` -/

@[simp] theorem State.setPort_regs (p : Nat) (x : Port) : (s.setPort p x).regs = s.regs := (rfl)
@[simp] theorem State.setPort_mem (p : Nat) (x : Port) : (s.setPort p x).mem = s.mem := (rfl)
@[simp] theorem State.setPort_seals (p : Nat) (x : Port) : (s.setPort p x).seals = s.seals := (rfl)
@[simp] theorem State.setPort_eph (p : Nat) (x : Port) : (s.setPort p x).eph = s.eph := (rfl)
@[simp] theorem State.setPort_ecl (p : Nat) (x : Port) : (s.setPort p x).ecl = s.ecl := (rfl)
@[simp] theorem State.setPort_jtag (p : Nat) (x : Port) : (s.setPort p x).jtag = s.jtag := (rfl)
@[simp] theorem State.setPort_ctxs (p : Nat) (x : Port) : (s.setPort p x).ctxs = s.ctxs := (rfl)
@[simp] theorem State.setPort_queues (p : Nat) (x : Port) : (s.setPort p x).queues = s.queues := (rfl)
@[simp] theorem State.setPort_tiles (p : Nat) (x : Port) : (s.setPort p x).tiles = s.tiles := (rfl)
@[simp] theorem State.setPort_lists (p : Nat) (x : Port) : (s.setPort p x).lists = s.lists := (rfl)
@[simp] theorem State.setPort_waits (p : Nat) (x : Port) : (s.setPort p x).waits = s.waits := (rfl)
@[simp] theorem State.setPort_feeds (p : Nat) (x : Port) : (s.setPort p x).feeds = s.feeds := (rfl)
@[simp] theorem State.setPort_barriers (p : Nat) (x : Port) : (s.setPort p x).barriers = s.barriers := (rfl)
@[simp] theorem State.setPort_journal (p : Nat) (x : Port) : (s.setPort p x).journal = s.journal := (rfl)
@[simp] theorem State.setPort_tables (p : Nat) (x : Port) : (s.setPort p x).tables = s.tables := (rfl)
@[simp] theorem State.setPort_haloOps (p : Nat) (x : Port) : (s.setPort p x).haloOps = s.haloOps := (rfl)
@[simp] theorem State.setPort_fetched (p : Nat) (x : Port) : (s.setPort p x).fetched = s.fetched := (rfl)
@[simp] theorem State.setPort_shards (p : Nat) (x : Port) : (s.setPort p x).shards = s.shards := (rfl)
@[simp] theorem State.setPort_orrOps (p : Nat) (x : Port) : (s.setPort p x).orrOps = s.orrOps := (rfl)
@[simp] theorem State.setPort_commits (p : Nat) (x : Port) : (s.setPort p x).commits = s.commits := (rfl)
@[simp] theorem State.setPort_xreqs (p : Nat) (x : Port) : (s.setPort p x).xreqs = s.xreqs := (rfl)
@[simp] theorem State.setPort_txns (p : Nat) (x : Port) : (s.setPort p x).txns = s.txns := (rfl)
@[simp] theorem State.setPort_seenGen (p : Nat) (x : Port) : (s.setPort p x).seenGen = s.seenGen := (rfl)
@[simp] theorem State.setPort_delivered (p : Nat) (x : Port) : (s.setPort p x).delivered = s.delivered := (rfl)
@[simp] theorem State.setPort_spray (p : Nat) (x : Port) : (s.setPort p x).spray = s.spray := (rfl)
@[simp] theorem State.setPort_const (p : Nat) (x : Port) : (s.setPort p x).const = s.const := (rfl)
@[simp] theorem State.setPort_pcie (p : Nat) (x : Port) : (s.setPort p x).pcie = s.pcie := (rfl)
@[simp] theorem State.setPort_copies (p : Nat) (x : Port) : (s.setPort p x).copies = s.copies := (rfl)
@[simp] theorem State.setPort_files (p : Nat) (x : Port) : (s.setPort p x).files = s.files := (rfl)
@[simp] theorem State.setPort_nextPcie (p : Nat) (x : Port) : (s.setPort p x).nextPcie = s.nextPcie := (rfl)
@[simp] theorem State.setPort_fns (p : Nat) (x : Port) : (s.setPort p x).fns = s.fns := (rfl)
@[simp] theorem State.setPort_numVfs (p : Nat) (x : Port) : (s.setPort p x).numVfs = s.numVfs := (rfl)
@[simp] theorem State.setPort_cfgSpace (p : Nat) (x : Port) : (s.setPort p x).cfgSpace = s.cfgSpace := (rfl)
@[simp] theorem State.setPort_cfg (p : Nat) (x : Port) : (s.setPort p x).cfg = s.cfg := (rfl)
@[simp] theorem State.setPort_stks (p : Nat) (x : Port) : (s.setPort p x).stks = s.stks := (rfl)
@[simp] theorem State.setPort_lines (p : Nat) (x : Port) : (s.setPort p x).lines = s.lines := (rfl)
@[simp] theorem State.setPort_llmOps (p : Nat) (x : Port) : (s.setPort p x).llmOps = s.llmOps := (rfl)
@[simp] theorem State.setPort_tiers (p : Nat) (x : Port) : (s.setPort p x).tiers = s.tiers := (rfl)
@[simp] theorem State.setPort_coll (p : Nat) (x : Port) : (s.setPort p x).coll = s.coll := (rfl)
@[simp] theorem State.setPort_fw (p : Nat) (x : Port) : (s.setPort p x).fw = s.fw := (rfl)
@[simp] theorem State.setPort_flt (p : Nat) (x : Port) : (s.setPort p x).flt = s.flt := (rfl)
@[simp] theorem State.setPort_pwr (p : Nat) (x : Port) : (s.setPort p x).pwr = s.pwr := (rfl)
@[simp] theorem State.setPort_pace (p : Nat) (x : Port) : (s.setPort p x).pace = s.pace := (rfl)
@[simp] theorem State.setPort_phase (p : Nat) (x : Port) : (s.setPort p x).phase = s.phase := (rfl)
@[simp] theorem State.setPort_pins (p : Nat) (x : Port) : (s.setPort p x).pins = s.pins := (rfl)
@[simp] theorem State.setPort_recorded (p : Nat) (x : Port) : (s.setPort p x).recorded = s.recorded := (rfl)
@[simp] theorem State.setPort_free (p : Nat) (x : Port) : (s.setPort p x).free = s.free := (rfl)
@[simp] theorem State.setPort_out (p : Nat) (x : Port) : (s.setPort p x).out = s.out := (rfl)
@[simp] theorem State.setPort_pending (p : Nat) (x : Port) : (s.setPort p x).pending = s.pending := (rfl)
@[simp] theorem State.setPort_rd (p : Nat) (x : Port) (k : Nat) : (s.setPort p x).rd k = s.rd k := (rfl)
@[simp] theorem State.setPort_get (p : Nat) (x : Port) (g : Fld) : (s.setPort p x).get g = s.get g := (rfl)
@[simp] theorem State.setPort_now (p : Nat) (x : Port) : (s.setPort p x).now = s.now := (rfl)
@[simp] theorem State.setPort_byte (p : Nat) (x : Port) (sp' : Space) (a' : Nat) : (s.setPort p x).byte sp' a' = s.byte sp' a' := (rfl)
@[simp] theorem State.setPort_sealOf (p : Nat) (x : Port) (sp' : Space) (a' : Nat) : (s.setPort p x).sealOf sp' a' = s.sealOf sp' a' := (rfl)
@[simp] theorem State.setPort_ctx (p : Nat) (x : Port) (k' : Nat) : (s.setPort p x).ctx k' = s.ctx k' := (rfl)
@[simp] theorem State.setPort_tile (p : Nat) (x : Port) (k' : Nat) : (s.setPort p x).tile k' = s.tile k' := (rfl)
@[simp] theorem State.setPort_commit (p : Nat) (x : Port) (k' : Nat) : (s.setPort p x).commit k' = s.commit k' := (rfl)
@[simp] theorem State.setPort_fn (p : Nat) (x : Port) (k' : Nat) : (s.setPort p x).fn k' = s.fn k' := (rfl)
@[simp] theorem State.setPort_stk (p : Nat) (x : Port) (k' : Nat) : (s.setPort p x).stk k' = s.stk k' := (rfl)
@[simp] theorem State.setPort_queue (p : Nat) (x : Port) (q' : QueueId) : (s.setPort p x).queue q' = s.queue q' := (rfl)
@[simp] theorem State.setPort_wlist (p : Nat) (x : Port) (p' w' : Nat) : (s.setPort p x).wlist p' w' = s.wlist p' w' := (rfl)

/-! ## `setFn` -/

@[simp] theorem State.setFn_regs (f : Nat) (x : FnData) : (s.setFn f x).regs = s.regs := (rfl)
@[simp] theorem State.setFn_mem (f : Nat) (x : FnData) : (s.setFn f x).mem = s.mem := (rfl)
@[simp] theorem State.setFn_seals (f : Nat) (x : FnData) : (s.setFn f x).seals = s.seals := (rfl)
@[simp] theorem State.setFn_eph (f : Nat) (x : FnData) : (s.setFn f x).eph = s.eph := (rfl)
@[simp] theorem State.setFn_ecl (f : Nat) (x : FnData) : (s.setFn f x).ecl = s.ecl := (rfl)
@[simp] theorem State.setFn_jtag (f : Nat) (x : FnData) : (s.setFn f x).jtag = s.jtag := (rfl)
@[simp] theorem State.setFn_ctxs (f : Nat) (x : FnData) : (s.setFn f x).ctxs = s.ctxs := (rfl)
@[simp] theorem State.setFn_queues (f : Nat) (x : FnData) : (s.setFn f x).queues = s.queues := (rfl)
@[simp] theorem State.setFn_tiles (f : Nat) (x : FnData) : (s.setFn f x).tiles = s.tiles := (rfl)
@[simp] theorem State.setFn_lists (f : Nat) (x : FnData) : (s.setFn f x).lists = s.lists := (rfl)
@[simp] theorem State.setFn_waits (f : Nat) (x : FnData) : (s.setFn f x).waits = s.waits := (rfl)
@[simp] theorem State.setFn_feeds (f : Nat) (x : FnData) : (s.setFn f x).feeds = s.feeds := (rfl)
@[simp] theorem State.setFn_barriers (f : Nat) (x : FnData) : (s.setFn f x).barriers = s.barriers := (rfl)
@[simp] theorem State.setFn_journal (f : Nat) (x : FnData) : (s.setFn f x).journal = s.journal := (rfl)
@[simp] theorem State.setFn_tables (f : Nat) (x : FnData) : (s.setFn f x).tables = s.tables := (rfl)
@[simp] theorem State.setFn_haloOps (f : Nat) (x : FnData) : (s.setFn f x).haloOps = s.haloOps := (rfl)
@[simp] theorem State.setFn_fetched (f : Nat) (x : FnData) : (s.setFn f x).fetched = s.fetched := (rfl)
@[simp] theorem State.setFn_shards (f : Nat) (x : FnData) : (s.setFn f x).shards = s.shards := (rfl)
@[simp] theorem State.setFn_orrOps (f : Nat) (x : FnData) : (s.setFn f x).orrOps = s.orrOps := (rfl)
@[simp] theorem State.setFn_commits (f : Nat) (x : FnData) : (s.setFn f x).commits = s.commits := (rfl)
@[simp] theorem State.setFn_ports (f : Nat) (x : FnData) : (s.setFn f x).ports = s.ports := (rfl)
@[simp] theorem State.setFn_xreqs (f : Nat) (x : FnData) : (s.setFn f x).xreqs = s.xreqs := (rfl)
@[simp] theorem State.setFn_txns (f : Nat) (x : FnData) : (s.setFn f x).txns = s.txns := (rfl)
@[simp] theorem State.setFn_seenGen (f : Nat) (x : FnData) : (s.setFn f x).seenGen = s.seenGen := (rfl)
@[simp] theorem State.setFn_delivered (f : Nat) (x : FnData) : (s.setFn f x).delivered = s.delivered := (rfl)
@[simp] theorem State.setFn_spray (f : Nat) (x : FnData) : (s.setFn f x).spray = s.spray := (rfl)
@[simp] theorem State.setFn_const (f : Nat) (x : FnData) : (s.setFn f x).const = s.const := (rfl)
@[simp] theorem State.setFn_pcie (f : Nat) (x : FnData) : (s.setFn f x).pcie = s.pcie := (rfl)
@[simp] theorem State.setFn_copies (f : Nat) (x : FnData) : (s.setFn f x).copies = s.copies := (rfl)
@[simp] theorem State.setFn_files (f : Nat) (x : FnData) : (s.setFn f x).files = s.files := (rfl)
@[simp] theorem State.setFn_nextPcie (f : Nat) (x : FnData) : (s.setFn f x).nextPcie = s.nextPcie := (rfl)
@[simp] theorem State.setFn_numVfs (f : Nat) (x : FnData) : (s.setFn f x).numVfs = s.numVfs := (rfl)
@[simp] theorem State.setFn_cfgSpace (f : Nat) (x : FnData) : (s.setFn f x).cfgSpace = s.cfgSpace := (rfl)
@[simp] theorem State.setFn_cfg (f : Nat) (x : FnData) : (s.setFn f x).cfg = s.cfg := (rfl)
@[simp] theorem State.setFn_stks (f : Nat) (x : FnData) : (s.setFn f x).stks = s.stks := (rfl)
@[simp] theorem State.setFn_lines (f : Nat) (x : FnData) : (s.setFn f x).lines = s.lines := (rfl)
@[simp] theorem State.setFn_llmOps (f : Nat) (x : FnData) : (s.setFn f x).llmOps = s.llmOps := (rfl)
@[simp] theorem State.setFn_tiers (f : Nat) (x : FnData) : (s.setFn f x).tiers = s.tiers := (rfl)
@[simp] theorem State.setFn_coll (f : Nat) (x : FnData) : (s.setFn f x).coll = s.coll := (rfl)
@[simp] theorem State.setFn_fw (f : Nat) (x : FnData) : (s.setFn f x).fw = s.fw := (rfl)
@[simp] theorem State.setFn_flt (f : Nat) (x : FnData) : (s.setFn f x).flt = s.flt := (rfl)
@[simp] theorem State.setFn_pwr (f : Nat) (x : FnData) : (s.setFn f x).pwr = s.pwr := (rfl)
@[simp] theorem State.setFn_pace (f : Nat) (x : FnData) : (s.setFn f x).pace = s.pace := (rfl)
@[simp] theorem State.setFn_phase (f : Nat) (x : FnData) : (s.setFn f x).phase = s.phase := (rfl)
@[simp] theorem State.setFn_pins (f : Nat) (x : FnData) : (s.setFn f x).pins = s.pins := (rfl)
@[simp] theorem State.setFn_recorded (f : Nat) (x : FnData) : (s.setFn f x).recorded = s.recorded := (rfl)
@[simp] theorem State.setFn_free (f : Nat) (x : FnData) : (s.setFn f x).free = s.free := (rfl)
@[simp] theorem State.setFn_out (f : Nat) (x : FnData) : (s.setFn f x).out = s.out := (rfl)
@[simp] theorem State.setFn_pending (f : Nat) (x : FnData) : (s.setFn f x).pending = s.pending := (rfl)
@[simp] theorem State.setFn_rd (f : Nat) (x : FnData) (k : Nat) : (s.setFn f x).rd k = s.rd k := (rfl)
@[simp] theorem State.setFn_get (f : Nat) (x : FnData) (g : Fld) : (s.setFn f x).get g = s.get g := (rfl)
@[simp] theorem State.setFn_now (f : Nat) (x : FnData) : (s.setFn f x).now = s.now := (rfl)
@[simp] theorem State.setFn_byte (f : Nat) (x : FnData) (sp' : Space) (a' : Nat) : (s.setFn f x).byte sp' a' = s.byte sp' a' := (rfl)
@[simp] theorem State.setFn_sealOf (f : Nat) (x : FnData) (sp' : Space) (a' : Nat) : (s.setFn f x).sealOf sp' a' = s.sealOf sp' a' := (rfl)
@[simp] theorem State.setFn_ctx (f : Nat) (x : FnData) (k' : Nat) : (s.setFn f x).ctx k' = s.ctx k' := (rfl)
@[simp] theorem State.setFn_tile (f : Nat) (x : FnData) (k' : Nat) : (s.setFn f x).tile k' = s.tile k' := (rfl)
@[simp] theorem State.setFn_commit (f : Nat) (x : FnData) (k' : Nat) : (s.setFn f x).commit k' = s.commit k' := (rfl)
@[simp] theorem State.setFn_port (f : Nat) (x : FnData) (k' : Nat) : (s.setFn f x).port k' = s.port k' := (rfl)
@[simp] theorem State.setFn_stk (f : Nat) (x : FnData) (k' : Nat) : (s.setFn f x).stk k' = s.stk k' := (rfl)
@[simp] theorem State.setFn_queue (f : Nat) (x : FnData) (q' : QueueId) : (s.setFn f x).queue q' = s.queue q' := (rfl)
@[simp] theorem State.setFn_wlist (f : Nat) (x : FnData) (p' w' : Nat) : (s.setFn f x).wlist p' w' = s.wlist p' w' := (rfl)

/-! ## `setStk` -/

@[simp] theorem State.setStk_regs (k : Nat) (x : Stack) : (s.setStk k x).regs = s.regs := (rfl)
@[simp] theorem State.setStk_mem (k : Nat) (x : Stack) : (s.setStk k x).mem = s.mem := (rfl)
@[simp] theorem State.setStk_seals (k : Nat) (x : Stack) : (s.setStk k x).seals = s.seals := (rfl)
@[simp] theorem State.setStk_eph (k : Nat) (x : Stack) : (s.setStk k x).eph = s.eph := (rfl)
@[simp] theorem State.setStk_ecl (k : Nat) (x : Stack) : (s.setStk k x).ecl = s.ecl := (rfl)
@[simp] theorem State.setStk_jtag (k : Nat) (x : Stack) : (s.setStk k x).jtag = s.jtag := (rfl)
@[simp] theorem State.setStk_ctxs (k : Nat) (x : Stack) : (s.setStk k x).ctxs = s.ctxs := (rfl)
@[simp] theorem State.setStk_queues (k : Nat) (x : Stack) : (s.setStk k x).queues = s.queues := (rfl)
@[simp] theorem State.setStk_tiles (k : Nat) (x : Stack) : (s.setStk k x).tiles = s.tiles := (rfl)
@[simp] theorem State.setStk_lists (k : Nat) (x : Stack) : (s.setStk k x).lists = s.lists := (rfl)
@[simp] theorem State.setStk_waits (k : Nat) (x : Stack) : (s.setStk k x).waits = s.waits := (rfl)
@[simp] theorem State.setStk_feeds (k : Nat) (x : Stack) : (s.setStk k x).feeds = s.feeds := (rfl)
@[simp] theorem State.setStk_barriers (k : Nat) (x : Stack) : (s.setStk k x).barriers = s.barriers := (rfl)
@[simp] theorem State.setStk_journal (k : Nat) (x : Stack) : (s.setStk k x).journal = s.journal := (rfl)
@[simp] theorem State.setStk_tables (k : Nat) (x : Stack) : (s.setStk k x).tables = s.tables := (rfl)
@[simp] theorem State.setStk_haloOps (k : Nat) (x : Stack) : (s.setStk k x).haloOps = s.haloOps := (rfl)
@[simp] theorem State.setStk_fetched (k : Nat) (x : Stack) : (s.setStk k x).fetched = s.fetched := (rfl)
@[simp] theorem State.setStk_shards (k : Nat) (x : Stack) : (s.setStk k x).shards = s.shards := (rfl)
@[simp] theorem State.setStk_orrOps (k : Nat) (x : Stack) : (s.setStk k x).orrOps = s.orrOps := (rfl)
@[simp] theorem State.setStk_commits (k : Nat) (x : Stack) : (s.setStk k x).commits = s.commits := (rfl)
@[simp] theorem State.setStk_ports (k : Nat) (x : Stack) : (s.setStk k x).ports = s.ports := (rfl)
@[simp] theorem State.setStk_xreqs (k : Nat) (x : Stack) : (s.setStk k x).xreqs = s.xreqs := (rfl)
@[simp] theorem State.setStk_txns (k : Nat) (x : Stack) : (s.setStk k x).txns = s.txns := (rfl)
@[simp] theorem State.setStk_seenGen (k : Nat) (x : Stack) : (s.setStk k x).seenGen = s.seenGen := (rfl)
@[simp] theorem State.setStk_delivered (k : Nat) (x : Stack) : (s.setStk k x).delivered = s.delivered := (rfl)
@[simp] theorem State.setStk_spray (k : Nat) (x : Stack) : (s.setStk k x).spray = s.spray := (rfl)
@[simp] theorem State.setStk_const (k : Nat) (x : Stack) : (s.setStk k x).const = s.const := (rfl)
@[simp] theorem State.setStk_pcie (k : Nat) (x : Stack) : (s.setStk k x).pcie = s.pcie := (rfl)
@[simp] theorem State.setStk_copies (k : Nat) (x : Stack) : (s.setStk k x).copies = s.copies := (rfl)
@[simp] theorem State.setStk_files (k : Nat) (x : Stack) : (s.setStk k x).files = s.files := (rfl)
@[simp] theorem State.setStk_nextPcie (k : Nat) (x : Stack) : (s.setStk k x).nextPcie = s.nextPcie := (rfl)
@[simp] theorem State.setStk_fns (k : Nat) (x : Stack) : (s.setStk k x).fns = s.fns := (rfl)
@[simp] theorem State.setStk_numVfs (k : Nat) (x : Stack) : (s.setStk k x).numVfs = s.numVfs := (rfl)
@[simp] theorem State.setStk_cfgSpace (k : Nat) (x : Stack) : (s.setStk k x).cfgSpace = s.cfgSpace := (rfl)
@[simp] theorem State.setStk_cfg (k : Nat) (x : Stack) : (s.setStk k x).cfg = s.cfg := (rfl)
@[simp] theorem State.setStk_lines (k : Nat) (x : Stack) : (s.setStk k x).lines = s.lines := (rfl)
@[simp] theorem State.setStk_llmOps (k : Nat) (x : Stack) : (s.setStk k x).llmOps = s.llmOps := (rfl)
@[simp] theorem State.setStk_tiers (k : Nat) (x : Stack) : (s.setStk k x).tiers = s.tiers := (rfl)
@[simp] theorem State.setStk_coll (k : Nat) (x : Stack) : (s.setStk k x).coll = s.coll := (rfl)
@[simp] theorem State.setStk_fw (k : Nat) (x : Stack) : (s.setStk k x).fw = s.fw := (rfl)
@[simp] theorem State.setStk_flt (k : Nat) (x : Stack) : (s.setStk k x).flt = s.flt := (rfl)
@[simp] theorem State.setStk_pwr (k : Nat) (x : Stack) : (s.setStk k x).pwr = s.pwr := (rfl)
@[simp] theorem State.setStk_pace (k : Nat) (x : Stack) : (s.setStk k x).pace = s.pace := (rfl)
@[simp] theorem State.setStk_phase (k : Nat) (x : Stack) : (s.setStk k x).phase = s.phase := (rfl)
@[simp] theorem State.setStk_pins (k : Nat) (x : Stack) : (s.setStk k x).pins = s.pins := (rfl)
@[simp] theorem State.setStk_recorded (k : Nat) (x : Stack) : (s.setStk k x).recorded = s.recorded := (rfl)
@[simp] theorem State.setStk_free (k : Nat) (x : Stack) : (s.setStk k x).free = s.free := (rfl)
@[simp] theorem State.setStk_out (k : Nat) (x : Stack) : (s.setStk k x).out = s.out := (rfl)
@[simp] theorem State.setStk_pending (k : Nat) (x : Stack) : (s.setStk k x).pending = s.pending := (rfl)
@[simp] theorem State.setStk_rd (k : Nat) (x : Stack) (k : Nat) : (s.setStk k x).rd k = s.rd k := (rfl)
@[simp] theorem State.setStk_get (k : Nat) (x : Stack) (g : Fld) : (s.setStk k x).get g = s.get g := (rfl)
@[simp] theorem State.setStk_now (k : Nat) (x : Stack) : (s.setStk k x).now = s.now := (rfl)
@[simp] theorem State.setStk_byte (k : Nat) (x : Stack) (sp' : Space) (a' : Nat) : (s.setStk k x).byte sp' a' = s.byte sp' a' := (rfl)
@[simp] theorem State.setStk_sealOf (k : Nat) (x : Stack) (sp' : Space) (a' : Nat) : (s.setStk k x).sealOf sp' a' = s.sealOf sp' a' := (rfl)
@[simp] theorem State.setStk_ctx (k : Nat) (x : Stack) (k' : Nat) : (s.setStk k x).ctx k' = s.ctx k' := (rfl)
@[simp] theorem State.setStk_tile (k : Nat) (x : Stack) (k' : Nat) : (s.setStk k x).tile k' = s.tile k' := (rfl)
@[simp] theorem State.setStk_commit (k : Nat) (x : Stack) (k' : Nat) : (s.setStk k x).commit k' = s.commit k' := (rfl)
@[simp] theorem State.setStk_port (k : Nat) (x : Stack) (k' : Nat) : (s.setStk k x).port k' = s.port k' := (rfl)
@[simp] theorem State.setStk_fn (k : Nat) (x : Stack) (k' : Nat) : (s.setStk k x).fn k' = s.fn k' := (rfl)
@[simp] theorem State.setStk_queue (k : Nat) (x : Stack) (q' : QueueId) : (s.setStk k x).queue q' = s.queue q' := (rfl)
@[simp] theorem State.setStk_wlist (k : Nat) (x : Stack) (p' w' : Nat) : (s.setStk k x).wlist p' w' = s.wlist p' w' := (rfl)

/-! ## What a group reads back -/

@[simp] theorem State.setCtx_ctx_same (n : Nat) (x : CtxData) : (s.setCtx n x).ctx n = x := smGet_smSet_same _ _ _ _
theorem State.setCtx_ctx_other {n m : Nat} (x : CtxData) (h : m ≠ n) : (s.setCtx n x).ctx m = s.ctx m :=
  smGet_smSet_other _ _ _ h
@[simp] theorem State.setTile_tile_same (n : Nat) (x : Tile) : (s.setTile n x).tile n = x := smGet_smSet_same _ _ _ _
theorem State.setTile_tile_other {n m : Nat} (x : Tile) (h : m ≠ n) : (s.setTile n x).tile m = s.tile m :=
  smGet_smSet_other _ _ _ h
@[simp] theorem State.setCommit_commit_same (n : Nat) (x : CommitData) : (s.setCommit n x).commit n = x := smGet_smSet_same _ _ _ _
theorem State.setCommit_commit_other {n m : Nat} (x : CommitData) (h : m ≠ n) : (s.setCommit n x).commit m = s.commit m :=
  smGet_smSet_other _ _ _ h
@[simp] theorem State.setPort_port_same (n : Nat) (x : Port) : (s.setPort n x).port n = x := smGet_smSet_same _ _ _ _
theorem State.setPort_port_other {n m : Nat} (x : Port) (h : m ≠ n) : (s.setPort n x).port m = s.port m :=
  smGet_smSet_other _ _ _ h
@[simp] theorem State.setFn_fn_same (n : Nat) (x : FnData) : (s.setFn n x).fn n = x := smGet_smSet_same _ _ _ _
theorem State.setFn_fn_other {n m : Nat} (x : FnData) (h : m ≠ n) : (s.setFn n x).fn m = s.fn m :=
  smGet_smSet_other _ _ _ h
@[simp] theorem State.setStk_stk_same (n : Nat) (x : Stack) : (s.setStk n x).stk n = x := smGet_smSet_same _ _ _ _
theorem State.setStk_stk_other {n m : Nat} (x : Stack) (h : m ≠ n) : (s.setStk n x).stk m = s.stk m :=
  smGet_smSet_other _ _ _ h
@[simp] theorem State.setQueue_queue_same (q : QueueId) (x : QueueData) : (s.setQueue q x).queue q = x :=
  smGet_smSet_same _ _ _ _
@[simp] theorem State.setWlist_wlist_same (p w : Nat) (x : WorkList) : (s.setWlist p w x).wlist p w = x :=
  smGet_smSet_same _ _ _ _

end Sys2Proof.Machine
end

