-- ==== Sys2Proof/Laws/Registers.lean ====
section
/-!
SUPPORT. The laws of register fields: a field written holds what was written, every other field and register keeps its value.
-/

namespace Sys2Proof.Machine

/-! ## Bits of a number -/

theorem bitsOf_testBit (hi lo v i : Nat) :
    (bitsOf hi lo v).testBit i = (decide (i < hi + 1 - lo) && v.testBit (lo + i)) := by
  simp [bitsOf, Nat.testBit_mod_two_pow, Nat.testBit_shiftRight]

theorem bitsOf_lt (hi lo v : Nat) : bitsOf hi lo v < 2 ^ (hi + 1 - lo) := Nat.mod_lt _ (Nat.two_pow_pos _)

/-- A number with a field replaced, bit by bit. -/
theorem withBits_testBit {hi lo : Nat} (h : lo ≤ hi) (x v i : Nat) :
    (withBits hi lo x v).testBit i = if lo ≤ i ∧ i ≤ hi then x.testBit (i - lo) else v.testBit i := by
  have hv : v = (v >>> (hi + 1)) * 2 ^ (hi + 1) + bitsOf hi lo v * 2 ^ lo + v % 2 ^ lo := by
    have e1 : v = (v / 2 ^ lo) * 2 ^ lo + v % 2 ^ lo := by rw [Nat.mul_comm]; exact (Nat.div_add_mod _ _).symm
    have e2 : v / 2 ^ lo = (v / 2 ^ lo / 2 ^ (hi + 1 - lo)) * 2 ^ (hi + 1 - lo) + v / 2 ^ lo % 2 ^ (hi + 1 - lo) := by
      rw [Nat.mul_comm]; exact (Nat.div_add_mod _ _).symm
    have e3 : v / 2 ^ lo / 2 ^ (hi + 1 - lo) = v / 2 ^ (hi + 1) := by
      rw [Nat.div_div_eq_div_mul, ← Nat.pow_add]; congr 2; omega
    have e4 : (2 : Nat) ^ (hi + 1 - lo) * 2 ^ lo = 2 ^ (hi + 1) := by rw [← Nat.pow_add]; congr 1; omega
    simp only [bitsOf, Nat.shiftRight_eq_div_pow]
    rw [e3] at e2
    conv => lhs; rw [e1, e2]
    rw [Nat.add_mul, Nat.mul_assoc, e4]
  have hw : withBits hi lo x v =
      (v >>> (hi + 1)) * 2 ^ (hi + 1) + (x % 2 ^ (hi + 1 - lo)) * 2 ^ lo + v % 2 ^ lo := by
    unfold withBits
    generalize bitsOf hi lo v = b at *
    omega
  have e4 : (2 : Nat) ^ (hi + 1 - lo) * 2 ^ lo = 2 ^ (hi + 1) := by rw [← Nat.pow_add]; congr 1; omega
  have hx : x % 2 ^ (hi + 1 - lo) < 2 ^ (hi + 1 - lo) := Nat.mod_lt _ (Nat.two_pow_pos _)
  have hlow : v % 2 ^ lo < 2 ^ lo := Nat.mod_lt _ (Nat.two_pow_pos _)
  have hmid : (x % 2 ^ (hi + 1 - lo)) * 2 ^ lo + v % 2 ^ lo < 2 ^ (hi + 1) := by
    calc (x % 2 ^ (hi + 1 - lo)) * 2 ^ lo + v % 2 ^ lo < (x % 2 ^ (hi + 1 - lo)) * 2 ^ lo + 2 ^ lo := by omega
      _ = (x % 2 ^ (hi + 1 - lo) + 1) * 2 ^ lo := by rw [Nat.add_mul, Nat.one_mul]
      _ ≤ 2 ^ (hi + 1 - lo) * 2 ^ lo := Nat.mul_le_mul_right _ hx
      _ = 2 ^ (hi + 1) := e4
  rw [hw, Nat.add_assoc, Nat.mul_comm _ (2 ^ (hi + 1)), Nat.testBit_two_pow_mul_add _ hmid]
  by_cases h1 : i < hi + 1
  · rw [if_pos h1, Nat.mul_comm _ (2 ^ lo), Nat.testBit_two_pow_mul_add _ hlow]
    by_cases h2 : i < lo
    · rw [if_pos h2, if_neg (by omega), Nat.testBit_mod_two_pow]; simp [h2]
    · rw [if_neg h2, if_pos (by omega), Nat.testBit_mod_two_pow]
      simp; omega
  · rw [if_neg h1, if_neg (by omega), Nat.testBit_shiftRight]
    congr 1; omega

theorem bitsOf_withBits_same {hi lo : Nat} (h : lo ≤ hi) (x v : Nat) :
    bitsOf hi lo (withBits hi lo x v) = x % 2 ^ (hi + 1 - lo) := by
  apply Nat.eq_of_testBit_eq
  intro i
  rw [bitsOf_testBit, withBits_testBit h, Nat.testBit_mod_two_pow]
  by_cases hi' : i < hi + 1 - lo
  · simp [hi', show lo + i ≤ hi by omega]
  · simp [hi']

theorem bitsOf_withBits_other {hi lo h2 l2 : Nat} (h : lo ≤ hi) (hd : h2 < lo ∨ hi < l2) (x v : Nat) :
    bitsOf h2 l2 (withBits hi lo x v) = bitsOf h2 l2 v := by
  apply Nat.eq_of_testBit_eq
  intro i
  rw [bitsOf_testBit, bitsOf_testBit, withBits_testBit h]
  by_cases hi' : i < h2 + 1 - l2
  · rw [if_neg (by omega)]
  · simp [hi']

theorem bitsOf_mod {hi lo v : Nat} (h : hi < 64) : bitsOf hi lo (v % 2 ^ 64) = bitsOf hi lo v := by
  apply Nat.eq_of_testBit_eq
  intro i
  rw [bitsOf_testBit, bitsOf_testBit, Nat.testBit_mod_two_pow]
  by_cases hi' : i < hi + 1 - lo
  · simp [show lo + i < 64 by omega]
  · simp [hi']

/-! ## Registers -/

theorem State.rd_lt (s : State) (off : Nat) : s.rd off < 2 ^ 64 := (smGet regReset s.regs off).isLt

@[simp] theorem State.wr_rd_same (s : State) (off v : Nat) : (s.wr off v).rd off = v % 2 ^ 64 := by
  simp [State.rd, State.wr, BitVec.toNat_ofNat]

theorem State.wr_rd_other (s : State) {off k : Nat} (v : Nat) (h : k ≠ off) : (s.wr off v).rd k = s.rd k := by
  simp [State.rd, State.wr, smGet_smSet, h]

theorem State.put_rd_other (s : State) {f : Fld} {k : Nat} (v : Nat) (h : k ≠ f.off) : (s.put f v).rd k = s.rd k :=
  s.wr_rd_other _ h

/-- A field written holds the low bits of what was written. -/
theorem State.put_get_same (s : State) {f : Fld} (v : Nat) (h : f.lo ≤ f.hi) (h64 : f.hi < 64) :
    (s.put f v).get f = v % 2 ^ (f.hi + 1 - f.lo) := by
  unfold State.get State.put
  rw [State.wr_rd_same, bitsOf_mod h64, bitsOf_withBits_same h]

/-- Another field keeps its value. -/
theorem State.put_get_other (s : State) {f g : Fld} (v : Nat) (h : f.lo ≤ f.hi) (h64 : g.hi < 64)
    (hd : g.off ≠ f.off ∨ g.hi < f.lo ∨ f.hi < g.lo) : (s.put f v).get g = s.get g := by
  unfold State.get State.put
  by_cases ho : g.off = f.off
  · rw [ho, State.wr_rd_same, bitsOf_mod h64, bitsOf_withBits_other h (hd.resolve_left (fun h => h ho))]
  · rw [s.wr_rd_other _ ho]

/-- A field holds a number of its width. -/
theorem State.get_lt (s : State) (f : Fld) : s.get f < 2 ^ (f.hi + 1 - f.lo) := bitsOf_lt _ _ _

/-- A value that fits its field is read back. -/
theorem State.put_get_eq (s : State) {f : Fld} {v : Nat} (h : f.lo ≤ f.hi) (h64 : f.hi < 64)
    (hv : v < 2 ^ (f.hi + 1 - f.lo)) : (s.put f v).get f = v := by
  rw [s.put_get_same v h h64, Nat.mod_eq_of_lt hv]

/-- The module time fits its register. -/
theorem State.now_lt (s : State) : s.now < 2 ^ 64 := bitsOf_lt 63 0 _

end Sys2Proof.Machine
end

