-- ==== Sys2Proof/Laws/Gates.lean ====
section
/-!
SUPPORT. What each shared gate does when its checks pass: the command ring, a tile's issue, the queue pairs, the work lists,
the configuration engine, the firmware, and a port.
-/

namespace Sys2Proof.Machine

open Sys2Proof

/-- A powered state that takes writes is on and not frozen. -/
theorem State.takesWrites_iff (s : State) : s.takesWrites = true ↔ s.on = true ∧ s.frozen = false := by
  simp [State.takesWrites]

/-- A command at a ring's head that passes its checks has its own effect on the state whose ring has moved on. -/
theorem State.command_ready {s : State} {n op : Nat} {e : Entry} (body : State → Nat → Entry → State)
    (h : s.cmdReady n op e = true) :
    s.command n op body = body (s.advance (.cmdRing n) 1) (s.get (qHead (.cmdRing n))) e := by
  simp only [State.cmdReady, Bool.and_eq_true, bne_iff_ne, beq_iff_eq, Bool.not_eq_true', Bool.or_eq_true,
    Option.isSome_iff_ne_none] at h
  obtain ⟨⟨⟨⟨⟨⟨⟨⟨⟨⟨h1, h2⟩, h3⟩, h4⟩, h5⟩, h6⟩, h7⟩, h8⟩, h9⟩, h10⟩, h11⟩ := h
  have hp : ¬ (opIssuer op = some .pf0 ∧ s.fnOf n ≠ 0) := by rintro ⟨a, b⟩; exact h10.elim (fun c => c a) fun c => b c
  unfold State.command
  subst h8
  simp [h1, h2, h3, h4, h5, h6, h7, h9, h11, hp, State.take]

/-- A macro-op at the head of a tile's issue that passes its checks has its own effect, with its loop's strides applied. -/
theorem State.macroOp_ready {s : State} {t op : Nat} {w : Entry} {chk : Entry → Option Nat} {regs : Entry → List Reg}
    {blocks : Entry → Nat} (body : State → Entry → List Reg → State) (h : s.opReady t op w chk regs blocks = true) :
    s.macroOp t op w chk regs blocks body = body s (s.opForm t blocks w) (regs (s.opForm t blocks w)) := by
  simp only [State.opReady, Bool.and_eq_true, beq_iff_eq, Bool.not_eq_true', decide_eq_true_eq,
    Option.isSome_iff_ne_none, Option.isNone_iff_eq_none] at h
  obtain ⟨⟨⟨⟨⟨⟨⟨⟨⟨⟨h1, h2⟩, h3⟩, h4⟩, h5⟩, h6⟩, h7⟩, h8⟩, h9⟩, h10⟩, h11⟩ := h
  have hb : ¬ (s.unitFull t ((opUnit op).getD 0) || s.hazard t (regs (s.opForm t blocks w))) = true := by simp [h10, h11]
  unfold State.macroOp
  dsimp only
  rw [if_neg (by simp [h1]), if_neg (Nat.not_le.mpr h2), if_neg (by simp [h3]), if_neg h4, if_neg (by simp [h5]),
    if_neg (by simp [h6]), if_neg (by simp [h7])]
  change (match chk (s.opForm t blocks w) with
    | some r => s.malform t r w
    | none => if ((regs (s.opForm t blocks w)).any fun r => r.wr && rangesMeet r.off r.len (s.tile t).progStart
          (s.tile t).progLen) = true then s.malform t 0x07 w
        else if (s.unitFull t ((opUnit op).getD 0) || s.hazard t (regs (s.opForm t blocks w))) = true then s
        else body s (s.opForm t blocks w) (regs (s.opForm t blocks w))) = _
  rw [h8]
  dsimp only
  rw [if_neg (by simp [h9]), if_neg hb]

/-- A unit whose own check passes, and whose slots are good, does its work; an in-place form saves its pre-images first. -/
theorem State.compute_pass {s : State} {t : Nat} {w : Entry} {rs : List Reg} (pre : Bool) (k : State → State)
    (h : s.slotsGood t rs = true) : s.compute t w rs .pass pre k = if pre then s.withPre t w rs rs [] k else k s := by
  have h2 : s.slotCheck t rs = none := by simpa [State.slotsGood, Option.isNone_iff_eq_none] using h
  simp [State.compute, State.checked, h2]

/-- A vector macro-op that is ready has its own effect. -/
theorem State.vector_ready {s : State} {t c : Nat} {w : Entry} (body : State → Entry → List Reg → State)
    (h : s.vecReady t c w = true) :
    s.vector t c w .pass body = body s (s.opForm t (vBlocks c) w) (vRegs c (s.opForm t (vBlocks c) w)) := by
  simp only [State.vecReady, Bool.and_eq_true, Bool.not_eq_true'] at h
  obtain ⟨⟨h1, h2⟩, h3⟩ := h
  unfold State.vector
  rw [show (fun v => if vUsesD c then blocksFor (lvFmt v 3) (vShapeD c v).1 (vShapeD c v).2 else 0) = vBlocks c from rfl]
  rw [State.macroOp_ready _ h1]
  dsimp only
  rw [State.compute_pass _ _ h2, h3]
  rfl

/-- A descriptor at the head of a Halo queue pair that passes its checks is taken, and its own effect follows. -/
theorem State.haloHead_ready {s : State} {k qp op : Nat} {e : Entry} (body : State → HaloOp → State)
    (h : s.haloHeadReady k qp op e = true) :
    s.haloHead k qp op body = body (s.haloTaken k qp op e) (s.haloOpOf k qp op e) := by
  simp only [State.haloHeadReady, Bool.and_eq_true, beq_iff_eq, Bool.not_eq_true'] at h
  obtain ⟨⟨⟨⟨⟨⟨h1, h2⟩, h3⟩, h4⟩, h5⟩, h6⟩, h7⟩ := h
  unfold State.haloHead
  dsimp only [State.take]
  rw [if_neg (by simp [h1]), h2]
  dsimp only
  rw [if_neg (by simp [h3]), if_neg (by simp [h4]), if_neg (by simp [h5]), h6]
  dsimp only
  rw [if_pos h7]

/-- A descriptor at the head of an Orrery queue pair that passes its checks is taken, and its Orrery tries its work. -/
theorem State.orrHead_ready {s : State} {q qp op : Nat} {e : Entry} (h : s.orrHeadReady q qp op e = true) :
    s.orrHead q qp op = (s.orrTaken q qp op e).orrTry (s.orrOpOf q qp op e) := by
  simp only [State.orrHeadReady, Bool.and_eq_true, beq_iff_eq, Bool.not_eq_true'] at h
  obtain ⟨⟨⟨⟨⟨⟨h1, h2⟩, h3⟩, h4⟩, h5⟩, h6⟩, h7⟩ := h
  unfold State.orrHead
  dsimp only [State.take]
  rw [if_neg (by simp [h1]), h2]
  dsimp only
  rw [if_neg (by simp [h3]), if_neg (by simp [h4]), if_neg (by simp [h5]), h6]
  dsimp only
  rw [if_pos h7]

/-- An entry at the head of a work list that passes its checks has its own effect. -/
theorem State.wlHead_ready {s : State} {p w kind : Nat} {e : Entry} (body : Entry → State)
    (h : s.listHeadReady p w kind e = true) : s.wlHead p w kind body = body e := by
  simp only [State.listHeadReady, Bool.and_eq_true, beq_iff_eq, Bool.not_eq_true', Option.isNone_iff_eq_none] at h
  obtain ⟨⟨⟨⟨⟨⟨h1, h2⟩, h3⟩, h4⟩, h5⟩, h6⟩, h7⟩ := h
  have hd : ¬ (Entry_bits e 2 31 31 = 1 ∧ (s.get (HUB_WL_SEQ_NEXT_SEQ p (Entry_bits e 2 30 28)) ≤ Entry_bits e 3 47 0 ∨
      s.isInflight p (Entry_bits e 2 30 28) (Entry_bits e 3 47 0) = true)) := by
    intro hc; simp [hc.1] at h6; rcases hc.2 with a | a
    · omega
    · simp [a] at h6
  unfold State.wlHead
  simp only [h1, h2, h3, h4, h5, h7, hd]
  simp

/-- A command of the configuration engine that is served at once has its own effect. -/
theorem State.cfgCommand_ready {s : State} {path : Path} (i : Instr) (body : State → State) (h : s.cfgReady path = true) :
    s.cfgCommand path i body = body s := by
  simp only [State.cfgReady, Bool.and_eq_true, bne_iff_ne, beq_iff_eq, Bool.not_eq_true', decide_eq_true_eq,
    State.takesWrites_iff] at h
  obtain ⟨⟨⟨⟨⟨⟨⟨h1, h2⟩, h3⟩, h4⟩, h5⟩, h6⟩, h7⟩, h8⟩ := h
  have hw : s.wakeModule = s := by simp [State.wakeModule, Nat.not_le.mpr h4]
  unfold State.cfgCommand
  simp [h1.1, h1.2, h2, h3, hw, h5, h6, h7, h8]

/-- An update command that is served at once has its own effect, in the states that take it. -/
theorem State.fwCommand_ready {s : State} {path : Path} (op : Nat) (i : Instr) {states : List Nat} (body : State → State)
    (h : s.fwReady path = true) (hu : states.contains (s.get FW_STATUS_UPD) = true)
    (hb : s.get FW_STATUS_UPD ≠ 1 ∧ s.get FW_STATUS_UPD ≠ 3 ∧ s.get FW_STATUS_UPD ≠ 5) :
    s.fwCommand path op i states body = body s := by
  simp only [State.fwReady, Bool.and_eq_true, bne_iff_ne, beq_iff_eq, decide_eq_true_eq, State.takesWrites_iff] at h
  obtain ⟨⟨⟨h1, h2⟩, h3⟩, h4⟩ := h
  have hw : s.wakeModule = s := by simp [State.wakeModule, Nat.not_le.mpr h4]
  unfold State.fwCommand
  simp only [hw]
  simp [h1.1, h1.2, h2, h3, hb] at hu ⊢
  simp [hu]

/-- A good packet in order, of a known type, is acknowledged and handed up. -/
theorem State.receive_ready {s : State} (i : Instr) {rx : Rx} (h : s.rxReady rx = true) :
    s.receive i rx = (s.rxTaken rx).handUp i (rx.port % 32) rx.pkt := by
  simp only [State.rxReady, Bool.and_eq_true, bne_iff_ne, beq_iff_eq, Bool.or_eq_true] at h
  obtain ⟨⟨⟨⟨⟨⟨⟨h1, h2⟩, h3⟩, h4⟩, h5⟩, h6⟩, h7⟩, h8⟩ := h
  unfold State.receive
  simp [h1, h2, h3, h4, h5, h6, h7, h8, State.rxTaken]

end Sys2Proof.Machine
end

