-- ==== Sys2Proof/Laws/Memory.lean ====
section
/-!
SUPPORT. Memory's own laws: the canonical form at reset and after every operation that writes memory or seals, and
what a byte or a seal reads as after a write.
-/

namespace Sys2Proof.Machine

/-! ## The canonical form -/

theorem memory_wf_reset : Memory.wf State.reset.mem = true := rfl

theorem seals_wf_reset : smWf sealAt0 State.reset.seals = true := rfl

theorem memory_wf_setBytes {s : State} (sp : Space) (a : Nat) (bs : List Byte) (w : Memory.wf s.mem = true) :
    Memory.wf (s.setBytes sp a bs).mem = true :=
  smWf_smSetList byte0 bs _ w

theorem seals_wf_setSeal {s : State} (sp : Space) (a : Nat) (x : Seal) (w : smWf sealAt0 s.seals = true) :
    smWf sealAt0 (s.setSeal sp a x).seals = true :=
  smWf_smSet sealAt0 _ x w

theorem memory_wf_setBlock {s : State} (sp : Space) (a : Nat) (bs : List Byte) (x : Seal)
    (w : Memory.wf s.mem = true) : Memory.wf (s.setBlock sp a bs x).mem = true :=
  memory_wf_setBytes sp _ _ w

theorem seals_wf_setBlock {s : State} (sp : Space) (a : Nat) (bs : List Byte) (x : Seal)
    (w : smWf sealAt0 s.seals = true) : smWf sealAt0 (s.setBlock sp a bs x).seals = true :=
  seals_wf_setSeal sp a x w

@[simp] theorem reseal_mem (s : State) (sp : Space) (a : Nat) : (s.reseal sp a).mem = s.mem :=
  State.setSeal_mem s sp a _

theorem seals_wf_reseal {s : State} (sp : Space) (a : Nat) (w : smWf sealAt0 s.seals = true) :
    smWf sealAt0 (s.reseal sp a).seals = true :=
  seals_wf_setSeal sp a _ w

theorem foldl_reseal_mem (sp : Space) (l : List Nat) :
    ∀ s : State, (l.foldl (fun t b => t.reseal sp b) s).mem = s.mem := by
  induction l with
  | nil => intro s; rfl
  | cons b l ih => intro s; rw [List.foldl_cons, ih, reseal_mem]

theorem seals_wf_foldl_reseal (sp : Space) (l : List Nat) :
    ∀ {s : State}, smWf sealAt0 s.seals = true →
      smWf sealAt0 (l.foldl (fun t b => t.reseal sp b) s).seals = true := by
  induction l with
  | nil => intro s w; exact w
  | cons b l ih => intro s w; exact ih (seals_wf_reseal sp b w)

/-- A partial write changes memory as the plain write of its bytes does; it only adds correct seals (R444). -/
theorem partialWrite_mem (s : State) (sp : Space) (a : Nat) (bs : List Byte) :
    (s.partialWrite sp a bs).mem = (s.setBytes sp a bs).mem :=
  foldl_reseal_mem sp _ _

theorem memory_wf_partialWrite {s : State} (sp : Space) (a : Nat) (bs : List Byte) (w : Memory.wf s.mem = true) :
    Memory.wf (s.partialWrite sp a bs).mem = true := by
  rw [partialWrite_mem]; exact memory_wf_setBytes sp a bs w

theorem seals_wf_partialWrite {s : State} (sp : Space) (a : Nat) (bs : List Byte)
    (w : smWf sealAt0 s.seals = true) : smWf sealAt0 (s.partialWrite sp a bs).seals = true :=
  seals_wf_foldl_reseal sp _ w

theorem memory_wf_dropCore {s : State} (w : Memory.wf s.mem = true) : Memory.wf s.dropCore.mem = true :=
  smWf_filter byte0 _ w

theorem memory_wf_clearSlice {s : State} (k : Nat) (w : Memory.wf s.mem = true) :
    Memory.wf (s.clearSlice k).mem = true :=
  smWf_filter byte0 _ w

theorem seals_wf_clearSlice {s : State} (k : Nat) (w : smWf sealAt0 s.seals = true) :
    smWf sealAt0 (s.clearSlice k).seals = true :=
  smWf_filter sealAt0 _ w

theorem memory_wf_restoreBlock {s : State} (b : Nat × Seal × List Byte) (w : Memory.wf s.mem = true) :
    Memory.wf (s.restoreBlock b).mem = true :=
  smWf_smSetList byte0 _ _ w

theorem seals_wf_restoreBlock {s : State} (b : Nat × Seal × List Byte) (w : smWf sealAt0 s.seals = true) :
    smWf sealAt0 (s.restoreBlock b).seals = true :=
  smWf_smSet sealAt0 _ _ w

theorem memory_wf_copyStore {s : State} (t u : Nat) (w : Memory.wf s.mem = true) :
    Memory.wf (s.copyStore t u).mem = true :=
  smWf_foldl_smSet byte0 _ _ _ (smWf_filter byte0 _ w)

theorem seals_wf_copyStore {s : State} (t u : Nat) (w : smWf sealAt0 s.seals = true) :
    smWf sealAt0 (s.copyStore t u).seals = true :=
  smWf_foldl_smSet sealAt0 _ _ _ (smWf_filter sealAt0 _ w)

/-! ### The state a cold reset starts from

It keeps the bytes of the non-volatile spaces and no other. -/

theorem bootRegs_mem (s : State) (keep : Bool) (b : State) : (s.bootRegs keep b).mem = b.mem := by
  cases keep <;> simp [State.bootRegs]

theorem bootRegs_seals (s : State) (keep : Bool) (b : State) : (s.bootRegs keep b).seals = b.seals := by
  cases keep <;> simp [State.bootRegs]

theorem memory_wf_coldBase {s : State} (keep : Bool) (w : Memory.wf s.mem = true) :
    Memory.wf (s.coldBase keep).mem = true := by
  rw [State.coldBase, bootRegs_mem]; exact smWf_filter byte0 _ w

theorem seals_wf_coldBase {s : State} (keep : Bool) (w : smWf sealAt0 s.seals = true) :
    smWf sealAt0 (s.coldBase keep).seals = true := by
  rw [State.coldBase, bootRegs_seals]; exact smWf_filter sealAt0 _ w

/-! ## Reads after writes -/

/-- A seal just written reads as written. -/
theorem sealOf_setSeal (s : State) (sp : Space) (a : Nat) (x : Seal) : (s.setSeal sp a x).sealOf sp a = x :=
  smGet_smSet_same sealAt0 _ _ _

/-- A byte after a write of bytes: a written one reads as written, every other as before. -/
theorem byte_setBytes (s : State) (sp sp' : Space) (a a' : Nat) (bs : List Byte) :
    (s.setBytes sp a bs).byte sp' a' =
      if h : memKey sp a ≤ memKey sp' a' ∧ memKey sp' a' < memKey sp a + bs.length then
        bs[memKey sp' a' - memKey sp a]'(by omega) else s.byte sp' a' :=
  smGet_smSetList byte0 bs s.mem (memKey sp a) (memKey sp' a')

end Sys2Proof.Machine
end

