-- ==== Sys2Proof/Laws/PerInstr.lean ====
section
/-!
SUPPORT. One statement about every command as syntax: a well-formed command comes on a path that names what the spec gives,
PF0, a VF from 1 to 255, or a port of the module's own control cores (R326).
-/

namespace Sys2Proof.Laws.WellFormedPath

open Sys2Proof

/-- A well-formed command's path is well-formed. -/
def Statement (i : Instr) : Prop := wellFormed i = true → ∀ p, Instr_path i = some p → pathWf p = true

theorem accessUnsupportedSize (off : Nat) (size : Nat) (write : Bool) (fn : Nat) : Statement (.accessUnsupportedSize off size write fn) := by intro _ p e; cases e
theorem accessOutsideBlocks (off : Nat) (write : Bool) (fn : Nat) : Statement (.accessOutsideBlocks off write fn) := by intro _ p e; cases e
theorem registerWrite (path : Path) (a : RegAddr) (h : Half) (v : Word) : Statement (.registerWrite path a h v) := by
  intro h p e; cases e; exact (Bool.and_eq_true_iff.mp h).1
theorem rcFieldRead (path : Path) (a : RegAddr) (h : Half) : Statement (.rcFieldRead path a h) := by
  intro h p e; cases e; exact (Bool.and_eq_true_iff.mp h).1
theorem extentChangeTakesEffect (ctx : Fin 4096) : Statement (.extentChangeTakesEffect ctx) := by intro _ p e; cases e
theorem bar0WindowAccess (off : Nat) (h : Half) (write : Option Word) : Statement (.bar0WindowAccess off h write) := by intro _ p e; cases e
theorem bar2Read (fn : Fin 256) (off : Nat) (len : Nat) : Statement (.bar2Read fn off len) := by intro _ p e; cases e
theorem bar2Write (fn : Fin 256) (off : Nat) (data : List Byte) : Statement (.bar2Write fn off data) := by intro _ p e; cases e
theorem pTierRefused (req : Nat) : Statement (.pTierRefused req) := by intro _ p e; cases e
theorem pcieCompletionPoisoned (req : Nat) : Statement (.pcieCompletionPoisoned req) := by intro _ p e; cases e
theorem pcieCompletionTimeout (req : Nat) : Statement (.pcieCompletionTimeout req) := by intro _ p e; cases e
theorem contextFree (ctx : Fin 4096) : Statement (.contextFree ctx) := by intro _ p e; cases e
theorem loadBuffer (path : Path) : Statement (.loadBuffer path) := by
  intro h p e; cases e; exact (Bool.and_eq_true_iff.mp h).1
theorem loadSlot (path : Path) (slot : Fin 8) : Statement (.loadSlot path slot) := by
  intro h p e; cases e; exact (Bool.and_eq_true_iff.mp h).1
theorem check (path : Path) : Statement (.check path) := by
  intro h p e; cases e; exact (Bool.and_eq_true_iff.mp h).1
theorem checkComplete : Statement (.checkComplete) := by intro _ p e; cases e
theorem arm (path : Path) (w : Word) : Statement (.arm path w) := by
  intro h p e; cases e; exact (Bool.and_eq_true_iff.mp h).1
theorem discard (path : Path) : Statement (.discard path) := by
  intro h p e; cases e; exact (Bool.and_eq_true_iff.mp h).1
theorem cfgStore (path : Path) (slot : Fin 8) : Statement (.cfgStore path slot) := by
  intro h p e; cases e; exact (Bool.and_eq_true_iff.mp h).1
theorem revert (path : Path) : Statement (.revert path) := by
  intro h p e; cases e; exact (Bool.and_eq_true_iff.mp h).1
theorem cfgConfirm (path : Path) : Statement (.cfgConfirm path) := by
  intro h p e; cases e; exact (Bool.and_eq_true_iff.mp h).1
theorem eraseSlot (path : Path) (slot : Fin 8) : Statement (.eraseSlot path slot) := by
  intro h p e; cases e; exact (Bool.and_eq_true_iff.mp h).1
theorem cfgRaiseSvnFloor (path : Path) : Statement (.cfgRaiseSvnFloor path) := by
  intro h p e; cases e; exact (Bool.and_eq_true_iff.mp h).1
theorem cfgOpUnassigned (path : Path) (op : Nat) : Statement (.cfgOpUnassigned path op) := by
  intro h p e; cases e; exact (Bool.and_eq_true_iff.mp h).1
theorem mirrorWrite (path : Path) (off : Nat) (h : Half) (v : Word) : Statement (.mirrorWrite path off h v) := by
  intro h p e; cases e; exact (Bool.and_eq_true_iff.mp h).1
theorem drainEnd : Statement (.drainEnd) := by intro _ p e; cases e
theorem drainLimitExpire : Statement (.drainLimitExpire) := by intro _ p e; cases e
theorem armTimeoutExpire : Statement (.armTimeoutExpire) := by intro _ p e; cases e
theorem trialExpire : Statement (.trialExpire) := by intro _ p e; cases e
theorem directoryWriteComplete : Statement (.directoryWriteComplete) := by intro _ p e; cases e
theorem qsatCtlWrite (path : Path) (t : Fin 272) (h : Half) (v : Word) : Statement (.qsatCtlWrite path t h v) := by
  intro h p e; cases e; exact (Bool.and_eq_true_iff.mp h).1
theorem waitTimeout (t : Fin 272) : Statement (.waitTimeout t) := by intro _ p e; cases e
theorem macroOpComplete (t : Fin 272) : Statement (.macroOpComplete t) := by intro _ p e; cases e
theorem queueEnWrite (path : Path) (q : QueueId) (en : Bool) : Statement (.queueEnWrite path q en) := by
  intro h p e; cases e; exact (Bool.and_eq_true_iff.mp h).1
theorem queueRestart (path : Path) (q : QueueId) : Statement (.queueRestart path q) := by
  intro h p e; cases e; exact (Bool.and_eq_true_iff.mp h).1
theorem queueTailWrite (path : Path) (q : QueueId) (tail : Nat) : Statement (.queueTailWrite path q tail) := by
  intro h p e; cases e; exact (Bool.and_eq_true_iff.mp h).1
theorem completionRingRoom (path : Path) (q : QueueId) (head : Nat) : Statement (.completionRingRoom path q head) := by
  intro h p e; cases e; exact (Bool.and_eq_true_iff.mp h).1
theorem streamAccessResume (i : Fin 1024) : Statement (.streamAccessResume i) := by intro _ p e; cases e
theorem streamWatchdogExpire (i : Fin 1024) : Statement (.streamWatchdogExpire i) := by intro _ p e; cases e
theorem moduleMeridianRaise : Statement (.moduleMeridianRaise) := by intro _ p e; cases e
theorem jobReleaseInstant (p : Fin 128) : Statement (.jobReleaseInstant p) := by intro _ p e; cases e
theorem meridianTimeout (p : Fin 128) (scope : Fin 3) : Statement (.meridianTimeout p scope) := by intro _ p e; cases e
theorem dimTokenSend (p : Fin 128) : Statement (.dimTokenSend p) := by intro _ p e; cases e
theorem paceSetWrite (path : Path) (v : Nat) : Statement (.paceSetWrite path v) := by
  intro h p e; cases e; exact (Bool.and_eq_true_iff.mp h).1
theorem paceGroupBoundary (groups : Nat) : Statement (.paceGroupBoundary groups) := by intro _ p e; cases e
theorem droopTrip (detector : Fin 1088) : Statement (.droopTrip detector) := by intro _ p e; cases e
theorem droopClear (slots : Nat) : Statement (.droopClear slots) := by intro _ p e; cases e
theorem paceEpoch : Statement (.paceEpoch) := by intro _ p e; cases e
theorem offline (s : Fin 12) (c : Fin 34) : Statement (.offline s c) := by intro _ p e; cases e
theorem online (s : Fin 12) (c : Fin 34) : Statement (.online s c) := by intro _ p e; cases e
theorem sparingCopyComplete (s : Fin 12) (c : Fin 34) : Statement (.sparingCopyComplete s c) := by intro _ p e; cases e
theorem channelUnreadable (s : Fin 12) (c : Fin 34) : Statement (.channelUnreadable s c) := by intro _ p e; cases e
theorem foldComplete (s : Fin 12) (c : Fin 34) : Statement (.foldComplete s c) := by intro _ p e; cases e
theorem stackTempSample (s : Fin 12) (temp : Nat) : Statement (.stackTempSample s temp) := by intro _ p e; cases e
theorem t3HoldExpire (s : Fin 12) : Statement (.t3HoldExpire s) := by intro _ p e; cases e
theorem exerciserStart (s : Fin 12) : Statement (.exerciserStart s) := by intro _ p e; cases e
theorem exerciserAbort (s : Fin 12) : Statement (.exerciserAbort s) := by intro _ p e; cases e
theorem exerciserRunComplete (s : Fin 12) (errors : Nat) (marginLo : Nat) (marginHi : Nat) : Statement (.exerciserRunComplete s errors marginLo marginHi) := by intro _ p e; cases e
theorem llmFlush (q : Fin 4) (i : Fin 17) : Statement (.llmFlush q i) := by intro _ p e; cases e
theorem llmInvalidate (q : Fin 4) (i : Fin 17) : Statement (.llmInvalidate q i) := by intro _ p e; cases e
theorem llmFlushInvalidate (q : Fin 4) (i : Fin 17) : Statement (.llmFlushInvalidate q i) := by intro _ p e; cases e
theorem llmOpComplete (q : Fin 4) (i : Fin 17) : Statement (.llmOpComplete q i) := by intro _ p e; cases e
theorem llmSliceCopyComplete (q : Fin 4) (i : Fin 17) : Statement (.llmSliceCopyComplete q i) := by intro _ p e; cases e
theorem deferralHeadReadmit (point : Nat) : Statement (.deferralHeadReadmit point) := by intro _ p e; cases e
theorem deferralWaitLimit (point : Nat) : Statement (.deferralWaitLimit point) := by intro _ p e; cases e
theorem promotionComplete (s : Fin 12) (tid : Nat) (row : Nat) (ok : Bool) : Statement (.promotionComplete s tid row ok) := by intro _ p e; cases e
theorem writeBackAck (s : Fin 12) (tid : Nat) (row : Nat) : Statement (.writeBackAck s tid row) := by intro _ p e; cases e
theorem dWriteAcknowledge (id : Nat) : Statement (.dWriteAcknowledge id) := by intro _ p e; cases e
theorem garbageCollection (moved : Nat) : Statement (.garbageCollection moved) := by intro _ p e; cases e
theorem staticWearLevelling (moved : Nat) : Statement (.staticWearLevelling moved) := by intro _ p e; cases e
theorem readDisturbRefresh (block : Nat) (moved : Nat) : Statement (.readDisturbRefresh block moved) := by intro _ p e; cases e
theorem retentionRefresh (moved : Nat) : Statement (.retentionRefresh moved) := by intro _ p e; cases e
theorem badBlockRetirement (block : Nat) (lost : List Nat) : Statement (.badBlockRetirement block lost) := by intro _ p e; cases e
theorem deepRestoreComplete : Statement (.deepRestoreComplete) := by intro _ p e; cases e
theorem governorCreditSave : Statement (.governorCreditSave) := by intro _ p e; cases e
theorem translationRebuildComplete : Statement (.translationRebuildComplete) := by intro _ p e; cases e
theorem replPushTimeout (s : Fin 12) (tid : Nat) (row : Nat) : Statement (.replPushTimeout s tid row) := by intro _ p e; cases e
theorem loadWindowEnd (s : Fin 12) (tid : Nat) : Statement (.loadWindowEnd s tid) := by intro _ p e; cases e
theorem migrationCopyComplete (s : Fin 12) (tid : Nat) : Statement (.migrationCopyComplete s tid) := by intro _ p e; cases e
theorem rowMapRebuildComplete (s : Fin 12) (tid : Nat) (replica : Bool) : Statement (.rowMapRebuildComplete s tid replica) := by intro _ p e; cases e
theorem rootComputeComplete (q : Fin 4) (k : Fin 512) : Statement (.rootComputeComplete q k) := by intro _ p e; cases e
theorem checkBarrierRelease (p : Fin 128) : Statement (.checkBarrierRelease p) := by intro _ p e; cases e
theorem verdictRelease (p : Fin 128) : Statement (.verdictRelease p) := by intro _ p e; cases e
theorem parallaxWindowExpire (p : Fin 128) : Statement (.parallaxWindowExpire p) := by intro _ p e; cases e
theorem signalDetect (port : Fin 32) (lanes : Nat) : Statement (.signalDetect port lanes) := by intro _ p e; cases e
theorem trainingStepDone (port : Fin 32) (lanes : Nat) : Statement (.trainingStepDone port lanes) := by intro _ p e; cases e
theorem trainingStepTimeout (port : Fin 32) : Statement (.trainingStepTimeout port) := by intro _ p e; cases e
theorem signalLost (port : Fin 32) : Statement (.signalLost port) := by intro _ p e; cases e
theorem calibrationDue (port : Fin 32) : Statement (.calibrationDue port) := by intro _ p e; cases e
theorem calibrationDone (port : Fin 32) : Statement (.calibrationDone port) := by intro _ p e; cases e
theorem retrainDone (port : Fin 32) (lanes : Nat) : Statement (.retrainDone port lanes) := by intro _ p e; cases e
theorem train (port : Fin 32) (payload : List Byte) : Statement (.train port payload) := by intro _ p e; cases e
theorem linkAck (port : Fin 32) (ack : Nat) : Statement (.linkAck port ack) := by intro _ p e; cases e
theorem linkNak (port : Fin 32) (ack : Nat) : Statement (.linkNak port ack) := by intro _ p e; cases e
theorem replayTimerExpire (port : Fin 32) : Statement (.replayTimerExpire port) := by intro _ p e; cases e
theorem errCounterDecay (port : Fin 32) : Statement (.errCounterDecay port) := by intro _ p e; cases e
theorem c0MoveComplete (port : Fin 32) : Statement (.c0MoveComplete port) := by intro _ p e; cases e
theorem portRetrain (path : Path) (port : Fin 32) : Statement (.portRetrain path port) := by
  intro h p e; cases e; exact (Bool.and_eq_true_iff.mp h).1
theorem portClear (path : Path) (port : Fin 32) : Statement (.portClear path port) := by
  intro h p e; cases e; exact (Bool.and_eq_true_iff.mp h).1
theorem portCalibrate (path : Path) (port : Fin 32) : Statement (.portCalibrate path port) := by
  intro h p e; cases e; exact (Bool.and_eq_true_iff.mp h).1
theorem portReset (path : Path) (port : Fin 32) : Statement (.portReset path port) := by
  intro h p e; cases e; exact (Bool.and_eq_true_iff.mp h).1
theorem portDrainComplete (port : Fin 32) : Statement (.portDrainComplete port) := by intro _ p e; cases e
theorem routeFlip (path : Path) : Statement (.routeFlip path) := by
  intro h p e; cases e; exact (Bool.and_eq_true_iff.mp h).1
theorem xtTimeoutExpire (unit : Nat) (txn : Nat) : Statement (.xtTimeoutExpire unit txn) := by intro _ p e; cases e
theorem routeWaitExpire (unit : Nat) (txn : Nat) : Statement (.routeWaitExpire unit txn) := by intro _ p e; cases e
theorem portQueueWaitExpire (port : Fin 32) : Statement (.portQueueWaitExpire port) := by intro _ p e; cases e
theorem ethernetFrameReceive (port : Fin 32) (f : Frame) : Statement (.ethernetFrameReceive port f) := by intro _ p e; cases e
theorem ethernetResendTimer (port : Fin 32) (unit : Nat) (txn : Nat) : Statement (.ethernetResendTimer port unit txn) := by intro _ p e; cases e
theorem readReq (rx : Rx) : Statement (.readReq rx) := by intro _ p e; cases e
theorem readRsp (rx : Rx) : Statement (.readRsp rx) := by intro _ p e; cases e
theorem writeReq (rx : Rx) : Statement (.writeReq rx) := by intro _ p e; cases e
theorem writeAck (rx : Rx) : Statement (.writeAck rx) := by intro _ p e; cases e
theorem rowReq (rx : Rx) : Statement (.rowReq rx) := by intro _ p e; cases e
theorem rowRsp (rx : Rx) : Statement (.rowRsp rx) := by intro _ p e; cases e
theorem pairs (rx : Rx) : Statement (.pairs rx) := by intro _ p e; cases e
theorem statusPkt (rx : Rx) : Statement (.statusPkt rx) := by intro _ p e; cases e
theorem meridianPacket (rx : Rx) : Statement (.meridianPacket rx) := by intro _ p e; cases e
theorem time (rx : Rx) : Statement (.time rx) := by intro _ p e; cases e
theorem lodestarTimeSend : Statement (.lodestarTimeSend) := by intro _ p e; cases e
theorem lodestarHeartbeatSend : Statement (.lodestarHeartbeatSend) := by intro _ p e; cases e
theorem constHeartbeat (rx : Rx) : Statement (.constHeartbeat rx) := by intro _ p e; cases e
theorem heartbeatLoss (us : Nat) : Statement (.heartbeatLoss us) := by intro _ p e; cases e
theorem takeoverClaimAck (rx : Rx) : Statement (.takeoverClaimAck rx) := by intro _ p e; cases e
theorem constMembership (rx : Rx) : Statement (.constMembership rx) := by intro _ p e; cases e
theorem constPoolGrant (rx : Rx) : Statement (.constPoolGrant rx) := by intro _ p e; cases e
theorem poolFormTimeout (tag : Nat) : Statement (.poolFormTimeout tag) := by intro _ p e; cases e
theorem replRequest (rx : Rx) : Statement (.replRequest rx) := by intro _ p e; cases e
theorem replGrant (rx : Rx) : Statement (.replGrant rx) := by intro _ p e; cases e
theorem replInvalidation (rx : Rx) : Statement (.replInvalidation rx) := by intro _ p e; cases e
theorem replPush (rx : Rx) : Statement (.replPush rx) := by intro _ p e; cases e
theorem replAcknowledgement (rx : Rx) : Statement (.replAcknowledgement rx) := by intro _ p e; cases e
theorem replDrop (rx : Rx) : Statement (.replDrop rx) := by intro _ p e; cases e
theorem groupCrcReceive (rx : Rx) : Statement (.groupCrcReceive rx) := by intro _ p e; cases e
theorem groupAnswer (rx : Rx) : Statement (.groupAnswer rx) := by intro _ p e; cases e
theorem collContribution (rx : Rx) : Statement (.collContribution rx) := by intro _ p e; cases e
theorem collResult (rx : Rx) : Statement (.collResult rx) := by intro _ p e; cases e
theorem collProgress (rx : Rx) : Statement (.collProgress rx) := by intro _ p e; cases e
theorem collResendRequest (rx : Rx) : Statement (.collResendRequest rx) := by intro _ p e; cases e
theorem collStatus (rx : Rx) : Statement (.collStatus rx) := by intro _ p e; cases e
theorem pcieLinkReset : Statement (.pcieLinkReset) := by intro _ p e; cases e
theorem functionLevelReset (f : Fin 256) : Statement (.functionLevelReset f) := by intro _ p e; cases e
theorem numvfsReduction (n : Nat) : Statement (.numvfsReduction n) := by intro _ p e; cases e
theorem doorbell (fn : Fin 256) (slot : Nat) (qn : Nat) (tail : Nat) : Statement (.doorbell fn slot qn tail) := by intro _ p e; cases e
theorem heartbeat (fn : Fin 256) (slot : Nat) : Statement (.heartbeat fn slot) := by intro _ p e; cases e
theorem hbTimeoutExpire (f : Fin 256) : Statement (.hbTimeoutExpire f) := by intro _ p e; cases e
theorem resume (f : Fin 256) : Statement (.resume f) := by intro _ p e; cases e
theorem teardown (f : Fin 256) : Statement (.teardown f) := by intro _ p e; cases e
theorem orphanHoldExpire (f : Fin 256) : Statement (.orphanHoldExpire f) := by intro _ p e; cases e
theorem flushReadComplete (req : Nat) : Statement (.flushReadComplete req) := by intro _ p e; cases e
theorem stage (path : Path) (w : Word) : Statement (.stage path w) := by
  intro h p e; cases e; exact (Bool.and_eq_true_iff.mp h).1
theorem stagingComplete (reason : Nat) : Statement (.stagingComplete reason) := by intro _ p e; cases e
theorem activate (path : Path) (w : Word) : Statement (.activate path w) := by
  intro h p e; cases e; exact (Bool.and_eq_true_iff.mp h).1
theorem fwSwitchComplete (selfCheckOk : Bool) : Statement (.fwSwitchComplete selfCheckOk) := by intro _ p e; cases e
theorem fwConfirm (path : Path) : Statement (.fwConfirm path) := by
  intro h p e; cases e; exact (Bool.and_eq_true_iff.mp h).1
theorem rollback (path : Path) : Statement (.rollback path) := by
  intro h p e; cases e; exact (Bool.and_eq_true_iff.mp h).1
theorem rollbackComplete : Statement (.rollbackComplete) := by intro _ p e; cases e
theorem fwTrialWindowExpire (checksPassed : Bool) : Statement (.fwTrialWindowExpire checksPassed) := by intro _ p e; cases e
theorem fwRaiseSvnFloor (path : Path) : Statement (.fwRaiseSvnFloor path) := by
  intro h p e; cases e; exact (Bool.and_eq_true_iff.mp h).1
theorem fwWatchdogExpire (core : Fin 6) : Statement (.fwWatchdogExpire core) := by intro _ p e; cases e
theorem requestUpdate (maxTransfer : Nat) : Statement (.requestUpdate maxTransfer) := by intro _ p e; cases e
theorem passComponentTable (components : Nat) : Statement (.passComponentTable components) := by intro _ p e; cases e
theorem updateComponent (size : Nat) : Statement (.updateComponent size) := by intro _ p e; cases e
theorem requestFirmwareData (off : Nat) (data : List Byte) : Statement (.requestFirmwareData off data) := by intro _ p e; cases e
theorem transferComplete (result : Nat) : Statement (.transferComplete result) := by intro _ p e; cases e
theorem verifyComplete (result : Nat) : Statement (.verifyComplete result) := by intro _ p e; cases e
theorem applyComplete (result : Nat) : Statement (.applyComplete result) := by intro _ p e; cases e
theorem activateFirmware : Statement (.activateFirmware) := by intro _ p e; cases e
theorem ifSelWrite (path : Path) (f : Fin 256) (v : Nat) : Statement (.ifSelWrite path f v) := by
  intro h p e; cases e; exact (Bool.and_eq_true_iff.mp h).1
theorem tilePollTimeout (t : Fin 272) (moverAnswers : Bool) : Statement (.tilePollTimeout t moverAnswers) := by intro _ p e; cases e
theorem unitResetRequest (path : Path) (cls : Nat) (idx : Nat) : Statement (.unitResetRequest path cls idx) := by
  intro h p e; cases e; exact (Bool.and_eq_true_iff.mp h).1
theorem unitRetireRequest (path : Path) (cls : Nat) (idx : Nat) : Statement (.unitRetireRequest path cls idx) := by
  intro h p e; cases e; exact (Bool.and_eq_true_iff.mp h).1
theorem clearHistory (path : Path) (cls : Nat) (idx : Nat) : Statement (.clearHistory path cls idx) := by
  intro h p e; cases e; exact (Bool.and_eq_true_iff.mp h).1
theorem unitDrainComplete (cls : Nat) (idx : Nat) : Statement (.unitDrainComplete cls idx) := by intro _ p e; cases e
theorem starChartWriteComplete : Statement (.starChartWriteComplete) := by intro _ p e; cases e
theorem deferredRetry (id : Nat) : Statement (.deferredRetry id) := by intro _ p e; cases e
theorem parallaxReplayComplete (q : Fin 4) (p : Fin 128) (l : Fin 8) (seq : Nat) (digest : Nat) (status : Status) : Statement (.parallaxReplayComplete q p l seq digest status) := by intro _ p e; cases e
theorem accusationWindowEnd : Statement (.accusationWindowEnd) := by intro _ p e; cases e
theorem noticeAccusation (rx : Rx) : Statement (.noticeAccusation rx) := by intro _ p e; cases e
theorem noticeMergedAccusation (rx : Rx) : Statement (.noticeMergedAccusation rx) := by intro _ p e; cases e
theorem noticePowerHold (rx : Rx) : Statement (.noticePowerHold rx) := by intro _ p e; cases e
theorem noticeFreeze (rx : Rx) : Statement (.noticeFreeze rx) := by intro _ p e; cases e
theorem noticeRelease (rx : Rx) : Statement (.noticeRelease rx) := by intro _ p e; cases e
theorem pollForPlatformEventMessage (acked : List Nat) : Statement (.pollForPlatformEventMessage acked) := by intro _ p e; cases e
theorem powerLimitTick (avgW : Nat) : Statement (.powerLimitTick avgW) := by intro _ p e; cases e
theorem regulatorAlert (cause : Nat) : Statement (.regulatorAlert cause) := by intro _ p e; cases e
theorem forcedNadirEnd : Statement (.forcedNadirEnd) := by intro _ p e; cases e
theorem powerLoss : Statement (.powerLoss) := by intro _ p e; cases e
theorem droopDetectorMask (detector : Fin 1088) : Statement (.droopDetectorMask detector) := by intro _ p e; cases e
theorem junctionSample (hub : Nat) (deep : Nat) (quads : List Nat) (inlet : Nat) (outlet : Nat) : Statement (.junctionSample hub deep quads inlet outlet) := by intro _ p e; cases e
theorem effLimitStep : Statement (.effLimitStep) := by intro _ p e; cases e
theorem j3ClearTimer : Statement (.j3ClearTimer) := by intro _ p e; cases e
theorem hardwareThermalTrip : Statement (.hardwareThermalTrip) := by intro _ p e; cases e
theorem coolantCheckExpire (flow : Bool) : Statement (.coolantCheckExpire flow) := by intro _ p e; cases e
theorem recordProgramComplete (n : Nat) (genFails : Nat) (keepFails : Nat) : Statement (.recordProgramComplete n genFails keepFails) := by intro _ p e; cases e
theorem sectorEraseComplete (keep : Bool) (fails : Nat) : Statement (.sectorEraseComplete keep fails) := by intro _ p e; cases e
theorem opTimeSave : Statement (.opTimeSave) := by intro _ p e; cases e
theorem eclFreeze (path : Path) : Statement (.eclFreeze path) := by
  intro h p e; cases e; exact (Bool.and_eq_true_iff.mp h).1
theorem eclResume (path : Path) : Statement (.eclResume path) := by
  intro h p e; cases e; exact (Bool.and_eq_true_iff.mp h).1
theorem freezeNAssert : Statement (.freezeNAssert) := by intro _ p e; cases e
theorem freezeNRelease : Statement (.freezeNRelease) := by intro _ p e; cases e
theorem freezeAtReached : Statement (.freezeAtReached) := by intro _ p e; cases e
theorem debugWindowRead (path : Path) (off : Nat) : Statement (.debugWindowRead path off) := by
  intro h p e; cases e; exact (Bool.and_eq_true_iff.mp h).1
theorem debugWindowWrite (path : Path) (off : Nat) (v : Word) : Statement (.debugWindowWrite path off v) := by
  intro h p e; cases e; exact (Bool.and_eq_true_iff.mp h).1
theorem bypass (tdi : Bool) : Statement (.bypass tdi) := by intro _ p e; cases e
theorem idcode : Statement (.idcode) := by intro _ p e; cases e
theorem samplePreload (preload : Nat) : Statement (.samplePreload preload) := by intro _ p e; cases e
theorem extest : Statement (.extest) := by intro _ p e; cases e
theorem jtagEclAddr (v : Word) : Statement (.jtagEclAddr v) := by intro _ p e; cases e
theorem jtagEclData (write : Option Word) : Statement (.jtagEclData write) := by intro _ p e; cases e
theorem jtagEclCtl (freeze : Bool) (resume : Bool) : Statement (.jtagEclCtl freeze resume) := by intro _ p e; cases e
theorem pwrEnRise : Statement (.pwrEnRise) := by intro _ p e; cases e
theorem jtagHoldRelease : Statement (.jtagHoldRelease) := by intro _ p e; cases e
theorem pwrEnFall : Statement (.pwrEnFall) := by intro _ p e; cases e
theorem powerDownComplete : Statement (.powerDownComplete) := by intro _ p e; cases e
theorem coldResetN : Statement (.coldResetN) := by intro _ p e; cases e
theorem warmResetN : Statement (.warmResetN) := by intro _ p e; cases e
theorem hubResetWarm (path : Path) : Statement (.hubResetWarm path) := by
  intro h p e; cases e; exact (Bool.and_eq_true_iff.mp h).1
theorem hubResetPartition (path : Path) (p : Fin 128) : Statement (.hubResetPartition path p) := by
  intro h p e; cases e; exact (Bool.and_eq_true_iff.mp h).1
theorem hubResetCold (path : Path) : Statement (.hubResetCold path) := by
  intro h p e; cases e; exact (Bool.and_eq_true_iff.mp h).1
theorem paceRefLoss : Statement (.paceRefLoss) := by intro _ p e; cases e
theorem paceRefResume : Statement (.paceRefResume) := by intro _ p e; cases e
theorem moduleInsertion : Statement (.moduleInsertion) := by intro _ p e; cases e
theorem moduleRemoval : Statement (.moduleRemoval) := by intro _ p e; cases e
theorem configurationRequest (fn : Fin 256) (reg : Nat) (write : Option Word) : Statement (.configurationRequest fn reg write) := by intro _ p e; cases e
theorem perstRelease : Statement (.perstRelease) := by intro _ p e; cases e
theorem mctpControlMessage (eid : Nat) (cmd : Nat) (data : List Byte) : Statement (.mctpControlMessage eid cmd data) := by intro _ p e; cases e
theorem laneSignalLost (port : Fin 32) (lane : Fin 4) : Statement (.laneSignalLost port lane) := by intro _ p e; cases e
theorem priorityFlowControlFrame (port : Fin 32) (cls : Nat) (pauses : Nat) (pfc : Bool) : Statement (.priorityFlowControlFrame port cls pauses pfc) := by intro _ p e; cases e
theorem unitStopsAnswering (cls : Nat) (idx : Nat) : Statement (.unitStopsAnswering cls idx) := by intro _ p e; cases e
theorem creditAccrual (us : Nat) : Statement (.creditAccrual us) := by intro _ p e; cases e
theorem almanacProgramComplete (ok : Bool) : Statement (.almanacProgramComplete ok) := by intro _ p e; cases e
theorem pcieReadCompletion (req : Nat) (data : List Byte) : Statement (.pcieReadCompletion req data) := by intro _ p e; cases e
theorem run (p : Fin 128) (l : Fin 8) : Statement (.run p l) := by intro _ p e; cases e
theorem meridian (p : Fin 128) (l : Fin 8) : Statement (.meridian p l) := by intro _ p e; cases e
theorem notify (p : Fin 128) (l : Fin 8) : Statement (.notify p l) := by intro _ p e; cases e
theorem entryComplete (p : Fin 128) (l : Fin 8) (seq : Nat) : Statement (.entryComplete p l seq) := by intro _ p e; cases e
theorem feedStart (p : Fin 128) (l : Fin 8) : Statement (.feedStart p l) := by intro _ p e; cases e
theorem hostCopy (c : Fin 4096) : Statement (.hostCopy c) := by intro _ p e; cases e
theorem ctxCreate (c : Fin 4096) : Statement (.ctxCreate c) := by intro _ p e; cases e
theorem ctxDestroy (c : Fin 4096) : Statement (.ctxDestroy c) := by intro _ p e; cases e
theorem ctxFence (c : Fin 4096) : Statement (.ctxFence c) := by intro _ p e; cases e
theorem ctxUnfence (c : Fin 4096) : Statement (.ctxUnfence c) := by intro _ p e; cases e
theorem extentSet (c : Fin 4096) : Statement (.extentSet c) := by intro _ p e; cases e
theorem peerWindow (c : Fin 4096) (answers : Bool) : Statement (.peerWindow c answers) := by intro _ p e; cases e
theorem tableCreate (c : Fin 4096) : Statement (.tableCreate c) := by intro _ p e; cases e
theorem tableDestroy (c : Fin 4096) : Statement (.tableDestroy c) := by intro _ p e; cases e
theorem tableParam (c : Fin 4096) : Statement (.tableParam c) := by intro _ p e; cases e
theorem tableFlush (c : Fin 4096) : Statement (.tableFlush c) := by intro _ p e; cases e
theorem tableCheckpoint (c : Fin 4096) : Statement (.tableCheckpoint c) := by intro _ p e; cases e
theorem tableRestore (c : Fin 4096) : Statement (.tableRestore c) := by intro _ p e; cases e
theorem shardCreate (c : Fin 4096) : Statement (.shardCreate c) := by intro _ p e; cases e
theorem shardDestroy (c : Fin 4096) : Statement (.shardDestroy c) := by intro _ p e; cases e
theorem llmRange (c : Fin 4096) : Statement (.llmRange c) := by intro _ p e; cases e
theorem pool (c : Fin 4096) : Statement (.pool c) := by intro _ p e; cases e
theorem stepRebase (c : Fin 4096) : Statement (.stepRebase c) := by intro _ p e; cases e
theorem interruptDelayExpire (c : Fin 4096) : Statement (.interruptDelayExpire c) := by intro _ p e; cases e
theorem haloGather (s : Fin 12) (qp : Fin 32) : Statement (.haloGather s qp) := by intro _ p e; cases e
theorem update (s : Fin 12) (qp : Fin 32) : Statement (.update s qp) := by intro _ p e; cases e
theorem haloStepEnd (s : Fin 12) (qp : Fin 32) : Statement (.haloStepEnd s qp) := by intro _ p e; cases e
theorem lookahead (s : Fin 12) (qp : Fin 32) : Statement (.lookahead s qp) := by intro _ p e; cases e
theorem migrate (s : Fin 12) (qp : Fin 32) : Statement (.migrate s qp) := by intro _ p e; cases e
theorem swap (s : Fin 12) (qp : Fin 32) : Statement (.swap s qp) := by intro _ p e; cases e
theorem loadStats (s : Fin 12) (qp : Fin 32) : Statement (.loadStats s qp) := by intro _ p e; cases e
theorem override (s : Fin 12) (qp : Fin 32) : Statement (.override s qp) := by intro _ p e; cases e
theorem grad (q : Fin 4) (qp : Fin 16) : Statement (.grad q qp) := by intro _ p e; cases e
theorem orrStepEnd (q : Fin 4) (qp : Fin 16) : Statement (.orrStepEnd q qp) := by intro _ p e; cases e
theorem setHyper (q : Fin 4) (qp : Fin 16) : Statement (.setHyper q qp) := by intro _ p e; cases e
theorem exportOp (q : Fin 4) (qp : Fin 16) : Statement (.exportOp q qp) := by intro _ p e; cases e
theorem importOp (q : Fin 4) (qp : Fin 16) : Statement (.importOp q qp) := by intro _ p e; cases e
theorem skip (q : Fin 4) (qp : Fin 16) : Statement (.skip q qp) := by intro _ p e; cases e
theorem allReduce (q : Fin 4) (c : Fin 16) : Statement (.allReduce q c) := by intro _ p e; cases e
theorem reduceScatter (q : Fin 4) (c : Fin 16) : Statement (.reduceScatter q c) := by intro _ p e; cases e
theorem allGather (q : Fin 4) (c : Fin 16) : Statement (.allGather q c) := by intro _ p e; cases e
theorem allToAll (q : Fin 4) (c : Fin 16) : Statement (.allToAll q c) := by intro _ p e; cases e
theorem broadcast (q : Fin 4) (c : Fin 16) : Statement (.broadcast q c) := by intro _ p e; cases e
theorem anyToHome (q : Fin 4) (c : Fin 16) : Statement (.anyToHome q c) := by intro _ p e; cases e
theorem tokenRoute (q : Fin 4) (c : Fin 16) : Statement (.tokenRoute q c) := by intro _ p e; cases e
theorem groupCreate (q : Fin 4) (c : Fin 16) : Statement (.groupCreate q c) := by intro _ p e; cases e
theorem groupDestroy (q : Fin 4) (c : Fin 16) : Statement (.groupDestroy q c) := by intro _ p e; cases e
theorem groupTimeoutExpire (q : Fin 4) (c : Fin 16) (gid : Nat) : Statement (.groupTimeoutExpire q c gid) := by intro _ p e; cases e
theorem fusionWatchdogExpire (q : Fin 4) (c : Fin 16) : Statement (.fusionWatchdogExpire q c) := by intro _ p e; cases e
theorem collTimeoutExpire (q : Fin 4) (c : Fin 16) (gid : Nat) (seq : Nat) : Statement (.collTimeoutExpire q c gid seq) := by intro _ p e; cases e
theorem collDimProgressSend (q : Fin 4) (c : Fin 16) (gid : Nat) (seq : Nat) : Statement (.collDimProgressSend q c gid seq) := by intro _ p e; cases e
theorem nop (t : Fin 272) (w : Entry) : Statement (.nop t w) := by intro _ p e; cases e
theorem endOp (t : Fin 272) (w : Entry) : Statement (.endOp t w) := by intro _ p e; cases e
theorem fence (t : Fin 272) (w : Entry) : Statement (.fence t w) := by intro _ p e; cases e
theorem wait (t : Fin 272) (w : Entry) : Statement (.wait t w) := by intro _ p e; cases e
theorem signal (t : Fin 272) (w : Entry) : Statement (.signal t w) := by intro _ p e; cases e
theorem barrier (t : Fin 272) (w : Entry) : Statement (.barrier t w) := by intro _ p e; cases e
theorem loop (t : Fin 272) (w : Entry) : Statement (.loop t w) := by intro _ p e; cases e
theorem load (t : Fin 272) (w : Entry) (flt : List FetchFault) : Statement (.load t w flt) := by intro _ p e; cases e
theorem gather (t : Fin 272) (w : Entry) (flt : List FetchFault) : Statement (.gather t w flt) := by intro _ p e; cases e
theorem store (t : Fin 272) (w : Entry) (chk : TileCheck) : Statement (.store t w chk) := by intro _ p e; cases e
theorem scatter (t : Fin 272) (w : Entry) (chk : TileCheck) : Statement (.scatter t w chk) := by intro _ p e; cases e
theorem copy (t : Fin 272) (w : Entry) (chk : TileCheck) : Statement (.copy t w chk) := by intro _ p e; cases e
theorem send (t : Fin 272) (w : Entry) (chk : TileCheck) : Statement (.send t w chk) := by intro _ p e; cases e
theorem prefetch (t : Fin 272) (w : Entry) : Statement (.prefetch t w) := by intro _ p e; cases e
theorem mm (t : Fin 272) (w : Entry) (chk : TileCheck) : Statement (.mm t w chk) := by intro _ p e; cases e
theorem mmta (t : Fin 272) (w : Entry) (chk : TileCheck) : Statement (.mmta t w chk) := by intro _ p e; cases e
theorem vadd (t : Fin 272) (w : Entry) (chk : TileCheck) : Statement (.vadd t w chk) := by intro _ p e; cases e
theorem vsub (t : Fin 272) (w : Entry) (chk : TileCheck) : Statement (.vsub t w chk) := by intro _ p e; cases e
theorem vmul (t : Fin 272) (w : Entry) (chk : TileCheck) : Statement (.vmul t w chk) := by intro _ p e; cases e
theorem vfma (t : Fin 272) (w : Entry) (chk : TileCheck) : Statement (.vfma t w chk) := by intro _ p e; cases e
theorem vmax (t : Fin 272) (w : Entry) (chk : TileCheck) : Statement (.vmax t w chk) := by intro _ p e; cases e
theorem vmin (t : Fin 272) (w : Entry) (chk : TileCheck) : Statement (.vmin t w chk) := by intro _ p e; cases e
theorem vact (t : Fin 272) (w : Entry) (chk : TileCheck) : Statement (.vact t w chk) := by intro _ p e; cases e
theorem vcmp (t : Fin 272) (w : Entry) (chk : TileCheck) : Statement (.vcmp t w chk) := by intro _ p e; cases e
theorem vsel (t : Fin 272) (w : Entry) (chk : TileCheck) : Statement (.vsel t w chk) := by intro _ p e; cases e
theorem vrsum (t : Fin 272) (w : Entry) (chk : TileCheck) : Statement (.vrsum t w chk) := by intro _ p e; cases e
theorem vrmax (t : Fin 272) (w : Entry) (chk : TileCheck) : Statement (.vrmax t w chk) := by intro _ p e; cases e
theorem vtopk (t : Fin 272) (w : Entry) (chk : TileCheck) : Statement (.vtopk t w chk) := by intro _ p e; cases e
theorem vcvt (t : Fin 272) (w : Entry) (chk : TileCheck) : Statement (.vcvt t w chk) := by intro _ p e; cases e
theorem quant (t : Fin 272) (w : Entry) (chk : TileCheck) : Statement (.quant t w chk) := by intro _ p e; cases e
theorem dequant (t : Fin 272) (w : Entry) (chk : TileCheck) : Statement (.dequant t w chk) := by intro _ p e; cases e
theorem vtrans (t : Fin 272) (w : Entry) (chk : TileCheck) : Statement (.vtrans t w chk) := by intro _ p e; cases e
theorem vfill (t : Fin 272) (w : Entry) (chk : TileCheck) : Statement (.vfill t w chk) := by intro _ p e; cases e
theorem vrand (t : Fin 272) (w : Entry) (chk : TileCheck) : Statement (.vrand t w chk) := by intro _ p e; cases e
theorem vidx (t : Fin 272) (w : Entry) (chk : TileCheck) : Statement (.vidx t w chk) := by intro _ p e; cases e
theorem xadd (t : Fin 272) (w : Entry) (chk : TileCheck) : Statement (.xadd t w chk) := by intro _ p e; cases e
theorem xmerge (t : Fin 272) (w : Entry) (chk : TileCheck) : Statement (.xmerge t w chk) := by intro _ p e; cases e
theorem xround (t : Fin 272) (w : Entry) (chk : TileCheck) : Statement (.xround t w chk) := by intro _ p e; cases e
theorem xzero (t : Fin 272) (w : Entry) (chk : TileCheck) : Statement (.xzero t w chk) := by intro _ p e; cases e
theorem sealchk (t : Fin 272) (w : Entry) (chk : TileCheck) : Statement (.sealchk t w chk) := by intro _ p e; cases e
theorem refresh (s : Fin 12) (pc : Nat) (waits : List (Nat × Nat)) : Statement (.refresh s pc waits) := by intro _ p e; cases e
theorem powerStateTick (idle : List (Nat × Nat)) : Statement (.powerStateTick idle) := by intro _ p e; cases e
theorem plannedWake (x : Option (Fin 128)) : Statement (.plannedWake x) := by intro _ p e; cases e
theorem powerSample (vinMv iMa : Nat) (railsMv railsUj : List Nat) (use : List (Nat × Nat × Nat)) : Statement (.powerSample vinMv iMa railsMv railsUj use) := by intro _ p e; cases e

end Sys2Proof.Laws.WellFormedPath
end

