-- ==== Sys2Proof/Tests/Slice0.lean ====
section
/-!
SUPPORT. Small tests: ill-formed terms that the well-formedness check refuses, the worked examples of the spec, and for the
premises of every statement a concrete state and operands that meet them together.
-/

namespace Sys2Proof.Tests

open Sys2Proof Sys2Proof.Machine

set_option linter.unusedVariables false
set_option Elab.async false

/-! ## Builders of small states -/

/-- A state with register fields set. -/
def puts (s : State) (l : List (Fld × Nat)) : State := l.foldl (fun t x => t.put x.1 x.2) s

/-- A 64-byte entry with fields set: word, lowest bit, value. -/
def ent (l : List (Nat × Nat × Nat)) : Entry :=
  BitVec.ofNat 512 (l.foldl (fun a x => a + x.2.2 * 2 ^ (64 * x.1 + x.2.1)) 0)

/-- The module powered, its firmware up. -/
def on0 : State := puts { State.reset with phase := .on } [(FW_STATUS_STATE, 2), (HUB_PART_CFG_VALID 0, 1)]

/-- An extent of H of 4 GiB from offset 0, readable and writable, in place. -/
def extH : Extent := ⟨1, 0, 2 ^ 32, [(0, 2 ^ 32)], true, true, false⟩

/-- An Active context of PF0 in partition 0 with that extent. -/
def withCtx (s : State) (n : Nat) : State :=
  (puts s [(CTX_STATE n, 1), (CTX_JOB_DOMAIN n, n)]).setCtx n { ctxData0 with extents := [extH] }

/-- A queue that runs, owned by context `n`, with one entry at its head. -/
def withRing (s : State) (q : QueueId) (n : Nat) (e : Entry) : State :=
  (puts s [(qBase q, 2 ^ 60), (qOwnerF q, match q with | .cmdRing _ => s.get (qOwnerF q) | _ => n), (qSizeLog q, 4),
    (qState q, 1), (qEn q, 1), (qTail q, 1)]).setBytes .h 0 (bytesLE 64 e.toNat)

/-- A context's command ring with one command. -/
def cmd (n : Nat) (e : Entry) : State := withRing (withCtx on0 n) (.cmdRing n) n e

/-- A command of a ring, by its OP, target context and other fields. -/
def cmdE (op n : Nat) (l : List (Nat × Nat × Nat)) : Entry := ent ([(0, 56, op), (0, 52, 1), (0, 32, n)] ++ l)

/-- A physical tile that runs a program of one entry of context 5, with `w` at its PC. -/
def onTile (t : Nat) (w : Entry) : State :=
  ((puts (withCtx on0 5) [(TILE_STATUS_STATE t, 1)]).setTile t
    { tile0 with progLen := 4096, entry := some ⟨0, 0, 0, 0, 5, 1, false, false, false⟩ }).setBytes .ls (lsAddr t 0)
      (bytesLE 64 w.toNat)

/-- A macro-op by its opcode and other fields. -/
def mop (c : Nat) (l : List (Nat × Nat × Nat)) : Entry := ent ([(0, 56, c), (0, 52, 1)] ++ l)

/-- A 128-byte descriptor with fields set. -/
def desc (l : List (Nat × Nat × Nat)) : Desc :=
  BitVec.ofNat 1024 (l.foldl (fun a x => a + x.2.2 * 2 ^ (64 * x.1 + x.2.1)) 0)

/-- The descriptor of a frozen table of four rows of eight FP32 elements, in H only. -/
def tableDesc : Desc := desc [(0, 48, 7), (0, 44, 1), (0, 28, 7), (0, 24, 15), (1, 0, 4), (3, 0, 2 ^ 60 + 0x5000), (4, 0, 2 ^ 60 + 0x6000),
  (6, 0, 2 ^ 60 + 0x7000), (7, 32, 4), (7, 0, 1), (10, 0, 2 ^ 60 + 0x8000), (12, 16, 1), (12, 0, 1), (13, 0, 0x3F800000)]

/-- The descriptor of a frozen shard of one element on quadrant 0. -/
def shardDesc : Desc := desc [(0, 48, 9), (0, 44, 1), (0, 40, 15), (1, 32, 1), (1, 0, 1), (2, 32, 1), (2, 0, 1), (5, 0, 2 ^ 60 + 0x10000)]

/-- A command that names a descriptor at H offset 0x2000, with the descriptor there. -/
def cmdDesc (e : Entry) (d : Desc) : State := (cmd 5 e).setBytes .h 0x2000 (bytesLE 128 d.toNat)

/-- A command with the frozen table on stack 0. -/
def cmdTab (e : Entry) : State := (cmd 5 e).addTable 5 0 tableDesc

/-- The table of a state that has one. -/
def tabOf (s : State) (h : s.tables ≠ []) : Table := s.tables.head h

/-- A row that is Dirty. -/
def dirtyRow : Row := ⟨0, 3, false, false, false, false, none, 0, 0, 0, 0, 0, false, true⟩

/-- A table of a state changed. -/
def withTab (s : State) (f : Table → Table) : State := { s with tables := s.tables.map f }

/-- The blocks of a file that has been fetched. -/
def fetched (x : Fetch) : List (List Byte × Option Seal) :=
  match x with
  | .have_ bs => bs
  | _ => []

/-- The file has been fetched at once. -/
def isFetched (x : Fetch) : Bool :=
  match x with
  | .have_ _ => true
  | _ => false

theorem fetched_of_isFetched {x : Fetch} (h : isFetched x = true) : x = .have_ (fetched x) := by
  cases x <;> simp_all [isFetched, fetched]

/-- A descriptor at the head of a queue pair of stack 0, with the frozen table there. -/
def haloSt (e : Entry) : State :=
  puts (withRing ((withCtx on0 5).addTable 5 0 tableDesc) (.haloQp 0 31) 5 e)
    [(HALO_QP_CFG_VALID 0 31, 1), (HALO_QP_CFG_LOOKAHEAD 0 31, 1)]

/-- A Halo descriptor of step 1 by its OP and other fields. -/
def haloE (op : Nat) (l : List (Nat × Nat × Nat)) : Entry :=
  ent ([(0, 56, op), (0, 52, 1), (0, 32, 7), (1, 32, 1)] ++ l)

/-- Port 31 Up towards another module. -/
def portUp : State := (puts on0 [(SL_STATUS_ROLE 31, 1), (SL_STATUS_STATE 31, 3), (SL_STATUS_PROTO 31, 1)]).setPort 31
  { port0 with lastGood := 4095 }

/-- A group of two ranks on channel 15 of engine 3. -/
def group0 : Group := ⟨3, 15, 9, 5, 0, 0, [0, 1], true, 0, [], 0, 0, none⟩

/-- A descriptor at the head of that channel, with the group formed. -/
def collSt (e : Entry) : State :=
  { puts (withRing (withCtx on0 5) (.collCh 3 15) 5 e) [(COLL_CH_CFG_VALID 3 15, 1)] with
    coll := { coll0 with groups := [group0] } }

/-- A collective descriptor of step 1 by its OP and other fields. -/
def collE (op : Nat) (l : List (Nat × Nat × Nat)) : Entry := ent ([(0, 56, op), (0, 52, 1), (0, 32, 9), (1, 32, 1)] ++ l)

/-- A D extent of 16 MiB. -/
def extD : Extent := ⟨2, 0, 2 ^ 24, [(0, 2 ^ 24)], true, true, false⟩

/-- A table of one block of D rows, and a Filling row of it. -/
def homeSt : State := withTab (((withCtx on0 5).setCtx 5 { ctxData0 with extents := [extH, extD] }).addTable 5 0 tableDesc) fun b =>
  { b with desc := tableDesc + desc [(8, 0, 2 ^ 61)], rows := [{ dirtyRow with state := 1 }] }

/-- That state with a good seal on the block. -/
def homeGood : State :=
  homeSt.setSeal .d (0 * 4096) { seal0 with tensor := 0xE00007, crc := crc32c (homeSt.block .d (0 * 4096)) }

theorem block_setSeal (s : State) (sp sp' : Space) (a b : Nat) (x : Seal) : (s.setSeal sp a x).block sp' b = s.block sp' b := rfl

theorem sealOf_setSeal (s : State) (sp : Space) (a : Nat) (x : Seal) : (s.setSeal sp a x).sealOf sp a = x := by
  simp [State.setSeal, State.sealOf]

/-- The table of `homeGood`. -/
def homeTab : Table := tabOf homeGood (by decide +kernel)

theorem readHome_ok (s : State) (b : Table) (x : Row) (p : Nat)
    (h1 : s.dRegion b (tdValueD b.desc) (x.home / tdRpb b.desc) = some p) (h2 : tdStateD b.desc = 0)
    (h3 : blockCheck (s.sealOf .d (p * 4096)) (s.block .d (p * 4096)) (tdTag b.desc) (tdFmt b.desc)
      (x.home / tdRpb b.desc) false = .done) : Status_ok (s.readHome b x).1 = true := by
  unfold State.readHome
  simp [h1, h2, h3, Status_ok, statusCode]

theorem blockCheck_good (x : Seal) (bs : List Byte) (t f k : Nat) (h1 : x.tensor.toNat = t) (h2 : x.fmt.toNat = f)
    (h3 : x.block.toNat = k) (h4 : x.poison = false) (h5 : x.crc = crc32c bs) : blockCheck x bs t f k false = .done := by
  simp [blockCheck, h1, h2, h3, h4, h5, crcGood]

theorem homeGood_read : Status_ok (homeGood.readHome homeTab { dirtyRow with state := 1 }).1 = true := by
  refine readHome_ok homeGood homeTab _ 0 (by decide +kernel) (by decide +kernel) ?_
  rw [show homeGood.sealOf .d (0 * 4096) = { seal0 with tensor := 0xE00007, crc := crc32c (homeSt.block .d (0 * 4096)) } from
    sealOf_setSeal homeSt .d (0 * 4096) _]
  rw [show homeGood.block .d (0 * 4096) = homeSt.block .d (0 * 4096) from
    block_setSeal homeSt .d .d (0 * 4096) (0 * 4096) _]
  exact blockCheck_good _ _ _ _ _ (by decide +kernel) (by decide +kernel) (by decide +kernel) rfl rfl

/-- A firmware image of 4,224 bytes that says the same of itself as every other. -/
def fwImg : List Byte :=
  (bytesLE 4 0x57464B53 ++ bytesLE 4 1 ++ bytesLE 4 4224 ++ bytesLE 20 0 ++ bytesLE 4 64 ++ bytesLE 4 1 ++ bytesLE 4 64 ++ bytesLE 4 1 ++
    bytesLE 16 0) ++ List.replicate 4160 0

/-- A staged update, with the state of the sideband's update protocol. -/
def staged (n : Nat) : State :=
  { puts on0 [(FW_STATUS_UPD, 2)] with fw := { fw0 with slotBytes := [(0, fwImg), (1, fwImg)], pldm := n } }

theorem fwImg_length : fwImg.length = 4224 := by
  simp only [fwImg, List.length_append, List.length_replicate]
  decide +kernel

theorem fwImg_section (off limit entry : Nat) (h : (decide (64 ≤ imgNum fwImg off 4) && decide (imgNum fwImg (off + 4) 4 ≤ limit) &&
    decide (imgNum fwImg off 4 + imgNum fwImg (off + 4) 4 + 128 ≤ 4224) && decide (imgNum fwImg entry 4 < imgNum fwImg (off + 4) 4)) =
      true) : fwSection fwImg off limit entry = true := by
  unfold fwSection
  rw [fwImg_length]
  exact h

/-- The image's SVN is not below the floor. -/
theorem svnFloor (n : Nat) : ¬ imgNum fwImg 12 2 < (staged n).get FW_STATUS_SVN_FLOOR :=
  show ¬ imgNum fwImg 12 2 < (staged 0).get FW_STATUS_SVN_FLOOR by decide +kernel

/-- No function has selected an interface version. -/
theorem used (n : Nat) : ¬ (((List.range 256).map fun f => (staged n).get (FW_IF_IF_SEL f)).filter (· != 0)).any (fun v =>
    decide (v < imgNum fwImg 14 2) || decide (imgNum fwImg 16 2 < v)) = true :=
  show ¬ (((List.range 256).map fun f => (staged 0).get (FW_IF_IF_SEL f)).filter (· != 0)).any (fun v =>
    decide (v < imgNum fwImg 14 2) || decide (imgNum fwImg 16 2 < v)) = true by decide +kernel

/-- The image verifies where its signature does, which the model leaves open (log 5). -/
theorem staged_verifies (n : Nat) (h : Config.signatureValid (imgNum fwImg (4224 - 128) 4) (ofBytesLE fwImg) = true) :
    (staged n).verifyUpdate ((staged n).fwImage (staged n).otherSlot) = 0 := by
  have e : (staged n).fwImage (staged n).otherSlot = fwImg := by
    rw [show (staged n).otherSlot = 1 from show (staged 0).otherSlot = 1 by decide +kernel]
    rfl
  have b : (staged n).verifyBoot fwImg = 0 := by
    unfold State.verifyBoot
    rw [if_neg (by decide +kernel), fwImg_length, fwImg_section 32 _ 48 (by decide +kernel),
      fwImg_section 40 _ 52 (by decide +kernel), if_neg (by decide +kernel), if_neg (by decide +kernel), h,
      if_neg (by decide), if_neg (svnFloor n)]
  rw [e]
  unfold State.verifyUpdate
  dsimp only
  rw [b, if_neg (by decide), if_neg (used n), if_neg ?_]
  have f (off m d : Nat) : (staged n).fwNum 0 off m d = ofBytesLE ((fwImg.drop off).take m) := rfl
  have r : (staged n).runSlot = 0 := show (staged 0).runSlot = 0 by decide +kernel
  have z : ∀ off ∈ [18, 20, 22], ofBytesLE ((fwImg.drop off).take 2) = 0 := by decide +kernel
  have z18 := z 18 (by simp)
  have z20 := z 20 (by simp)
  have z22 := z 22 (by simp)
  simp only [imgNum, r, f, z18, z20, z22]
  simp

/-- A staged update whose signature verifies meets the premises of ACTIVATE. -/
theorem premises_activate (h : Config.signatureValid (imgNum fwImg (4224 - 128) 4) (ofBytesLE fwImg) = true) :
    ∃ (path : Path) (s : State), s.fwReady path = true ∧ s.get FW_STATUS_UPD = 2 ∧ s.stg ≠ 4 ∧
      s.verifyUpdate (s.fwImage s.otherSlot) = 0 :=
  ⟨.pf0, staged 0, by decide +kernel, by decide +kernel, by decide +kernel, staged_verifies 0 h⟩

/-- The operands of a small matrix product. -/
def mmE : List (Nat × Nat × Nat) := [(0, 0, 1), (1, 0, 0x10000), (2, 0, 0x20000), (3, 0, 0x30000), (7, 32, 0x3F800000)]

/-! ## Ill-formed commands are refused -/

theorem test_illFormed_paths : ([.registerWrite (.vf 0) (.ctrl 8) .full 0, .portReset (.vf 256) 0, .eclFreeze (.vf 0)] : List Instr).all
    (fun i => !wellFormed i) = true := by decide +kernel

theorem test_illFormed_addresses : ([.registerWrite .pf0 (.ctrl 4) .full 0, .registerWrite .pf0 (.ctrl (2 ^ 32)) .full 0,
    .rcFieldRead (.vf 1) (.page 1 64 8) .full, .rcFieldRead (.vf 1) (.page 256 0 8) .full, .rcFieldRead (.vf 1) (.page 1 0 65536) .full,
    .bar0WindowAccess (2 ^ 30) .full none, .bar0WindowAccess 4 .full none, .bar2Read 0 (2 ^ 36) 4, .bar2Read 0 0 0, .bar2Read 0 0 4097,
    .bar2Write 0 0 [], .mirrorWrite .pf0 4 .full 0, .accessUnsupportedSize (2 ^ 32) 2 true 0, .accessUnsupportedSize 0 0 true 0,
    .accessUnsupportedSize 0 2 true 256, .accessOutsideBlocks (2 ^ 32) true 0, .accessOutsideBlocks 0 true 256] : List Instr).all
    (fun i => !wellFormed i) = true := by decide +kernel

theorem test_illFormed_queues : ([.queueEnWrite .pf0 (.workList 128 0) true, .queueRestart .pf0 (.workList 0 8),
    .queueTailWrite .pf0 (.haloQp 12 0) 0, .queueTailWrite .pf0 (.haloQp 0 32) 0, .queueTailWrite .pf0 (.cmdRing 0) 65536,
    .completionRingRoom .pf0 (.orrQp 4 0) 0, .completionRingRoom .pf0 (.orrQp 0 16) 0, .completionRingRoom .pf0 (.cmdRing 0) 65536,
    .queueEnWrite .pf0 (.collCh 4 0) true, .queueEnWrite .pf0 (.collCh 0 16) true, .queueEnWrite .pf0 (.cmdRing 4096) true,
    .doorbell 0 64 0 0, .doorbell 0 0 65536 0, .doorbell 0 0 0 65536, .heartbeat 0 64] : List Instr).all
    (fun i => !wellFormed i) = true := by decide +kernel

theorem test_illFormed_packets : ([.readReq ⟨32, 0, 0, true, { ty := 1 }⟩, .writeAck ⟨0, 4096, 0, true, { ty := 4 }⟩,
    .pairs ⟨0, 0, 4096, true, { ty := 7 }⟩, .readRsp ⟨0, 0, 0, true, { ty := 256 }⟩, .readRsp ⟨0, 0, 0, true, { ty := 2, proto := 16 }⟩,
    .readRsp ⟨0, 0, 0, true, { ty := 2, cls := 4 }⟩, .rowReq ⟨0, 0, 0, true, { ty := 5, dstModule := 2 ^ 24 }⟩,
    .rowReq ⟨0, 0, 0, true, { ty := 5, dstUnit := 256 }⟩, .rowReq ⟨0, 0, 0, true, { ty := 5, srcModule := 2 ^ 24 }⟩,
    .rowReq ⟨0, 0, 0, true, { ty := 5, srcUnit := 256 }⟩, .rowReq ⟨0, 0, 0, true, { ty := 5, jobDomain := 2 ^ 16 }⟩,
    .rowReq ⟨0, 0, 0, true, { ty := 5, srcInc := 256 }⟩, .rowReq ⟨0, 0, 0, true, { ty := 5, hops := 16 }⟩,
    .rowReq ⟨0, 0, 0, true, { ty := 5, targetGen := 2 ^ 16 }⟩, .rowReq ⟨0, 0, 0, true, { ty := 5, status := 256 }⟩,
    .rowReq ⟨0, 0, 0, true, { ty := 5, txn := 2 ^ 32 }⟩, .rowReq ⟨0, 0, 0, true, { ty := 5, arg := 2 ^ 64 }⟩,
    .ethernetFrameReceive 0 ⟨0, 0, 0, true, true, { ty := 256 }⟩, .priorityFlowControlFrame 0 8 0 true,
    .priorityFlowControlFrame 0 0 65536 true] : List Instr).all
    (fun i => !wellFormed i) = true := by decide +kernel

theorem test_illFormed_payload (p : Packet) (h : 4112 < p.payload.length) : packetWf p = false := by
  simp [packetWf, Nat.not_le.mpr h]

theorem test_illFormed_units : ([.unitResetRequest .pf0 256 0, .unitRetireRequest .pf0 0 65536, .clearHistory .pf0 256 0,
    .unitDrainComplete 256 0, .unitStopsAnswering 0 65536, .signalDetect 0 16, .trainingStepDone 0 16, .retrainDone 0 16, .linkAck 0 4096,
    .linkNak 0 4096, .paceSetWrite .pf0 512, .stackTempSample 0 1024, .numvfsReduction 256, .ifSelWrite .pf0 0 65536,
    .regulatorAlert 0, .regulatorAlert 6, .debugWindowRead .pf0 65536, .debugWindowWrite .pf0 65536 0, .cfgOpUnassigned .pf0 5,
    .cfgOpUnassigned .pf0 16] : List Instr).all (fun i => !wellFormed i) = true := by decide +kernel

theorem test_wellFormed : ([.registerWrite (.vf 255) (.page 255 63 65528) .full 0, .queueEnWrite .pf0 (.workList 127 7) true,
    .readReq ⟨31, 4095, 4095, true, { ty := 1 }⟩, .regulatorAlert 5, .cfgOpUnassigned .pf0 15] : List Instr).all wellFormed = true := by
  decide +kernel

/-- The opcode table gives its rows no bits, so that no word spells a command. -/
theorem test_noBits (n w : Nat) : decodeTableWord n w = none := rfl

/-! ## Worked examples of the spec -/

/-- Chapter 05's matrix product: 13/16 plus the bias 0x3E4C_CCCD, rounded to FP32, and that result in BF16. -/
theorem test_epilogue : fp32Bits 0 (Val_add (.fin false 13 16) (ofFp32 0x3E4CCCCD)) = 0x3F81999A ∧
    (encodeF 1 0 0 false (ofFp32 0x3F81999A)).1 = 0x3F82 ∧ (encodeF 1 0 0 false (ofFp32 0x408A6666)).1 = 0x408A := by decide +kernel

/-- Chapter 05's partial products: 2 × 2^-2 × 0.625 and the sum with 0.5. -/
theorem test_partials : Val_add (.fin false 1 2) (.fin false 5 16) = .fin false 26 32 := by decide +kernel

/-- Chapter 09's bag: the mean 329/192, and the row update in FP32 and BF16. -/
theorem test_bag : fp32Bits 0 (.fin false 329 192) = 0x3FDB5555 ∧
    fp32Bits 0 (Val_add (.fin false 1 1) (Val_flip (ofFp32 0x3C23D70A))) = 0x3F7D70A4 ∧
    (encodeF 1 0 0 false (ofFp32 0x3F7D70A4)).1 = 0x3F7D := by decide +kernel

/-- Chapter 09's three pairs: their exact sum is 2^149, whatever their order. -/
theorem test_pairs : (exactSum ([0x4B800000, 0x3F800000, 0xCB800000].map ofFp32)).1.value = 2 ^ 149 ∧
    (exactSum ([0x4B800000, 0xCB800000, 0x3F800000].map ofFp32)).1.value = 2 ^ 149 := by decide +kernel

/-- Chapter 12's four partials: the exact sum on four ranks and on two, and the sum of the images rounded at each rank. -/
theorem test_gradient :
    fp32Bits 0 (exactVal (exactSum ([0x3F800000, 0x33800000, 0xBF000000, 0x33800000].map ofFp32)).1) = 0x3F000002 ∧
    fp32Bits 0 (exactVal (exactMerge (exactSum ([0x3F800000, 0x33800000].map ofFp32)).1
      (exactSum ([0xBF000000, 0x33800000].map ofFp32)).1).1) = 0x3F000002 ∧
    fp32Bits 0 (Val_add (ofFp32 0x3F800000) (ofFp32 0xBEFFFFFE)) = 0x3F000001 := by decide +kernel

/-- Chapter 02's extent of 24 GiB: a range that crosses its end is refused with 0x2101; the corrected one translates. -/
theorem test_extent :
    let x : Extent := ⟨1, 0, 24 * 2 ^ 30, [(0x6000000000, 24 * 2 ^ 30)], true, true, false⟩
    let s := on0.setCtx 0x2A5 { ctxData0 with extents := [x] }
    s.view 0x2A5 0x10000005FFFF0000 0x40000 false [1] = .refuse 0x2101 ∧
    s.view 0x2A5 0x10000005FFFF0000 0x10000 false [1] = .extent x 0x5FFFF0000 ∧
    Extent_phys x 0x5FFFF0000 = 0x65FFFF0000 := by decide +kernel

/-! ## Single steps -/

/-- The write of PACE_SET is clamped to 16. -/
theorem test_paceSet : (match step { on0 with pending := [.paceSetWrite .pf0 3] } with
    | .next t => decide (t.get HUB_PACE_CFG_PACE_SET = 16) && t.pending.isEmpty
    | _ => false) = true := by decide +kernel

/-- A heartbeat of a context's slot sets LAST_HB of its function. -/
theorem test_heartbeat : (match step { puts (withCtx on0 5) [(HUB_TIME_TIME, 77)] with pending := [.heartbeat 0 0] } with
    | .next t => decide (t.get (PCIE_FN_CFG_LAST_HB 0) = 77)
    | _ => false) = true := by decide +kernel

/-- An isolation violation is recorded with the context, one event and the low 32 bits of the address. -/
theorem test_violation : ((on0.violate 0x2A5 0x2101 0 0x10000005FFFF0000).eph.staged.map fun r => (r.code, r.p0, r.p1, r.p2)) =
    [(0x2101, 0x2A5, 1, 0xFFFF0000)] ∧ (on0.violate 0x2A5 0x2101 0 0).get (CTX_VIOL_COUNT 0x2A5) = 1 := by decide +kernel

theorem premises_RegisterFieldWrite :
    (∃ s : State, ∃ f : Fld, ∃ g : Fld, ∃ v : Nat, f.lo ≤ f.hi ∧ f.hi < 64 ∧ g.lo ≤ g.hi ∧ g.hi < 64) ∧
    (∃ s : State, ∃ f : Fld, ∃ g : Fld, ∃ v : Nat, f.lo ≤ f.hi ∧ f.hi < 64 ∧ g.lo ≤ g.hi ∧ g.hi < 64 ∧ (g.off ≠ f.off ∨ g.hi < f.lo ∨ f.hi < g.lo)) ∧
    (∃ s : State, ∃ f : Fld, ∃ g : Fld, ∃ v : Nat, ∃ off : Nat, f.lo ≤ f.hi ∧ f.hi < 64 ∧ g.lo ≤ g.hi ∧ g.hi < 64 ∧ off ≠ f.off) :=
  ⟨⟨on0, HUB_PACE_CFG_PACE_SET, HUB_TIME_TIME, 5, by decide +kernel⟩,
    ⟨on0, HUB_PACE_CFG_PACE_SET, HUB_TIME_TIME, 5, by decide +kernel⟩,
    ⟨on0, HUB_PACE_CFG_PACE_SET, HUB_TIME_TIME, 5, 0, by decide +kernel⟩⟩

theorem premises_HostAccessesComplete :
    (∃ path : Path, ∃ a : RegAddr, ∃ h : Half, ∃ v : Word, ∃ s : State, ∃ k : Nat, s.takesWrites = true ∧ s.resolve path a = some k ∧ isSt k = false ∧ s.fwUnassigned path a h v = false) ∧
    (∃ path : Path, ∃ a : RegAddr, ∃ h : Half, ∃ s : State, ∃ k : Nat, s.on = true ∧ s.resolve path a = some k) ∧
    (∃ off : Nat, ∃ size : Nat, ∃ fn : Nat, ∃ s : State, s.on = true ∧ ((size = 4 ∨ size = 8) → off % size ≠ 0) ∧ insideBlock off = true) ∧
    (∃ off : Nat, ∃ fn : Nat, ∃ s : State, s.on = true ∧ insideBlock off = false) ∧
    (∃ off : Nat, ∃ h : Half, ∃ v : Word, ∃ s : State, s.takesWrites = true ∧ 0x30000000 ≤ off ∧ off < 0x40000000 ∧ s.get HUB_BAR0_WIN_BASE = 0 ∧ insideBlock (off - 0x30000000) = true) ∧
    (∃ off : Nat, ∃ s : State, s.on = true ∧ 0x30000000 ≤ off ∧ off < 0x40000000 ∧ 6 ≤ s.get HUB_BAR0_WIN_BASE) ∧
    (∃ path : Path, ∃ off : Nat, ∃ k : Nat, ∃ h : Half, ∃ v : Word, ∃ s : State, s.takesWrites = true ∧ mirrorTarget off = some k ∧ isSt k = true ∧ ownerCode path ≠ 0 ∧ s.cfgPath path = true) ∧
    (∃ fn : Fin 256, ∃ off : Nat, ∃ len : Nat, ∃ s : State, ∃ e : Extent, ∃ rel : Nat, s.on = true ∧ s.view (s.get (PCIE_FN_CFG_BAR2_CTX fn.val)) (s.bar2Addr fn.val off) len false [1] = .extent e rel ∧ (∀ b ∈ blocksOf rel len, (s.sealOf .h (Extent_phys e b)).poison = false) ∧ e.sealed = false ∧ e.tier = 1) ∧
    (∃ fn : Fin 256, ∃ off : Nat, ∃ data : List Byte, ∃ s : State, ∃ e : Extent, ∃ rel : Nat, s.takesWrites = true ∧ s.view (s.get (PCIE_FN_CFG_BAR2_CTX fn.val)) (s.bar2Addr fn.val off) data.length true [1] = .extent e rel) :=
  ⟨⟨.pf0, .ctrl HUB_TIME_TIME.off, .full, 7, on0, HUB_TIME_TIME.off, by decide +kernel⟩,
    ⟨.sideband, .ctrl EPH_DROPPED_NOTE.off, .full, on0, EPH_DROPPED_NOTE.off, by decide +kernel⟩,
    ⟨0x4FFFFFE, 4, 0, on0, by decide +kernel⟩,
    ⟨0x5000000, 0, on0, by decide +kernel⟩,
    ⟨0x30000000, .full, 0, puts on0 [(HUB_BAR0_WIN_BASE, 0)], by decide +kernel⟩,
    ⟨0x3FFFFFF8, puts on0 [(HUB_BAR0_WIN_BASE, 6)], by decide +kernel⟩,
    ⟨.pf0, 0x51000000, 0x200000, .full, 1, on0, by decide +kernel⟩,
    ⟨255, 0, 4096, withCtx on0 0, extH, 0, by decide +kernel⟩,
    ⟨0, 0, [1, 2], withCtx on0 0, extH, 0, by decide +kernel⟩⟩

theorem premises_QueueWritesComplete :
    (∃ path : Path, ∃ q : QueueId, ∃ s : State, s.takesWrites = true ∧ s.queuePath path q = true ∧ s.get (qEn q) = 0 ∧ s.queueSetupGood q = true ∧ QueueId_isList q = true) ∧
    (∃ path : Path, ∃ q : QueueId, ∃ s : State, s.takesWrites = true ∧ s.queuePath path q = true ∧ s.get (qEn q) = 0 ∧ s.queueSetupGood q = true ∧ QueueId_isList q = false) ∧
    (∃ path : Path, ∃ q : QueueId, ∃ s : State, s.takesWrites = true ∧ s.queuePath path q = true ∧ QueueId_isList q = false) ∧
    (∃ path : Path, ∃ q : QueueId, ∃ s : State, s.takesWrites = true ∧ s.queuePath path q = true ∧ s.get (qState q) = 2 ∧ (s.queue (s.cqOf q)).heldRecs = []) ∧
    (∃ path : Path, ∃ q : QueueId, ∃ tail : Nat, ∃ s : State, ∃ p : Nat, s.takesWrites = true ∧ s.queuePath path q = true ∧ tail < s.ringSize q ∧ s.queuePart q = some p) ∧
    (∃ path : Path, ∃ q : QueueId, ∃ tail : Nat, ∃ s : State, s.takesWrites = true ∧ s.queuePath path q = true ∧ s.ringSize q ≤ tail) ∧
    (∃ path : Path, ∃ q : QueueId, ∃ head : Nat, ∃ s : State, s.takesWrites = true ∧ s.queuePath path q = true ∧ QueueId_isList q = false ∧ head < s.ringSize q) ∧
    (∃ fn : Fin 256, ∃ slot : Nat, ∃ qn : Nat, ∃ tail : Nat, ∃ s : State, ∃ n : Nat, ∃ q : QueueId, s.takesWrites = true ∧ s.ctxOf fn.val slot = some n ∧ s.get (PCIE_FN_CFG_STATE fn.val) ≠ 2 ∧ queueOfNumber n qn = some q ∧ (s.beat fn.val).owner q = n) ∧
    (∃ fn : Fin 256, ∃ slot : Nat, ∃ s : State, ∃ n : Nat, s.takesWrites = true ∧ s.ctxOf fn.val slot = some n) ∧
    (∃ c : Fin 4096, ∃ s : State, s.on = true ∧ (s.ctx c.val).irqPending = true ∧ s.get (CTX_PAGE_ITR_US c.val) ≠ 0) :=
  ⟨⟨.pf0, .workList 127 7, puts (withRing (withCtx on0 5) (.workList 127 7) 5 0) [(qEn (.workList 127 7), 0), (qSizeLog (.workList 127 7), 16)], by decide +kernel⟩,
    ⟨.pf0, .cmdRing 5, puts (withRing (withCtx on0 5) (.cmdRing 5) 5 0) [(qEn (.cmdRing 5), 0), (qSizeLog (.cmdRing 5), 6), (FW_IF_IF_SEL 0, 1)], by decide +kernel⟩,
    ⟨.pf0, .cmdRing 5, cmd 5 0, by decide +kernel⟩,
    ⟨.pf0, .workList 0 0, puts (withCtx on0 5) [(qState (.workList 0 0), 2), (qOwnerF (.workList 0 0), 5)], by decide +kernel⟩,
    ⟨.pf0, .workList 0 0, 15, withRing (withCtx on0 5) (.workList 0 0) 5 0, 0, by decide +kernel⟩,
    ⟨.pf0, .workList 0 0, 16, withRing (withCtx on0 5) (.workList 0 0) 5 0, by decide +kernel⟩,
    ⟨.vf 0, .cmdRing 5, 15, cmd 5 0, by decide +kernel⟩,
    ⟨0, 0, 0x600, 1, withCtx on0 5, 5, .cmdRing 5, by decide +kernel⟩,
    ⟨0, 0, withCtx on0 5, 5, by decide +kernel⟩,
    ⟨5, puts ((withCtx on0 5).setCtx 5 { ctxData0 with irqPending := true }) [(CTX_PAGE_ITR_US 5, 1)], by decide +kernel⟩⟩

theorem premises_ContextCommandsComplete :
    (∃ c : Fin 4096, ∃ s : State, ∃ e : Entry, s.cmdReady c.val 0x10 e = true ∧ (s.advance (.cmdRing c.val) 1).createRefusal e = none) ∧
    (∃ c : Fin 4096, ∃ s : State, ∃ e : Entry, ∃ st : Status, s.cmdReady c.val 0x10 e = true ∧ (s.advance (.cmdRing c.val) 1).createRefusal e = some st) ∧
    (∃ c : Fin 4096, ∃ s : State, ∃ e : Entry, s.cmdReady c.val 0x11 e = true ∧ (s.advance (.cmdRing c.val) 1).manageable ((s.advance (.cmdRing c.val) 1).cmdTarget c.val e) = true) ∧
    (∃ c : Fin 4096, ∃ s : State, ∃ e : Entry, s.cmdReady c.val 0x12 e = true ∧ (s.advance (.cmdRing c.val) 1).get (CTX_STATE ((s.advance (.cmdRing c.val) 1).cmdTarget c.val e)) = 1) ∧
    (∃ c : Fin 4096, ∃ s : State, ∃ e : Entry, s.cmdReady c.val 0x12 e = true ∧ (s.advance (.cmdRing c.val) 1).get (CTX_STATE ((s.advance (.cmdRing c.val) 1).cmdTarget c.val e)) = 2) ∧
    (∃ c : Fin 4096, ∃ s : State, ∃ e : Entry, s.cmdReady c.val 0x12 e = true ∧ (s.advance (.cmdRing c.val) 1).get (CTX_STATE ((s.advance (.cmdRing c.val) 1).cmdTarget c.val e)) = 4) ∧
    (∃ c : Fin 4096, ∃ s : State, ∃ e : Entry, s.cmdReady c.val 0x13 e = true ∧ (s.advance (.cmdRing c.val) 1).get (CTX_STATE ((s.advance (.cmdRing c.val) 1).cmdTarget c.val e)) = 2) ∧
    (∃ c : Fin 4096, ∃ answers : List Nat, ∃ s : State, ∃ e : Entry, s.cmdReady c.val 0x15 e = true ∧ (s.advance (.cmdRing c.val) 1).manageable ((s.advance (.cmdRing c.val) 1).cmdTarget c.val e) = true ∧ Entry_bits e 1 3 3 = 1) ∧
    (∃ c : Fin 4096, ∃ s : State, ∃ e : Entry, s.cmdReady c.val 0x14 e = true ∧ (s.advance (.cmdRing c.val) 1).manageable ((s.advance (.cmdRing c.val) 1).cmdTarget c.val e) = true ∧ Entry_bits e 1 2 2 = 0 ∧ (s.advance (.cmdRing c.val) 1).extentRefusal ((s.advance (.cmdRing c.val) 1).cmdTarget c.val e) (Entry_bits e 1 1 0) (Entry_bits e 1 13 8) (Entry_bits e 2 63 0) (Entry_bits e 3 63 0) = none) :=
  ⟨⟨5, { cmd 5 (cmdE 0x10 5 [(1, 0, 4095), (1, 32, 63), (2, 0, 7), (2, 20, 1), (2, 32, 9)]) with cfg := { cfg0 with ctxPerVf := 64 } }, cmdE 0x10 5 [(1, 0, 4095), (1, 32, 63), (2, 0, 7), (2, 20, 1), (2, 32, 9)], by decide +kernel⟩,
    ⟨5, cmd 5 (cmdE 0x10 5 [(1, 0, 5)]), cmdE 0x10 5 [(1, 0, 5)], .refusedPartition, by decide +kernel⟩,
    ⟨5, cmd 5 (cmdE 0x11 5 []), cmdE 0x11 5 [], by decide +kernel⟩,
    ⟨5, cmd 5 (cmdE 0x12 5 []), cmdE 0x12 5 [], by decide +kernel⟩,
    ⟨5, puts (cmd 5 (cmdE 0x12 6 [])) [(CTX_STATE 6, 2)], cmdE 0x12 6 [], by decide +kernel⟩,
    ⟨5, puts (cmd 5 (cmdE 0x12 6 [])) [(CTX_STATE 6, 4)], cmdE 0x12 6 [], by decide +kernel⟩,
    ⟨5, puts (cmd 5 (cmdE 0x13 6 [])) [(CTX_STATE 6, 2)], cmdE 0x13 6 [], by decide +kernel⟩,
    ⟨5, [], cmd 5 (cmdE 0x15 5 [(1, 3, 1)]), cmdE 0x15 5 [(1, 3, 1)], by decide +kernel⟩,
    ⟨5, cmd 5 (cmdE 0x14 5 [(1, 0, 1), (2, 0, 2 ^ 32), (3, 0, 2 ^ 21)]), cmdE 0x14 5 [(1, 0, 1), (2, 0, 2 ^ 32), (3, 0, 2 ^ 21)], by decide +kernel⟩⟩

theorem premises_ExtentChangeWaits :
    (∃ c : Fin 4096, ∃ s : State, s.ctxBusy c.val = true) ∧
    (∃ c : Fin 4096, ∃ s : State, ∃ x : ExtChange, ∃ l : List ExtChange, s.live = true ∧ s.ctxBusy c.val = false ∧ (s.ctx c.val).changes = x :: l) :=
  ⟨⟨5, { on0 with xreqs := [⟨0, 0, 5, 0, { ty := 0 }, .look 0, false, false, 0, false⟩] }, by decide +kernel⟩,
    ⟨5, (withCtx on0 5).setCtx 5 { ctxData0 with changes := [⟨false, extH, 5, 0⟩] }, ⟨false, extH, 5, 0⟩, [], by decide +kernel⟩⟩

theorem premises_FunctionEventsComplete :
    (∃ c : Fin 4096, ∃ s : State, s.live = true ∧ s.get (CTX_STATE c.val) = 4 ∧ s.ctxBusy c.val = false ∧ (s.ctx c.val).closingAt + 10000000 ≤ s.now ∧ (s.ctx c.val).lastRetire + 10000000 ≤ s.now) ∧
    (∃ f : Fin 256, ∃ s : State, s.takesWrites = true ∧ s.get (PCIE_FN_CFG_LAST_HB f.val) + s.get (PCIE_FN_CFG_HB_TIMEOUT f.val) * 1000000 + (s.fn f.val).hbFrozen ≤ s.now) ∧
    (∃ f : Fin 256, ∃ s : State, s.takesWrites = true ∧ s.get (FW_IF_IF_SEL f.val) ≠ 0 ∧ s.get (PCIE_FN_CFG_STATE f.val) = 2 ∧ (s.fn f.val).ckptRun = []) ∧
    (∃ f : Fin 256, ∃ s : State, s.takesWrites = true ∧ s.get (PCIE_FN_CFG_STATE f.val) = 2 ∧ (s.fn f.val).ckptRun = []) ∧
    (∃ f : Fin 256, ∃ s : State, s.takesWrites = true ∧ s.get (PCIE_FN_CFG_STATE f.val) = 2 ∧ (s.fn f.val).ckptRun = [] ∧ (s.fn f.val).orphanAt + s.get (PCIE_FN_CFG_HOLD_MIN f.val) * 60000000000 + (s.fn f.val).hbFrozen ≤ s.now) ∧
    (∃ f : Fin 256, ∃ s : State, s.on = true ∧ s.get (PCIE_FN_CFG_STATE f.val) ≠ 2 ∧ s.fnCtxs f.val ≠ []) ∧
    (∃ n : Nat, ∃ s : State, s.on = true ∧ n < s.numVfs) ∧
    (∃ s : State, s.on = true) ∧
    (∃ fn : Fin 256, ∃ reg : Nat, ∃ w : Option Nat, ∃ s : State, s.on = true ∧ s.get FW_STATUS_STATE ≠ 2) ∧
    (∃ s : State, s.on = true ∧ s.get FW_STATUS_STATE = 2) :=
  ⟨⟨4095, puts on0 [(CTX_STATE 4095, 4), (HUB_TIME_TIME, 10000000)], by decide +kernel⟩,
    ⟨255, puts on0 [(HUB_TIME_TIME, 1000000000)], by decide +kernel⟩,
    ⟨255, puts on0 [(PCIE_FN_CFG_STATE 255, 2), (FW_IF_IF_SEL 255, 1), (HUB_TIME_TIME, 86400000000000)], by decide +kernel⟩,
    ⟨255, puts on0 [(PCIE_FN_CFG_STATE 255, 2), (FW_IF_IF_SEL 255, 1), (HUB_TIME_TIME, 86400000000000)], by decide +kernel⟩,
    ⟨255, puts on0 [(PCIE_FN_CFG_STATE 255, 2), (FW_IF_IF_SEL 255, 1), (HUB_TIME_TIME, 86400000000000)], by decide +kernel⟩,
    ⟨0, withCtx on0 5, by decide +kernel⟩,
    ⟨0, { on0 with numVfs := 1 }, by decide +kernel⟩,
    ⟨on0, by decide +kernel⟩,
    ⟨0, 0, none, puts on0 [(FW_STATUS_STATE, 1)], by decide +kernel⟩,
    ⟨on0, by decide +kernel⟩⟩

theorem premises_TableCommandsComplete :
    (∃ c : Fin 4096, ∃ s : State, ∃ e : Entry, ∃ u : State, ∃ d : Desc, ∃ x : Extent, s.cmdReady c.val 0x20 e = true ∧ (s.advance (.cmdRing c.val) 1).manageable ((s.advance (.cmdRing c.val) 1).cmdTarget c.val e) = true ∧ (s.advance (.cmdRing c.val) 1).readDesc c.val (s.get (qHead (.cmdRing c.val))) e = (u, some d) ∧ tdLegal d = true ∧ findExtent (u.ctx ((s.advance (.cmdRing c.val) 1).cmdTarget c.val e)).extents 1 (offOf (tdValueH d)) 1 = some x ∧ (stackOf (Extent_phys x (offOf (tdValueH d) - x.off))) < 12 ∧ u.tableAt (stackOf (Extent_phys x (offOf (tdValueH d) - x.off))) (u.get (CTX_JOB_DOMAIN ((s.advance (.cmdRing c.val) 1).cmdTarget c.val e))) (Desc_bits d 0 63 48) = none ∧ u.tdRegions ((s.advance (.cmdRing c.val) 1).cmdTarget c.val e) (stackOf (Extent_phys x (offOf (tdValueH d) - x.off))) d = true ∧ (u.tables.filter fun b => b.engine == (stackOf (Extent_phys x (offOf (tdValueH d) - x.off)))).length < 256) ∧
    (∃ c : Fin 4096, ∃ s : State, ∃ e : Entry, ∃ b : Table, s.cmdReady c.val 0x21 e = true ∧ (s.advance (.cmdRing c.val) 1).manageable ((s.advance (.cmdRing c.val) 1).cmdTarget c.val e) = true ∧ (s.advance (.cmdRing c.val) 1).doomedTable c.val e = some b) ∧
    (∃ c : Fin 4096, ∃ s : State, ∃ e : Entry, ∃ b : Table, s.cmdReady c.val 0x22 e = true ∧ (s.advance (.cmdRing c.val) 1).cmdTable c.val e = some b ∧ (finite32 (Entry_bits e 2 63 32) && positive32 (Entry_bits e 2 31 0) && unit32 (Entry_bits e 3 63 32) && unit32 (Entry_bits e 3 31 0)) = true) ∧
    (∃ c : Fin 4096, ∃ s : State, ∃ e : Entry, ∃ b : Table, s.cmdReady c.val 0x23 e = true ∧ (s.advance (.cmdRing c.val) 1).cmdTable c.val e = some b ∧ (b.rows.filter fun x => x.state == 3) = []) ∧
    (∃ c : Fin 4096, ∃ s : State, ∃ e : Entry, ∃ b : Table, s.cmdReady c.val 0x23 e = true ∧ (s.advance (.cmdRing c.val) 1).cmdTable c.val e = some b ∧ (b.rows.filter fun x => x.state == 3) ≠ [] ∧ tdHOnly b.desc = false ∧ (s.advance (.cmdRing c.val) 1).deepReadOnly = false) ∧
    (∃ c : Fin 4096, ∃ s : State, ∃ e : Entry, ∃ b : Table, ∃ bs : List FBlock, ∃ u : State, s.cmdReady c.val 0x24 e = true ∧ (s.advance (.cmdRing c.val) 1).cmdTable c.val e = some b ∧ (s.advance (.cmdRing c.val) 1).applying b.part = false ∧ (s.advance (.cmdRing c.val) 1).tableFile b = .inr bs ∧ (s.advance (.cmdRing c.val) 1).fileSend c.val (s.get (qHead (.cmdRing c.val))) (Entry_bits e 2 63 0) 3 bs (.cmd c.val (s.get (qHead (.cmdRing c.val))) e) = (u, none)) ∧
    (∃ c : Fin 4096, ∃ s : State, ∃ e : Entry, ∃ b : Table, ∃ u : State, ∃ bs : List (List Byte × Option Seal), s.cmdReady c.val 0x25 e = true ∧ (s.advance (.cmdRing c.val) 1).cmdTable c.val e = some b ∧ (s.advance (.cmdRing c.val) 1).partIdle b.part = true ∧ (s.advance (.cmdRing c.val) 1).fileFetch c.val (s.get (qHead (.cmdRing c.val))) (Entry_bits e 2 63 0) [1, 2, 3, 4] headLength 0 (.cmd c.val (s.get (qHead (.cmdRing c.val))) e) = (u, .have_ bs)) ∧
    (∃ c : Fin 4096, ∃ s : State, ∃ e : Entry, ∃ u : State, ∃ d : Desc, ∃ k : Nat, s.cmdReady c.val 0x26 e = true ∧ (s.advance (.cmdRing c.val) 1).manageable ((s.advance (.cmdRing c.val) 1).cmdTarget c.val e) = true ∧ (s.advance (.cmdRing c.val) 1).readDesc c.val (s.get (qHead (.cmdRing c.val))) e = (u, some d) ∧ u.shardSlot ((s.advance (.cmdRing c.val) 1).cmdTarget c.val e) d = .inr k ∧ Entry_bits e 3 63 0 = 0) ∧
    (∃ c : Fin 4096, ∃ s : State, ∃ e : Entry, ∃ x : Shard, s.cmdReady c.val 0x27 e = true ∧ (s.advance (.cmdRing c.val) 1).manageable ((s.advance (.cmdRing c.val) 1).cmdTarget c.val e) = true ∧ (s.advance (.cmdRing c.val) 1).shardOf (Entry_bits e 1 18 16) ((s.advance (.cmdRing c.val) 1).get (CTX_JOB_DOMAIN ((s.advance (.cmdRing c.val) 1).cmdTarget c.val e))) (Entry_bits e 1 15 0) = some x ∧ x.destroying = none) ∧
    (∃ c : Fin 4096, ∃ s : State, ∃ e : Entry, s.cmdReady c.val 0x2A e = true ∧ (s.advance (.cmdRing c.val) 1).partValid (Entry_bits e 1 6 0) = true ∧ (s.advance (.cmdRing c.val) 1).partIdle (Entry_bits e 1 6 0) = false) ∧
    (∃ c : Fin 4096, ∃ s : State, ∃ e : Entry, s.cmdReady c.val 0x2A e = true ∧ (s.advance (.cmdRing c.val) 1).partValid (Entry_bits e 1 6 0) = true ∧ (s.advance (.cmdRing c.val) 1).partIdle (Entry_bits e 1 6 0) = true ∧ (∀ kv ∈ (s.advance (.cmdRing c.val) 1).cfg.active.streams, ∀ d, kv.2 = some d → d.part ≠ (Entry_bits e 1 6 0))) ∧
    (∃ c : Fin 4096, ∃ s : State, ∃ e : Entry, s.cmdReady c.val 0x01 e = true ∧ copyBad e = false ∧ (s.advance (.cmdRing c.val) 1).copyRefusal c.val e = none ∧ (s.advance (.cmdRing c.val) 1).copyServes c.val e = true ∧ hostTier (cpDst e) = false) :=
  ⟨⟨5, cmdDesc (cmdE 0x20 5 [(2, 0, 2 ^ 60 + 0x2000)]) tableDesc, cmdE 0x20 5 [(2, 0, 2 ^ 60 + 0x2000)], (((cmdDesc (cmdE 0x20 5 [(2, 0, 2 ^ 60 + 0x2000)]) tableDesc).advance (.cmdRing 5) 1).readDesc 5 0 (cmdE 0x20 5 [(2, 0, 2 ^ 60 + 0x2000)])).1, tableDesc, extH, by decide +kernel⟩,
    ⟨5, cmdTab (cmdE 0x21 5 [(1, 0, 7)]), cmdE 0x21 5 [(1, 0, 7)], tabOf (cmdTab (cmdE 0x21 5 [(1, 0, 7)])) (by decide +kernel), by decide +kernel⟩,
    ⟨5, cmdTab (cmdE 0x22 0 [(1, 0, 7), (2, 0, 1)]), cmdE 0x22 0 [(1, 0, 7), (2, 0, 1)], tabOf (cmdTab (cmdE 0x22 0 [(1, 0, 7), (2, 0, 1)])) (by decide +kernel), by decide +kernel⟩,
    ⟨5, cmdTab (cmdE 0x23 0 [(1, 0, 7)]), cmdE 0x23 0 [(1, 0, 7)], tabOf (cmdTab (cmdE 0x23 0 [(1, 0, 7)])) (by decide +kernel), by decide +kernel⟩,
    ⟨5, withTab (cmdTab (cmdE 0x23 0 [(1, 0, 7)])) fun b => { b with desc := desc [(8, 0, 2 ^ 61)], rows := [dirtyRow] }, cmdE 0x23 0 [(1, 0, 7)], tabOf (withTab (cmdTab (cmdE 0x23 0 [(1, 0, 7)])) fun b => { b with desc := desc [(8, 0, 2 ^ 61)], rows := [dirtyRow] }) (by decide +kernel), by decide +kernel⟩,
    ⟨5, withTab (cmdTab (cmdE 0x24 0 [(1, 0, 7), (2, 0, 2 ^ 61 + 2 ^ 60)])) fun b => { b with desc := 0 }, cmdE 0x24 0 [(1, 0, 7), (2, 0, 2 ^ 61 + 2 ^ 60)], tabOf (withTab (cmdTab (cmdE 0x24 0 [(1, 0, 7), (2, 0, 2 ^ 61 + 2 ^ 60)])) fun b => { b with desc := 0 }) (by decide +kernel), _, _, by decide +kernel, by decide +kernel, by decide +kernel, (Sum.inr_getRight _ (by decide +kernel)).symm, Prod.ext rfl (by decide +kernel)⟩,
    ⟨5, puts (cmdTab (cmdE 0x25 0 [(1, 0, 7), (2, 0, 2 ^ 60 + 0x100000)])) [(qOwnerF (.workList 0 0), 0)], cmdE 0x25 0 [(1, 0, 7), (2, 0, 2 ^ 60 + 0x100000)], tabOf (puts (cmdTab (cmdE 0x25 0 [(1, 0, 7), (2, 0, 2 ^ 60 + 0x100000)])) [(qOwnerF (.workList 0 0), 0)]) (by decide +kernel), _, _, by decide +kernel, by decide +kernel, by decide +kernel, Prod.ext rfl (fetched_of_isFetched (by decide +kernel))⟩,
    ⟨5, puts (cmdDesc (cmdE 0x26 5 [(2, 0, 2 ^ 60 + 0x2000)]) shardDesc) [(ORR_PART_CFG_VALID 0 0, 1), (ORR_PART_CFG_SLOT_COUNT 0 0, 1)], cmdE 0x26 5 [(2, 0, 2 ^ 60 + 0x2000)], (((puts (cmdDesc (cmdE 0x26 5 [(2, 0, 2 ^ 60 + 0x2000)]) shardDesc) [(ORR_PART_CFG_VALID 0 0, 1), (ORR_PART_CFG_SLOT_COUNT 0 0, 1)]).advance (.cmdRing 5) 1).readDesc 5 0 (cmdE 0x26 5 [(2, 0, 2 ^ 60 + 0x2000)])).1, shardDesc, 0, by decide +kernel⟩,
    ⟨5, { cmd 5 (cmdE 0x27 5 [(1, 0, 9)]) with shards := [⟨0, 0, 5, 0, shardDesc, ⟨0, 0, 0, 0, 0⟩, ⟨0, 0, 0, 0, 0⟩, [], [], none, 0, 0, none⟩] }, cmdE 0x27 5 [(1, 0, 9)], ⟨0, 0, 5, 0, shardDesc, ⟨0, 0, 0, 0, 0⟩, ⟨0, 0, 0, 0, 0⟩, [], [], none, 0, 0, none⟩, by decide +kernel⟩,
    ⟨5, puts (cmd 5 (cmdE 0x2A 5 [])) [(qEn (.workList 0 7), 1), (qState (.workList 0 7), 1)], cmdE 0x2A 5 [], by decide +kernel⟩,
    ⟨5, cmd 5 (cmdE 0x2A 5 []), cmdE 0x2A 5 [], by decide +kernel, by decide +kernel, by decide +kernel, fun _ h => absurd ((show (cmd 5 (cmdE 0x2A 5 [])).cfg.active.streams = [] from by decide +kernel) ▸ h) List.not_mem_nil⟩,
    ⟨5, cmd 5 (cmdE 0x01 0 [(1, 0, 64), (2, 0, 2 ^ 60 + 0x10000), (3, 0, 2 ^ 60 + 0x20000)]), cmdE 0x01 0 [(1, 0, 64), (2, 0, 2 ^ 60 + 0x10000), (3, 0, 2 ^ 60 + 0x20000)], by decide +kernel⟩⟩

theorem premises_PcieCompletionsComplete :
    (∃ req : Nat, ∃ data : List Byte, ∃ s : State, ∃ r : PcieReq, ∃ id : Nat, ∃ k : Copy, s.takesWrites = true ∧ s.pcieReq req = some r ∧ data.length = r.len ∧ r.what = .copyRead id ∧ s.copyOf id = some k) ∧
    (∃ req : Nat, ∃ s : State, ∃ r : PcieReq, ∃ id : Nat, ∃ k : Copy, s.takesWrites = true ∧ s.pcieReq req = some r ∧ r.what = .copyFlush id ∧ s.copyOf id = some k) ∧
    (∃ req : Nat, ∃ s : State, ∃ r : PcieReq, s.takesWrites = true ∧ s.pcieReq req = some r ∧ s.reqCopy r = none) ∧
    (∃ req : Nat, ∃ s : State, ∃ r : PcieReq, ∃ k : Copy, s.takesWrites = true ∧ s.pcieReq req = some r ∧ s.reqCopy r = some k) ∧
    (∃ req : Nat, ∃ s : State, ∃ r : PcieReq, s.takesWrites = true ∧ s.pcieReq req = some r) :=
  ⟨⟨7, [1, 2], { on0 with pcie := [⟨7, 5, 0, 2, none, .copyRead 3⟩], copies := [⟨3, 5, 0, 0, 0, false, none, false, false, [], false⟩] }, ⟨7, 5, 0, 2, none, .copyRead 3⟩, 3, ⟨3, 5, 0, 0, 0, false, none, false, false, [], false⟩, by decide +kernel⟩,
    ⟨7, { on0 with pcie := [⟨7, 5, 0, 2, none, .copyFlush 3⟩], copies := [⟨3, 5, 0, 0, 0, false, none, false, false, [], false⟩] }, ⟨7, 5, 0, 2, none, .copyFlush 3⟩, 3, ⟨3, 5, 0, 0, 0, false, none, false, false, [], false⟩, by decide +kernel⟩,
    ⟨7, { on0 with pcie := [⟨7, 5, 0, 2, none, .fileRead 9⟩], copies := [⟨3, 5, 0, 0, 0, false, none, false, false, [], false⟩] }, ⟨7, 5, 0, 2, none, .fileRead 9⟩, by decide +kernel⟩,
    ⟨7, { on0 with pcie := [⟨7, 5, 0, 2, none, .copyFlush 3⟩], copies := [⟨3, 5, 0, 0, 0, false, none, false, false, [], false⟩] }, ⟨7, 5, 0, 2, none, .copyFlush 3⟩, ⟨3, 5, 0, 0, 0, false, none, false, false, [], false⟩, by decide +kernel⟩,
    ⟨7, { on0 with pcie := [⟨7, 5, 0, 2, none, .fileRead 9⟩], copies := [⟨3, 5, 0, 0, 0, false, none, false, false, [], false⟩] }, ⟨7, 5, 0, 2, none, .fileRead 9⟩, by decide +kernel⟩⟩

theorem premises_TileControlCompletes :
    (∃ t : Fin 272, ∃ w : Entry, ∃ s : State, s.ctlReady t.val 0x00 w = true) ∧
    (∃ t : Fin 272, ∃ w : Entry, ∃ s : State, s.ctlReady t.val 0x01 w = true) ∧
    (∃ t : Fin 272, ∃ w : Entry, ∃ s : State, s.ctlReady t.val 0x02 w = true ∧ (s.tile t.val).issued = []) ∧
    (∃ t : Fin 272, ∃ w : Entry, ∃ s : State, s.ctlReady t.val 0x02 w = true ∧ (s.tile t.val).issued ≠ []) ∧
    (∃ t : Fin 272, ∃ w : Entry, ∃ s : State, s.ctlReady t.val 0x03 w = true) ∧
    (∃ t : Fin 272, ∃ w : Entry, ∃ s : State, s.ctlReady t.val 0x04 w = true ∧ (s.tile t.val).issued = [] ∧ (Entry_bits (s.opForm t.val (fun _ => 0) w) 0 15 15 = 0)) ∧
    (∃ t : Fin 272, ∃ w : Entry, ∃ s : State, s.ctlReady t.val 0x04 w = true ∧ (s.tile t.val).issued = [] ∧ (Entry_bits (s.opForm t.val (fun _ => 0) w) 0 15 15 = 1) ∧ (s.tilePart (Entry_bits (s.opForm t.val (fun _ => 0) w) 0 23 16) = some (s.tileCtx t.val).part)) ∧
    (∃ t : Fin 272, ∃ w : Entry, ∃ s : State, (s.opReady t.val 0x06 w (fun v => if s.loopBad t.val v then some 0x09 else none) (fun _ => []) (fun _ => 0) = true)) ∧
    (∃ t : Fin 272, ∃ w : Entry, ∃ s : State, (s.opReady t.val 0x05 w (fun v => if Entry_bits v 0 1 0 = 3 then some 0x08 else none) (fun _ => []) (fun _ => 0) = true) ∧ (s.tile t.val).skipDeliveries ≤ (s.tile t.val).delivered ∧ (s.barrier ((s.tileCtx t.val).part) (Entry_bits (s.opForm t.val (fun _ => 0) w) 0 1 0)).arrived.contains (.tile (s.get (TILE_STATUS_LOGICAL_ID t.val))) = false) ∧
    (∃ t : Fin 272, ∃ s : State, ∃ i : Issued, s.live = true ∧ ((s.tile t.val).issued.find? fun i => !i.waits) = some i) ∧
    (∃ t : Fin 272, ∃ s : State, s.live = true ∧ (s.tile t.val).wait.isSome = true) ∧
    (∃ path : Path, ∃ t : Fin 272, ∃ h : Half, ∃ v : Word, ∃ s : State, s.takesWrites = true ∧ ctrlPath path = true) :=
  ⟨⟨271, mop 0x00 [], onTile 271 (mop 0x00 []), by decide +kernel⟩,
    ⟨271, mop 0x01 [], onTile 271 (mop 0x01 []), by decide +kernel⟩,
    ⟨271, mop 0x02 [], onTile 271 (mop 0x02 []), by decide +kernel⟩,
    ⟨271, mop 0x02 [], (onTile 271 (mop 0x02 [])).setTile 271 { (onTile 271 (mop 0x02 [])).tile 271 with issued := [⟨0, 1, 0x10, 0, .done, false, none, ⟨[], 0, 0, 0⟩, 0, [], []⟩] }, by decide +kernel⟩,
    ⟨271, mop 0x03 [(0, 12, 15)], onTile 271 (mop 0x03 [(0, 12, 15)]), by decide +kernel⟩,
    ⟨271, mop 0x04 [], onTile 271 (mop 0x04 []), by decide +kernel⟩,
    ⟨271, mop 0x04 [(0, 15, 1)], puts (onTile 271 (mop 0x04 [(0, 15, 1)])) [(⟨0x200008, 0, 0⟩, 1)], by decide +kernel⟩,
    ⟨271, mop 0x06 [], onTile 271 (mop 0x06 []), by decide +kernel⟩,
    ⟨271, mop 0x05 [], onTile 271 (mop 0x05 []), by decide +kernel⟩,
    ⟨271, (onTile 271 0).setTile 271 { (onTile 271 0).tile 271 with issued := [⟨0, 1, 0x10, 0, .done, false, none, ⟨[], 0, 0, 0⟩, 0, [], []⟩] }, ⟨0, 1, 0x10, 0, .done, false, none, ⟨[], 0, 0, 0⟩, 0, [], []⟩, by decide +kernel⟩,
    ⟨271, (onTile 271 0).setTile 271 { (onTile 271 0).tile 271 with wait := some ⟨255, 1⟩ }, by decide +kernel⟩,
    ⟨.sideband, 271, .full, 1, on0, by decide +kernel⟩⟩

theorem premises_MoverCompletes :
    (∃ t : Fin 272, ∃ w : Entry, ∃ flt : Option FetchFault, ∃ s : State, (s.opReady t.val 0x10 w (fun v => moBad v [] true false none) (fun v => [moSlots v false true]) (fun _ => 0) = true)) ∧
    (∃ t : Fin 272, ∃ w : Entry, ∃ flt : Option FetchFault, ∃ s : State, (s.opReady t.val 0x11 w (fun v => moBad v [moListReg v, moSlots v false true] true false none) (fun v => [moListReg v, moSlots v false true]) (fun _ => 0) = true)) ∧
    (∃ t : Fin 272, ∃ w : Entry, ∃ s : State, (s.opReady t.val 0x12 w (fun v => moBad v [] true false none) (fun v => [moSlots v true false]) (fun _ => 0) = true)) ∧
    (∃ t : Fin 272, ∃ w : Entry, ∃ s : State, (s.opReady t.val 0x13 w (fun v => moBad v [moListReg v] true false none) (fun v => [moSlots v true false, moListReg v]) (fun _ => 0) = true)) ∧
    (∃ t : Fin 272, ∃ w : Entry, ∃ s : State, (s.opReady t.val 0x16 w (fun v => moBad v [] true true none) (fun _ => []) (fun _ => 0) = true) ∧ s.moverBusy t.val = false ∧ (s.ctx (s.tileCtx t.val).ctx).changes = [] ∧ (s.cacheSlices (s.tileCtx t.val).part).isEmpty = true) ∧
    (∃ t : Fin 272, ∃ w : Entry, ∃ s : State, (s.opReady t.val 0x50 w (fun v => moBad v [] false false none) (fun v => [moSlots v true false]) (fun _ => 0) = true) ∧ s.moverBusy t.val = false) :=
  ⟨⟨271, mop 0x10 [(0, 14, 1), (1, 0, 2 ^ 60 + 0x40000), (2, 0, 0x10000), (5, 0, 0x30000)], none, onTile 271 (mop 0x10 [(0, 14, 1), (1, 0, 2 ^ 60 + 0x40000), (2, 0, 0x10000), (5, 0, 0x30000)]), by decide +kernel⟩,
    ⟨271, mop 0x11 [(0, 14, 1), (1, 0, 2 ^ 60 + 0x40000), (2, 0, 0x10000), (5, 0, 0x30000)], none, onTile 271 (mop 0x11 [(0, 14, 1), (1, 0, 2 ^ 60 + 0x40000), (2, 0, 0x10000), (5, 0, 0x30000)]), by decide +kernel⟩,
    ⟨271, mop 0x12 [(0, 14, 1), (1, 0, 2 ^ 60 + 0x40000), (2, 0, 0x10000), (5, 0, 0x30000)], onTile 271 (mop 0x12 [(0, 14, 1), (1, 0, 2 ^ 60 + 0x40000), (2, 0, 0x10000), (5, 0, 0x30000)]), by decide +kernel⟩,
    ⟨271, mop 0x13 [(0, 14, 1), (1, 0, 2 ^ 60 + 0x40000), (2, 0, 0x10000), (5, 0, 0x30000)], onTile 271 (mop 0x13 [(0, 14, 1), (1, 0, 2 ^ 60 + 0x40000), (2, 0, 0x10000), (5, 0, 0x30000)]), by decide +kernel⟩,
    ⟨271, mop 0x16 [(0, 14, 1), (0, 13, 1), (1, 0, 2 ^ 60 + 0x40000)], onTile 271 (mop 0x16 [(0, 14, 1), (0, 13, 1), (1, 0, 2 ^ 60 + 0x40000)]), by decide +kernel⟩,
    ⟨271, mop 0x50 [(0, 14, 1), (2, 0, 0x10000)], onTile 271 (mop 0x50 [(0, 14, 1), (2, 0, 0x10000)]), by decide +kernel⟩⟩

theorem premises_ElementwiseCompletes :
    (∃ t : Fin 272, ∃ w : Entry, ∃ s : State, s.vecReady t.val 0x30 w = true) ∧
    (∃ t : Fin 272, ∃ w : Entry, ∃ s : State, s.vecReady t.val 0x31 w = true) ∧
    (∃ t : Fin 272, ∃ w : Entry, ∃ s : State, s.vecReady t.val 0x32 w = true) ∧
    (∃ t : Fin 272, ∃ w : Entry, ∃ s : State, s.vecReady t.val 0x33 w = true) ∧
    (∃ t : Fin 272, ∃ w : Entry, ∃ s : State, s.vecReady t.val 0x34 w = true) ∧
    (∃ t : Fin 272, ∃ w : Entry, ∃ s : State, s.vecReady t.val 0x35 w = true) ∧
    (∃ t : Fin 272, ∃ w : Entry, ∃ s : State, s.vecReady t.val 0x36 w = true) ∧
    (∃ t : Fin 272, ∃ w : Entry, ∃ s : State, s.vecReady t.val 0x37 w = true) ∧
    (∃ t : Fin 272, ∃ w : Entry, ∃ s : State, s.vecReady t.val 0x38 w = true) ∧
    (∃ t : Fin 272, ∃ w : Entry, ∃ s : State, s.vecReady t.val 0x3C w = true) ∧
    (∃ t : Fin 272, ∃ w : Entry, ∃ s : State, s.vecReady t.val 0x3D w = true) ∧
    (∃ t : Fin 272, ∃ w : Entry, ∃ s : State, s.vecReady t.val 0x3E w = true) :=
  ⟨⟨271, mop 0x30 [(1, 0, 0x10000), (2, 0, 0x20000), (3, 0, 0x30000)], onTile 271 (mop 0x30 [(1, 0, 0x10000), (2, 0, 0x20000), (3, 0, 0x30000)]), by decide +kernel⟩,
    ⟨271, mop 0x31 [(1, 0, 0x10000), (2, 0, 0x20000), (3, 0, 0x30000)], onTile 271 (mop 0x31 [(1, 0, 0x10000), (2, 0, 0x20000), (3, 0, 0x30000)]), by decide +kernel⟩,
    ⟨271, mop 0x32 [(1, 0, 0x10000), (2, 0, 0x20000), (3, 0, 0x30000)], onTile 271 (mop 0x32 [(1, 0, 0x10000), (2, 0, 0x20000), (3, 0, 0x30000)]), by decide +kernel⟩,
    ⟨271, mop 0x33 [(1, 0, 0x10000), (2, 0, 0x20000), (3, 0, 0x30000)], onTile 271 (mop 0x33 [(1, 0, 0x10000), (2, 0, 0x20000), (3, 0, 0x30000)]), by decide +kernel⟩,
    ⟨271, mop 0x34 [(1, 0, 0x10000), (2, 0, 0x20000), (3, 0, 0x30000)], onTile 271 (mop 0x34 [(1, 0, 0x10000), (2, 0, 0x20000), (3, 0, 0x30000)]), by decide +kernel⟩,
    ⟨271, mop 0x35 [(1, 0, 0x10000), (2, 0, 0x20000), (3, 0, 0x30000)], onTile 271 (mop 0x35 [(1, 0, 0x10000), (2, 0, 0x20000), (3, 0, 0x30000)]), by decide +kernel⟩,
    ⟨271, mop 0x36 [(1, 0, 0x10000), (3, 0, 0x30000), (4, 24, 8)], onTile 271 (mop 0x36 [(1, 0, 0x10000), (3, 0, 0x30000), (4, 24, 8)]), by decide +kernel⟩,
    ⟨271, mop 0x37 [(1, 0, 0x10000), (2, 0, 0x20000), (3, 0, 0x30000), (4, 24, 0x15)], onTile 271 (mop 0x37 [(1, 0, 0x10000), (2, 0, 0x20000), (3, 0, 0x30000), (4, 24, 0x15)]), by decide +kernel⟩,
    ⟨271, mop 0x38 [(1, 0, 0x10000), (2, 0, 0x20000), (3, 0, 0x30000)], onTile 271 (mop 0x38 [(1, 0, 0x10000), (2, 0, 0x20000), (3, 0, 0x30000)]), by decide +kernel⟩,
    ⟨271, mop 0x3C [(1, 0, 0x10000), (3, 0, 0x30000)], onTile 271 (mop 0x3C [(1, 0, 0x10000), (3, 0, 0x30000)]), by decide +kernel⟩,
    ⟨271, mop 0x3D [(1, 0, 0x10000), (3, 0, 0x30000), (4, 6, 2)], onTile 271 (mop 0x3D [(1, 0, 0x10000), (3, 0, 0x30000), (4, 6, 2)]), by decide +kernel⟩,
    ⟨271, mop 0x3E [(1, 0, 0x10000), (3, 0, 0x30000), (0, 0, 31), (1, 59, 3)], (onTile 271 (mop 0x3E [(1, 0, 0x10000), (3, 0, 0x30000), (0, 0, 31), (1, 59, 3)])).setSeal .ls (lsAddr 271 0x10000) { seal0 with fmt := 3 }, by decide +kernel⟩⟩

theorem premises_ReductionsComplete :
    (∃ t : Fin 272, ∃ w : Entry, ∃ s : State, s.vecReady t.val 0x39 w = true ∧ (((s.vRowsOf t.val 0x39 (s.opForm t.val (vBlocks 0x39) w)).map exactSum).any fun x => x.2) = false) ∧
    (∃ t : Fin 272, ∃ w : Entry, ∃ s : State, s.vecReady t.val 0x3A w = true) ∧
    (∃ t : Fin 272, ∃ w : Entry, ∃ s : State, s.vecReady t.val 0x3B w = true ∧ lvFmt (s.opForm t.val (vBlocks 0x3B) w) 3 = 0) ∧
    (∃ t : Fin 272, ∃ w : Entry, ∃ s : State, s.vecReady t.val 0x3F w = true) ∧
    (∃ t : Fin 272, ∃ w : Entry, ∃ s : State, s.vecReady t.val 0x40 w = true) ∧
    (∃ t : Fin 272, ∃ w : Entry, ∃ s : State, s.vecReady t.val 0x41 w = true) ∧
    (∃ t : Fin 272, ∃ w : Entry, ∃ s : State, s.vecReady t.val 0x42 w = true ∧ (∀ i ∈ (s.codesAt t.val (lvAddr (s.opForm t.val (vBlocks 0x42) w) 2) 0 (vRows (s.opForm t.val (vBlocks 0x42) w))), i < vRows (s.opForm t.val (vBlocks 0x42) w))) ∧
    (∃ t : Fin 272, ∃ w : Entry, ∃ s : State, s.vecReady t.val 0x4A w = true) ∧
    (∃ t : Fin 272, ∃ w : Entry, ∃ s : State, s.vecReady t.val 0x4B w = true) :=
  ⟨⟨271, mop 0x39 [(1, 0, 0x10000), (3, 0, 0x30000)], onTile 271 (mop 0x39 [(1, 0, 0x10000), (3, 0, 0x30000)]), by decide +kernel⟩,
    ⟨271, mop 0x3A [(1, 0, 0x10000), (3, 0, 0x30000)], onTile 271 (mop 0x3A [(1, 0, 0x10000), (3, 0, 0x30000)]), by decide +kernel⟩,
    ⟨271, mop 0x3B [(1, 0, 0x10000), (2, 0, 0x20000), (3, 0, 0x30000), (4, 16, 64), (0, 0, 63)], onTile 271 (mop 0x3B [(1, 0, 0x10000), (2, 0, 0x20000), (3, 0, 0x30000), (4, 16, 64), (0, 0, 63)]), by decide +kernel⟩,
    ⟨271, mop 0x3F [(1, 0, 0x10000), (3, 0, 0x30000)], onTile 271 (mop 0x3F [(1, 0, 0x10000), (3, 0, 0x30000)]), by decide +kernel⟩,
    ⟨271, mop 0x40 [(3, 0, 0x30000)], onTile 271 (mop 0x40 [(3, 0, 0x30000)]), by decide +kernel⟩,
    ⟨271, mop 0x41 [(3, 0, 0x30000)], onTile 271 (mop 0x41 [(3, 0, 0x30000)]), by decide +kernel⟩,
    ⟨271, mop 0x42 [(1, 0, 0x10000), (2, 0, 0x20000), (3, 0, 0x30000)], onTile 271 (mop 0x42 [(1, 0, 0x10000), (2, 0, 0x20000), (3, 0, 0x30000)]), by decide +kernel⟩,
    ⟨271, mop 0x4A [(3, 0, 0x30000), (5, 0, 0x40000)], onTile 271 (mop 0x4A [(3, 0, 0x30000), (5, 0, 0x40000)]), by decide +kernel⟩,
    ⟨271, mop 0x4B [(5, 0, 0x40000)], onTile 271 (mop 0x4B [(5, 0, 0x40000)]), by decide +kernel⟩⟩

theorem premises_MatrixAndExactComplete :
    (∃ t : Fin 272, ∃ w : Entry, ∃ s : State, s.opReady t.val 0x48 w (vBad 0x48) (vRegs 0x48) (vBlocks 0x48) = true ∧ s.slotsGood t.val (vRegs 0x48 (s.opForm t.val (vBlocks 0x48) w)) = true) ∧
    (∃ t : Fin 272, ∃ w : Entry, ∃ s : State, s.opReady t.val 0x49 w (vBad 0x49) (vRegs 0x49) (vBlocks 0x49) = true ∧ s.slotsGood t.val (vRegs 0x49 (s.opForm t.val (vBlocks 0x49) w)) = true) :=
  ⟨⟨271, mop 0x48 [(1, 0, 0x10000), (5, 0, 0x40000)], onTile 271 (mop 0x48 [(1, 0, 0x10000), (5, 0, 0x40000)]), by decide +kernel⟩,
    ⟨271, mop 0x49 [(5, 0, 0x40000), (5, 23, 0x50000)], onTile 271 (mop 0x49 [(5, 0, 0x40000), (5, 23, 0x50000)]), by decide +kernel⟩⟩

theorem premises_WorkListCompletes :
    (∃ p : Fin 128, ∃ l : Fin 8, ∃ s : State, ∃ e : Entry, s.listHeadReady p.val l.val 1 e = true ∧ s.get (QD_JOURNAL_STATUS_RECORDS (quadOfTile (s.physOf (weTile e)))) < 65536 ∧ s.get (TILE_STATUS_STATE (s.physOf (weTile e))) = 0 ∧ s.flt.draining.contains (10, quadOfTile (s.physOf (weTile e))) = false ∧ s.sourceServes e = true ∧ Entry_bits e 0 46 46 = 0) ∧
    (∃ p : Fin 128, ∃ l : Fin 8, ∃ s : State, ∃ e : Entry, s.listHeadReady p.val l.val 1 e = true ∧ 65536 ≤ s.get (QD_JOURNAL_STATUS_RECORDS (quadOfTile (s.physOf (weTile e))))) ∧
    (∃ p : Fin 128, ∃ l : Fin 8, ∃ s : State, ∃ e : Entry, ∃ t : State, s.listHeadReady p.val l.val 1 e = true ∧ Entry_bits e 0 46 46 = 1 ∧ s.feedStarted p.val l.val (weSeq e) (Entry_bits e 6 63 52) = false ∧ s.startFeed p.val l.val e = some t) ∧
    (∃ p : Fin 128, ∃ l : Fin 8, ∃ s : State, ∃ e : Entry, s.listHeadReady p.val l.val 3 e = true) ∧
    (∃ p : Fin 128, ∃ l : Fin 8, ∃ s : State, ∃ e : Entry, s.listHeadReady p.val l.val 2 e = true) ∧
    (∃ p : Fin 128, ∃ l : Fin 8, ∃ seq : Nat, ∃ s : State, ∃ kv : Nat × Tile, ∃ st : Status, s.live = true ∧ s.isInflight p.val l.val seq = true ∧ (s.tiles.find? fun kv => kv.2.entry.any fun e => e.part == p.val && e.list == l.val && e.seq == seq) = some kv ∧ kv.2.finished = some st ∧ s.flt.draining.contains (10, quadOfTile kv.1) = false) ∧
    (∃ i : Fin 1024, ∃ s : State, s.live = true ∧ (∀ w ∈ ((s.feeds.filter fun f => f.stream == i.val).foldl (fun (t : State) f => t.feedResume f) s).waits, w.stream ≠ i.val)) ∧
    (∃ i : Fin 1024, ∃ s : State, ∃ d : StreamDef, ∃ w : StreamWait, s.live = true ∧ s.stream i.val = some d ∧ (s.waits.find? fun w => w.stream == i.val) = some w ∧ w.since + s.watchdog d.part * 1000 ≤ s.now) :=
  ⟨⟨0, 7, puts (withRing (withCtx on0 5) (.workList 0 7) 5 (ent [(0, 56, 1), (0, 52, 1), (0, 32, 5), (2, 32, 1)])) [(⟨0x200008, 0, 0⟩, 1), (TILE_STATUS_STATE 0, 0)], ent [(0, 56, 1), (0, 52, 1), (0, 32, 5), (2, 32, 1)], by decide +kernel⟩,
    ⟨0, 7, puts (withRing (withCtx on0 5) (.workList 0 7) 5 (ent [(0, 56, 1), (0, 52, 1), (0, 32, 5), (2, 32, 1)])) [(⟨0x200008, 0, 0⟩, 1), (QD_JOURNAL_STATUS_RECORDS 0, 65536)], ent [(0, 56, 1), (0, 52, 1), (0, 32, 5), (2, 32, 1)], by decide +kernel⟩,
    ⟨0, 7, { puts (withRing (withCtx on0 5) (.workList 0 7) 5 (ent [(0, 56, 1), (0, 52, 1), (0, 32, 5), (2, 32, 1), (0, 46, 1), (6, 52, 1023), (6, 0, 1), (7, 0, 2 ^ 60)])) [(⟨0x200008, 0, 0⟩, 1)] with cfg := { cfg0 with active := { cfg0.active with streams := [(1023, some ⟨0, true, false, 0, 0, 4, 0, 0, 0x10000⟩)] } } }, ent [(0, 56, 1), (0, 52, 1), (0, 32, 5), (2, 32, 1), (0, 46, 1), (6, 52, 1023), (6, 0, 1), (7, 0, 2 ^ 60)], _, by decide +kernel, by decide +kernel, by decide +kernel, (Option.some_get (by decide +kernel)).symm⟩,
    ⟨0, 7, puts (withRing (withCtx on0 5) (.workList 0 7) 5 (ent [(0, 56, 3), (0, 52, 1), (0, 32, 5), (2, 32, 1)])) [(⟨0x200008, 0, 0⟩, 1)], ent [(0, 56, 3), (0, 52, 1), (0, 32, 5), (2, 32, 1)], by decide +kernel⟩,
    ⟨0, 7, puts (withRing (withCtx on0 5) (.workList 0 7) 5 (ent [(0, 56, 2), (0, 52, 1), (0, 32, 5), (2, 32, 1)])) [(⟨0x200008, 0, 0⟩, 1)], ent [(0, 56, 2), (0, 52, 1), (0, 32, 5), (2, 32, 1)], by decide +kernel⟩,
    ⟨0, 7, 3, { on0 with lists := [(7, ⟨[⟨3, 1, false⟩], []⟩)], tiles := [(4, { tile0 with entry := some ⟨0, 7, 3, 0, 5, 1, false, false, false⟩, finished := some .done })] }, (4, { tile0 with entry := some ⟨0, 7, 3, 0, 5, 1, false, false, false⟩, finished := some .done }), .done, by decide +kernel⟩,
    ⟨1023, on0, by decide +kernel⟩,
    ⟨1023, { puts on0 [(HUB_TIME_TIME, 65536000)] with cfg := { cfg0 with active := { cfg0.active with streams := [(1023, some ⟨0, true, false, 0, 0, 4, 0, 0, 0x10000⟩)] } }, waits := [⟨1023, true, 0, 0, 0, 1, 0, 0, 0, 0, false⟩] }, ⟨0, true, false, 0, 0, 4, 0, 0, 0x10000⟩, ⟨1023, true, 0, 0, 0, 1, 0, 0, 0, 0, false⟩, by decide +kernel⟩⟩

theorem premises_PaceSetClamps :
    ∃ path : Path, ∃ v : Word, ∃ s : State, s.takesWrites = true ∧ ctrlPath path = true :=
  ⟨.sideband, 0, on0, by decide +kernel⟩

theorem premises_PaceGroupCountsSlots :
    ∃ groups : Nat, ∃ s : State, s.on = true ∧ s.frozen = false ∧ s.get PWR_STATUS_FORCED ≠ 1 ∧ s.get PWR_STATUS_STATE < 3 ∧ s.pace.refPresent = true :=
  ⟨1, puts on0 [(HUB_PACE_CFG_PACE_SET, 16)], by decide +kernel⟩

theorem premises_PaceEventsComplete :
    (∃ d : Fin 1088, ∃ s : State, s.on = true ∧ s.pwr.masked.contains d.val = false) ∧
    (∃ slots : Nat, ∃ s : State, s.on = true ∧ s.pace.drooping = true) ∧
    (∃ s : State, s.on = true) ∧
    (∃ s : State, s.pace.refPresent = false ∧ s.on = true) :=
  ⟨⟨1087, on0, by decide +kernel⟩,
    ⟨9, { on0 with pace := { pace0 with drooping := true } }, by decide +kernel⟩,
    ⟨on0, by decide +kernel⟩,
    ⟨{ on0 with pace := { pace0 with refPresent := false } }, by decide +kernel⟩⟩

theorem premises_StackEventsComplete :
    (∃ k : Fin 12, ∃ c : Fin 34, ∃ s : State, ∃ d : Nat, s.takesWrites = true ∧ s.get (HBM_CH_STATUS_STATE k.val c.val) = 1 ∧ s.freeSpare k.val = some d) ∧
    (∃ k : Fin 12, ∃ c : Fin 34, ∃ s : State, s.takesWrites = true ∧ s.get (HBM_CH_STATUS_STATE k.val c.val) = 4) ∧
    (∃ k : Fin 12, ∃ c : Fin 34, ∃ s : State, ∃ d : Nat, s.live = true ∧ s.sparing k.val c.val = some ⟨1, d, false⟩) ∧
    (∃ k : Fin 12, ∃ c : Fin 34, ∃ s : State, s.live = true ∧ s.get (HBM_CH_STATUS_STATE k.val c.val) = 3) ∧
    (∃ k : Fin 12, ∃ c : Fin 34, ∃ s : State, ∃ x : Sparing, s.live = true ∧ s.sparing k.val c.val = some x ∧ x.kind = 3 ∧ s.extentsIn (k.val * 2 ^ 36 + ((64 - 2 * (s.get (HBM_STACK_STATUS_FOLDS k.val) + 1)) * 512) * 2 ^ 21) ((k.val + 1) * 2 ^ 36) ≤ (s.freeH k.val ((64 - 2 * (s.get (HBM_STACK_STATUS_FOLDS k.val) + 1)) * 512)).length) ∧
    (∃ k : Fin 12, ∃ pc : Nat, ∃ w : Nat × Nat, ∃ s : State, s.on = true ∧ w.1 < 128) ∧
    (∃ k : Fin 12, ∃ s : State, s.takesWrites = true ∧ (s.stk k.val).exerciser = false ∧ s.get (HBM_EXER_CTL_CHANNEL k.val) ≤ 33 ∧ s.get (HBM_CH_STATUS_STATE k.val (s.get (HBM_EXER_CTL_CHANNEL k.val))) = 2) ∧
    (∃ k : Fin 12, ∃ s : State, s.takesWrites = true ∧ (s.stk k.val).exerciser = true) ∧
    (∃ k : Fin 12, ∃ errors : Nat, ∃ lo : Nat, ∃ hi : Nat, ∃ s : State, s.on = true ∧ (s.stk k.val).exerciser = true ∧ s.get (HBM_EXER_CTL_MODE k.val) = 0) ∧
    (∃ k : Fin 12, ∃ temp : Nat, ∃ s : State, s.on = true ∧ 4 ≤ s.get (HBM_STACK_STATUS_LEVEL k.val)) ∧
    (∃ k : Fin 12, ∃ s : State, ∃ a : Nat, s.takesWrites = true ∧ s.get (HBM_STACK_STATUS_LEVEL k.val) = 3 ∧ (s.stk k.val).t3At = some a ∧ a + (max 1 (s.get (HBM_THERM_CTL_HOLD_MS k.val))) * 1000000 ≤ s.now) :=
  ⟨⟨11, 0, puts on0 [(HBM_CH_STATUS_STATE 11 0, 1), (HBM_CH_STATUS_STATE 11 33, 2)], 33, by decide +kernel⟩,
    ⟨11, 33, puts on0 [(HBM_CH_STATUS_STATE 11 33, 4)], by decide +kernel⟩,
    ⟨11, 0, on0.setStk 11 { stack0 with sparing := [(0, some ⟨1, 33, false⟩)] }, 33, by decide +kernel⟩,
    ⟨11, 33, puts on0 [(HBM_CH_STATUS_STATE 11 33, 3)], by decide +kernel⟩,
    ⟨11, 0, on0.setStk 11 { stack0 with sparing := [(0, some ⟨3, 33, false⟩)] }, ⟨3, 33, false⟩, by decide +kernel⟩,
    ⟨11, 0, (127, 0), on0, by decide +kernel⟩,
    ⟨11, puts on0 [(HBM_EXER_CTL_CHANNEL 11, 33), (HBM_CH_STATUS_STATE 11 33, 2)], by decide +kernel⟩,
    ⟨11, on0.setStk 11 { stack0 with exerciser := true }, by decide +kernel⟩,
    ⟨11, 1, 0, 0, on0.setStk 11 { stack0 with exerciser := true }, by decide +kernel⟩,
    ⟨11, 400, puts on0 [(HBM_STACK_STATUS_LEVEL 11, 4)], by decide +kernel⟩,
    ⟨11, puts (on0.setStk 11 { stack0 with t3At := some 0 }) [(HBM_STACK_STATUS_LEVEL 11, 3), (HUB_TIME_TIME, 200000000)], 0, by decide +kernel⟩⟩

theorem premises_LastLevelCompletes :
    (∃ q : Fin 4, ∃ i : Fin 17, ∃ s : State, s.takesWrites = true) ∧
    (∃ q : Fin 4, ∃ i : Fin 17, ∃ s : State, ∃ o : LlmOp, s.live = true ∧ (s.llmOps.find? fun o => o.running && o.slices.contains (17 * q.val + i.val)) = some o ∧ s.opBlocked o = false ∧ ((((s.opBlocks o).foldl (fun (t : State) b => t.lineOp o.op b) s).endOp o .done).llmOps.find? fun x => !x.running && x.slices.contains (17 * q.val + i.val)) = none) ∧
    (∃ c : Fin 4096, ∃ s : State, ∃ e : Entry, ∃ x : Extent, ∃ rel : Nat, s.cmdReady c.val 0x28 e = true ∧ Entry_bits e 1 1 0 ≠ 0 ∧ (s.advance (.cmdRing c.val) 1).view c.val (Entry_bits e 2 63 0) (Entry_bits e 3 63 0) false [1] = .extent x rel ∧ (s.advance (.cmdRing c.val) 1).cacheSlices ((s.advance (.cmdRing c.val) 1).get (CTX_PARTITION c.val)) = []) ∧
    (∃ q : Fin 4, ∃ i : Fin 17, ∃ s : State, ∃ d : Nat, s.live = true ∧ s.flt.draining.contains (3, 17 * q.val + i.val) = true ∧ ({ s with flt := { s.flt with draining := s.flt.draining.filter (· != (3, 17 * q.val + i.val)) } }).spareSlice q.val = some d) :=
  ⟨⟨3, 16, on0, by decide +kernel⟩,
    ⟨3, 16, { on0 with llmOps := [⟨[67], 0, none, [], true⟩] }, ⟨[67], 0, none, [], true⟩, by decide +kernel⟩,
    ⟨5, cmd 5 (cmdE 0x28 0 [(1, 0, 3), (2, 0, 2 ^ 60), (3, 0, 4096)]), cmdE 0x28 0 [(1, 0, 3), (2, 0, 2 ^ 60), (3, 0, 4096)], extH, 0, by decide +kernel⟩,
    ⟨3, 0, { puts on0 [(LLM_SLICE_STATUS_STATE 3 16, 3)] with flt := { faults0 with draining := [(3, 51)] } }, 16, by decide +kernel⟩⟩

theorem premises_CreditStopsAtCap :
    ∃ us : Nat, ∃ s : State, s.on = true :=
  ⟨1, on0, by decide +kernel⟩

theorem premises_DeepTierCompletes :
    (∃ s : State, s.on = true) ∧
    (∃ moved : Nat, ∃ block : Nat, ∃ s : State, s.on = true) ∧
    (∃ moved : Nat, ∃ s : State, s.on = true ∧ s.tiers.rebuilding = true) ∧
    (∃ block : Nat, ∃ s : State, s.on = true ∧ s.tiers.retiredErase.contains block = false) ∧
    (∃ s : State, s.live = true ∧ s.tiers.rebuilding = true) ∧
    (∃ id : Nat, ∃ s : State, ∃ w : DWrite, ∃ key : Nat, ∃ rs : List Nat, s.live = true ∧ (s.tiers.dwrites.find? fun w => w.id == id) = some w ∧ w.credited = true ∧ s.earlierWrite w = false ∧ w.what = .rows key rs) ∧
    (∃ point : Nat, ∃ s : State, ∃ d : DeferReq, s.live = true ∧ s.deferHead point = some d ∧ point % 16 = 1) ∧
    (∃ point : Nat, ∃ s : State, ∃ d : DeferReq, ∃ ring : Nat, s.live = true ∧ point ≠ 5 ∧ s.deferHead point = some d ∧ point % 16 = 1 ∧ d.since + 1000000000 ≤ s.now ∧ d.ring = .cmdRing ring) ∧
    (∃ s : State, s.live = true ∧ s.get DEEP_STATUS_STATE = 2 ∧ s.flt.draining.contains (8, 0) = false ∧ s.isOut 8 0 = false) :=
  ⟨⟨on0, by decide +kernel⟩,
    ⟨1, 0, on0, by decide +kernel⟩,
    ⟨1, { on0 with tiers := { tiers0 with rebuilding := true } }, by decide +kernel⟩,
    ⟨0, on0, by decide +kernel⟩,
    ⟨{ on0 with tiers := { tiers0 with rebuilding := true } }, by decide +kernel⟩,
    ⟨9, { on0 with tiers := { tiers0 with dwrites := [⟨9, 0, 1, 0, [], seal0, .rows 1 [0], 0, true⟩] } }, ⟨9, 0, 1, 0, [], seal0, .rows 1 [0], 0, true⟩, 1, [0], by decide +kernel⟩,
    ⟨17, { on0 with tiers := { tiers0 with deferrals := [⟨17, 1, 5, 1, 1, 0, .cmdRing 5, 0, 0⟩] } }, ⟨17, 1, 5, 1, 1, 0, .cmdRing 5, 0, 0⟩, by decide +kernel⟩,
    ⟨17, { puts on0 [(HUB_TIME_TIME, 1000000000)] with tiers := { tiers0 with deferrals := [⟨17, 1, 5, 1, 1, 0, .cmdRing 5, 0, 0⟩] } }, ⟨17, 1, 5, 1, 1, 0, .cmdRing 5, 0, 0⟩, 5, by decide +kernel⟩,
    ⟨puts on0 [(DEEP_STATUS_STATE, 2)], by decide +kernel⟩⟩

theorem premises_HaloDescriptorsComplete :
    (∃ k : Fin 12, ∃ qp : Fin 32, ∃ s : State, ∃ e : Entry, s.haloHeadReady k.val qp.val 1 e = true) ∧
    (∃ k : Fin 12, ∃ qp : Fin 32, ∃ s : State, ∃ e : Entry, s.haloHeadReady k.val qp.val 2 e = true) ∧
    (∃ k : Fin 12, ∃ qp : Fin 32, ∃ s : State, ∃ e : Entry, s.haloHeadReady k.val qp.val 3 e = true) ∧
    (∃ k : Fin 12, ∃ qp : Fin 32, ∃ s : State, ∃ e : Entry, s.haloHeadReady k.val qp.val 4 e = true) ∧
    (∃ k : Fin 12, ∃ qp : Fin 32, ∃ s : State, ∃ e : Entry, ∃ b : Table, ∃ n : Table, s.haloHeadReady k.val qp.val 6 e = true ∧ (s.haloTaken k.val qp.val 6 e).tableKey (s.haloOpOf k.val qp.val 6 e).key = some b ∧ (s.haloTaken k.val qp.val 6 e).tableAt k.val ((s.haloTaken k.val qp.val 6 e).tableDomain b) (Entry_bits e 2 15 0) = some n ∧ (n.ctx == b.ctx && n.key != b.key && tdRows n.desc == tdRows b.desc && tdDim n.desc == tdDim b.desc && tdFmt n.desc == tdFmt b.desc && tdKind n.desc == tdKind b.desc && tdShards n.desc == tdShards b.desc) = true) ∧
    (∃ k : Fin 12, ∃ qp : Fin 32, ∃ s : State, ∃ e : Entry, ∃ u : State, ∃ bs : List Byte, s.haloHeadReady k.val qp.val 8 e = true ∧ (s.haloTaken k.val qp.val 8 e).haloFetch ((s.haloTaken k.val qp.val 8 e).owner (.haloQp k.val qp.val)) (s.haloOpOf k.val qp.val 8 e).index (Entry_bits e 2 63 0) (16 * haloCount e) = (u, some bs) ∧ (∀ x ∈ ((List.range (haloCount e)).map fun i => overrideOf ((bs.drop (16 * i)).take 16)), x ≠ none) ∧ (overridesMeet (((List.range (haloCount e)).map fun i => overrideOf ((bs.drop (16 * i)).take 16)).filterMap fun x => x) = false)) ∧
    (∃ k : Fin 12, ∃ qp : Fin 32, ∃ s : State, ∃ e : Entry, ∃ b : Table, ∃ x : Row, ∃ u : State, s.haloHeadReady k.val qp.val 5 e = true ∧ (s.haloTaken k.val qp.val 5 e).tableKey (s.haloOpOf k.val qp.val 5 e).key = some b ∧ haloCount e = 1 ∧ (s.haloTaken k.val qp.val 5 e).rowOf b (Entry_bits e 2 47 0) = some x ∧ x.state = 2 ∧ Entry_bits e 4 23 0 = (s.haloTaken k.val qp.val 5 e).self ∧ Entry_bits e 4 27 24 ≤ 11 ∧ Entry_bits e 4 27 24 ≠ k.val ∧ ((s.haloTaken k.val qp.val 5 e).localHome b (Entry_bits e 4 23 0) (Entry_bits e 4 27 24)).isSome = true ∧ (((s.haloTaken k.val qp.val 5 e).localHome b (Entry_bits e 4 23 0) (Entry_bits e 4 27 24)).bind fun h => ((s.haloTaken k.val qp.val 5 e).haloHold (s.haloOpOf k.val qp.val 5 e)).migAdmit h (Entry_bits e 2 47 0) 1) = some u) ∧
    (∃ k : Fin 12, ∃ qp : Fin 32, ∃ s : State, ∃ e : Entry, ∃ b : Table, ∃ u : State, s.haloHeadReady k.val qp.val 7 e = true ∧ (s.haloTaken k.val qp.val 7 e).tableKey (s.haloOpOf k.val qp.val 7 e).key = some b ∧ Entry_bits e 0 0 0 = 0 ∧ (s.haloTaken k.val qp.val 7 e).haloDest ((s.haloTaken k.val qp.val 7 e).owner (.haloQp k.val qp.val)) (s.haloOpOf k.val qp.val 7 e).index (Entry_bits e 5 63 0) (4096 * ((cutList 4096 (statsBytes b.desc b.tid ((s.haloTaken k.val qp.val 7 e).get (HALO_QP_CFG_LOADFMT k.val qp.val) == 1) (b.closed.getD ⟨0, 0, [], [], [], 0⟩)).length (statsBytes b.desc b.tid ((s.haloTaken k.val qp.val 7 e).get (HALO_QP_CFG_LOADFMT k.val qp.val) == 1) (b.closed.getD ⟨0, 0, [], [], [], 0⟩))).map fun l => l ++ List.replicate (4096 - l.length) 0).length) = (u, true)) :=
  ⟨⟨0, 31, haloSt (haloE 1 [(1, 0, 1)]), haloE 1 [(1, 0, 1)], by decide +kernel⟩,
    ⟨0, 31, haloSt (haloE 2 [(1, 0, 1)]), haloE 2 [(1, 0, 1)], by decide +kernel⟩,
    ⟨0, 31, haloSt (haloE 3 []), haloE 3 [], by decide +kernel⟩,
    ⟨0, 31, haloSt (haloE 4 [(1, 0, 1)]), haloE 4 [(1, 0, 1)], by decide +kernel⟩,
    ⟨0, 31, (haloSt (haloE 6 [(2, 0, 8)])).addTable 5 0 (tableDesc + desc [(0, 48, 1)]), haloE 6 [(2, 0, 8)], _, _, by decide +kernel, (Option.some_get (by decide +kernel)).symm, (Option.some_get (by decide +kernel)).symm, by decide +kernel⟩,
    ⟨0, 31, haloSt (haloE 8 [(1, 0, 1), (2, 0, 2 ^ 60 + 0x40000)]), haloE 8 [(1, 0, 1), (2, 0, 2 ^ 60 + 0x40000)], _, _, by decide +kernel, Prod.ext rfl (Option.some_get (by decide +kernel)).symm, by decide +kernel, by decide +kernel⟩,
    ⟨0, 31, (haloSt (haloE 5 [(1, 0, 1), (4, 24, 1)])).addTable 5 1 (tableDesc + desc [(7, 32, 1)]), haloE 5 [(1, 0, 1), (4, 24, 1)], _, _, _, by decide +kernel, (Option.some_get (by decide +kernel)).symm, by decide +kernel, (Option.some_get (by decide +kernel)).symm, by decide +kernel, by decide +kernel, by decide +kernel, by decide +kernel, by decide +kernel, (Option.some_get (by decide +kernel)).symm⟩,
    ⟨0, 31, haloSt (haloE 7 [(5, 0, 2 ^ 60 + 0x40000)]), haloE 7 [(5, 0, 2 ^ 60 + 0x40000)], _, _, by decide +kernel, (Option.some_get (by decide +kernel)).symm, by decide +kernel, Prod.ext rfl (by decide +kernel)⟩⟩

theorem premises_HaloEventsComplete :
    (∃ k : Fin 12, ∃ tid : Nat, ∃ row : Nat, ∃ s : State, ∃ b : Table, ∃ x : Row, s.live = true ∧ s.get DEEP_STATUS_STATE ≠ 2 ∧ s.haloServes k.val = true ∧ (s.tables.find? fun b => b.engine == k.val && b.tid == tid && !b.retired && b.rows.any fun x => x.row == row && x.state == 1) = some b ∧ (b.rows.find? fun x => x.row == row) = some x ∧ Status_ok (s.readHome b x).1 = true) ∧
    (∃ k : Fin 12, ∃ tid : Nat, ∃ row : Nat, ∃ s : State, ∃ b : Table, ∃ x : Row, s.live = true ∧ s.get DEEP_STATUS_STATE ≠ 2 ∧ s.haloServes k.val = true ∧ (s.tables.find? fun b => b.engine == k.val && b.tid == tid && !b.retired && b.rows.any fun x => x.row == row && x.state == 1) = some b ∧ (b.rows.find? fun x => x.row == row) = some x) ∧
    (∃ k : Fin 12, ∃ tid : Nat, ∃ row : Nat, ∃ s : State, ∃ b : Table, ∃ x : Row, s.live = true ∧ (s.tables.find? fun b => b.engine == k.val && b.tid == tid && b.rows.any fun x => x.row == row && x.state == 4) = some b ∧ (b.rows.find? fun x => x.row == row) = some x ∧ s.tiers.dwrites = [] ∧ x.version = x.wbVersion ∧ x.evict = false ∧ ((s.setRow b.key { x with state := 2, dirty := false }).flushAcked b.key row x.wbVersion).deferHead (rowPoint k.val) = none) ∧
    (∃ k : Fin 12, ∃ tid : Nat, ∃ s : State, ∃ b : Table, ∃ g : Migration, ∃ c : Table, s.live = true ∧ (s.tables.filter fun b => b.engine == k.val && b.tid == tid && !b.retired) = [b] ∧ (s.migSteps b.key).tableKey b.key = some c ∧ (c.migrations.filter fun g => g.admitted && !g.copied) = [g] ∧ ((List.range g.count).all fun i => ((s.migSteps b.key).rowOf c (g.first + i)).any fun x => x.state == 5) = true ∧ ((s.migSteps b.key).xreqs.any fun x => x.what == .migrate k.val tid) = false) ∧
    (∃ k : Fin 12, ∃ tid : Nat, ∃ s : State, ∃ b : Table, s.live = true ∧ (s.tables.filter fun b => b.engine == k.val && b.tid == tid && !b.retired) = [b]) ∧
    (∃ k : Fin 12, ∃ tid : Nat, ∃ row : Nat, ∃ s : State, ∃ b : Table, s.live = true ∧ (s.tables.filter fun b => b.engine == k.val && b.tid == tid && !b.retired) = [b] ∧ (b.replicas.any fun x => x.row == row && x.state == 2) = true) ∧
    (∃ k : Fin 12, ∃ tid : Nat, ∃ s : State, ∃ b : Table, s.live = true ∧ (s.tables.filter fun b => b.engine == k.val && b.tid == tid && !b.retired && decide (Desc_bits b.desc 12 15 0 ≤ b.window)) = [b] ∧ b.replicas = []) :=
  ⟨⟨0, 7, 0, homeGood, homeTab, { dirtyRow with state := 1 }, by decide +kernel, by decide +kernel, by decide +kernel, by decide +kernel, by decide +kernel, homeGood_read⟩,
    ⟨0, 7, 0, withTab ((withCtx on0 5).addTable 5 0 tableDesc) fun b => { b with desc := desc [(0, 48, 7), (4, 0, 2 ^ 60 + 0x6000), (8, 0, 2 ^ 61)], rows := [{ dirtyRow with state := 1 }] }, _, _, by decide +kernel, by decide +kernel, by decide +kernel, (Option.some_get (by decide +kernel)).symm, (Option.some_get (by decide +kernel)).symm⟩,
    ⟨0, 7, 0, withTab ((withCtx on0 5).addTable 5 0 tableDesc) fun b => { b with rows := [{ dirtyRow with state := 4 }] }, _, _, by decide +kernel, (Option.some_get (by decide +kernel)).symm, (Option.some_get (by decide +kernel)).symm, by decide +kernel, by decide +kernel, by decide +kernel, by decide +kernel⟩,
    ⟨0, 7, withTab ((withCtx on0 5).addTable 5 0 tableDesc) fun b => { b with migrations := [⟨0, 0, 0, 1, 31, 0, 1, true, false, false⟩] }, tabOf (withTab ((withCtx on0 5).addTable 5 0 tableDesc) fun b => { b with migrations := [⟨0, 0, 0, 1, 31, 0, 1, true, false, false⟩] }) (by decide +kernel), ⟨0, 0, 0, 1, 31, 0, 1, true, false, false⟩, _, by decide +kernel, by decide +kernel, (Option.some_get (by decide +kernel)).symm, by decide +kernel, by decide +kernel, by decide +kernel⟩,
    ⟨0, 7, withTab ((withCtx on0 5).addTable 5 0 tableDesc) fun b => { b with window := 1 }, tabOf (withTab ((withCtx on0 5).addTable 5 0 tableDesc) fun b => { b with window := 1 }) (by decide +kernel), by decide +kernel⟩,
    ⟨0, 7, 3, withTab ((withCtx on0 5).addTable 5 0 tableDesc) fun b => { b with replicas := [⟨3, 2, 0, 0, 0, false, (0, 0)⟩] }, tabOf (withTab ((withCtx on0 5).addTable 5 0 tableDesc) fun b => { b with replicas := [⟨3, 2, 0, 0, 0, false, (0, 0)⟩] }) (by decide +kernel), by decide +kernel⟩,
    ⟨0, 7, withTab ((withCtx on0 5).addTable 5 0 tableDesc) fun b => { b with window := 1 }, tabOf (withTab ((withCtx on0 5).addTable 5 0 tableDesc) fun b => { b with window := 1 }) (by decide +kernel), by decide +kernel⟩⟩

theorem premises_OrreryCompletes :
    (∃ q : Fin 4, ∃ qp : Fin 16, ∃ s : State, ∃ e : Entry, s.orrHeadReady q.val qp.val 1 e = true) ∧
    (∃ q : Fin 4, ∃ qp : Fin 16, ∃ s : State, ∃ e : Entry, s.orrHeadReady q.val qp.val 2 e = true) ∧
    (∃ q : Fin 4, ∃ qp : Fin 16, ∃ s : State, ∃ e : Entry, s.orrHeadReady q.val qp.val 3 e = true) ∧
    (∃ q : Fin 4, ∃ qp : Fin 16, ∃ s : State, ∃ e : Entry, s.orrHeadReady q.val qp.val 4 e = true) ∧
    (∃ q : Fin 4, ∃ qp : Fin 16, ∃ s : State, ∃ e : Entry, s.orrHeadReady q.val qp.val 5 e = true) ∧
    (∃ q : Fin 4, ∃ qp : Fin 16, ∃ s : State, ∃ e : Entry, s.orrHeadReady q.val qp.val 6 e = true) ∧
    (∃ q : Nat, ∃ qp : Nat, ∃ e : Entry, ∃ s : State, ∃ x : Shard, s.orrShard q qp e = some x) ∧
    (∃ q : Fin 4, ∃ k : Fin 512, ∃ s : State, s.live = true ∧ s.orrServes q.val = true) :=
  ⟨⟨0, 15, { puts (withRing (withCtx on0 5) (.orrQp 0 15) 5 (ent ([(0, 56, 1), (0, 52, 1)] ++ [(0, 32, 9), (1, 32, 1), (1, 0, 1)]))) [(ORR_PART_CFG_VALID 0 0, 1), (ORR_PART_CFG_QP 0 0, 15), (ORR_PART_CFG_SLOT_COUNT 0 0, 1)] with shards := [⟨0, 0, 5, 0, shardDesc - desc [(0, 40, 15)], ⟨0, 0, 0, 0, 0⟩, ⟨0, 0, 0, 0, 0⟩, [], [], none, 0, 0, none⟩] }, ent ([(0, 56, 1), (0, 52, 1)] ++ [(0, 32, 9), (1, 32, 1), (1, 0, 1)]), by decide +kernel⟩,
    ⟨0, 15, { puts (withRing (withCtx on0 5) (.orrQp 0 15) 5 (ent ([(0, 56, 2), (0, 52, 1)] ++ [(1, 32, 1)]))) [(ORR_PART_CFG_VALID 0 0, 1), (ORR_PART_CFG_QP 0 0, 15), (ORR_PART_CFG_SLOT_COUNT 0 0, 1)] with shards := [⟨0, 0, 5, 0, shardDesc - desc [(0, 40, 15)], ⟨0, 0, 0, 0, 0⟩, ⟨0, 0, 0, 0, 0⟩, [], [], none, 0, 0, none⟩] }, ent ([(0, 56, 2), (0, 52, 1)] ++ [(1, 32, 1)]), by decide +kernel⟩,
    ⟨0, 15, { puts (withRing (withCtx on0 5) (.orrQp 0 15) 5 (ent ([(0, 56, 3), (0, 52, 1)] ++ [(0, 32, 9)]))) [(ORR_PART_CFG_VALID 0 0, 1), (ORR_PART_CFG_QP 0 0, 15), (ORR_PART_CFG_SLOT_COUNT 0 0, 1)] with shards := [⟨0, 0, 5, 0, shardDesc - desc [(0, 40, 15)], ⟨0, 0, 0, 0, 0⟩, ⟨0, 0, 0, 0, 0⟩, [], [], none, 0, 0, none⟩] }, ent ([(0, 56, 3), (0, 52, 1)] ++ [(0, 32, 9)]), by decide +kernel⟩,
    ⟨0, 15, { puts (withRing (withCtx on0 5) (.orrQp 0 15) 5 (ent ([(0, 56, 4), (0, 52, 1)] ++ [(0, 32, 9)]))) [(ORR_PART_CFG_VALID 0 0, 1), (ORR_PART_CFG_QP 0 0, 15), (ORR_PART_CFG_SLOT_COUNT 0 0, 1)] with shards := [⟨0, 0, 5, 0, shardDesc - desc [(0, 40, 15)], ⟨0, 0, 0, 0, 0⟩, ⟨0, 0, 0, 0, 0⟩, [], [], none, 0, 0, none⟩] }, ent ([(0, 56, 4), (0, 52, 1)] ++ [(0, 32, 9)]), by decide +kernel⟩,
    ⟨0, 15, { puts (withRing (withCtx on0 5) (.orrQp 0 15) 5 (ent ([(0, 56, 5), (0, 52, 1)] ++ [(0, 32, 9)]))) [(ORR_PART_CFG_VALID 0 0, 1), (ORR_PART_CFG_QP 0 0, 15), (ORR_PART_CFG_SLOT_COUNT 0 0, 1)] with shards := [⟨0, 0, 5, 0, shardDesc - desc [(0, 40, 15)], ⟨0, 0, 0, 0, 0⟩, ⟨0, 0, 0, 0, 0⟩, [], [], none, 0, 0, none⟩] }, ent ([(0, 56, 5), (0, 52, 1)] ++ [(0, 32, 9)]), by decide +kernel⟩,
    ⟨0, 15, { puts (withRing (withCtx on0 5) (.orrQp 0 15) 5 (ent ([(0, 56, 6), (0, 52, 1)] ++ [(1, 32, 1)]))) [(ORR_PART_CFG_VALID 0 0, 1), (ORR_PART_CFG_QP 0 0, 15), (ORR_PART_CFG_SLOT_COUNT 0 0, 1)] with shards := [⟨0, 0, 5, 0, shardDesc - desc [(0, 40, 15)], ⟨0, 0, 0, 0, 0⟩, ⟨0, 0, 0, 0, 0⟩, [], [], none, 0, 0, none⟩] }, ent ([(0, 56, 6), (0, 52, 1)] ++ [(1, 32, 1)]), by decide +kernel⟩,
    ⟨0, 15, ent ([(0, 56, 3), (0, 52, 1)] ++ [(0, 32, 9)]), { puts (withRing (withCtx on0 5) (.orrQp 0 15) 5 (ent ([(0, 56, 3), (0, 52, 1)] ++ [(0, 32, 9)]))) [(ORR_PART_CFG_VALID 0 0, 1), (ORR_PART_CFG_QP 0 0, 15), (ORR_PART_CFG_SLOT_COUNT 0 0, 1)] with shards := [⟨0, 0, 5, 0, shardDesc - desc [(0, 40, 15)], ⟨0, 0, 0, 0, 0⟩, ⟨0, 0, 0, 0, 0⟩, [], [], none, 0, 0, none⟩] }, ⟨0, 0, 5, 0, shardDesc - desc [(0, 40, 15)], ⟨0, 0, 0, 0, 0⟩, ⟨0, 0, 0, 0, 0⟩, [], [], none, 0, 0, none⟩, by decide +kernel⟩,
    ⟨3, 511, on0, by decide +kernel⟩⟩

theorem premises_CommitEventsComplete :
    (∃ q : Fin 4, ∃ p : Fin 128, ∃ l : Fin 8, ∃ seq : Nat, ∃ digest : Nat, ∃ status : Status, ∃ s : State, ∃ r : JRec, s.live = true ∧ (s.commit p.val).verdict = true ∧ (s.commit p.val).arrived = false ∧ ((s.pinned p.val).find? fun r => r.quad == q.val && r.list == l.val && r.seq == seq && !r.compared && r.replayTile.isSome) = some r) ∧
    (∃ p : Fin 128, ∃ s : State, s.live = true ∧ (s.commit p.val).verdict = true ∧ (s.commit p.val).arrived = false ∧ (s.commit p.val).checkInstant + clampTo 100 100000 (s.get (HUB_PART_COMMIT_PARALLAX_WINDOW p.val)) * 1000 ≤ s.now) ∧
    (∃ p : Fin 128, ∃ s : State, s.live = true ∧ s.relDue p.val = true ∧ s.isCheck p.val (s.barrier p.val 2) = true) ∧
    (∃ p : Fin 128, ∃ s : State, s.live = true ∧ s.relDue p.val = true ∧ s.isVerdict p.val (s.barrier p.val 2) = true) ∧
    (∃ p : Fin 128, ∃ s : State, s.live = true ∧ s.relDue p.val = true ∧ s.isCheck p.val (s.barrier p.val 2) = false ∧ s.isVerdict p.val (s.barrier p.val 2) = false) ∧
    (∃ p : Fin 128, ∃ scope : Fin 3, ∃ s : State, s.live = true ∧ (s.barrier p.val scope.val).arrived.isEmpty = false ∧ (s.barrier p.val scope.val).tRel = none ∧ s.deadline (s.barrier p.val scope.val) ≤ s.now) ∧
    (∃ p : Fin 128, ∃ k : Nat, ∃ s : State, s.live = true ∧ k < 12 ∧ s.get (HBM_STACK_STATUS_LEVEL k) = 2 ∧ bitsOf 31 31 (s.rd (HUB_MER_JOB_LEAD p.val).off) = 0 ∧ s.partValid p.val = true) ∧
    (∃ s : State, s.live = true) :=
  ⟨⟨3, 0, 7, 9, 0, .done, { on0.setCommit 0 { commit0 with verdict := true } with journal := [⟨3, 0, 7, 9, 0, 0, 4, 0, [], none, [], 0, 0, 0, [], [], 0, 0, 1, false, false, [], false, 0, some 1⟩] }, ⟨3, 0, 7, 9, 0, 0, 4, 0, [], none, [], 0, 0, 0, [], [], 0, 0, 1, false, false, [], false, 0, some 1⟩, by decide +kernel⟩,
    ⟨127, (puts on0 [(HUB_TIME_TIME, 100000000)]).setCommit 127 { commit0 with verdict := true }, by decide +kernel⟩,
    ⟨127, { on0 with barriers := [⟨127, 2, 0, 0, 0, [.halo 0], [], 0, 0xFF, none, 0, 0, false, some 0, [], [], 0, []⟩] }, by decide +kernel⟩,
    ⟨127, { on0 with barriers := [⟨127, 2, 0, 0, 0, [], [], 0, 0xFF, some (((on0.checkTag 127) + 2 ^ 31) % 2 ^ 32), 0, 0, false, some 0, [], [], 0, []⟩], commits := [(127, { commit0 with verdict := true })] }, by decide +kernel⟩,
    ⟨127, { on0 with barriers := [⟨127, 2, 0, 0, 0, [.module], [], 0, 0xFF, none, 0, 0, false, some 0, [], [], 0, []⟩] }, by decide +kernel⟩,
    ⟨127, 2, { puts on0 [(HUB_TIME_TIME, 65536000)] with barriers := [⟨127, 2, 0, 0, 0, [.module], [], 0, 0xFF, none, 0, 0, false, none, [], [], 0, []⟩] }, by decide +kernel⟩,
    ⟨0, 11, puts on0 [(HBM_STACK_STATUS_LEVEL 11, 2)], by decide +kernel⟩,
    ⟨on0, by decide +kernel⟩⟩

theorem premises_RequestPacketsArrive :
    (∃ rx : Rx, ∃ s : State, s.rxReady rx = true ∧ rx.pkt.ty = 0x01) ∧
    (∃ rx : Rx, ∃ s : State, s.rxReady rx = true ∧ rx.pkt.ty = 0x02) ∧
    (∃ rx : Rx, ∃ s : State, s.rxReady rx = true ∧ rx.pkt.ty = 0x03) ∧
    (∃ rx : Rx, ∃ s : State, s.rxReady rx = true ∧ rx.pkt.ty = 0x04) ∧
    (∃ rx : Rx, ∃ s : State, s.rxReady rx = true ∧ rx.pkt.ty = 0x05) ∧
    (∃ rx : Rx, ∃ s : State, s.rxReady rx = true ∧ rx.pkt.ty = 0x06) ∧
    (∃ rx : Rx, ∃ s : State, s.rxReady rx = true ∧ rx.pkt.ty = 0x07) ∧
    (∃ rx : Rx, ∃ s : State, s.rxReady rx = true ∧ rx.pkt.ty = 0x09) ∧
    (∃ rx : Rx, ∃ s : State, s.rxReady rx = true ∧ rx.pkt.ty = 0x0E ∧ payNum rx.pkt 0 1 = 0) ∧
    (∃ rx : Rx, ∃ s : State, s.rxReady rx = true ∧ rx.pkt.ty = 0x0E ∧ payNum rx.pkt 0 1 = 1) ∧
    (∃ rx : Rx, ∃ s : State, s.rxReady rx = true ∧ rx.pkt.ty = 0x0E ∧ payNum rx.pkt 0 1 = 3) ∧
    (∃ rx : Rx, ∃ s : State, s.rxReady rx = true ∧ rx.pkt.ty = 0x0E ∧ payNum rx.pkt 0 1 = 4) ∧
    (∃ rx : Rx, ∃ s : State, s.rxReady rx = true ∧ rx.pkt.ty = 0x0E ∧ payNum rx.pkt 0 1 = 5) ∧
    (∃ rx : Rx, ∃ s : State, s.rxReady rx = true ∧ rx.pkt.ty = 0x0E ∧ payNum rx.pkt 0 1 = 7) :=
  ⟨⟨⟨31, 0, 0, true, { ty := 0x01, payload := [] }⟩, portUp, by decide +kernel⟩,
    ⟨⟨31, 0, 0, true, { ty := 0x02, payload := [] }⟩, portUp, by decide +kernel⟩,
    ⟨⟨31, 0, 0, true, { ty := 0x03, payload := [] }⟩, portUp, by decide +kernel⟩,
    ⟨⟨31, 0, 0, true, { ty := 0x04, payload := [] }⟩, portUp, by decide +kernel⟩,
    ⟨⟨31, 0, 0, true, { ty := 0x05, payload := [] }⟩, portUp, by decide +kernel⟩,
    ⟨⟨31, 0, 0, true, { ty := 0x06, payload := [] }⟩, portUp, by decide +kernel⟩,
    ⟨⟨31, 0, 0, true, { ty := 0x07, payload := [] }⟩, portUp, by decide +kernel⟩,
    ⟨⟨31, 0, 0, true, { ty := 0x09, payload := [] }⟩, portUp, by decide +kernel⟩,
    ⟨⟨31, 0, 0, true, { ty := 0x0E, payload := [0] }⟩, portUp, by decide +kernel⟩,
    ⟨⟨31, 0, 0, true, { ty := 0x0E, payload := [1] }⟩, portUp, by decide +kernel⟩,
    ⟨⟨31, 0, 0, true, { ty := 0x0E, payload := [3] }⟩, portUp, by decide +kernel⟩,
    ⟨⟨31, 0, 0, true, { ty := 0x0E, payload := [4] }⟩, portUp, by decide +kernel⟩,
    ⟨⟨31, 0, 0, true, { ty := 0x0E, payload := [5] }⟩, portUp, by decide +kernel⟩,
    ⟨⟨31, 0, 0, true, { ty := 0x0E, payload := [7] }⟩, portUp, by decide +kernel⟩⟩

theorem premises_ControlPacketsArrive :
    (∃ rx : Rx, ∃ s : State, s.rxReady rx = true ∧ rx.pkt.ty = 0x0C) ∧
    (∃ rx : Rx, ∃ s : State, s.rxReady rx = true ∧ rx.pkt.ty = 0x0D ∧ payNum rx.pkt 0 1 = 0) ∧
    (∃ rx : Rx, ∃ s : State, s.rxReady rx = true ∧ rx.pkt.ty = 0x0D ∧ payNum rx.pkt 0 1 = 1) ∧
    (∃ rx : Rx, ∃ s : State, s.rxReady rx = true ∧ rx.pkt.ty = 0x0D ∧ payNum rx.pkt 0 1 = 3) ∧
    (∃ rx : Rx, ∃ s : State, s.rxReady rx = true ∧ rx.pkt.ty = 0x0D ∧ payNum rx.pkt 0 1 = 5) ∧
    (∃ rx : Rx, ∃ s : State, s.rxReady rx = true ∧ rx.pkt.ty = 0x08 ∧ cOp rx.pkt = 0 ∧ cKind rx.pkt = 0) ∧
    (∃ rx : Rx, ∃ s : State, s.rxReady rx = true ∧ rx.pkt.ty = 0x08 ∧ cOp rx.pkt = 0 ∧ cKind rx.pkt = 4) ∧
    (∃ rx : Rx, ∃ s : State, s.rxReady rx = true ∧ rx.pkt.ty = 0x08 ∧ cOp rx.pkt ≠ 0 ∧ cKind rx.pkt = 0) ∧
    (∃ rx : Rx, ∃ s : State, s.rxReady rx = true ∧ rx.pkt.ty = 0x08 ∧ cOp rx.pkt ≠ 0 ∧ cKind rx.pkt = 1) ∧
    (∃ rx : Rx, ∃ s : State, s.rxReady rx = true ∧ rx.pkt.ty = 0x08 ∧ cOp rx.pkt ≠ 0 ∧ cKind rx.pkt = 2) ∧
    (∃ rx : Rx, ∃ s : State, s.rxReady rx = true ∧ rx.pkt.ty = 0x08 ∧ cOp rx.pkt ≠ 0 ∧ cKind rx.pkt = 3) ∧
    (∃ rx : Rx, ∃ s : State, s.rxReady rx = true ∧ rx.pkt.ty = 0x08 ∧ cOp rx.pkt ≠ 0 ∧ cKind rx.pkt = 4) ∧
    (∃ rx : Rx, ∃ s : State, s.rxReady rx = true ∧ rx.pkt.ty = 0x0B ∧ payNum rx.pkt 0 1 = 1) ∧
    (∃ rx : Rx, ∃ s : State, s.rxReady rx = true ∧ rx.pkt.ty = 0x0B ∧ payNum rx.pkt 0 1 = 2) ∧
    (∃ rx : Rx, ∃ s : State, s.rxReady rx = true ∧ rx.pkt.ty = 0x0B ∧ payNum rx.pkt 0 1 = 3) ∧
    (∃ rx : Rx, ∃ s : State, s.rxReady rx = true ∧ rx.pkt.ty = 0x0B ∧ payNum rx.pkt 0 1 = 4) ∧
    (∃ rx : Rx, ∃ s : State, s.rxReady rx = true ∧ rx.pkt.ty = 0x0B ∧ payNum rx.pkt 0 1 = 5) ∧
    (∃ rx : Rx, ∃ s : State, s.rxReady rx = true ∧ rx.pkt.ty = 0x0A) :=
  ⟨⟨⟨31, 0, 0, true, { ty := 0x0C, payload := [] }⟩, portUp, by decide +kernel⟩,
    ⟨⟨31, 0, 0, true, { ty := 0x0D, payload := [0] }⟩, portUp, by decide +kernel⟩,
    ⟨⟨31, 0, 0, true, { ty := 0x0D, payload := [1] }⟩, portUp, by decide +kernel⟩,
    ⟨⟨31, 0, 0, true, { ty := 0x0D, payload := [3] }⟩, portUp, by decide +kernel⟩,
    ⟨⟨31, 0, 0, true, { ty := 0x0D, payload := [5] }⟩, portUp, by decide +kernel⟩,
    ⟨⟨31, 0, 0, true, { ty := 0x08, payload := [0, 0, 0, 0] }⟩, portUp, by decide +kernel⟩,
    ⟨⟨31, 0, 0, true, { ty := 0x08, payload := [0, 0, 4, 0] }⟩, portUp, by decide +kernel⟩,
    ⟨⟨31, 0, 0, true, { ty := 0x08, payload := [0, 0, 0, 0x10] }⟩, portUp, by decide +kernel⟩,
    ⟨⟨31, 0, 0, true, { ty := 0x08, payload := [0, 0, 1, 0x10] }⟩, portUp, by decide +kernel⟩,
    ⟨⟨31, 0, 0, true, { ty := 0x08, payload := [0, 0, 2, 0x10] }⟩, portUp, by decide +kernel⟩,
    ⟨⟨31, 0, 0, true, { ty := 0x08, payload := [0, 0, 3, 0x10] }⟩, portUp, by decide +kernel⟩,
    ⟨⟨31, 0, 0, true, { ty := 0x08, payload := [0, 0, 4, 0x10] }⟩, portUp, by decide +kernel⟩,
    ⟨⟨31, 0, 0, true, { ty := 0x0B, payload := [1] }⟩, portUp, by decide +kernel⟩,
    ⟨⟨31, 0, 0, true, { ty := 0x0B, payload := [2] }⟩, portUp, by decide +kernel⟩,
    ⟨⟨31, 0, 0, true, { ty := 0x0B, payload := [3] }⟩, portUp, by decide +kernel⟩,
    ⟨⟨31, 0, 0, true, { ty := 0x0B, payload := [4] }⟩, portUp, by decide +kernel⟩,
    ⟨⟨31, 0, 0, true, { ty := 0x0B, payload := [5] }⟩, portUp, by decide +kernel⟩,
    ⟨⟨31, 0, 0, true, { ty := 0x0A, payload := [] }⟩, portUp, by decide +kernel⟩⟩

theorem premises_DamagedPacketAsksAgain :
    (∃ rx : Rx, ∃ s : State, s.on = true ∧ s.get PWR_STATUS_FORCED ≠ 1 ∧ s.get (SL_STATUS_ROLE (rx.port % 32)) = 1 ∧ s.portState (rx.port % 32) = 3 ∧ rx.good = false) ∧
    (∃ rx : Rx, ∃ s : State, s.on = true ∧ s.get PWR_STATUS_FORCED ≠ 1 ∧ s.get (SL_STATUS_ROLE (rx.port % 32)) = 1 ∧ s.portState (rx.port % 32) = 3 ∧ rx.good = true ∧ rx.pkt.ty = 0x03 ∧ rx.seq = (s.port (rx.port % 32)).lastGood ∧ (s.port (rx.port % 32)).lastGood < 4096) :=
  ⟨⟨⟨31, 0, 0, false, { ty := 1 }⟩, portUp, by decide +kernel⟩,
    ⟨⟨31, 4095, 0, true, { ty := 3 }⟩, portUp, by decide +kernel⟩⟩

theorem premises_NetworkTimersComplete :
    (∃ id : Nat, ∃ s : State, ∃ r : Nat × Nat × Nat, ∃ x : XReq, s.live = true ∧ (s.flt.retries.find? fun r => r.1 == id) = some r ∧ s.xreq r.2.1 r.2.2 = some x) ∧
    (∃ s : State, s.takesWrites = true ∧ s.flt.accusations = []) ∧
    (∃ a : Accuse, ∃ s : State, s.takesWrites = true ∧ s.flt.accusations = [a] ∧ s.aggregates = true) ∧
    (∃ unit : Nat, ∃ txn : Nat, ∃ s : State, ∃ x : XReq, s.live = true ∧ s.xreq unit txn = some x ∧ x.waitingPort = false ∧ (∀ q c gid seq, x.what ≠ .coll q c gid seq)) ∧
    (∃ unit : Nat, ∃ txn : Nat, ∃ s : State, ∃ x : XReq, s.live = true ∧ s.xreq unit txn = some x ∧ x.waitingPort = true) ∧
    (∃ port : Fin 32, ∃ f : Frame, ∃ s : State, s.on = true ∧ s.get PWR_STATUS_FORCED ≠ 1 ∧ s.get (SL_STATUS_ROLE port.val) = 2 ∧ s.portState port.val = 3 ∧ f.fcsGood = false) ∧
    (∃ port : Fin 32, ∃ f : Frame, ∃ s : State, s.on = true ∧ s.get PWR_STATUS_FORCED ≠ 1 ∧ s.get (SL_STATUS_ROLE port.val) = 2 ∧ s.portState port.val = 3 ∧ f.fcsGood = true ∧ f.dstPrefix = s.get HUB_SL_ETH_MAC_PREFIX ∧ f.dstModule = s.self ∧ f.etherType = s.get HUB_SL_ETH_ETHERTYPE ∧ f.wellFormed = true ∧ packetForm f.pkt = true ∧ f.pkt.ty < 0x0A) :=
  ⟨⟨4, { on0 with flt := { faults0 with retries := [(4, 2, 9)] }, xreqs := [⟨2, 9, 5, 0, { ty := 1 }, .look 0, false, false, 0, false⟩] }, (4, 2, 9), ⟨2, 9, 5, 0, { ty := 1 }, .look 0, false, false, 0, false⟩, by decide +kernel⟩,
    ⟨on0, by decide +kernel⟩,
    ⟨⟨1, 1, 1, 1, 1, 1⟩, { puts on0 [(HUB_CONST_STATUS_IS_LODESTAR, 1)] with flt := { faults0 with accusations := [⟨1, 1, 1, 1, 1, 1⟩] } }, by decide +kernel⟩,
    ⟨2, 9, { on0 with xreqs := [⟨2, 9, 5, 0, { ty := 1 }, .look 0, false, false, 0, false⟩] }, ⟨2, 9, 5, 0, { ty := 1 }, .look 0, false, false, 0, false⟩, by decide +kernel, by decide +kernel, by decide +kernel, fun _ _ _ _ => by simp⟩,
    ⟨2, 9, { on0 with xreqs := [⟨2, 9, 5, 0, { ty := 1 }, .look 0, true, false, 0, false⟩] }, ⟨2, 9, 5, 0, { ty := 1 }, .look 0, true, false, 0, false⟩, by decide +kernel⟩,
    ⟨31, ⟨0, 0, 0, false, false, { ty := 1 }⟩, puts on0 [(SL_STATUS_ROLE 31, 2), (SL_STATUS_STATE 31, 3)], by decide +kernel⟩,
    ⟨31, ⟨0, 0, 0, true, true, { ty := 9 }⟩, puts on0 [(SL_STATUS_ROLE 31, 2), (SL_STATUS_STATE 31, 3), (HUB_SL_ETH_MAC_PREFIX, 0), (HUB_SL_ETH_ETHERTYPE, 0)], by decide +kernel⟩⟩

theorem premises_CollectivesComplete :
    (∃ q : Fin 4, ∃ c : Fin 16, ∃ s : State, ∃ e : Entry, ∃ g : Group, ∃ op : Nat, ∃ u : State, s.collHeadReady q.val c.val op e = true ∧ op < 8 ∧ s.groupAt q.val c.val (Entry_bits e 0 47 32) = some g ∧ g.formed = true ∧ gate (s.committed (s.get (COLL_CH_CFG_PARTITION q.val c.val))) (Entry_bits e 1 63 32) (Entry_bits e 0 49 49 == 1) = some false ∧ ((s.advance (.collCh q.val c.val) 1).closeUnfit q.val c.val true e).collRanges g (s.get (qHead (.collCh q.val c.val))) e = (u, true) ∧ op = 1) ∧
    (∃ q : Fin 4, ∃ c : Fin 16, ∃ s : State, ∃ e : Entry, ∃ g : Group, ∃ op : Nat, ∃ u : State, s.collHeadReady q.val c.val op e = true ∧ op < 8 ∧ s.groupAt q.val c.val (Entry_bits e 0 47 32) = some g ∧ g.formed = true ∧ gate (s.committed (s.get (COLL_CH_CFG_PARTITION q.val c.val))) (Entry_bits e 1 63 32) (Entry_bits e 0 49 49 == 1) = some false ∧ ((s.advance (.collCh q.val c.val) 1).closeUnfit q.val c.val true e).collRanges g (s.get (qHead (.collCh q.val c.val))) e = (u, true) ∧ op = 2) ∧
    (∃ q : Fin 4, ∃ c : Fin 16, ∃ s : State, ∃ e : Entry, ∃ g : Group, ∃ op : Nat, ∃ u : State, s.collHeadReady q.val c.val op e = true ∧ op < 8 ∧ s.groupAt q.val c.val (Entry_bits e 0 47 32) = some g ∧ g.formed = true ∧ gate (s.committed (s.get (COLL_CH_CFG_PARTITION q.val c.val))) (Entry_bits e 1 63 32) (Entry_bits e 0 49 49 == 1) = some false ∧ ((s.advance (.collCh q.val c.val) 1).closeUnfit q.val c.val true e).collRanges g (s.get (qHead (.collCh q.val c.val))) e = (u, true) ∧ op = 3) ∧
    (∃ q : Fin 4, ∃ c : Fin 16, ∃ s : State, ∃ e : Entry, ∃ g : Group, ∃ op : Nat, ∃ u : State, s.collHeadReady q.val c.val op e = true ∧ op < 8 ∧ s.groupAt q.val c.val (Entry_bits e 0 47 32) = some g ∧ g.formed = true ∧ gate (s.committed (s.get (COLL_CH_CFG_PARTITION q.val c.val))) (Entry_bits e 1 63 32) (Entry_bits e 0 49 49 == 1) = some false ∧ ((s.advance (.collCh q.val c.val) 1).closeUnfit q.val c.val true e).collRanges g (s.get (qHead (.collCh q.val c.val))) e = (u, true) ∧ op = 4) ∧
    (∃ q : Fin 4, ∃ c : Fin 16, ∃ s : State, ∃ e : Entry, ∃ g : Group, ∃ op : Nat, ∃ u : State, s.collHeadReady q.val c.val op e = true ∧ op < 8 ∧ s.groupAt q.val c.val (Entry_bits e 0 47 32) = some g ∧ g.formed = true ∧ gate (s.committed (s.get (COLL_CH_CFG_PARTITION q.val c.val))) (Entry_bits e 1 63 32) (Entry_bits e 0 49 49 == 1) = some false ∧ ((s.advance (.collCh q.val c.val) 1).closeUnfit q.val c.val true e).collRanges g (s.get (qHead (.collCh q.val c.val))) e = (u, true) ∧ op = 5) ∧
    (∃ q : Fin 4, ∃ c : Fin 16, ∃ s : State, ∃ e : Entry, ∃ g : Group, ∃ op : Nat, ∃ u : State, s.collHeadReady q.val c.val op e = true ∧ op < 8 ∧ s.groupAt q.val c.val (Entry_bits e 0 47 32) = some g ∧ g.formed = true ∧ gate (s.committed (s.get (COLL_CH_CFG_PARTITION q.val c.val))) (Entry_bits e 1 63 32) (Entry_bits e 0 49 49 == 1) = some false ∧ ((s.advance (.collCh q.val c.val) 1).closeUnfit q.val c.val true e).collRanges g (s.get (qHead (.collCh q.val c.val))) e = (u, true) ∧ op = 6) ∧
    (∃ q : Fin 4, ∃ c : Fin 16, ∃ s : State, ∃ e : Entry, ∃ g : Group, ∃ op : Nat, ∃ u : State, s.collHeadReady q.val c.val op e = true ∧ op < 8 ∧ s.groupAt q.val c.val (Entry_bits e 0 47 32) = some g ∧ g.formed = true ∧ gate (s.committed (s.get (COLL_CH_CFG_PARTITION q.val c.val))) (Entry_bits e 1 63 32) (Entry_bits e 0 49 49 == 1) = some false ∧ ((s.advance (.collCh q.val c.val) 1).closeUnfit q.val c.val true e).collRanges g (s.get (qHead (.collCh q.val c.val))) e = (u, true) ∧ op = 7) ∧
    (∃ q : Fin 4, ∃ c : Fin 16, ∃ s : State, ∃ e : Entry, s.collHeadReady q.val c.val 0x10 e = true) ∧
    (∃ q : Fin 4, ∃ c : Fin 16, ∃ s : State, ∃ e : Entry, ∃ g : Group, s.collHeadReady q.val c.val 0x11 e = true ∧ s.groupAt q.val c.val (Entry_bits e 0 47 32) = some g ∧ g.formed = true) ∧
    (∃ q : Fin 4, ∃ c : Fin 16, ∃ gid : Nat, ∃ s : State, ∃ g : Group, s.live = true ∧ s.groupAt q.val c.val gid = some g ∧ g.formed = false ∧ g.rank = 0) ∧
    (∃ q : Fin 4, ∃ c : Fin 16, ∃ gid : Nat, ∃ s : State, ∃ g : Group, s.live = true ∧ s.groupAt q.val c.val gid = some g ∧ g.formed = false ∧ g.rank ≠ 0) ∧
    (∃ q : Fin 4, ∃ c : Fin 16, ∃ s : State, ∃ f : Nat × Nat × List Entry × List Nat, s.live = true ∧ (s.coll.fused.find? fun f => f.1 == q.val && f.2.1 == c.val) = some f) ∧
    (∃ q : Fin 4, ∃ c : Fin 16, ∃ gid : Nat, ∃ seq : Nat, ∃ s : State, ∃ g : Group, ∃ o : CollOp, s.live = true ∧ s.groupAt q.val c.val gid = some g ∧ s.collAt g seq = some o ∧ o.waiting = false) ∧
    (∃ q : Fin 4, ∃ c : Fin 16, ∃ gid : Nat, ∃ seq : Nat, ∃ s : State, ∃ g : Group, ∃ o : CollOp, ∃ k : Nat, s.live = true ∧ s.groupAt q.val c.val gid = some g ∧ s.collAt g seq = some o ∧ k < 12 ∧ s.get (HBM_STACK_STATUS_LEVEL k) = 2) :=
  ⟨⟨3, 15, collSt (collE 1 [(1, 0, 1), (2, 0, 2 ^ 60 + 0x40000), (3, 0, 2 ^ 60 + 0x80000)]), collE 1 [(1, 0, 1), (2, 0, 2 ^ 60 + 0x40000), (3, 0, 2 ^ 60 + 0x80000)], group0, 1, _, by decide +kernel, by decide +kernel, by decide +kernel, by decide +kernel, by decide +kernel, Prod.ext rfl (by decide +kernel), rfl⟩,
    ⟨3, 15, collSt (collE 2 [(1, 0, 1), (2, 0, 2 ^ 60 + 0x40000), (3, 0, 2 ^ 60 + 0x80000)]), collE 2 [(1, 0, 1), (2, 0, 2 ^ 60 + 0x40000), (3, 0, 2 ^ 60 + 0x80000)], group0, 2, _, by decide +kernel, by decide +kernel, by decide +kernel, by decide +kernel, by decide +kernel, Prod.ext rfl (by decide +kernel), rfl⟩,
    ⟨3, 15, collSt (collE 3 [(1, 0, 1), (2, 0, 2 ^ 60 + 0x40000), (3, 0, 2 ^ 60 + 0x80000)]), collE 3 [(1, 0, 1), (2, 0, 2 ^ 60 + 0x40000), (3, 0, 2 ^ 60 + 0x80000)], group0, 3, _, by decide +kernel, by decide +kernel, by decide +kernel, by decide +kernel, by decide +kernel, Prod.ext rfl (by decide +kernel), rfl⟩,
    ⟨3, 15, collSt (collE 4 [(1, 0, 1), (2, 0, 2 ^ 60 + 0x40000), (3, 0, 2 ^ 60 + 0x80000)]), collE 4 [(1, 0, 1), (2, 0, 2 ^ 60 + 0x40000), (3, 0, 2 ^ 60 + 0x80000)], group0, 4, _, by decide +kernel, by decide +kernel, by decide +kernel, by decide +kernel, by decide +kernel, Prod.ext rfl (by decide +kernel), rfl⟩,
    ⟨3, 15, collSt (collE 5 [(1, 0, 1), (2, 0, 2 ^ 60 + 0x40000), (3, 0, 2 ^ 60 + 0x80000), (5, 0, 1)]), collE 5 [(1, 0, 1), (2, 0, 2 ^ 60 + 0x40000), (3, 0, 2 ^ 60 + 0x80000), (5, 0, 1)], group0, 5, _, by decide +kernel, by decide +kernel, by decide +kernel, by decide +kernel, by decide +kernel, Prod.ext rfl (by decide +kernel), rfl⟩,
    ⟨3, 15, collSt (collE 6 [(1, 0, 1), (2, 0, 2 ^ 60 + 0x40000), (3, 0, 2 ^ 60 + 0x80000), (5, 0, 1), (6, 0, 2 ^ 60 + 0x100000), (7, 0, 1)]), collE 6 [(1, 0, 1), (2, 0, 2 ^ 60 + 0x40000), (3, 0, 2 ^ 60 + 0x80000), (5, 0, 1), (6, 0, 2 ^ 60 + 0x100000), (7, 0, 1)], group0, 6, _, by decide +kernel, by decide +kernel, by decide +kernel, by decide +kernel, by decide +kernel, Prod.ext rfl (by decide +kernel), rfl⟩,
    ⟨3, 15, collSt (collE 7 [(1, 0, 1), (2, 0, 2 ^ 60 + 0x40000), (3, 0, 2 ^ 60 + 0x80000), (5, 32, 1), (5, 16, 1), (5, 0, 1), (6, 0, 2 ^ 60 + 0x100000), (7, 0, 2 ^ 60 + 0x140000)]), collE 7 [(1, 0, 1), (2, 0, 2 ^ 60 + 0x40000), (3, 0, 2 ^ 60 + 0x80000), (5, 32, 1), (5, 16, 1), (5, 0, 1), (6, 0, 2 ^ 60 + 0x100000), (7, 0, 2 ^ 60 + 0x140000)], group0, 7, _, by decide +kernel, by decide +kernel, by decide +kernel, by decide +kernel, by decide +kernel, Prod.ext rfl (by decide +kernel), rfl⟩,
    ⟨3, 15, collSt (collE 0x10 []), collE 0x10 [], by decide +kernel⟩,
    ⟨3, 15, collSt (collE 0x11 []), collE 0x11 [], group0, by decide +kernel⟩,
    ⟨3, 15, 9, { on0 with coll := { coll0 with groups := [⟨3, 15, 9, 5, 0, 0, [0, 1], false, 0, [], 0, 0, none⟩] } }, ⟨3, 15, 9, 5, 0, 0, [0, 1], false, 0, [], 0, 0, none⟩, by decide +kernel⟩,
    ⟨3, 15, 9, { on0 with coll := { coll0 with groups := [⟨3, 15, 9, 5, 0, 1, [0, 1], false, 0, [], 0, 0, none⟩] } }, ⟨3, 15, 9, 5, 0, 1, [0, 1], false, 0, [], 0, 0, none⟩, by decide +kernel⟩,
    ⟨3, 15, { on0 with coll := { coll0 with fused := [(3, 15, [], [])] } }, (3, 15, [], []), by decide +kernel⟩,
    ⟨3, 15, 9, 4, { on0 with coll := { coll0 with groups := [group0], ops := [⟨3, 15, 9, 4, 1, [], [], 1, false, [], [], [], 0, false, none⟩] } }, group0, ⟨3, 15, 9, 4, 1, [], [], 1, false, [], [], [], 0, false, none⟩, by decide +kernel⟩,
    ⟨3, 15, 9, 4, { puts on0 [(HBM_STACK_STATUS_LEVEL 11, 2)] with coll := { coll0 with groups := [group0], ops := [⟨3, 15, 9, 4, 1, [], [], 1, false, [], [], [], 0, false, none⟩] } }, group0, ⟨3, 15, 9, 4, 1, [], [], 1, false, [], [], [], 0, false, none⟩, 11, by decide +kernel⟩⟩

theorem premises_PortTrainingCompletes :
    (∃ port : Fin 32, ∃ lanes : Nat, ∃ s : State, s.on = true ∧ s.portState port.val = 1 ∧ 2 ≤ laneCountOf lanes ∧ s.get (SL_STATUS_ROLE port.val) = 1 ∧ (s.port port.val).startedAt = none) ∧
    (∃ port : Fin 32, ∃ lanes : Nat, ∃ s : State, s.on = true ∧ s.portState port.val = 2 ∧ (s.port port.val).step = 2 ∧ s.lanesNeeded port.val ≤ laneCountOf ((s.port port.val).lanes &&& lanes % 16)) ∧
    (∃ port : Fin 32, ∃ s : State, s.on = true ∧ s.portState port.val = 2 ∧ 2 ≤ (s.port port.val).step) ∧
    (∃ port : Fin 32, ∃ lanes : Nat, ∃ s : State, s.on = true ∧ s.portState port.val = 2 ∧ (s.port port.val).step = 6) :=
  ⟨⟨31, 15, (puts on0 [(SL_STATUS_ROLE 31, 1), (SL_STATUS_STATE 31, 1)]).setPort 31 { port0 with step := 0 }, by decide +kernel⟩,
    ⟨31, 15, (puts on0 [(SL_STATUS_ROLE 31, 1), (SL_STATUS_STATE 31, 2)]).setPort 31 { port0 with step := 2, lanes := 15 }, by decide +kernel⟩,
    ⟨31, (puts on0 [(SL_STATUS_ROLE 31, 1), (SL_STATUS_STATE 31, 2)]).setPort 31 { port0 with step := 2 }, by decide +kernel⟩,
    ⟨31, 3, (puts on0 [(SL_STATUS_ROLE 31, 1), (SL_STATUS_STATE 31, 2)]).setPort 31 { port0 with step := 6 }, by decide +kernel⟩⟩

theorem premises_PortEventsComplete :
    (∃ port : Fin 32, ∃ ack : Nat, ∃ s : State, s.on = true ∧ s.get (SL_STATUS_ROLE port.val) = 1 ∧ s.inService port.val = true) ∧
    (∃ port : Fin 32, ∃ s : State, s.on = true ∧ s.get (SL_STATUS_ROLE port.val) = 1) ∧
    (∃ port : Fin 32, ∃ s : State, s.on = true ∧ s.portState port.val = 3 ∧ (s.port port.val).pending = none) ∧
    (∃ port : Fin 32, ∃ s : State, s.on = true ∧ s.portState port.val = 4) ∧
    (∃ port : Fin 32, ∃ lanes : Nat, ∃ s : State, s.on = true ∧ s.portState port.val = 5 ∧ (s.port port.val).degraded = false ∧ s.lanesNeeded port.val ≤ laneCountOf ((s.port port.val).lanes &&& lanes % 16)) ∧
    (∃ port : Fin 32, ∃ lane : Fin 4, ∃ s : State, s.on = true ∧ s.inService port.val = true ∧ bitAt (s.get (SL_STATUS_LANE_MASK port.val)) lane.val = true ∧ laneCountOf (s.get (SL_STATUS_LANE_MASK port.val) - 2 ^ lane.val) < 2) ∧
    (∃ port : Fin 32, ∃ s : State, s.on = true ∧ s.portState port.val = 3) ∧
    (∃ port : Fin 32, ∃ s : State, ∃ target : Nat, s.on = true ∧ (s.port port.val).pending = some target) ∧
    (∃ port : Fin 32, ∃ s : State, s.on = true ∧ s.portState port.val ≠ 6 ∧ ((s.put (SL_ERR_TX_ERR port.val) (s.get (SL_ERR_TX_ERR port.val) - 1)).put (SL_ERR_RX_ERR port.val) (s.get (SL_ERR_RX_ERR port.val) - 1)).errHigh port.val < 64) ∧
    (∃ port : Fin 32, ∃ cls : Nat, ∃ pauses : Nat, ∃ s : State, s.on = true ∧ s.get (SL_STATUS_ROLE port.val) = 2 ∧ cls ≤ 2 ∧ pauses ≠ 0) ∧
    (∃ port : Fin 32, ∃ unit : Nat, ∃ txn : Nat, ∃ s : State, ∃ k : Kept, s.on = true ∧ ((s.port port.val).ethUnacked.find? fun k => k.pkt.srcUnit == unit && k.pkt.txn == txn) = some k ∧ s.portState port.val = 3 ∧ (s.port port.val).pfcPaused = [] ∧ onceOnly k.pkt.ty = false ∧ k.sends < 9) ∧
    (∃ path : Path, ∃ port : Fin 32, ∃ s : State, s.takesWrites = true ∧ ctrlPath path = true ∧ s.portState port.val = 3) ∧
    (∃ path : Path, ∃ port : Fin 32, ∃ s : State, s.takesWrites = true ∧ ctrlPath path = true ∧ s.portState port.val = 6) ∧
    (∃ path : Path, ∃ port : Fin 32, ∃ s : State, s.takesWrites = true ∧ ctrlPath path = true ∧ s.portState port.val = 3 ∧ (s.port port.val).pending = none) ∧
    (∃ path : Path, ∃ port : Fin 32, ∃ s : State, s.takesWrites = true ∧ ctrlPath path = true) ∧
    (∃ port : Fin 32, ∃ s : State, s.on = true ∧ s.portState port.val = 8 ∧ s.isOut 9 port.val = false) ∧
    (∃ path : Path, ∃ s : State, s.takesWrites = true ∧ ctrlPath path = true) :=
  ⟨⟨31, 0, (puts on0 [(SL_STATUS_ROLE 31, 1), (SL_STATUS_STATE 31, 3)]).setPort 31 { port0 with step := 0 }, by decide +kernel⟩,
    ⟨31, (puts on0 [(SL_STATUS_ROLE 31, 1), (SL_STATUS_STATE 31, 3)]).setPort 31 { port0 with step := 0 }, by decide +kernel⟩,
    ⟨31, (puts on0 [(SL_STATUS_ROLE 31, 1), (SL_STATUS_STATE 31, 3)]).setPort 31 { port0 with step := 0 }, by decide +kernel⟩,
    ⟨31, (puts on0 [(SL_STATUS_ROLE 31, 1), (SL_STATUS_STATE 31, 4)]).setPort 31 { port0 with step := 0 }, by decide +kernel⟩,
    ⟨31, 15, (puts on0 [(SL_STATUS_ROLE 31, 1), (SL_STATUS_STATE 31, 5)]).setPort 31 { port0 with lanes := 15 }, by decide +kernel⟩,
    ⟨31, 3, (puts on0 [(SL_STATUS_ROLE 31, 1), (SL_STATUS_STATE 31, 3), (SL_STATUS_LANE_MASK 31, 8)]).setPort 31 { port0 with step := 0 }, by decide +kernel⟩,
    ⟨31, (puts on0 [(SL_STATUS_ROLE 31, 1), (SL_STATUS_STATE 31, 3)]).setPort 31 { port0 with step := 0 }, by decide +kernel⟩,
    ⟨31, (puts on0 [(SL_STATUS_ROLE 31, 1), (SL_STATUS_STATE 31, 3)]).setPort 31 { port0 with pending := some 6 }, 6, by decide +kernel⟩,
    ⟨31, (puts on0 [(SL_STATUS_ROLE 31, 1), (SL_STATUS_STATE 31, 3)]).setPort 31 { port0 with step := 0 }, by decide +kernel⟩,
    ⟨31, 2, 1, (puts on0 [(SL_STATUS_ROLE 31, 2), (SL_STATUS_STATE 31, 3)]).setPort 31 { port0 with step := 0 }, by decide +kernel⟩,
    ⟨31, 2, 9, (puts on0 [(SL_STATUS_ROLE 31, 2), (SL_STATUS_STATE 31, 3)]).setPort 31 { port0 with ethUnacked := [⟨0, { ty := 1, srcUnit := 2, txn := 9 }, 0, 1, 0⟩] }, ⟨0, { ty := 1, srcUnit := 2, txn := 9 }, 0, 1, 0⟩, by decide +kernel⟩,
    ⟨.pf0, 31, (puts on0 [(SL_STATUS_ROLE 31, 1), (SL_STATUS_STATE 31, 3)]).setPort 31 { port0 with step := 0 }, by decide +kernel⟩,
    ⟨.pf0, 31, (puts on0 [(SL_STATUS_ROLE 31, 1), (SL_STATUS_STATE 31, 6)]).setPort 31 { port0 with step := 0 }, by decide +kernel⟩,
    ⟨.pf0, 31, (puts on0 [(SL_STATUS_ROLE 31, 1), (SL_STATUS_STATE 31, 3)]).setPort 31 { port0 with step := 0 }, by decide +kernel⟩,
    ⟨.pf0, 31, on0, by decide +kernel⟩,
    ⟨31, (puts on0 [(SL_STATUS_ROLE 31, 1), (SL_STATUS_STATE 31, 8)]).setPort 31 { port0 with step := 0 }, by decide +kernel⟩,
    ⟨.sideband, on0, by decide +kernel⟩⟩

theorem premises_ConfigurationCompletes :
    (∃ path : Path, ∃ s : State, s.cfgReady path = true ∧ s.stg = 0) ∧
    (∃ path : Path, ∃ k : Fin 8, ∃ s : State, s.cfgReady path = true ∧ s.stg = 0) ∧
    (∃ path : Path, ∃ s : State, s.cfgReady path = true ∧ s.stg = 1) ∧
    (∃ s : State, s.live = true ∧ s.get CFG_STATUS_BUSY = 1 ∧ s.cfg.programming = none ∧ s.stg = 2) ∧
    (∃ path : Path, ∃ w : Word, ∃ s : State, s.cfgReady path = true ∧ s.stg = 3 ∧ s.get FW_STATUS_UPD = 0) ∧
    (∃ path : Path, ∃ k : Fin 8, ∃ s : State, s.cfgReady path = true ∧ s.stg = 1 ∧ s.get CFG_STATUS_EDITED = 0 ∧ s.cfg.image ≠ [] ∧ (s.slot k.val).state = 0 ∧ s.get CFG_STATUS_TRIAL_PENDING = 0) ∧
    (∃ path : Path, ∃ k : Fin 8, ∃ s : State, s.cfgReady path = true ∧ s.stg = 0 ∧ (s.slot k.val).state = 1 ∧ s.get CFG_STATUS_TRIAL_PENDING = 0) ∧
    (∃ path : Path, ∃ s : State, s.cfgReady path = true ∧ s.stg = 0 ∧ s.get CFG_STATUS_TRIAL_PENDING = 0 ∧ s.get CFG_STATUS_PREVIOUS_VALID = 1) ∧
    (∃ path : Path, ∃ s : State, s.cfgReady path = true ∧ s.stg = 0 ∧ s.get CFG_STATUS_TRIAL_PENDING = 0 ∧ s.get CFG_STATUS_PREVIOUS_VALID = 0) ∧
    (∃ path : Path, ∃ s : State, s.cfgReady path = true ∧ s.get CFG_STATUS_TRIAL_PENDING = 1 ∧ s.cfg.trialSlot = none) ∧
    (∃ path : Path, ∃ s : State, s.cfgReady path = true) ∧
    (∃ s : State, ∃ k : Nat, s.live = true ∧ s.cfg.programming = some (k, false)) ∧
    (∃ s : State, s.live = true ∧ s.get CFG_STATUS_DIR_PENDING = 1) ∧
    (∃ s : State, s.live = true ∧ s.get CFG_STATUS_TRIAL_PENDING = 1 ∧ s.cfg.returning = false ∧ s.cfg.trialEnds ≤ s.now) ∧
    (∃ s : State, ∃ a : Armed, s.live = true ∧ s.cfg.armed = some a ∧ a.drained = false ∧ (a.lastStep.all fun x => s.partDrained x.1 x.2) = true ∧ s.liveRuleBroken = false ∧ a.jobScope = false) ∧
    (∃ s : State, ∃ a : Armed, s.live = true ∧ s.cfg.armed = some a ∧ a.drained = false ∧ a.since + s.cfg.active.drainLimit * 1000000 ≤ s.now) ∧
    (∃ s : State, ∃ a : Armed, s.live = true ∧ s.cfg.armed = some a ∧ a.jobScope = true ∧ a.since + s.cfg.active.armTimeout * 1000000 ≤ s.now) :=
  ⟨⟨.pf0, puts on0 [(CFG_STATUS_STATE, 0)], by decide +kernel⟩,
    ⟨.pf0, 7, puts on0 [(CFG_STATUS_STATE, 0)], by decide +kernel⟩,
    ⟨.sideband, puts on0 [(CFG_STATUS_STATE, 1)], by decide +kernel⟩,
    ⟨puts on0 [(CFG_STATUS_STATE, 2), (CFG_STATUS_BUSY, 1)], by decide +kernel⟩,
    ⟨.pf0, 0, puts on0 [(CFG_STATUS_STATE, 3)], by decide +kernel⟩,
    ⟨.pf0, 7, { puts on0 [(CFG_STATUS_STATE, 1)] with cfg := { cfg0 with image := [0] } }, by decide +kernel⟩,
    ⟨.pf0, 7, { puts on0 [(CFG_STATUS_STATE, 0)] with cfg := { cfg0 with slots := [(7, ⟨1, 1⟩)] } }, by decide +kernel⟩,
    ⟨.pf0, puts on0 [(CFG_STATUS_STATE, 0), (CFG_STATUS_PREVIOUS_VALID, 1)], by decide +kernel⟩,
    ⟨.pf0, puts on0 [(CFG_STATUS_STATE, 0)], by decide +kernel⟩,
    ⟨.pf0, puts on0 [(CFG_STATUS_TRIAL_PENDING, 1)], by decide +kernel⟩,
    ⟨.pf0, on0, by decide +kernel⟩,
    ⟨{ puts on0 [] with cfg := { cfg0 with programming := some (7, false) } }, 7, by decide +kernel⟩,
    ⟨puts on0 [(CFG_STATUS_DIR_PENDING, 1)], by decide +kernel⟩,
    ⟨puts on0 [(CFG_STATUS_TRIAL_PENDING, 1)], by decide +kernel⟩,
    ⟨{ puts on0 [] with cfg := { cfg0 with armed := some ⟨false, false, 0, 0, 0, [], [], false, 0⟩ } }, ⟨false, false, 0, 0, 0, [], [], false, 0⟩, by decide +kernel⟩,
    ⟨{ puts on0 [(HUB_TIME_TIME, 100000000)] with cfg := { cfg0 with armed := some ⟨false, false, 0, 0, 0, [], [], false, 0⟩ } }, ⟨false, false, 0, 0, 0, [], [], false, 0⟩, by decide +kernel⟩,
    ⟨{ puts on0 [(HUB_TIME_TIME, 1000000000)] with cfg := { cfg0 with armed := some ⟨false, true, 0, 0, 0, [], [], false, 0⟩ } }, ⟨false, true, 0, 0, 0, [], [], false, 0⟩, by decide +kernel⟩⟩

theorem premises_FirmwareCompletes :
    (∃ path : Path, ∃ w : Word, ∃ s : State, ∃ im : List Byte, s.fwReady path = true ∧ s.get FW_STATUS_UPD = 0 ∧ 4224 ≤ bitsOf 63 32 w.toNat ∧ bitsOf 63 32 w.toNat ≤ 16777216 ∧ s.stageSource (bitsOf 63 32 w.toNat) = some im) ∧
    (∃ reason : Nat, ∃ s : State, s.live = true ∧ s.get FW_STATUS_UPD = 1) ∧
    (∃ path : Path, ∃ s : State, s.fwReady path = true ∧ s.get FW_STATUS_UPD = 4) ∧
    (∃ path : Path, ∃ s : State, s.fwReady path = true ∧ s.get FW_STATUS_UPD = 0) ∧
    (∃ s : State, s.live = true ∧ s.get FW_STATUS_UPD = 4 ∧ s.fw.trialStart + s.fw.selfCheck * 1000000000 ≤ s.now) ∧
    (∃ s : State, s.live = true ∧ s.get FW_STATUS_UPD = 4 ∧ s.fw.trialStart + s.fw.selfCheck * 1000000000 ≤ s.now ∧ s.fw.confirmReq = false) ∧
    (∃ s : State, s.live = true ∧ s.get FW_STATUS_UPD = 4 ∧ s.fw.trialStart + s.fw.selfCheck * 1000000000 ≤ s.now ∧ s.fw.confirmReq = true) ∧
    (∃ s : State, s.live = true ∧ s.get FW_STATUS_UPD = 3 ∧ s.get FW_STATUS_DRAINING = 1) ∧
    (∃ s : State, s.live = true ∧ s.get FW_STATUS_UPD = 5 ∧ s.get FW_STATUS_DRAINING = 1) ∧
    (∃ core : Fin 6, ∃ s : State, s.live = true ∧ s.get FW_STATUS_STATE = 2) ∧
    (∃ f : Nat, ∃ v : Nat, ∃ s : State, s.takesWrites = true ∧ f < 256 ∧ s.ifMin ≤ v ∧ v ≤ s.ifMax ∧ v / 256 = s.ifMax / 256) ∧
    (∃ v : Nat, ∃ s : State, s.takesWrites = true ∧ s.ifMax < v) :=
  ⟨⟨.pf0, 4224 <<< 32, puts (withCtx on0 5) [(FW_UPD_SRC_SRC, 2 ^ 60)], _, by decide +kernel, by decide +kernel, by decide +kernel, by decide +kernel, (Option.some_get (by decide +kernel)).symm⟩,
    ⟨0, puts on0 [(FW_STATUS_UPD, 1)], by decide +kernel⟩,
    ⟨.pf0, puts on0 [(FW_STATUS_UPD, 4)], by decide +kernel⟩,
    ⟨.pf0, on0, by decide +kernel⟩,
    ⟨puts on0 [(FW_STATUS_UPD, 4)], by decide +kernel⟩,
    ⟨puts on0 [(FW_STATUS_UPD, 4)], by decide +kernel⟩,
    ⟨{ puts on0 [(FW_STATUS_UPD, 4)] with fw := { fw0 with confirmReq := true } }, by decide +kernel⟩,
    ⟨puts on0 [(FW_STATUS_UPD, 3), (FW_STATUS_DRAINING, 1)], by decide +kernel⟩,
    ⟨puts on0 [(FW_STATUS_UPD, 5), (FW_STATUS_DRAINING, 1)], by decide +kernel⟩,
    ⟨5, on0, by decide +kernel⟩,
    ⟨255, 0x100, on0, by decide +kernel⟩,
    ⟨0x101, on0, by decide +kernel⟩⟩

theorem premises_SidebandUpdateCompletes :
    (∃ n : Nat, ∃ s : State, s.pldmOn = true ∧ s.fw.pldm = 0 ∧ 32 ≤ n ∧ s.get FW_STATUS_UPD = 0) ∧
    (∃ s : State, s.pldmOn = true ∧ s.fw.pldm = 1) ∧
    (∃ size : Nat, ∃ s : State, s.pldmOn = true ∧ s.fw.pldm = 2 ∧ 4224 ≤ size ∧ size ≤ 16777216) ∧
    (∃ data : List Byte, ∃ s : State, s.pldmOn = true ∧ s.fw.pldm = 3 ∧ s.fw.pldmGot + data.length ≤ s.fw.pldmSize) ∧
    (∃ s : State, s.pldmOn = true ∧ s.fw.pldm = 3 ∧ s.fw.pldmGot = s.fw.pldmSize ∧ s.get FW_STATUS_STATE = 2) ∧
    (∃ s : State, s.pldmOn = true ∧ s.fw.pldm = 5) ∧
    (∃ s : State, s.pldmOn = true ∧ s.fw.pldm = 6 ∧ s.get FW_STATUS_STATE = 2) ∧
    (∃ eid : Nat, ∃ cmd : Nat, ∃ data : List Byte, ∃ s : State, s.phase ≠ .off) :=
  ⟨⟨32, on0, by decide +kernel⟩,
    ⟨{ on0 with fw := { fw0 with pldm := 1 } }, by decide +kernel⟩,
    ⟨4224, { on0 with fw := { fw0 with pldm := 2 } }, by decide +kernel⟩,
    ⟨[1], { on0 with fw := { fw0 with pldm := 3, pldmSize := 1 } }, by decide +kernel⟩,
    ⟨{ on0 with fw := { fw0 with pldm := 3, pldmSize := 1, pldmGot := 1 } }, by decide +kernel⟩,
    ⟨{ on0 with fw := { fw0 with pldm := 5 } }, by decide +kernel⟩,
    ⟨{ on0 with fw := { fw0 with pldm := 6 } }, by decide +kernel⟩,
    ⟨0, 0, [], on0, by decide +kernel⟩⟩

theorem premises_RepairCompletes :
    (∃ path : Path, ∃ cls : Nat, ∃ idx : Nat, ∃ s : State, s.takesWrites = true ∧ ctrlPath path = true ∧ 1 ≤ cls ∧ cls ≤ 10 ∧ unitExists cls idx = true ∧ (cls = 1 ∨ 5 ≤ cls)) ∧
    (∃ path : Path, ∃ idx : Nat, ∃ s : State, s.takesWrites = true ∧ ctrlPath path = true ∧ unitExists 1 idx = true) ∧
    (∃ path : Path, ∃ cls : Nat, ∃ idx : Nat, ∃ s : State, s.takesWrites = true ∧ ctrlPath path = true ∧ 1 ≤ cls ∧ cls ≤ 10 ∧ unitExists cls idx = true) ∧
    (∃ cls : Nat, ∃ idx : Nat, ∃ s : State, s.live = true ∧ s.isDraining cls idx = true ∧ s.isOut cls idx = false ∧ cls ≠ 9 ∧ cls ≠ 3) ∧
    (∃ t : Fin 272, ∃ m : Bool, ∃ s : State, s.live = true ∧ s.get (TILE_STATUS_STATE t.val) ≠ 4) ∧
    (∃ cls : Nat, ∃ idx : Nat, ∃ s : State, s.live = true ∧ 5 ≤ cls ∧ unitExists cls idx = true ∧ s.canDrain cls idx = true ∧ (s.countFault cls idx 3).2 < faultLimit cls 3) ∧
    (∃ s : State, s.on = true ∧ s.get HUB_STAR_STATUS_WRITE_PENDING = 1) ∧
    (∃ acked : List Nat, ∃ s : State, s.on = true) :=
  ⟨⟨.pf0, 10, 3, on0, by decide +kernel⟩,
    ⟨.pf0, 271, on0, by decide +kernel⟩,
    ⟨.pf0, 4, 127, on0, by decide +kernel⟩,
    ⟨8, 0, { on0 with flt := { faults0 with draining := [(8, 0)] } }, by decide +kernel⟩,
    ⟨271, true, puts on0 [(TILE_STATUS_STATE 271, 1)], by decide +kernel⟩,
    ⟨9, 31, puts on0 [(SL_STATUS_STATE 31, 3)], by decide +kernel⟩,
    ⟨puts on0 [(HUB_STAR_STATUS_WRITE_PENDING, 1)], by decide +kernel⟩,
    ⟨[], on0, by decide +kernel⟩⟩

theorem premises_PowerCompletes :
    (∃ s : State, s.on = true ∧ s.get PWR_STATUS_FORCED = 0 ∧ s.validParts = []) ∧
    (∃ p : Nat, ∃ s : State, s.on = true ∧ s.get PWR_STATUS_FORCED = 0 ∧ s.validParts = [p] ∧ s.get (PWR_PART_CFG_STATE p) < 2) ∧
    (∃ q : Fin 128, ∃ s : State, s.on = true ∧ s.get PWR_STATUS_FORCED = 0 ∧ s.partEvents q.val ≠ [] ∧ s.timeTo (s.partEvents q.val) ≤ wakeNs (s.get (PWR_PART_CFG_STATE q.val)) ∧ 1 ≤ s.get (PWR_PART_CFG_STATE q.val) ∧ s.get (PWR_PART_CFG_STATE q.val) ≤ 2) ∧
    (∃ vin : Nat, ∃ i : Nat, ∃ use : List (Nat × Nat × Nat), ∃ s : State, s.on = true) ∧
    (∃ avg : Nat, ∃ s : State, s.on = true) ∧
    (∃ cause : Nat, ∃ s : State, s.on = true ∧ 1 ≤ cause ∧ cause ≤ 5) ∧
    (∃ s : State, s.on = true ∧ s.get PWR_STATUS_FORCED = 1 ∧ s.get PWR_STATUS_ALERT_CAUSE ≠ 7 ∧ s.pwr.j3 = false) ∧
    (∃ hub : Nat, ∃ deep : Nat, ∃ inlet : Nat, ∃ outlet : Nat, ∃ s : State, s.on = true ∧ hub < 380 ∧ inlet < 220 ∧ s.get PWR_STATUS_TRIP = 0) ∧
    (∃ s : State, s.on = true ∧ s.get PWR_STATUS_TRIP ≠ 0) ∧
    (∃ s : State, s.on = true ∧ s.get PWR_STATUS_TRIP = 3 ∧ s.get PWR_THERM_HOTTEST < 368 ∧ s.get PWR_THERM_INLET < 200) ∧
    (∃ s : State, s.on = true ∧ 180 < s.get PWR_THERM_INLET) ∧
    (∃ s : State, s.on = true ∧ 500 < s.get PWR_STATUS_POWER_W ∧ s.get PWR_THERM_FLOW_DL < 18) ∧
    (∃ d : Fin 1088, ∃ s : State, s.on = true ∧ s.pwr.tripped.contains d.val = true ∧ s.pwr.masked = []) :=
  ⟨⟨puts on0 [(HUB_PART_CFG_VALID 0, 0)], by decide +kernel⟩,
    ⟨0, on0, by decide +kernel⟩,
    ⟨0, puts on0 [(PWR_PART_CFG_STATE 0, 2), (PWR_PART_CFG_WAKE_AT 0, 15000)], by decide +kernel⟩,
    ⟨54000, 1000, [], on0, by decide +kernel⟩,
    ⟨2800, on0, by decide +kernel⟩,
    ⟨5, on0, by decide +kernel⟩,
    ⟨puts on0 [(PWR_STATUS_FORCED, 1)], by decide +kernel⟩,
    ⟨379, 0, 219, 0, on0, by decide +kernel⟩,
    ⟨puts on0 [(PWR_STATUS_TRIP, 3)], by decide +kernel⟩,
    ⟨puts on0 [(PWR_STATUS_TRIP, 3)], by decide +kernel⟩,
    ⟨puts on0 [(PWR_THERM_INLET, 181)], by decide +kernel⟩,
    ⟨puts on0 [(PWR_STATUS_POWER_W, 501), (PWR_THERM_FLOW_DL, 17)], by decide +kernel⟩,
    ⟨1087, { on0 with pwr := { power0 with tripped := [1087] } }, by decide +kernel⟩⟩

theorem premises_RecorderCompletes :
    (∃ n : Nat, ∃ s : State, s.on = true ∧ s.eph.staged ≠ [] ∧ n ≠ 0) ∧
    (∃ k : Nat, ∃ s : State, s.on = true ∧ s.eph.keepErase = some k) ∧
    (∃ k : Nat, ∃ s : State, s.on = true ∧ s.eph.genErase = some k) ∧
    (∃ s : State, s.on = true) :=
  ⟨⟨1, { on0 with eph := { eph0 with staged := [⟨0x1906, 1, 0, 0, 0xFF, 0, 0, 0, 0, 0, 0⟩] } }, by decide +kernel⟩,
    ⟨3, { on0 with eph := { eph0 with keepErase := some 3 } }, by decide +kernel⟩,
    ⟨3, { on0 with eph := { eph0 with genErase := some 3 } }, by decide +kernel⟩,
    ⟨on0, by decide +kernel⟩⟩

theorem premises_FreezeCompletes :
    (∃ s : State, s.on = true) ∧
    (∃ s : State, s.on = true ∧ s.get ECL_CFG_PIN_EN = 1) ∧
    (∃ s : State, s.on = true ∧ s.get ECL_FREEZE_AT_AT ≠ 0 ∧ s.get ECL_FREEZE_AT_AT ≤ s.now ∧ s.ecl.frozenAt < s.get ECL_FREEZE_AT_AT) ∧
    (∃ path : Path, ∃ s : State, s.on = true ∧ eclPath path = true) ∧
    (∃ path : Path, ∃ off : Nat, ∃ s : State, s.on = true ∧ ctrlPath path = true ∧ off < 65536) ∧
    (∃ path : Path, ∃ off : Nat, ∃ v : Word, ∃ s : State, s.on = true ∧ ctrlPath path = true ∧ off < 65536) ∧
    (∃ addr : Nat, ∃ v : Nat, ∃ s : State, (s.frozen = false ∨ s.get ECL_CFG_DEPOSIT_EN = 0)) :=
  ⟨⟨on0, by decide +kernel⟩,
    ⟨puts on0 [(ECL_CFG_PIN_EN, 1)], by decide +kernel⟩,
    ⟨puts on0 [(ECL_FREEZE_AT_AT, 1), (HUB_TIME_TIME, 1)], by decide +kernel⟩,
    ⟨.jtag, on0, by decide +kernel⟩,
    ⟨.pf0, 65535, on0, by decide +kernel⟩,
    ⟨.pf0, 65535, 0, on0, by decide +kernel⟩,
    ⟨0, 0, on0, by decide +kernel⟩⟩

theorem premises_JtagCompletes :
    (∃ s : State, s.phase ≠ .off) ∧
    (∃ tdi : Bool, ∃ s : State, s.phase ≠ .off) ∧
    (∃ v : Nat, ∃ s : State, s.phase ≠ .off) ∧
    (∃ s : State, s.phase = .jtagHold) ∧
    (∃ s : State, s.phase = .on) ∧
    (∃ v : Nat, ∃ s : State, s.on = true) ∧
    (∃ s : State, s.on = true) :=
  ⟨⟨on0, by decide +kernel⟩,
    ⟨true, on0, by decide +kernel⟩,
    ⟨0, on0, by decide +kernel⟩,
    ⟨{ on0 with phase := .jtagHold }, by decide +kernel⟩,
    ⟨on0, by decide +kernel⟩,
    ⟨0, on0, by decide +kernel⟩,
    ⟨on0, by decide +kernel⟩⟩

theorem premises_ResetsComplete :
    (∃ s : State, s.phase = .off ∧ s.pins.mated = true ∧ s.pace.refPresent = true) ∧
    (∃ s : State, s.phase = .off ∧ s.pins.mated = false) ∧
    (∃ s : State, s.phase = .off ∧ s.pins.pwrEn = true ∧ s.pace.refPresent = true) ∧
    (∃ s : State, s.phase = .jtagHold) ∧
    (∃ s : State, s.phase = .on ∧ s.get PWR_STATUS_FORCED ≠ 1) ∧
    (∃ s : State, s.phase = .poweringDown) ∧
    (∃ s : State, s.phase ≠ .off) ∧
    (∃ s : State, s.phase = .on) ∧
    (∃ path : Path, ∃ s : State, s.phase = .on ∧ s.frozen = false ∧ s.get FW_STATUS_DRAINING ≠ 1 ∧ s.get PWR_STATUS_FORCED ≠ 1) ∧
    (∃ path : Path, ∃ s : State, s.phase = .on ∧ s.frozen = false ∧ s.get FW_STATUS_DRAINING ≠ 1 ∧ s.get PWR_STATUS_FORCED ≠ 1 ∧ ctrlPath path = true) ∧
    (∃ path : Path, ∃ p : Fin 128, ∃ s : State, s.phase = .on ∧ ctrlPath path = true ∧ s.partValid p.val = true ∧ s.partWaits p.val = false) ∧
    (∃ path : Path, ∃ p : Fin 128, ∃ s : State, s.phase = .on ∧ ctrlPath path = true ∧ s.partValid p.val = true ∧ s.partWaits p.val = true) :=
  ⟨⟨State.reset, by decide +kernel⟩,
    ⟨{ State.reset with pins := { pins0 with mated := false } }, by decide +kernel⟩,
    ⟨{ State.reset with pins := { pins0 with pwrEn := true } }, by decide +kernel⟩,
    ⟨{ on0 with phase := .jtagHold }, by decide +kernel⟩,
    ⟨on0, by decide +kernel⟩,
    ⟨{ on0 with phase := .poweringDown }, by decide +kernel⟩,
    ⟨on0, by decide +kernel⟩,
    ⟨on0, by decide +kernel⟩,
    ⟨.pf0, on0, by decide +kernel⟩,
    ⟨.pf0, on0, by decide +kernel⟩,
    ⟨.pf0, 0, on0, by decide +kernel⟩,
    ⟨.pf0, 0, { on0 with cfg := { cfg0 with armed := some ⟨false, false, 0, 0, 0, [0], [], false, 0⟩ } }, by decide +kernel⟩⟩

theorem premises_StepRunsFrontCommand :
    ∃ s : State, s.pending = [] :=
  ⟨on0, by decide +kernel⟩

theorem premises_StepKeepsCanonicalForm :
    ∃ s : State, ∃ t : State, s.canon = true ∧ step s = .next t :=
  ⟨State.reset, State.reset, by decide +kernel, rfl⟩

theorem premises_MemoryReadAfterWrite :
    ∃ s : State, ∃ sp : Space, ∃ sp' : Space, ∃ a : Nat, ∃ a' : Nat, ∃ bs : List Byte, a + bs.length ≤ 2 ^ 64 ∧ a' < 2 ^ 64 :=
  ⟨on0, .h, .d, 2 ^ 64 - 1, 2 ^ 64 - 1, [7], by decide +kernel⟩

theorem premises_CanonicalNaN :
    (∃ f : Nat, ∃ mode : Nat, ∃ u : Nat, ∃ sat : Bool, ∃ v : Val, f < 5) ∧
    (∃ f : Nat, ∃ mode : Nat, ∃ u : Nat, ∃ sat : Bool, ∃ v : Val, f < 5 ∧ decodeF f (encodeF f mode u sat v).1 = .nan) ∧
    (∃ f : Nat, ∃ sign : Nat, ∃ payload : Nat, f ∈ [0, 1, 2, 4] ∧ sign < 2 ∧ 0 < payload ∧ payload < 2 ^ fmtM f) :=
  ⟨⟨4, 0, 0, false, .nan, by decide +kernel⟩,
    ⟨3, 0, 0, false, .nan, by decide +kernel⟩,
    ⟨4, 1, 3, by decide +kernel⟩⟩

theorem premises_ExactSumInEveryOrder :
    ∃ vs : List Val, ∃ ws : List Val, vs.Perm ws ∧ vs.length ≤ 2 ^ 32 ∧ (∀ v ∈ vs, ∀ n a b, v = .fin n a b → a * 2 ^ 149 / b < 2 ^ 277) :=
  ⟨[.fin true 1 2, .nan], [.nan, .fin true 1 2], .swap _ _ _, by decide +kernel, by
    intro v h n a b e; simp at h; rcases h with h | h <;> (subst h; cases e); decide +kernel⟩

theorem premises_CperSeverityFollowsAction :
    (∃ c : Cper, c.action = 1) ∧
    (∃ c : Cper, (c.action = 2 ∨ c.action = 3)) ∧
    (∃ c : Cper, (c.action = 4 ∨ c.action = 5)) ∧
    (∃ c : Cper, (c.action = 0 ∨ 5 < c.action) ∧ c.code = 0x1103) ∧
    (∃ c : Cper, (c.action = 0 ∨ 5 < c.action) ∧ c.code ≠ 0x1103 ∧ c.sev = 3) ∧
    (∃ c : Cper, (c.action = 0 ∨ 5 < c.action) ∧ c.code ≠ 0x1103 ∧ c.sev ≠ 3) :=
  ⟨⟨⟨1, 0x6103, 2, 1, 0, 1, 0, 0, 0, 0, 0, 0, 0, 0⟩, by decide +kernel⟩,
    ⟨⟨1, 0x6103, 2, 1, 0, 3, 0, 0, 0, 0, 0, 0, 0, 0⟩, by decide +kernel⟩,
    ⟨⟨1, 0x1103, 2, 1, 0, 4, 0, 0, 0, 0, 0, 0, 0, 0⟩, by decide +kernel⟩,
    ⟨⟨1, 0x1103, 3, 1, 0, 6, 0, 0, 0, 0, 0, 0, 0, 0⟩, by decide +kernel⟩,
    ⟨⟨1, 0x8106, 3, 1, 0, 0, 0, 0, 0, 0, 0, 0, 0, 0⟩, by decide +kernel⟩,
    ⟨⟨1, 0x6103, 2, 1, 0, 0, 0, 0, 0, 0, 0, 0, 0, 0⟩, by decide +kernel⟩⟩

theorem premises_StepGateHolds :
    (∃ c : Nat, ∃ step : Nat, c < 2 ^ 32 ∧ step < 2 ^ 32) ∧
    (∃ p : Fin 128, ∃ l : Fin 8, ∃ s : State, ∃ e : Entry, s.ringHas (.workList p.val l.val) = true ∧ s.ringEntry (.workList p.val l.val) = some e ∧ s.entryBad p.val l.val e = none ∧ Entry_bits e 2 31 31 = 0 ∧ s.listRuns p.val l.val (weStep e) = true ∧ gate (s.committed p.val) (weStep e) (weEval e) = some true ∧ weKind e = 1) ∧
    (∃ p : Fin 128, ∃ l : Fin 8, ∃ s : State, ∃ e : Entry, s.ringHas (.workList p.val l.val) = true ∧ s.ringEntry (.workList p.val l.val) = some e ∧ s.entryBad p.val l.val e = none ∧ Entry_bits e 2 31 31 = 0 ∧ s.listRuns p.val l.val (weStep e) = true ∧ gate (s.committed p.val) (weStep e) (weEval e) = some true ∧ weKind e = 2) ∧
    (∃ p : Fin 128, ∃ l : Fin 8, ∃ s : State, ∃ e : Entry, s.ringHas (.workList p.val l.val) = true ∧ s.ringEntry (.workList p.val l.val) = some e ∧ s.entryBad p.val l.val e = none ∧ Entry_bits e 2 31 31 = 0 ∧ s.listRuns p.val l.val (weStep e) = true ∧ gate (s.committed p.val) (weStep e) (weEval e) = some true ∧ weKind e = 3) ∧
    (∃ p : Fin 128, ∃ l : Fin 8, ∃ s : State, ∃ e : Entry, s.ringHas (.workList p.val l.val) = true ∧ s.ringEntry (.workList p.val l.val) = some e ∧ s.entryBad p.val l.val e = none ∧ Entry_bits e 2 31 31 = 0 ∧ (s.listRuns p.val l.val (weStep e) = false ∨ gate (s.committed p.val) (weStep e) (weEval e) = none)) ∧
    (∃ s : State, ∃ p : Nat, ∃ l, ∃ step : Nat, ∃ a : Armed, ∃ last : Nat, s.get (qState (.workList p l)) = 3 ∧ s.cfg.armed = some a ∧ (a.lastStep.find? (fun x => x.1 == p) = some (p, last)) ∧ stepLe step last = false) :=
  ⟨⟨0, 2 ^ 32 - 1, by decide +kernel⟩,
    ⟨0, 7, puts (withRing (withCtx on0 5) (.workList 0 7) 5 (ent [(0, 56, 1), (0, 52, 1), (0, 32, 5), (2, 32, 0)])) [(⟨0x200008, 0, 0⟩, 1)], ent [(0, 56, 1), (0, 52, 1), (0, 32, 5), (2, 32, 0)], by decide +kernel⟩,
    ⟨0, 7, puts (withRing (withCtx on0 5) (.workList 0 7) 5 (ent [(0, 56, 2), (0, 52, 1), (0, 32, 5), (2, 32, 0)])) [(⟨0x200008, 0, 0⟩, 1)], ent [(0, 56, 2), (0, 52, 1), (0, 32, 5), (2, 32, 0)], by decide +kernel⟩,
    ⟨0, 7, puts (withRing (withCtx on0 5) (.workList 0 7) 5 (ent [(0, 56, 3), (0, 52, 1), (0, 32, 5), (2, 32, 0)])) [(⟨0x200008, 0, 0⟩, 1)], ent [(0, 56, 3), (0, 52, 1), (0, 32, 5), (2, 32, 0)], by decide +kernel⟩,
    ⟨0, 7, puts (withRing (withCtx on0 5) (.workList 0 7) 5 (ent [(0, 56, 1), (0, 52, 1), (0, 32, 5), (2, 32, 2)])) [(⟨0x200008, 0, 0⟩, 1)], ent [(0, 56, 1), (0, 52, 1), (0, 32, 5), (2, 32, 2)], by decide +kernel⟩,
    ⟨{ puts on0 [(qState (.workList 0 7), 3)] with cfg := { cfg0 with armed := some ⟨false, false, 0, 0, 0, [0], [(0, 1)], false, 0⟩ } }, 0, 7, 2, ⟨false, false, 0, 0, 0, [0], [(0, 1)], false, 0⟩, 1, by decide +kernel⟩⟩

theorem premises_HaloGateHolds :
    (∃ c : Nat, ∃ look : Nat, ∃ e : Entry, c < 2 ^ 32 ∧ Entry_bits e 0 63 56 ∈ [1, 2, 3, 7]) ∧
    (∃ k : Fin 12, ∃ qp : Fin 32, ∃ s : State, ∃ e : Entry, s.ringHas (.haloQp k.val qp.val) = true ∧ s.ringEntry (.haloQp k.val qp.val) = some e ∧ s.pairRuns (.haloQp k.val qp.val) (s.get (HALO_QP_CFG_PARTITION k.val qp.val)) (Entry_bits e 1 63 32) = true ∧ s.haloBad k.val qp.val e = false ∧ (haloGate (s.committed (s.get (HALO_QP_CFG_PARTITION k.val qp.val))) e (s.get (HALO_QP_CFG_LOOKAHEAD k.val qp.val))) = some true ∧ Entry_bits e 0 63 56 = 1) ∧
    (∃ k : Fin 12, ∃ qp : Fin 32, ∃ s : State, ∃ e : Entry, s.ringHas (.haloQp k.val qp.val) = true ∧ s.ringEntry (.haloQp k.val qp.val) = some e ∧ s.pairRuns (.haloQp k.val qp.val) (s.get (HALO_QP_CFG_PARTITION k.val qp.val)) (Entry_bits e 1 63 32) = true ∧ s.haloBad k.val qp.val e = false ∧ (haloGate (s.committed (s.get (HALO_QP_CFG_PARTITION k.val qp.val))) e (s.get (HALO_QP_CFG_LOOKAHEAD k.val qp.val))) = some true ∧ Entry_bits e 0 63 56 = 2) ∧
    (∃ k : Fin 12, ∃ qp : Fin 32, ∃ s : State, ∃ e : Entry, s.ringHas (.haloQp k.val qp.val) = true ∧ s.ringEntry (.haloQp k.val qp.val) = some e ∧ s.pairRuns (.haloQp k.val qp.val) (s.get (HALO_QP_CFG_PARTITION k.val qp.val)) (Entry_bits e 1 63 32) = true ∧ s.haloBad k.val qp.val e = false ∧ (haloGate (s.committed (s.get (HALO_QP_CFG_PARTITION k.val qp.val))) e (s.get (HALO_QP_CFG_LOOKAHEAD k.val qp.val))) = some true ∧ Entry_bits e 0 63 56 = 3) ∧
    (∃ k : Fin 12, ∃ qp : Fin 32, ∃ s : State, ∃ e : Entry, s.ringHas (.haloQp k.val qp.val) = true ∧ s.ringEntry (.haloQp k.val qp.val) = some e ∧ s.pairRuns (.haloQp k.val qp.val) (s.get (HALO_QP_CFG_PARTITION k.val qp.val)) (Entry_bits e 1 63 32) = true ∧ s.haloBad k.val qp.val e = false ∧ (haloGate (s.committed (s.get (HALO_QP_CFG_PARTITION k.val qp.val))) e (s.get (HALO_QP_CFG_LOOKAHEAD k.val qp.val))) = some true ∧ Entry_bits e 0 63 56 = 7) ∧
    (∃ k : Fin 12, ∃ qp : Fin 32, ∃ s : State, ∃ e : Entry, s.ringHas (.haloQp k.val qp.val) = true ∧ s.ringEntry (.haloQp k.val qp.val) = some e ∧ s.pairRuns (.haloQp k.val qp.val) (s.get (HALO_QP_CFG_PARTITION k.val qp.val)) (Entry_bits e 1 63 32) = true ∧ s.haloBad k.val qp.val e = false ∧ (haloGate (s.committed (s.get (HALO_QP_CFG_PARTITION k.val qp.val))) e (s.get (HALO_QP_CFG_LOOKAHEAD k.val qp.val))) = none) :=
  ⟨⟨2 ^ 32 - 1, 0, haloE 7 [], by decide +kernel⟩,
    ⟨0, 31, haloSt (ent ([(0, 56, 1), (0, 52, 1), (0, 32, 7), (1, 32, 0)] ++ [(1, 0, 1)])), ent ([(0, 56, 1), (0, 52, 1), (0, 32, 7), (1, 32, 0)] ++ [(1, 0, 1)]), by decide +kernel⟩,
    ⟨0, 31, haloSt (ent ([(0, 56, 2), (0, 52, 1), (0, 32, 7), (1, 32, 0)] ++ [(1, 0, 1)])), ent ([(0, 56, 2), (0, 52, 1), (0, 32, 7), (1, 32, 0)] ++ [(1, 0, 1)]), by decide +kernel⟩,
    ⟨0, 31, haloSt (ent ([(0, 56, 3), (0, 52, 1), (0, 32, 7), (1, 32, 0)] ++ [])), ent ([(0, 56, 3), (0, 52, 1), (0, 32, 7), (1, 32, 0)] ++ []), by decide +kernel⟩,
    ⟨0, 31, haloSt (ent ([(0, 56, 7), (0, 52, 1), (0, 32, 7), (1, 32, 0)] ++ [])), ent ([(0, 56, 7), (0, 52, 1), (0, 32, 7), (1, 32, 0)] ++ []), by decide +kernel⟩,
    ⟨0, 31, haloSt (ent ([(0, 56, 1), (0, 52, 1), (0, 32, 7), (1, 32, 2)] ++ [(1, 0, 1)])), ent ([(0, 56, 1), (0, 52, 1), (0, 32, 7), (1, 32, 2)] ++ [(1, 0, 1)]), by decide +kernel⟩⟩

theorem premises_IsolationEventsFold :
    (∃ s : State, ∃ code : Nat, ∃ ctx : Nat, ∃ op : Nat, ∃ addr : Nat, findLimit s.eph.limits code ctx = none) ∧
    (∃ s : State, ∃ code : Nat, ∃ ctx : Nat, ∃ op : Nat, ∃ addr : Nat, ∃ x : EvLimit, findLimit s.eph.limits code ctx = some x ∧ s.now < x.last + 10000000) ∧
    (∃ s : State, ∃ code : Nat, ∃ ctx : Nat, ∃ op : Nat, ∃ addr : Nat, ∃ x : EvLimit, findLimit s.eph.limits code ctx = some x ∧ x.last + 10000000 ≤ s.now) ∧
    (∃ s : State, ∃ code : Nat, ∃ sev : Nat, ∃ unit : Nat, ∃ op : Nat, ∃ p0 : Nat, ∃ p1 : Nat, ∃ p2 : Nat, s.eph.staged.length < 4096 ∧ s.get ECL_CFG_TRIG_EN = 0) :=
  ⟨⟨on0, 0x2101, 5, 0, 0, by decide +kernel⟩,
    ⟨{ puts on0 [(HUB_TIME_TIME, 10000000)] with eph := { eph0 with limits := [⟨0x2101, 5, 1, 3, 9⟩] } }, 0x2101, 5, 0, 0, ⟨0x2101, 5, 1, 3, 9⟩, by decide +kernel⟩,
    ⟨{ puts on0 [(HUB_TIME_TIME, 10000001)] with eph := { eph0 with limits := [⟨0x2101, 5, 1, 3, 9⟩] } }, 0x2101, 5, 0, 0, ⟨0x2101, 5, 1, 3, 9⟩, by decide +kernel⟩,
    ⟨on0, 0x2101, 1, 0, 0, 5, 1, 0, by decide +kernel⟩⟩

theorem premises_StagingRingKeepsSevere :
    (∃ s : State, ∃ r : EphRec, s.eph.staged.length ≤ 4096) ∧
    (∃ s : State, ∃ r : EphRec, s.eph.staged.length < 4096) ∧
    (∃ s : State, ∃ r : EphRec, ∃ v : Nat, s.eph.staged.length = 4096 ∧ r.sev ≤ 3 ∧ v < r.sev ∧ (∃ x ∈ s.eph.staged, x.sev = v) ∧ (∀ x ∈ s.eph.staged, v ≤ x.sev)) ∧
    (∃ s : State, ∃ r : EphRec, s.eph.staged.length = 4096 ∧ r.sev ≤ 2 ∧ (∀ x ∈ s.eph.staged, r.sev ≤ x.sev)) ∧
    (∃ s : State, ∃ r : EphRec, ∃ x : EphRec, s.eph.staged.length ≤ 4096 ∧ r.sev ≤ 2 ∧ r.sev ≤ x.sev) :=
  ⟨⟨on0, ⟨0x1906, 3, 0, 0, 0xFF, 0, 0, 0, 0, 0, 0⟩, by decide +kernel⟩,
    ⟨on0, ⟨0x1906, 0, 0, 0, 0xFF, 0, 0, 0, 0, 0, 0⟩, by decide +kernel⟩,
    ⟨{ on0 with eph := { eph0 with staged := List.replicate 4096 (⟨0x1906, 1, 0, 0, 0xFF, 0, 0, 0, 0, 0, 0⟩) } }, ⟨0x1906, 2, 0, 0, 0xFF, 0, 0, 0, 0, 0, 0⟩, 1, List.length_replicate, by decide, by decide, ⟨⟨0x1906, 1, 0, 0, 0xFF, 0, 0, 0, 0, 0, 0⟩, List.mem_replicate.mpr ⟨by decide, rfl⟩, rfl⟩, fun x h => by rw [(List.mem_replicate.mp h).2]⟩,
    ⟨{ on0 with eph := { eph0 with staged := List.replicate 4096 (⟨0x1906, 1, 0, 0, 0xFF, 0, 0, 0, 0, 0, 0⟩) } }, ⟨0x1906, 1, 0, 0, 0xFF, 0, 0, 0, 0, 0, 0⟩, List.length_replicate, by decide, fun x h => by rw [(List.mem_replicate.mp h).2]⟩,
    ⟨on0, ⟨0x1906, 2, 0, 0, 0xFF, 0, 0, 0, 0, 0, 0⟩, ⟨0x1906, 3, 0, 0, 0xFF, 0, 0, 0, 0, 0, 0⟩, by decide +kernel⟩⟩

theorem premises_ControlTierGuarded :
    (∃ s : State, ∃ ctx : Nat, ∃ addr : Nat, ∃ len : Nat, ∃ write : Bool, ∃ tiers : List Nat, tierOf addr = 15 ∧ s.get (CTX_PRIV_CTRL ctx) = 0) ∧
    (∃ c : Fin 4096, ∃ s : State, ∃ e : Entry, s.cmdReady c.val 0x10 e = true ∧ Entry_bits e 2 21 21 = 1 ∧ Entry_bits e 1 23 16 ≠ 0) :=
  ⟨⟨on0, 5, 15 * 2 ^ 60, 8, false, [1, 15], by decide +kernel⟩,
    ⟨5, cmd 5 (cmdE 0x10 5 [(1, 0, 6), (1, 16, 255), (2, 21, 1)]), cmdE 0x10 5 [(1, 0, 6), (1, 16, 255), (2, 21, 1)], by decide +kernel⟩⟩

theorem premises_FullUnitStopsIssue :
    (∃ s : State, ∃ t : Nat, ∃ u : Nat, (4 ≤ ((s.tile t).issued.filter fun i => i.unit == u).length)) ∧
    (∃ s : State, ∃ t : Nat, ∃ op : Nat, ∃ w : Entry, ∃ chk : Entry → Option Nat, ∃ regs : Entry → List Reg, ∃ blocks : Entry → Nat, ∃ body : State → Entry → List Reg → State, s.canIssue t = true ∧ s.get (TILE_PC_PC t) < (s.tile t).progStart + (s.tile t).progLen ∧ s.raw t = w ∧ opCode w = op ∧ opUnit op ≠ none ∧ Entry_bits w 0 55 52 = 1 ∧ reservedZero w (macroMasks op) = true ∧ chk (s.opForm t blocks w) = none ∧ ((regs (s.opForm t blocks w)).any fun r => r.wr && rangesMeet r.off r.len (s.tile t).progStart (s.tile t).progLen) = false ∧ (s.unitFull t ((opUnit op).getD 0) = true ∨ s.hazard t (regs (s.opForm t blocks w)) = true)) :=
  ⟨⟨(onTile 271 (mop 0x30 [])).setTile 271 { (onTile 271 (mop 0x30 [])).tile 271 with issued := List.replicate 4 ⟨0, 3, 0x30, 0, .done, true, none, ⟨[], 0, 0, 0⟩, 0, [], []⟩ }, 271, 3, by decide +kernel⟩,
    ⟨(onTile 271 (mop 0x30 [])).setTile 271 { (onTile 271 (mop 0x30 [])).tile 271 with issued := List.replicate 4 ⟨0, 3, 0x30, 0, .done, true, none, ⟨[], 0, 0, 0⟩, 0, [], []⟩ }, 271, 0x30, mop 0x30 [], fun _ => none, fun _ => [], fun _ => 0, fun s _ _ => s, by decide +kernel⟩⟩

theorem premises_ConstellationCompletes :
    (∃ s : State, s.takesWrites = true ∧ s.isLodestar = true ∧ s.jobParent = none) ∧
    (∃ s : State, s.takesWrites = true ∧ s.isLodestar = true) ∧
    (∃ us : Nat, ∃ s : State, s.takesWrites = true ∧ 50 ≤ us ∧ us < 100 ∧ s.isLodestar = false ∧ s.members ≠ 0 ∧ s.get HUB_CONST_STATUS_MINORITY ≠ 1 ∧ s.const.liveBefore ≠ 0 ∧ (memberList s.members).find? (· != s.get HUB_CONST_STATUS_LODESTAR) ≠ some s.cascade) ∧
    (∃ us : Nat, ∃ s : State, s.takesWrites = true ∧ 50 ≤ us ∧ us < 100 ∧ s.isLodestar = false ∧ s.members ≠ 0 ∧ s.get HUB_CONST_STATUS_MINORITY ≠ 1 ∧ s.const.liveBefore ≠ 0 ∧ (memberList s.members).find? (· != s.get HUB_CONST_STATUS_LODESTAR) = some s.cascade) ∧
    (∃ c : Fin 4096, ∃ s : State, ∃ e : Entry, ∃ x : Pool, s.cmdReady c.val 0x29 e = true ∧ Entry_bits e 1 11 8 ≤ 2 ∧ Entry_bits e 1 15 12 = 1 ∧ bitAt (Entry_bits e 1 7 0) (s.advance (.cmdRing c.val) 1).cascade = true ∧ Entry_bits e 1 7 0 &&& (s.advance (.cmdRing c.val) 1).members = Entry_bits e 1 7 0 ∧ (s.advance (.cmdRing c.val) 1).get HUB_CONST_STATUS_MINORITY ≠ 1 ∧ (s.advance (.cmdRing c.val) 1).poolOf (Entry_bits e 2 63 0) = some x ∧ x.granted = true) ∧
    (∃ tag : Nat, ∃ s : State, ∃ x : Pool, s.takesWrites = true ∧ s.poolOf tag = some x ∧ x.granted = false ∧ s.isLodestar = true) :=
  ⟨⟨puts on0 [(HUB_CONST_STATUS_IS_LODESTAR, 1), (HUB_MER_JOB_ROOT 0, 1)], by decide +kernel⟩,
    ⟨puts on0 [(HUB_CONST_STATUS_IS_LODESTAR, 1)], by decide +kernel⟩,
    ⟨99, { puts on0 [(HUB_CONST_STATUS_MEMBERS, 7), (HUB_CONST_STATUS_LODESTAR, 0), (HUB_CONST_STATUS_SELF, 2)] with const := { const0 with liveBefore := 7 } }, by decide +kernel⟩,
    ⟨50, { puts on0 [(HUB_CONST_STATUS_MEMBERS, 7), (HUB_CONST_STATUS_LODESTAR, 0), (HUB_CONST_STATUS_SELF, 1)] with const := { const0 with liveBefore := 7 } }, by decide +kernel⟩,
    ⟨5, { puts (cmd 5 (cmdE 0x29 5 [(1, 12, 1), (1, 8, 2), (1, 0, 1), (2, 0, 3)])) [(HUB_CONST_STATUS_MEMBERS, 1)] with const := { const0 with pools := [⟨1, 1, 3, 0, 1, true, 0, true, false, none⟩] } }, cmdE 0x29 5 [(1, 12, 1), (1, 8, 2), (1, 0, 1), (2, 0, 3)], ⟨1, 1, 3, 0, 1, true, 0, true, false, none⟩, by decide +kernel⟩,
    ⟨3, { puts on0 [(HUB_CONST_STATUS_IS_LODESTAR, 1)] with const := { const0 with pools := [⟨1, 1, 3, 0, 1, true, 0, false, false, none⟩] } }, ⟨1, 1, 3, 0, 1, true, 0, false, false, none⟩, by decide +kernel⟩⟩

theorem premises_MoverCompletes_copy_send :
    (∃ (t : Fin 272) (w : Entry) (s : State),
      s.opReady t.val 0x14 w (fun v => moBad v [moSlots v true false, ⟨Entry_bits v 1 22 0, 4096 * moBlocks v, false, true, none, none⟩]
        false false (some (Entry_bits v 1 22 0)))
        (fun v => [moSlots v true false, ⟨Entry_bits v 1 22 0, 4096 * moBlocks v, false, true, none, none⟩]) (fun _ => 0) = true) ∧
    (∃ (t : Fin 272) (w : Entry) (s : State),
      s.opReady t.val 0x15 w (fun v => moBad v (moSlots v true false ::
        (if (Entry_bits v 4 7 0 == s.get (TILE_STATUS_LOGICAL_ID t.val)) = true then
          [⟨Entry_bits v 1 22 0, 4096 * moBlocks v, false, true, none, none⟩] else [])) false false (some (Entry_bits v 1 22 0)))
        (fun v => moSlots v true false :: (if (Entry_bits v 4 7 0 == s.get (TILE_STATUS_LOGICAL_ID t.val)) = true then
          [⟨Entry_bits v 1 22 0, 4096 * moBlocks v, false, true, none, none⟩] else [])) (fun _ => 0) = true ∧
      s.tilePart (Entry_bits (s.opForm t.val (fun _ => 0) w) 4 7 0) = some (s.tileCtx t.val).part) :=
  ⟨⟨271, mop 0x14 [(0, 14, 1), (1, 0, 0x10000), (2, 0, 0x20000)], onTile 271 (mop 0x14 [(0, 14, 1), (1, 0, 0x10000), (2, 0, 0x20000)]),
      by decide +kernel⟩,
    ⟨271, mop 0x15 [(0, 14, 1), (1, 0, 0x10000), (2, 0, 0x20000)],
      puts (onTile 271 (mop 0x15 [(0, 14, 1), (1, 0, 0x10000), (2, 0, 0x20000)])) [(⟨0x200008, 0, 0⟩, 1)], by decide +kernel⟩⟩

theorem premises_MatrixAndExactComplete_mm :
    (∃ (t : Fin 272) (w : Entry) (s : State),
      s.opReady t.val 0x20 w (mmBad false) (mmRegs false)
        (fun v => if mmWrites v then blocksFor (mmD v) (mmM v) (mmN v) else 0) = true ∧
      s.slotsGood t.val (mmRegs false (s.opForm t.val (fun v => if mmWrites v then blocksFor (mmD v) (mmM v) (mmN v) else 0) w)) = true ∧
      mmAcc (s.opForm t.val (fun v => if mmWrites v then blocksFor (mmD v) (mmM v) (mmN v) else 0) w) < 2) ∧
    (∃ (t : Fin 272) (w : Entry) (s : State),
      s.opReady t.val 0x21 w (mmBad true) (mmRegs true)
        (fun v => if mmWrites v then blocksFor (mmD v) (mmM v) (mmN v) else 0) = true ∧
      s.slotsGood t.val (mmRegs true (s.opForm t.val (fun v => if mmWrites v then blocksFor (mmD v) (mmM v) (mmN v) else 0) w)) = true ∧
      mmAcc (s.opForm t.val (fun v => if mmWrites v then blocksFor (mmD v) (mmM v) (mmN v) else 0) w) < 2) :=
  ⟨⟨271, mop 0x20 mmE, onTile 271 (mop 0x20 mmE), by decide +kernel⟩, ⟨271, mop 0x21 mmE, onTile 271 (mop 0x21 mmE), by decide +kernel⟩⟩

theorem premises_PortTrainingCompletes_train :
    ∃ (port : Fin 32) (payload : List Byte) (s : State), s.on = true ∧ s.portState port.val = 2 ∧ (s.port port.val).step = 5 ∧
      bitsOf 7 4 (ofBytesLE (payload.take 1)) = 1 ∧ bitsOf 3 0 (ofBytesLE (payload.take 1)) ≤ 1 ∧
      2 ≤ laneCountOf ((s.port port.val).lanes &&& ofBytesLE ((payload.drop 1).take 1) % 16) :=
  ⟨31, [0x11, 3], (puts on0 [(SL_STATUS_STATE 31, 2)]).setPort 31 { port0 with step := 5, lanes := 15 }, by decide +kernel⟩

theorem premises_PortEventsComplete_queueWait :
    ∃ (port : Fin 32) (s : State) (k : Kept) (l : List Kept), s.live = true ∧ s.portState port.val ≠ 3 ∧
      (s.port port.val).queues = k :: l :=
  ⟨31, on0.setPort 31 { port0 with queues := [⟨0, { ty := 1 }, 0, 1, 0⟩] }, ⟨0, { ty := 1 }, 0, 1, 0⟩, [], by decide +kernel⟩

theorem trace_upd (s : State) (a b c : Nat) : (s.trace a b c).get FW_STATUS_UPD = s.get FW_STATUS_UPD := by
  unfold State.trace State.logEntry
  dsimp only
  split
  · simp only [State.get, State.put]
    rw [State.wr_rd_other _ _ (by decide), State.wr_rd_other _ _ (by decide)]
    rfl
  · rfl

/-- A staged update taken over the sideband meets the premises of APPLY_COMPLETE where its signature verifies. -/
theorem premises_applyComplete (h : Config.signatureValid (imgNum fwImg (4224 - 128) 4) (ofBytesLE fwImg) = true) :
    ∃ s : State, s.pldmOn = true ∧ s.fw.pldm = 4 ∧ s.get FW_STATUS_STATE = 2 ∧ (s.stagingEnd true).get FW_STATUS_UPD = 2 := by
  refine ⟨staged 4, by decide +kernel, by decide +kernel, by decide +kernel, ?_⟩
  unfold State.stagingEnd
  dsimp only
  rw [staged_verifies 4 h, if_neg (show ¬ (0 = 0 ∧ (!true) = true) by decide), if_pos rfl]
  unfold State.fwDone
  dsimp only
  rw [if_pos (Or.inl (by decide)), trace_upd]
  decide +kernel


theorem premises_RegisterCommandsKeepMemory : ∃ (s t : State) (c : Instr), Instr_registersOnly c = true ∧ exec c s = .next t :=
  ⟨on0, (match exec (.paceSetWrite .pf0 512) on0 with | .next t => t | _ => on0), .paceSetWrite .pf0 512, by decide, rfl⟩

end Sys2Proof.Tests
end

section
/-!
PROOFS. Host accesses to control space and to BAR2 (00_scope.md R7, R8; R33, R35, R37, R53): what each shared gate of an
access does when it passes, then one lemma per form of access, and the two obligations put together from them.
-/

namespace Sys2Proof.Machine

open Sys2Proof

/-! ## The dispatcher's arms for host accesses -/

theorem exec_registerWrite (path : Path) (a : RegAddr) (h : Half) (v : Word) (s : State) :
    exec (.registerWrite path a h v) s = execRegisterWrite path a h v s := rfl

theorem exec_rcFieldRead (path : Path) (a : RegAddr) (h : Half) (s : State) :
    exec (.rcFieldRead path a h) s = execRcFieldRead path a h s := rfl

theorem exec_accessUnsupportedSize (off size : Nat) (write : Bool) (fn : Nat) (s : State) :
    exec (.accessUnsupportedSize off size write fn) s = execAccessUnsupportedSize off size write fn s := rfl

theorem exec_accessOutsideBlocks (off : Nat) (write : Bool) (fn : Nat) (s : State) :
    exec (.accessOutsideBlocks off write fn) s = execAccessOutsideBlocks off write fn s := rfl

theorem exec_bar0WindowAccess (off : Nat) (h : Half) (write : Option Word) (s : State) :
    exec (.bar0WindowAccess off h write) s = execBar0WindowAccess off h write s := rfl

theorem exec_mirrorWrite (path : Path) (off : Nat) (h : Half) (v : Word) (s : State) :
    exec (.mirrorWrite path off h v) s = execMirrorWrite path off h v s := rfl

theorem exec_bar2Read (fn : Fin 256) (off len : Nat) (s : State) :
    exec (.bar2Read fn off len) s = execBar2Read fn off len s := rfl

theorem exec_bar2Write (fn : Fin 256) (off : Nat) (data : List Byte) (s : State) :
    exec (.bar2Write fn off data) s = execBar2Write fn off data s := rfl

/-! ## What a gate of an access does when it passes -/

/-- A control write that may act, on a module that takes writes, acts. -/
theorem State.ctrl_takesWrites {s : State} (i : Instr) {ok : Bool} (t : State) (hw : s.takesWrites = true)
    (hok : ok = true) : s.ctrl i ok t = t := by
  obtain ⟨hon, hfr⟩ := s.takesWrites_iff.mp hw
  simp [State.ctrl, hon, hfr, hok]

/-- A register without ST fields has no staged copy to edit. -/
theorem State.mirrorWrite_of_not_isSt (s : State) (path : Path) {k : Nat} (h : Half) (v : Nat) (hst : isSt k = false) :
    s.mirrorWrite path k h v = s := by
  simp [State.mirrorWrite, hst]

/-- The ST fields of a register, written by a path whose session it is or may be, go to the staging set. -/
theorem State.mirrorWrite_of_isSt (s : State) {path : Path} {k : Nat} (h : Half) (v : Nat) (hst : isSt k = true)
    (how : ownerCode path ≠ 0) (hcp : s.cfgPath path = true) :
    s.mirrorWrite path k h v = s.stageWrite (ownerCode path) k h v := by
  simp [State.mirrorWrite, hst, how, hcp]

/-- A write that reaches a register acts on it where the module takes writes. -/
theorem State.registerWrite_resolved {s : State} {path : Path} {a : RegAddr} {k : Nat} (h : Half) (v : Word)
    (hw : s.takesWrites = true) (hk : s.resolve path a = some k) :
    s.registerWrite path a h v = s.writeAny path k h v.toNat := by
  obtain ⟨hon, hfr⟩ := s.takesWrites_iff.mp hw
  simp [State.registerWrite, hon, hfr, hk]

/-- No staging mirror lies below 0x5100_0000 (R51). -/
theorem mirrorTarget_of_lt {m : Nat} (hm : m < 0x51000000) : mirrorTarget m = none := by
  unfold mirrorTarget
  iterate 6 rw [if_neg (by omega)]

/-- With window base 0, a write of the sliding part reaches the first 256 MiB of control space (R35). -/
theorem State.windowAccess_write_base_zero {s : State} {off : Nat} (h : Half) (v : Word) (hw : s.takesWrites = true)
    (hlo : 0x30000000 ≤ off) (hhi : off < 0x40000000) (hb : s.get HUB_BAR0_WIN_BASE = 0)
    (hin : insideBlock (off - 0x30000000) = true) :
    s.windowAccess off h (some v) = s.writeAny .pf0 (off - 0x30000000) h v.toNat := by
  obtain ⟨hon, hfr⟩ := s.takesWrites_iff.mp hw
  have himg : ¬ (0x50400000 ≤ off - 0x30000000 ∧ off - 0x30000000 < 0x50800000) := by omega
  have hmir : mirrorTarget (off - 0x30000000) = none := mirrorTarget_of_lt (by omega)
  unfold State.windowAccess
  rw [if_pos (by simp [hon, hlo, hhi]), hb]
  dsimp only
  rw [if_neg (by decide), Nat.zero_mul, Nat.zero_add, hin, if_neg (by decide), hfr, if_neg (by simp), if_neg himg, hmir]

/-- A window base past the last one reads as all ones (R35). -/
theorem State.windowAccess_read_base_past {s : State} {off : Nat} (h : Half) (hon : s.on = true)
    (hlo : 0x30000000 ≤ off) (hhi : off < 0x40000000) (hb : 6 ≤ s.get HUB_BAR0_WIN_BASE) :
    s.windowAccess off h none = s.emit (.readData (2 ^ (if h = .full then 64 else 32) - 1)) := by
  unfold State.windowAccess
  rw [if_pos (by simp [hon, hlo, hhi])]
  dsimp only
  rw [if_pos hb]

/-! ## Control space -/

/-- A plain write of a register without ST fields (R8). -/
theorem exec_registerWrite_plain {path : Path} {a : RegAddr} {h : Half} {v : Word} {s : State} {k : Nat}
    (hw : s.takesWrites = true) (hk : s.resolve path a = some k) (hst : isSt k = false)
    (hfw : s.fwUnassigned path a h v = false) :
    exec (.registerWrite path a h v) s = .next ((s.writeReg k h v.toNat).tryThaw.settle) := by
  have hreg : s.regWrite path a h v = s.writeReg k h v.toNat := by
    rw [State.regWrite, hfw, if_neg (by decide), State.registerWrite_resolved h v hw hk, State.writeAny,
      State.mirrorWrite_of_not_isSt s path h _ hst]
  rw [exec_registerWrite, execRegisterWrite, hreg]

/-- A read that reaches a register clears the RC bits it returns (R8). -/
theorem exec_rcFieldRead_resolved {path : Path} {a : RegAddr} {s : State} {k : Nat} (h : Half) (hon : s.on = true)
    (hk : s.resolve path a = some k) :
    exec (.rcFieldRead path a h) s = .next ((s.readClear k h).emit (.readData (halfRead h (s.readReg k)))) := by
  rw [exec_rcFieldRead, execRcFieldRead, if_pos hon, hk]

/-- An access of an unsupported size inside a block (R7): only the event, and all ones where it is a read. -/
theorem exec_accessUnsupportedSize_inside {off size : Nat} {s : State} (write : Bool) (fn : Nat) (hon : s.on = true)
    (hsz : (size = 4 ∨ size = 8) → off % size ≠ 0) (hin : insideBlock off = true) :
    exec (.accessUnsupportedSize off size write fn) s = .next
      (if write then s.evOnce 0x1901 (off / 8 * 8) off size fn
        else (s.evOnce 0x1901 (off / 8 * 8) off size fn).emit (.readData (2 ^ (8 * size) - 1))) := by
  have hun : (s.on && !((size == 4 || size == 8) && off % size == 0)) = true := by
    simp only [hon, Bool.true_and, Bool.not_eq_true', Bool.and_eq_false_iff, Bool.or_eq_false_iff, beq_eq_false_iff_ne]
    tauto
  rw [exec_accessUnsupportedSize, execAccessUnsupportedSize, if_pos hun, if_pos hin]
  rfl

/-- An access outside every block (R33): only the event, and all ones where it is a read. -/
theorem exec_accessOutsideBlocks_outside {off : Nat} {s : State} (write : Bool) (fn : Nat) (hon : s.on = true)
    (hout : insideBlock off = false) :
    exec (.accessOutsideBlocks off write fn) s = .next
      (if write then s.evOnce 0x1902 off off 1 fn
        else (s.evOnce 0x1902 off off 0 fn).emit (.readData (2 ^ 64 - 1))) := by
  rw [exec_accessOutsideBlocks, execAccessOutsideBlocks, if_pos (by simp [hon, hout]), State.outsideAccess]
  cases write <;> simp [allOnes]

/-- A write through the sliding window at base 0 (R35). -/
theorem exec_bar0WindowAccess_write {off : Nat} {s : State} (h : Half) (v : Word) (hw : s.takesWrites = true)
    (hlo : 0x30000000 ≤ off) (hhi : off < 0x40000000) (hb : s.get HUB_BAR0_WIN_BASE = 0)
    (hin : insideBlock (off - 0x30000000) = true) :
    exec (.bar0WindowAccess off h (some v)) s =
      .next ((s.writeAny .pf0 (off - 0x30000000) h v.toNat).tryThaw.settle) := by
  rw [exec_bar0WindowAccess, execBar0WindowAccess, State.windowAccess_write_base_zero h v hw hlo hhi hb hin]

/-- A full read through a window whose base is past the last (R35). -/
theorem exec_bar0WindowAccess_read_past {off : Nat} {s : State} (hon : s.on = true) (hlo : 0x30000000 ≤ off)
    (hhi : off < 0x40000000) (hb : 6 ≤ s.get HUB_BAR0_WIN_BASE) :
    exec (.bar0WindowAccess off .full none) s = .next ((s.emit (.readData (2 ^ 64 - 1))).tryThaw.settle) := by
  rw [exec_bar0WindowAccess, execBar0WindowAccess, State.windowAccess_read_base_past .full hon hlo hhi hb, if_pos rfl]

/-- A write of a staging mirror edits the staging set (R53). -/
theorem exec_mirrorWrite_staged {path : Path} {off k : Nat} {s : State} (h : Half) (v : Word)
    (hw : s.takesWrites = true) (hm : mirrorTarget off = some k) (hst : isSt k = true) (how : ownerCode path ≠ 0)
    (hcp : s.cfgPath path = true) :
    exec (.mirrorWrite path off h v) s = .next ((s.stageWrite (ownerCode path) k h v.toNat).settle) := by
  have hat : s.mirrorAt path off h v.toNat = s.stageWrite (ownerCode path) k h v.toNat := by
    rw [State.mirrorAt, hm, ← State.mirrorWrite_of_isSt s h v.toNat hst how hcp]
    exact State.ctrl_takesWrites _ _ hw (bne_iff_ne.mpr how)
  rw [exec_mirrorWrite, execMirrorWrite, hat]

/-! ## BAR2 -/

/-- A BAR2 read of an unsealed extent of tier H whose blocks are not poisoned returns its bytes (R37). -/
theorem exec_bar2Read_unsealed {fn : Fin 256} {off len : Nat} {s : State} {e : Extent} {rel : Nat} (hon : s.on = true)
    (hv : s.view (s.get (PCIE_FN_CFG_BAR2_CTX fn.val)) (s.bar2Addr fn.val off) len false [1] = .extent e rel)
    (hp : ∀ b ∈ blocksOf rel len, (s.sealOf .h (Extent_phys e b)).poison = false) (hs : e.sealed = false)
    (ht : e.tier = 1) :
    exec (.bar2Read fn off len) s = .next (s.emit (.readBytes (s.extRead e rel len))) := by
  have hsp : tierSpace e.tier = .h := by rw [ht]; rfl
  have hgood : ((blocksOf rel len).any fun b =>
      (s.sealOf .h (Extent_phys e b)).poison ||
        (e.sealed && !crcGood (s.sealOf .h (Extent_phys e b)) (s.block .h (Extent_phys e b)))) = false := by
    rw [List.any_eq_false]
    intro b hb
    simp [hp b hb, hs]
  rw [exec_bar2Read, execBar2Read, if_pos hon]
  dsimp only
  rw [hv]
  dsimp only
  rw [hsp, hgood, if_neg (by decide)]

/-- A BAR2 write inside the view changes an unsealed extent and is a violation on a sealed one (R37). -/
theorem exec_bar2Write_inside {fn : Fin 256} {off : Nat} {data : List Byte} {s : State} {e : Extent} {rel : Nat}
    (hw : s.takesWrites = true)
    (hv : s.view (s.get (PCIE_FN_CFG_BAR2_CTX fn.val)) (s.bar2Addr fn.val off) data.length true [1] = .extent e rel) :
    exec (.bar2Write fn off data) s = .next (if e.sealed then
      s.violate (s.get (PCIE_FN_CFG_BAR2_CTX fn.val)) 0x2104 0 (offOf (s.bar2Addr fn.val off))
      else s.extWrite e rel data) := by
  obtain ⟨hon, hfr⟩ := s.takesWrites_iff.mp hw
  rw [exec_bar2Write, execBar2Write, if_neg (by simp [hon]), if_neg (by simp [hfr])]
  dsimp only
  rw [hv]

end Sys2Proof.Machine

/-! ## The obligations -/

open Sys2Proof Sys2Proof.Machine

/-- Settles O7: the field written and every other field by the laws of register fields, memory and seals because a field
write touches registers only. -/
theorem registerFieldWrite : Obligations.RegisterFieldWrite := by
  intro s f g v hf hf64 _ hg64
  exact ⟨s.put_get_same v hf hf64, s.put_get_other v hf hg64, fun _ hoff => s.put_rd_other v hoff, s.put_mem f v,
    s.put_seals f v⟩

/-- Settles O9, one form of access after the other. -/
theorem hostAccessesComplete : Obligations.HostAccessesComplete := by
  refine ⟨?registerWrite, ?rcFieldRead, ?unsupportedSize, ?outsideBlocks, ?windowWrite, ?windowPast, ?mirrorWrite,
    ?bar2Read, ?bar2Write⟩
  case registerWrite =>
    intro path a h v s k hw hk hst hfw
    exact exec_registerWrite_plain hw hk hst hfw
  case rcFieldRead =>
    intro path a h s k hon hk
    exact exec_rcFieldRead_resolved h hon hk
  case unsupportedSize =>
    intro off size fn s hon hsz hin
    exact ⟨exec_accessUnsupportedSize_inside true fn hon hsz hin, exec_accessUnsupportedSize_inside false fn hon hsz hin⟩
  case outsideBlocks =>
    intro off fn s hon hout
    exact ⟨exec_accessOutsideBlocks_outside true fn hon hout, exec_accessOutsideBlocks_outside false fn hon hout⟩
  case windowWrite =>
    intro off h v s hw hlo hhi hb hin
    exact exec_bar0WindowAccess_write h v hw hlo hhi hb hin
  case windowPast =>
    intro off s hon hlo hhi hb
    exact exec_bar0WindowAccess_read_past hon hlo hhi hb
  case mirrorWrite =>
    intro path off k h v s hw hm hst how hcp
    exact exec_mirrorWrite_staged h v hw hm hst how hcp
  case bar2Read =>
    intro fn off len s e rel hon hv hp hs ht
    exact exec_bar2Read_unsealed hon hv hp hs ht
  case bar2Write =>
    intro fn off data s e rel hw hv
    exact exec_bar2Write_inside hw hv

end

section
/-!
PROOFS. Memory, isolation events and tier C (02_address_space_partitions_contexts.md R25, R34, R48): when two keys of
memory name one byte, what the limit table and the staging ring do with an event, and the refusals of tier C.
-/

namespace Sys2Proof.Machine

open Sys2Proof

/-! ## Keys of memory (R25) -/

theorem spaceCode_inj {sp sp' : Space} : spaceCode sp = spaceCode sp' ↔ sp = sp' := by
  cases sp <;> cases sp' <;> decide

/-- A byte's key lies in the keys of a range that does not wrap exactly where the byte lies in that range of the same
space: the spaces' keys are 2^64 apart. -/
theorem memKey_mem_range_iff {sp sp' : Space} {a a' n : Nat} (hr : a + n ≤ 2 ^ 64) (ha' : a' < 2 ^ 64) :
    (memKey sp a ≤ memKey sp' a' ∧ memKey sp' a' < memKey sp a + n) ↔ (sp' = sp ∧ a ≤ a' ∧ a' < a + n) := by
  rcases Nat.eq_zero_or_pos n with rfl | hn
  · omega
  · have ha : a < 2 ^ 64 := by omega
    simp only [memKey, Nat.mod_eq_of_lt ha, Nat.mod_eq_of_lt ha']
    by_cases hsp : sp' = sp
    · subst hsp
      simp
      omega
    · have hcode : spaceCode sp' ≠ spaceCode sp := mt spaceCode_inj.mp hsp
      simp only [hsp, false_and, iff_false]
      omega

/-- The distance of two keys of one space is the distance of their addresses. -/
theorem memKey_sub_memKey (sp : Space) {a a' : Nat} (ha : a < 2 ^ 64) (ha' : a' < 2 ^ 64) :
    memKey sp a' - memKey sp a = a' - a := by
  simp only [memKey, Nat.mod_eq_of_lt ha, Nat.mod_eq_of_lt ha']
  omega

/-- A byte after a write that does not wrap, by space and address. -/
theorem byte_setBytes_of_le (s : State) (sp sp' : Space) {a a' : Nat} {bs : List Byte}
    (hr : a + bs.length ≤ 2 ^ 64) (ha' : a' < 2 ^ 64) :
    (s.setBytes sp a bs).byte sp' a' =
      if sp' = sp ∧ a ≤ a' ∧ a' < a + bs.length then bs.getD (a' - a) 0 else s.byte sp' a' := by
  rw [byte_setBytes]
  have hiff := memKey_mem_range_iff (sp := sp) (sp' := sp') hr ha'
  by_cases hin : sp' = sp ∧ a ≤ a' ∧ a' < a + bs.length
  · rw [dif_pos (hiff.mpr hin), if_pos hin]
    obtain ⟨rfl, hle, hlt⟩ := hin
    have hsub := memKey_sub_memKey sp' (a := a) (a' := a') (by omega) ha'
    simp only [hsub]
    rw [List.getD_eq_getElem]
  · rw [dif_neg (mt hiff.mp hin), if_neg hin]

/-! ## The limit of an event (R48) -/

/-- The entry just set is the one found. -/
theorem findLimit_setLimit_same (l : List EvLimit) (e : EvLimit) : findLimit (setLimit l e) e.code e.key = some e :=
  List.find?_cons_of_pos (by simp)

section
variable {s : State} {period code key : Nat} (sev unit op n first : Nat) (mk : Nat → Nat → Nat × Nat × Nat)

/-- The first event of a code and key is recorded at once. -/
theorem State.evEvery_first (h : findLimit s.eph.limits code key = none) :
    s.evEvery period code sev key unit op n first mk =
      ({ s with eph := { s.eph with limits := setLimit s.eph.limits ⟨code, key, s.now, 0, 0⟩ } } : State).evS code sev
        unit op (mk n first).1 (mk n first).2.1 (mk n first).2.2 := by
  rw [State.evEvery, h]

/-- An event within the period of the last record changes the limit table alone. -/
theorem State.evEvery_folded {x : EvLimit} (h : findLimit s.eph.limits code key = some x)
    (ht : s.now < x.last + period) :
    s.evEvery period code sev key unit op n first mk =
      { s with eph := { s.eph with
          limits := setLimit s.eph.limits
            ⟨code, key, x.last, x.folded + n, if x.folded = 0 then first else x.first⟩ } } := by
  rw [State.evEvery, h]
  exact if_pos ht

/-- An event after the period is recorded with those folded since the last record. -/
theorem State.evEvery_after {x : EvLimit} (h : findLimit s.eph.limits code key = some x)
    (ht : x.last + period ≤ s.now) :
    s.evEvery period code sev key unit op n first mk =
      (let p := mk (x.folded + n) (if x.folded = 0 then first else x.first)
       ({ s with eph := { s.eph with limits := setLimit s.eph.limits ⟨code, key, s.now, 0, 0⟩ } } : State).evS code sev
        unit op p.1 p.2.1 p.2.2) := by
  rw [State.evEvery, h]
  exact if_neg (Nat.not_lt.mpr ht)

end

/-! ## Staging a record (R413, R419) -/

/-- A record that arrives while there is room is staged at the tail. -/
theorem State.stage_of_room {s : State} (r : EphRec) (h : s.eph.staged.length < 4096) :
    s.stage r = s.setStaged (s.eph.staged ++ [r]) := if_pos h

theorem State.setStaged_staged (s : State) (l : List EphRec) : (s.setStaged l).eph.staged = l := (rfl)

theorem State.setStaged_get_other (s : State) (l : List EphRec) {g : Fld} (h64 : g.hi < 64)
    (ho : g.off ≠ EPH_STATUS_STAGED.off) : (s.setStaged l).get g = s.get g :=
  State.put_get_other _ _ (by decide) h64 (.inl ho)

theorem State.cper_eph (s : State) (code sev cls idx action spares p0 p1 p2 : Nat) :
    (s.cper code sev cls idx action spares p0 p1 p2).eph = s.eph := by
  rw [State.cper, State.emit_eph, State.put_eph, State.put_eph]

theorem State.cper_get_other (s : State) (code sev cls idx action spares p0 p1 p2 : Nat) {g : Fld} (h64 : g.hi < 64)
    (ho : g.off ≠ HUB_CPER_PTR_SEQ.off) : (s.cper code sev cls idx action spares p0 p1 p2).get g = s.get g := by
  rw [State.cper, State.emit_get, State.put_get_other (f := HUB_CPER_PTR_INDEX) _ _ (by decide) h64 (.inl ho),
    State.put_get_other (f := HUB_CPER_PTR_SEQ) _ _ (by decide) h64 (.inl ho)]
  rfl

/-- While the trigger is not enabled a record starts no freeze (R422). -/
theorem State.trigger_disabled {s : State} (code sev : Nat) (h : s.get ECL_CFG_TRIG_EN = 0) : s.trigger code sev = s :=
  if_neg fun hen => by simp [h] at hen

/-- With room in the ring and no trigger, an event's record is the new tail of the ring. -/
theorem State.evS_staged {s : State} (code sev unit op p0 p1 p2 : Nat) (hroom : s.eph.staged.length < 4096)
    (hen : s.get ECL_CFG_TRIG_EN = 0) :
    (s.evS code sev unit op p0 p1 p2).eph.staged = s.eph.staged ++ [s.mkRec code sev unit op p0 p1 p2] := by
  have hst : (s.setStaged (s.eph.staged ++ [s.mkRec code sev unit op p0 p1 p2])).get ECL_CFG_TRIG_EN = 0 := by
    rw [State.setStaged_get_other _ _ (by decide) (by decide), hen]
  rw [State.evS, State.stage_of_room _ hroom]
  split
  · rw [State.trigger_disabled, State.cper_eph, State.setStaged_staged]
    rw [State.cper_get_other _ _ _ _ _ _ _ _ _ _ (by decide) (by decide), hst]
  · rw [State.trigger_disabled _ _ hst, State.setStaged_staged]

/-! ## Tier C (R34) -/

/-- A request to tier C of a context without PRIV_CTRL is refused with 0x2105, both where the engine does not take the
tier and where it does. -/
theorem State.view_tierC_unprivileged {s : State} {ctx addr : Nat} (len : Nat) (write : Bool) (tiers : List Nat)
    (ht : tierOf addr = 15) (hp : s.get (CTX_PRIV_CTRL ctx) = 0) : s.view ctx addr len write tiers = .refuse 0x2105 := by
  unfold State.view
  dsimp only
  rw [ht]
  by_cases hmem : 15 ∈ tiers
  · simp [hmem, hp]
  · simp [hmem, hp]

/-- A creation that sets PRIV_CTRL for a context of a VF is refused. -/
theorem State.createRefusal_of_vf_privCtrl (s : State) {e : Entry} (hp : Entry_bits e 2 21 21 = 1)
    (hf : Entry_bits e 1 23 16 ≠ 0) : s.createRefusal e = some .refusedPartition :=
  if_pos (.inr (.inr (.inr (.inl ⟨hp, hf⟩))))

end Sys2Proof.Machine

/-! ## The obligations -/

open Sys2Proof Sys2Proof.Machine

/-- Settles O8: in the keys of memory a range of one space meets no other space, and a write touches bytes alone. -/
theorem memoryReadAfterWrite : Obligations.MemoryReadAfterWrite := by
  intro s sp sp' a a' bs hr ha'
  exact ⟨byte_setBytes_of_le s sp sp' hr ha', s.setBytes_regs sp a bs, s.setBytes_seals sp a bs⟩

/-- Settles O55: the three cases of the limit table, the record at the ring's tail, and the table of severities. -/
theorem isolationEventsFold : Obligations.IsolationEventsFold := by
  refine ⟨?first, ?folded, ?after, ?staged, ?severities⟩
  case first =>
    intro s code ctx op addr h
    exact State.evEvery_first _ _ _ _ _ _ h
  case folded =>
    intro s code ctx op addr x h ht
    have hfold : s.evIso code ctx op addr = { s with eph := { s.eph with
        limits := setLimit s.eph.limits
          ⟨code, ctx, x.last, x.folded + 1, if x.folded = 0 then addr else x.first⟩ } } :=
      State.evEvery_folded _ _ _ _ _ _ h ht
    rw [hfold]
    exact ⟨rfl, _, findLimit_setLimit_same _ _, rfl, rfl, rfl⟩
  case after =>
    intro s code ctx op addr x h ht
    exact State.evEvery_after _ _ _ _ _ _ h ht
  case staged =>
    intro s code sev unit op p0 p1 p2 hroom hen
    exact State.evS_staged code sev unit op p0 p1 p2 hroom hen
  case severities => decide

end

section
/-!
PROOFS. Commands of contexts and events of functions (02_address_space_partitions_contexts.md R29, R40, R44, R445 to R447;
14_host_coupling.md R326 to R342; R349, R436): one lemma per command or event, saying what it does where its checks pass.
-/

namespace Sys2Proof.Machine

open Sys2Proof

/-! ## The dispatcher's arms -/

theorem exec_ctxCreate (c : Fin 4096) (s : State) : exec (.ctxCreate c) s = execCtxCreate c s := rfl

theorem exec_ctxDestroy (c : Fin 4096) (s : State) : exec (.ctxDestroy c) s = execCtxDestroy c s := rfl

theorem exec_ctxFence (c : Fin 4096) (s : State) : exec (.ctxFence c) s = execCtxFence c s := rfl

theorem exec_ctxUnfence (c : Fin 4096) (s : State) : exec (.ctxUnfence c) s = execCtxUnfence c s := rfl

theorem exec_peerWindow (c : Fin 4096) (answers : Bool) (s : State) :
    exec (.peerWindow c answers) s = execPeerWindow c answers s := rfl

theorem exec_extentSet (c : Fin 4096) (s : State) : exec (.extentSet c) s = execExtentSet c s := rfl

theorem exec_extentChangeTakesEffect (c : Fin 4096) (s : State) :
    exec (.extentChangeTakesEffect c) s = execExtentChangeTakesEffect c s := rfl

theorem exec_contextFree (c : Fin 4096) (s : State) : exec (.contextFree c) s = execContextFree c s := rfl

theorem exec_hbTimeoutExpire (f : Fin 256) (s : State) : exec (.hbTimeoutExpire f) s = execHbTimeoutExpire f s := rfl

theorem exec_resume (f : Fin 256) (s : State) : exec (.resume f) s = execResume f s := rfl

theorem exec_teardown (f : Fin 256) (s : State) : exec (.teardown f) s = execTeardown f s := rfl

theorem exec_orphanHoldExpire (f : Fin 256) (s : State) : exec (.orphanHoldExpire f) s = execOrphanHoldExpire f s := rfl

theorem exec_functionLevelReset (f : Fin 256) (s : State) :
    exec (.functionLevelReset f) s = execFunctionLevelReset f s := rfl

theorem exec_numvfsReduction (n : Nat) (s : State) : exec (.numvfsReduction n) s = execNumvfsReduction n s := rfl

theorem exec_pcieLinkReset (s : State) : exec .pcieLinkReset s = execPcieLinkReset s := rfl

theorem exec_configurationRequest (fn : Fin 256) (reg : Nat) (w : Option Word) (s : State) :
    exec (.configurationRequest fn reg w) s = execConfigurationRequest fn reg w s := rfl

theorem exec_perstRelease (s : State) :
    exec .perstRelease s = .next { s with pins := { s.pins with perstN := true } } := rfl

theorem exec_pcieReadCompletion (req : Nat) (data : List Byte) (s : State) :
    exec (.pcieReadCompletion req data) s = execPcieReadCompletion req data s := rfl

theorem exec_flushReadComplete (req : Nat) (s : State) :
    exec (.flushReadComplete req) s = execFlushReadComplete req s := rfl

theorem exec_pTierRefused (req : Nat) (s : State) : exec (.pTierRefused req) s = execPTierRefused req s := rfl

theorem exec_pcieCompletionPoisoned (req : Nat) (s : State) :
    exec (.pcieCompletionPoisoned req) s = execPcieCompletionPoisoned req s := rfl

theorem exec_pcieCompletionTimeout (req : Nat) (s : State) :
    exec (.pcieCompletionTimeout req) s = execPcieCompletionTimeout req s := rfl

/-! ## Commands of the command ring about contexts (R40, R446, R447) -/

section
variable {c : Fin 4096} {s : State} {e : Entry}

/-- CTX_CREATE that passes its checks makes the context and reports its INCARNATION (R40). -/
theorem exec_ctxCreate_created (h : s.cmdReady c.val 0x10 e = true)
    (hr : (s.advance (.cmdRing c.val) 1).createRefusal e = none) :
    exec (.ctxCreate c) s = .next (((s.advance (.cmdRing c.val) 1).createCtx e).cmdDone c.val
      (s.get (qHead (.cmdRing c.val))) .done
      ((s.advance (.cmdRing c.val) 1).get (CTX_INCARNATION (Entry_bits e 1 11 0)))) := by
  rw [exec_ctxCreate, execCtxCreate, State.command_ready _ h, hr]

/-- A refused CTX_CREATE only completes with its status. -/
theorem exec_ctxCreate_refused {st : Status} (h : s.cmdReady c.val 0x10 e = true)
    (hr : (s.advance (.cmdRing c.val) 1).createRefusal e = some st) :
    exec (.ctxCreate c) s = .next ((s.advance (.cmdRing c.val) 1).cmdDone c.val (s.get (qHead (.cmdRing c.val))) st 0) := by
  rw [exec_ctxCreate, execCtxCreate, State.command_ready _ h, hr]

/-- CTX_DESTROY of an Active, Fenced or Orphan context (R447). -/
theorem exec_ctxDestroy_manageable (h : s.cmdReady c.val 0x11 e = true)
    (hm : (s.advance (.cmdRing c.val) 1).manageable ((s.advance (.cmdRing c.val) 1).cmdTarget c.val e) = true) :
    exec (.ctxDestroy c) s = .next (((s.advance (.cmdRing c.val) 1).toClosing
      ((s.advance (.cmdRing c.val) 1).cmdTarget c.val e)).cmdDone c.val (s.get (qHead (.cmdRing c.val))) .done 0) := by
  rw [exec_ctxDestroy, execCtxDestroy, State.command_ready _ h]
  dsimp only
  rw [if_pos hm]

/-- CTX_FENCE of an Active context (R447). -/
theorem exec_ctxFence_active (h : s.cmdReady c.val 0x12 e = true)
    (hs : (s.advance (.cmdRing c.val) 1).get (CTX_STATE ((s.advance (.cmdRing c.val) 1).cmdTarget c.val e)) = 1) :
    exec (.ctxFence c) s =
      (let t := s.advance (.cmdRing c.val) 1
       let n := t.cmdTarget c.val e
       .next (((t.put (CTX_STATE n) 2).put (CTX_FENCE_REASON n) 3).cmdDone c.val (s.get (qHead (.cmdRing c.val)))
        .done 0)) := by
  rw [exec_ctxFence, execCtxFence, State.command_ready _ h]
  dsimp only
  rw [if_pos hs]

/-- CTX_FENCE of a context that is not Active has no effect: DONE where it is Fenced, else refused (R447). -/
theorem exec_ctxFence_not_active (h : s.cmdReady c.val 0x12 e = true)
    (hs : (s.advance (.cmdRing c.val) 1).get (CTX_STATE ((s.advance (.cmdRing c.val) 1).cmdTarget c.val e)) ≠ 1) :
    exec (.ctxFence c) s =
      (let t := s.advance (.cmdRing c.val) 1
       .next (t.cmdDone c.val (s.get (qHead (.cmdRing c.val)))
        (if t.get (CTX_STATE (t.cmdTarget c.val e)) = 2 then .done else .refusedPartition) 0)) := by
  rw [exec_ctxFence, execCtxFence, State.command_ready _ h]
  dsimp only
  rw [if_neg hs]

/-- CTX_UNFENCE of a Fenced context (R447). -/
theorem exec_ctxUnfence_fenced (h : s.cmdReady c.val 0x13 e = true)
    (hs : (s.advance (.cmdRing c.val) 1).get (CTX_STATE ((s.advance (.cmdRing c.val) 1).cmdTarget c.val e)) = 2) :
    exec (.ctxUnfence c) s =
      (let t := s.advance (.cmdRing c.val) 1
       let n := t.cmdTarget c.val e
       .next ((((t.put (CTX_STATE n) 1).put (CTX_FENCE_REASON n) 0).put (CTX_VIOL_COUNT n) 0).cmdDone c.val
        (s.get (qHead (.cmdRing c.val))) .done 0)) := by
  rw [exec_ctxUnfence, execCtxUnfence, State.command_ready _ h]
  dsimp only
  rw [if_pos hs]

/-- PEER_WINDOW that clears a window (R338). -/
theorem exec_peerWindow_clear {answers : Bool} (h : s.cmdReady c.val 0x15 e = true)
    (hm : (s.advance (.cmdRing c.val) 1).manageable ((s.advance (.cmdRing c.val) 1).cmdTarget c.val e) = true)
    (hc : Entry_bits e 1 3 3 = 1) :
    exec (.peerWindow c answers) s =
      (let t := s.advance (.cmdRing c.val) 1
       .next ((t.setPeer (t.cmdTarget c.val e) (Entry_bits e 1 2 0) none).cmdDone c.val (s.get (qHead (.cmdRing c.val)))
        .done 0)) := by
  rw [exec_peerWindow, execPeerWindow, State.command_ready _ h]
  dsimp only
  rw [if_neg (by simp [hm]), if_pos hc]

/-- An extent's creation that passes the rules of R28 goes to admission (R446). -/
theorem State.extentSet_create {ring i : Nat} (hm : s.manageable (s.cmdTarget ring e) = true)
    (hd : Entry_bits e 1 2 2 = 0)
    (hr : s.extentRefusal (s.cmdTarget ring e) (Entry_bits e 1 1 0) (Entry_bits e 1 13 8) (Entry_bits e 2 63 0)
      (Entry_bits e 3 63 0) = none) :
    s.extentSet ring i e = (s.cmdOpen ring i).admitExtent ring i (s.cmdTarget ring e) e false := by
  unfold State.extentSet
  dsimp only
  rw [if_neg (by simp [hm]), if_neg (by simp [hd]), hr]

theorem exec_extentSet_ready (h : s.cmdReady c.val 0x14 e = true) :
    exec (.extentSet c) s =
      .next ((s.advance (.cmdRing c.val) 1).extentSet c.val (s.get (qHead (.cmdRing c.val))) e) := by
  rw [exec_extentSet, execExtentSet, State.command_ready _ h]

end

/-! ## Extent changes (R29) -/

theorem exec_extentChangeTakesEffect_busy {c : Fin 4096} {s : State} (hb : s.ctxBusy c.val = true) :
    exec (.extentChangeTakesEffect c) s = .next s := by
  rw [exec_extentChangeTakesEffect, execExtentChangeTakesEffect, if_neg (by simp [hb])]

theorem exec_extentChangeTakesEffect_idle {c : Fin 4096} {s : State} {x : ExtChange} {l : List ExtChange}
    (hl : s.live = true) (hb : s.ctxBusy c.val = false) (hx : (s.ctx c.val).changes = x :: l) :
    exec (.extentChangeTakesEffect c) s = .next (s.applyChange c.val x) := by
  rw [exec_extentChangeTakesEffect, execExtentChangeTakesEffect, if_pos (by simp [hl, hb]), hx]

/-! ## The ends of an Orphan period and the resets of functions (R327, R328, R342) -/

theorem whenOn_of_on {s : State} (t : State) (h : s.on = true) : whenOn s t = t := if_pos h

/-- Each end of an Orphan period takes effect where no Orphan checkpoint of the function runs (R342). -/
theorem State.orphanEnd_of_no_ckpt {s : State} {f : Nat} (what : Nat) (hst : s.get (PCIE_FN_CFG_STATE f) = 2)
    (hck : (s.fn f).ckptRun = []) :
    s.orphanEnd f what =
      if what = 1 then s.resumeNow f
      else if what = 2 then s.teardownNow f 2 (s.fn f).cause
      else s.teardownNow f 3 4 := by
  rw [State.orphanEnd, if_neg (by simp [hst]), if_neg (by simp [hck])]

/-- A function-level reset outside Orphan closes the contexts of the function, which tears down (R328). -/
theorem State.flr_not_orphan {s : State} {f : Nat} (hst : s.get (PCIE_FN_CFG_STATE f) ≠ 2) (hne : s.fnCtxs f ≠ []) :
    s.flr f =
      (let t := (s.fnCtxs f).foldl (fun (t : State) n => if t.manageable n then t.toClosing n else t) s
       (t.put (PCIE_FN_CFG_STATE f) 4).setFn f { t.fn f with cause := 3 }) := by
  rw [State.flr, if_neg hst, if_neg hne]

theorem exec_contextFree_due {c : Fin 4096} {s : State} (hl : s.live = true) (hst : s.get (CTX_STATE c.val) = 4)
    (hb : s.ctxBusy c.val = false) (hcl : (s.ctx c.val).closingAt + 10000000 ≤ s.now)
    (hret : (s.ctx c.val).lastRetire + 10000000 ≤ s.now) : exec (.contextFree c) s = .next (s.freeCtx c.val) := by
  have hdue : max (s.ctx c.val).closingAt (s.ctx c.val).lastRetire + ms10 ≤ s.now := by
    unfold ms10
    omega
  rw [exec_contextFree, execContextFree, if_pos (by simp [hl, hst, hb, hdue])]

theorem exec_hbTimeoutExpire_due {f : Fin 256} {s : State} (hw : s.takesWrites = true)
    (hdue : s.get (PCIE_FN_CFG_LAST_HB f.val) + s.get (PCIE_FN_CFG_HB_TIMEOUT f.val) * 1000000 +
      (s.fn f.val).hbFrozen ≤ s.now) :
    exec (.hbTimeoutExpire f) s = .next (s.orphan f.val 1) := by
  obtain ⟨hon, hfr⟩ := s.takesWrites_iff.mp hw
  rw [exec_hbTimeoutExpire, execHbTimeoutExpire, if_pos (by simp [hon, hfr, hdue])]

theorem exec_resume_orphan {f : Fin 256} {s : State} (hw : s.takesWrites = true)
    (hsel : s.get (FW_IF_IF_SEL f.val) ≠ 0) (hst : s.get (PCIE_FN_CFG_STATE f.val) = 2)
    (hck : (s.fn f.val).ckptRun = []) : exec (.resume f) s = .next (s.resumeNow f.val) := by
  rw [exec_resume, execResume, State.ctrl_takesWrites _ _ hw (bne_iff_ne.mpr hsel),
    State.orphanEnd_of_no_ckpt _ hst hck, if_pos rfl]

theorem exec_teardown_orphan {f : Fin 256} {s : State} (hw : s.takesWrites = true)
    (hst : s.get (PCIE_FN_CFG_STATE f.val) = 2) (hck : (s.fn f.val).ckptRun = []) :
    exec (.teardown f) s = .next (s.teardownNow f.val 2 (s.fn f.val).cause) := by
  rw [exec_teardown, execTeardown, State.ctrl_takesWrites _ _ hw rfl, State.orphanEnd_of_no_ckpt _ hst hck,
    if_neg (by decide), if_pos rfl]

theorem exec_orphanHoldExpire_due {f : Fin 256} {s : State} (hw : s.takesWrites = true)
    (hst : s.get (PCIE_FN_CFG_STATE f.val) = 2) (hck : (s.fn f.val).ckptRun = [])
    (hdue : (s.fn f.val).orphanAt + s.get (PCIE_FN_CFG_HOLD_MIN f.val) * 60000000000 + (s.fn f.val).hbFrozen ≤ s.now) :
    exec (.orphanHoldExpire f) s = .next (s.teardownNow f.val 3 4) := by
  obtain ⟨hon, hfr⟩ := s.takesWrites_iff.mp hw
  rw [exec_orphanHoldExpire, execOrphanHoldExpire, if_pos (by simp [hon, hfr, hdue]),
    State.orphanEnd_of_no_ckpt _ hst hck, if_neg (by decide), if_neg (by decide)]

theorem exec_functionLevelReset_on {f : Fin 256} {s : State} (hon : s.on = true) :
    exec (.functionLevelReset f) s = .next (s.flr f.val) := by
  rw [exec_functionLevelReset, execFunctionLevelReset, whenOn_of_on _ hon]

theorem exec_numvfsReduction_fewer {n : Nat} {s : State} (hon : s.on = true) (hn : n < s.numVfs) :
    exec (.numvfsReduction n) s = .next { ((List.range (s.numVfs - n)).map (n + 1 + ·)).foldl
      (fun (t : State) f => t.flr f) s with numVfs := n } := by
  rw [exec_numvfsReduction, execNumvfsReduction, if_pos (by simp [hon, hn])]

theorem exec_pcieLinkReset_on {s : State} (hon : s.on = true) : exec .pcieLinkReset s = .next s.linkReset := by
  rw [exec_pcieLinkReset, execPcieLinkReset, whenOn_of_on _ hon]

/-! ## Configuration requests (R349) -/

theorem exec_configurationRequest_not_running (fn : Fin 256) (reg : Nat) (w : Option Word) {s : State}
    (hon : s.on = true) (hst : s.get FW_STATUS_STATE ≠ 2) :
    exec (.configurationRequest fn reg w) s = .next (s.emit .retryStatus) := by
  rw [exec_configurationRequest, execConfigurationRequest, if_neg (by simp [hon]), if_pos hst]

theorem exec_configurationRequest_read_numVfs (fn : Fin 256) {s : State} (hon : s.on = true)
    (hst : s.get FW_STATUS_STATE = 2) :
    exec (.configurationRequest fn 0 none) s = .next (s.emit (.configData s.numVfs)) := by
  rw [exec_configurationRequest, execConfigurationRequest, if_neg (by simp [hon]), if_neg (by simp [hst])]
  dsimp only
  rw [if_pos rfl]

/-! ## What comes back over PCIe (R326, R328, R333, R336, R445) -/

section
variable {req : Nat} {s : State} {r : PcieReq}

theorem exec_pcieReadCompletion_copy {data : List Byte} {id : Nat} {k : Copy} (hw : s.takesWrites = true)
    (hr : s.pcieReq req = some r) (hlen : data.length = r.len) (hwhat : r.what = .copyRead id)
    (hk : s.copyOf id = some k) :
    exec (.pcieReadCompletion req data) s = .next ((s.dropReq req).copyArrive k data) := by
  obtain ⟨hon, hfr⟩ := s.takesWrites_iff.mp hw
  rw [exec_pcieReadCompletion, execPcieReadCompletion, if_neg (by simp [hon]), if_neg (by simp [hfr]), hr]
  dsimp only
  rw [if_neg (not_not_intro hlen), hwhat]
  dsimp only
  rw [hk]

theorem exec_flushReadComplete_copy {id : Nat} {k : Copy} (hw : s.takesWrites = true) (hr : s.pcieReq req = some r)
    (hwhat : r.what = .copyFlush id) (hk : s.copyOf id = some k) :
    exec (.flushReadComplete req) s = .next ((s.dropReq req).copyFinish k) := by
  obtain ⟨hon, hfr⟩ := s.takesWrites_iff.mp hw
  rw [exec_flushReadComplete, execFlushReadComplete, if_neg (by simp [hon]), if_neg (by simp [hfr]), hr]
  dsimp only
  rw [hwhat]
  dsimp only
  rw [hk]

/-- A refused request that belongs to no copy: one violation, and the request ends (R445). -/
theorem exec_pTierRefused_plain (hw : s.takesWrites = true) (hr : s.pcieReq req = some r) (hk : s.reqCopy r = none) :
    exec (.pTierRefused req) s =
      .next (((s.violate r.ctx 0x2108 0 r.addr).windowRefused r).reqEnd r .refusedPartition) := by
  obtain ⟨hon, hfr⟩ := s.takesWrites_iff.mp hw
  rw [exec_pTierRefused, execPTierRefused, if_neg (by simp [hon]), if_neg (by simp [hfr]), hr]
  dsimp only
  rw [hk]

/-- A refused request of a copy: the copy's destination is spoilt too (R445). -/
theorem exec_pTierRefused_copy {k : Copy} (hw : s.takesWrites = true) (hr : s.pcieReq req = some r)
    (hk : s.reqCopy r = some k) :
    exec (.pTierRefused req) s =
      .next ((((s.violate r.ctx 0x2108 0 r.addr).windowRefused r).copySpoil k).reqEnd r .refusedPartition) := by
  obtain ⟨hon, hfr⟩ := s.takesWrites_iff.mp hw
  rw [exec_pTierRefused, execPTierRefused, if_neg (by simp [hon]), if_neg (by simp [hfr]), hr]
  dsimp only
  rw [hk]

theorem exec_pcieCompletionPoisoned_found (hw : s.takesWrites = true) (hr : s.pcieReq req = some r) :
    exec (.pcieCompletionPoisoned req) s = .next (s.reqEnd r .poisoned) := by
  obtain ⟨hon, hfr⟩ := s.takesWrites_iff.mp hw
  rw [exec_pcieCompletionPoisoned, execPcieCompletionPoisoned, if_neg (by simp [hon]), if_neg (by simp [hfr]), hr]

theorem exec_pcieCompletionTimeout_found (hw : s.takesWrites = true) (hr : s.pcieReq req = some r) :
    exec (.pcieCompletionTimeout req) s = .next (s.reqEnd r .timeout) := by
  obtain ⟨hon, hfr⟩ := s.takesWrites_iff.mp hw
  rw [exec_pcieCompletionTimeout, execPcieCompletionTimeout, if_neg (by simp [hon]), if_neg (by simp [hfr]), hr]

end

end Sys2Proof.Machine

/-! ## The obligations -/

open Sys2Proof Sys2Proof.Machine

/-- Settles O11, one command after the other. -/
theorem contextCommandsComplete : Obligations.ContextCommandsComplete := by
  refine ⟨?create, ?destroy, ?fence, ?unfence, ?peerWindow, ?extentSet⟩
  case create =>
    intro c s e h t i
    exact ⟨exec_ctxCreate_created h, fun _ hr => exec_ctxCreate_refused h hr⟩
  case destroy =>
    intro c s e h t i hm
    exact exec_ctxDestroy_manageable h hm
  case fence =>
    intro c s e h t i n
    refine ⟨exec_ctxFence_active h, fun hs => ?_, fun hs => ?_⟩
    · rw [exec_ctxFence_not_active h (by rw [hs]; decide)]
      dsimp only
      rw [if_pos hs]
    · rw [exec_ctxFence_not_active h (by rw [hs]; decide)]
      dsimp only
      rw [if_neg (by rw [hs]; decide)]
  case unfence =>
    intro c s e h t i n hs
    exact exec_ctxUnfence_fenced h hs
  case peerWindow =>
    intro c answers s e h t i n hm hc
    exact exec_peerWindow_clear h hm hc
  case extentSet =>
    intro c s e h t i n hm hd hr
    rw [exec_extentSet_ready h, State.extentSet_create hm hd hr]

/-- Settles O12: an open request of the context holds the change, and the first change in line is applied without one. -/
theorem extentChangeWaits : Obligations.ExtentChangeWaits :=
  ⟨fun _ _ hb => exec_extentChangeTakesEffect_busy hb, fun _ _ _ _ hl hb hx => exec_extentChangeTakesEffect_idle hl hb hx⟩

/-- Settles O13, one event after the other. -/
theorem functionEventsComplete : Obligations.FunctionEventsComplete := by
  refine ⟨?contextFree, ?heartbeatLost, ?resume, ?teardown, ?holdEnds, ?functionReset, ?fewerVfs, ?linkReset,
    ?configNotRunning, ?configNumVfs, ?perst⟩
  case contextFree =>
    intro c s hl hst hb hcl hret
    exact exec_contextFree_due hl hst hb hcl hret
  case heartbeatLost =>
    intro f s hw hdue
    exact exec_hbTimeoutExpire_due hw hdue
  case resume =>
    intro f s hw hsel hst hck
    exact exec_resume_orphan hw hsel hst hck
  case teardown =>
    intro f s hw hst hck
    exact exec_teardown_orphan hw hst hck
  case holdEnds =>
    intro f s hw hst hck hdue
    exact exec_orphanHoldExpire_due hw hst hck hdue
  case functionReset =>
    intro f s hon hst hne
    rw [exec_functionLevelReset_on hon, State.flr_not_orphan hst hne]
  case fewerVfs =>
    intro n s hon hn
    exact exec_numvfsReduction_fewer hon hn
  case linkReset =>
    intro s hon
    rw [exec_pcieLinkReset_on hon, State.linkReset]
  case configNotRunning =>
    intro fn reg w s hon hst
    exact exec_configurationRequest_not_running fn reg w hon hst
  case configNumVfs =>
    intro s hon hst
    exact exec_configurationRequest_read_numVfs 0 hon hst
  case perst => exact exec_perstRelease

/-- Settles O15, one kind of completion after the other. -/
theorem pcieCompletionsComplete : Obligations.PcieCompletionsComplete := by
  refine ⟨?read, ?flush, ?refused, ?poisoned, ?timeout⟩
  case read =>
    intro req data s r id k hw hr hlen hwhat hk
    exact exec_pcieReadCompletion_copy hw hr hlen hwhat hk
  case flush =>
    intro req s r id k hw hr hwhat hk
    exact exec_flushReadComplete_copy hw hr hwhat hk
  case refused =>
    intro req s r hw hr t
    exact ⟨exec_pTierRefused_plain hw hr, fun _ hk => exec_pTierRefused_copy hw hr hk⟩
  case poisoned =>
    intro req s r hw hr
    exact exec_pcieCompletionPoisoned_found hw hr
  case timeout =>
    intro req s r hw hr
    exact exec_pcieCompletionTimeout_found hw hr

/-- Settles O57: the view check refuses tier C to a context without PRIV_CTRL, and the creation check refuses PRIV_CTRL to
a VF in every state. -/
theorem controlTierGuarded : Obligations.ControlTierGuarded := by
  refine ⟨?view, ?create⟩
  case view =>
    intro s ctx addr len write tiers ht hp
    exact State.view_tierC_unprivileged len write tiers ht hp
  case create =>
    intro c s e h hp hf
    exact exec_ctxCreate_refused h (State.createRefusal_of_vf_privCtrl _ hp hf)

end

section
/-!
PROOFS. Packets of requests, replies, rows and replicas (R31, R203, R208, R214, R215, R258, R261, R267): the commands of
packets share one gate, and each names the packets that are its own.
-/

namespace Sys2Proof.Machine

open Sys2Proof

/-- A packet of a command's own kind that arrives good and in order is accepted and handed up (R261). -/
theorem State.packetIn_ready {s : State} {rx : Rx} (i : Instr) {mine : Packet → Bool} (h : s.rxReady rx = true)
    (hm : mine rx.pkt = true) : s.packetIn i rx mine = (s.rxTaken rx).handUp i (rx.port % 32) rx.pkt := by
  rw [State.packetIn, if_pos (.inr (.inl hm)), State.receive_ready i h]

/-- The outcome of a command of packets for a packet of its own kind. -/
theorem next_packetIn_ready {s : State} {rx : Rx} (i : Instr) {mine : Packet → Bool} (h : s.rxReady rx = true)
    (hm : mine rx.pkt = true) :
    (.next (s.packetIn i rx mine) : Host.Outcome State Fault Refusal) =
      .next ((s.rxTaken rx).handUp i (rx.port % 32) rx.pkt) := by
  rw [State.packetIn_ready i h hm]

/-! ## The dispatcher's arms for packets of requests, replies, rows and replicas -/

theorem exec_readReq (rx : Rx) (s : State) : exec (.readReq rx) s = execReadReq rx s := rfl

theorem exec_readRsp (rx : Rx) (s : State) : exec (.readRsp rx) s = execReadRsp rx s := rfl

theorem exec_writeReq (rx : Rx) (s : State) : exec (.writeReq rx) s = execWriteReq rx s := rfl

theorem exec_writeAck (rx : Rx) (s : State) : exec (.writeAck rx) s = execWriteAck rx s := rfl

theorem exec_rowReq (rx : Rx) (s : State) : exec (.rowReq rx) s = execRowReq rx s := rfl

theorem exec_rowRsp (rx : Rx) (s : State) : exec (.rowRsp rx) s = execRowRsp rx s := rfl

theorem exec_pairs (rx : Rx) (s : State) : exec (.pairs rx) s = execPairs rx s := rfl

theorem exec_statusPkt (rx : Rx) (s : State) : exec (.statusPkt rx) s = execStatusPkt rx s := rfl

theorem exec_replRequest (rx : Rx) (s : State) : exec (.replRequest rx) s = execReplRequest rx s := rfl

theorem exec_replGrant (rx : Rx) (s : State) : exec (.replGrant rx) s = execReplGrant rx s := rfl

theorem exec_replInvalidation (rx : Rx) (s : State) : exec (.replInvalidation rx) s = execReplInvalidation rx s := rfl

theorem exec_replPush (rx : Rx) (s : State) : exec (.replPush rx) s = execReplPush rx s := rfl

theorem exec_replAcknowledgement (rx : Rx) (s : State) :
    exec (.replAcknowledgement rx) s = execReplAcknowledgement rx s := rfl

theorem exec_replDrop (rx : Rx) (s : State) : exec (.replDrop rx) s = execReplDrop rx s := rfl

end Sys2Proof.Machine

/-! ## The obligation -/

open Sys2Proof Sys2Proof.Machine

/-- Settles O33: each kind's packets are its command's own, and the shared gate hands them up. -/
theorem requestPacketsArrive : Obligations.RequestPacketsArrive :=
  ⟨fun rx s h hty => (exec_readReq rx s).trans (next_packetIn_ready _ h (by simp [hty])),
    fun rx s h hty => (exec_readRsp rx s).trans (next_packetIn_ready _ h (by simp [hty])),
    fun rx s h hty => (exec_writeReq rx s).trans (next_packetIn_ready _ h (by simp [hty])),
    fun rx s h hty => (exec_writeAck rx s).trans (next_packetIn_ready _ h (by simp [hty])),
    fun rx s h hty => (exec_rowReq rx s).trans (next_packetIn_ready _ h (by simp [hty])),
    fun rx s h hty => (exec_rowRsp rx s).trans (next_packetIn_ready _ h (by simp [hty])),
    fun rx s h hty => (exec_pairs rx s).trans (next_packetIn_ready _ h (by simp [hty])),
    fun rx s h hty => (exec_statusPkt rx s).trans (next_packetIn_ready _ h (by simp [hty])),
    fun rx s h hty hkind => (exec_replRequest rx s).trans (next_packetIn_ready _ h (by simp [hty, hkind])),
    fun rx s h hty hkind => (exec_replGrant rx s).trans (next_packetIn_ready _ h (by simp [hty, hkind])),
    fun rx s h hty hkind => (exec_replInvalidation rx s).trans (next_packetIn_ready _ h (by simp [hty, hkind])),
    fun rx s h hty hkind => (exec_replPush rx s).trans (next_packetIn_ready _ h (by simp [hty, hkind])),
    fun rx s h hty hkind => (exec_replAcknowledgement rx s).trans (next_packetIn_ready _ h (by simp [hty, hkind])),
    fun rx s h hty hkind => (exec_replDrop rx s).trans (next_packetIn_ready _ h (by simp [hty, hkind]))⟩

end

section
/-!
PROOFS. Commands of the configuration engine and the events that end a drain, an arming or a trial
(03_fjoun_images_and_almanac.md R53 to R64): the gate that commands share, then one lemma per command or event, saying
what it does in the states that it names.
-/

namespace Sys2Proof.Machine

open Sys2Proof

/-! ## The dispatcher's arms for configuration -/

theorem exec_loadBuffer (path : Path) (s : State) : exec (.loadBuffer path) s = .next (s.cfgLoadBuffer path) := rfl

theorem exec_loadSlot (path : Path) (k : Fin 8) (s : State) :
    exec (.loadSlot path k) s = .next (s.cfgLoadSlot path k.val) := rfl

theorem exec_check (path : Path) (s : State) : exec (.check path) s = .next (s.cfgCheck path) := rfl

theorem exec_checkComplete (s : State) : exec .checkComplete s = execCheckComplete s := rfl

theorem exec_arm (path : Path) (w : Word) (s : State) : exec (.arm path w) s = .next (s.cfgArm path w) := rfl

theorem exec_discard (path : Path) (s : State) : exec (.discard path) s = .next (s.cfgDiscard path).settle := rfl

theorem exec_cfgStore (path : Path) (k : Fin 8) (s : State) :
    exec (.cfgStore path k) s = .next (s.cfgStoreTo path k.val) := rfl

theorem exec_eraseSlot (path : Path) (k : Fin 8) (s : State) :
    exec (.eraseSlot path k) s = .next (s.cfgErase path k.val) := rfl

theorem exec_revert (path : Path) (s : State) : exec (.revert path) s = .next (s.cfgRevert path) := rfl

theorem exec_cfgConfirm (path : Path) (s : State) : exec (.cfgConfirm path) s = .next (s.cfgConfirmNow path) := rfl

theorem exec_cfgRaiseSvnFloor (path : Path) (s : State) :
    exec (.cfgRaiseSvnFloor path) s = .next (s.cfgRaise path) := rfl

theorem exec_cfgOpUnassigned (path : Path) (op : Nat) (s : State) :
    exec (.cfgOpUnassigned path op) s = execCfgOpUnassigned path op s := rfl

theorem exec_almanacProgramComplete (ok : Bool) (s : State) :
    exec (.almanacProgramComplete ok) s = execAlmanacProgramComplete ok s := rfl

theorem exec_directoryWriteComplete (s : State) :
    exec .directoryWriteComplete s = execDirectoryWriteComplete s := rfl

theorem exec_trialExpire (s : State) : exec .trialExpire s = execTrialExpire s := rfl

theorem exec_drainEnd (s : State) : exec .drainEnd s = .next (s.drainEnd).settle := rfl

theorem exec_drainLimitExpire (s : State) : exec .drainLimitExpire s = .next (s.drainLimit).settle := rfl

theorem exec_armTimeoutExpire (s : State) : exec .armTimeoutExpire s = .next (s.armTimeout).settle := rfl

/-! ## The shared gates (R53, R62) -/

/-- A command served at once, in a state of the staging set that it names, has its own effect (R53). -/
theorem State.cfgCommand_inStates {s : State} {path : Path} {l : List Nat} (i : Instr) (body : State → State)
    (h : s.cfgReady path = true) (hst : s.stg ∈ l) :
    (s.cfgCommand path i fun t => t.inStates l (body t)) = body s := by
  rw [State.cfgCommand_ready i _ h]
  exact if_pos (List.contains_iff_mem.mpr hst)

/-- With no trial pending, a program or erase may touch a slot that is neither Active nor Previous (R62). -/
theorem State.ifFree_of_unused {s : State} {k : Nat} (t : State) (h2 : (s.slot k).state ≠ 2)
    (h3 : (s.slot k).state ≠ 3) (htr : s.get CFG_STATUS_TRIAL_PENDING = 0) : s.ifFree k t = t := by
  simp [State.ifFree, h2, h3, htr]

/-- The status that a command records is read back. -/
theorem State.cfgDone_lastStatus (s : State) (st : Status) :
    (s.cfgDone st).get CFG_STATUS_LAST_STATUS = statusCode st := by
  rw [State.cfgDone, State.put_get_same _ _ (by decide) (by decide)]
  cases st <;> rfl

/-! ## The commands that are served at once -/

section
variable {path : Path} {s : State} (h : s.cfgReady path = true)
include h

/-- LOAD_BUFFER from Idle or Open (R53). -/
theorem exec_loadBuffer_ready (hst : s.stg ∈ [0, 1]) :
    exec (.loadBuffer path) s =
      .next (s.loadImage (ownerCode path) (s.bytes .img 0 (imageLength (s.num .img 12 4))) none) := by
  rw [exec_loadBuffer, State.cfgLoadBuffer, State.cfgCommand_inStates _ _ h hst]

/-- LOAD_SLOT from Idle or Open (R53). -/
theorem exec_loadSlot_ready (k : Fin 8) (hst : s.stg ∈ [0, 1]) :
    exec (.loadSlot path k) s = .next (s.loadImage (ownerCode path) (s.slotImage k.val) (some k.val)) := by
  rw [exec_loadSlot, State.cfgLoadSlot, State.cfgCommand_inStates _ _ h hst]

/-- CHECK of an Open staging set (R55). -/
theorem exec_check_ready (hst : s.stg ∈ [1]) : exec (.check path) s = .next s.startCheck := by
  rw [exec_check, State.cfgCheck, State.cfgCommand_inStates _ _ h hst]

/-- ARM of a Checked staging set while the firmware does not update (R57). -/
theorem exec_arm_ready (w : Word) (hst : s.stg ∈ [3]) (hupd : s.get FW_STATUS_UPD = 0) :
    exec (.arm path w) s = .next (s.armSet (bitsOf 11 11 w.toNat == 1) (bitsOf 30 24 w.toNat) (bitsOf 23 16 w.toNat)
      (bitsOf 63 32 w.toNat)) := by
  rw [exec_arm, State.cfgArm, State.cfgCommand_inStates _ _ h hst, if_neg (by simp [hupd])]

/-- DISCARD of an Open, Checked or Armed staging set (R53). -/
theorem exec_discard_ready (hst : s.stg ∈ [1, 3, 4]) :
    exec (.discard path) s = .next ((((s.closeSession).cfgDone .done).releaseHeld).settle) := by
  rw [exec_discard, State.cfgDiscard, State.cfgCommand_inStates _ _ h hst]

/-- CFG_STORE of a loaded image that no write has edited, to a slot that is neither Active nor Previous (R62). -/
theorem exec_cfgStore_ready {k : Fin 8} (hst : s.stg ∈ [1, 3]) (hed : s.get CFG_STATUS_EDITED = 0)
    (him : s.cfg.image ≠ []) (h2 : (s.slot k.val).state ≠ 2) (h3 : (s.slot k.val).state ≠ 3)
    (htr : s.get CFG_STATUS_TRIAL_PENDING = 0) :
    exec (.cfgStore path k) s = .next ((({ s with cfg := { s.cfg with
      programming := some (k.val, true)
      slotBytes := smSet (fun _ => []) s.cfg.slotBytes k.val s.cfg.image } } : State).setSlot k.val
        ⟨4, imgNum s.cfg.image 16 8⟩).put CFG_STATUS_BUSY 1) := by
  rw [exec_cfgStore, State.cfgStoreTo, State.cfgCommand_inStates _ _ h hst, if_neg (by simp [hed, him]),
    State.ifFree_of_unused _ h2 h3 htr]

/-- ERASE_SLOT of a slot that is neither Active nor Previous (R62). -/
theorem exec_eraseSlot_ready {k : Fin 8} (hst : s.stg ∈ [0, 1, 3]) (h2 : (s.slot k.val).state ≠ 2)
    (h3 : (s.slot k.val).state ≠ 3) (htr : s.get CFG_STATUS_TRIAL_PENDING = 0) :
    exec (.eraseSlot path k) s = .next ((({ s with cfg := { s.cfg with
      programming := some (k.val, false), slotBytes := smSet (fun _ => []) s.cfg.slotBytes k.val [] } } : State).setSlot
        k.val ⟨4, 0⟩).put CFG_STATUS_BUSY 1) := by
  rw [exec_eraseSlot, State.cfgErase, State.cfgCommand_inStates _ _ h hst, State.ifFree_of_unused _ h2 h3 htr]

/-- REVERT with no trial pending loads the Previous slot, and is refused where there is none (R64). -/
theorem exec_revert_ready (hst : s.stg ∈ [0, 1]) (htr : s.get CFG_STATUS_TRIAL_PENDING = 0) :
    exec (.revert path) s = .next (if s.get CFG_STATUS_PREVIOUS_VALID = 0 then s.cfgDone .refusedCapacity
      else s.loadImage (ownerCode path) (s.slotImage (s.get CFG_STATUS_PREVIOUS_SLOT))
        (some (s.get CFG_STATUS_PREVIOUS_SLOT))) := by
  rw [exec_revert, State.cfgRevert, State.cfgCommand_inStates _ _ h hst, if_neg (by simp [htr])]

/-- CONFIRM of a trial whose image lies in no slot names no slot Active (R60, log 76). -/
theorem exec_cfgConfirm_unstored (htr : s.get CFG_STATUS_TRIAL_PENDING ≠ 0) (hslot : s.cfg.trialSlot = none) :
    exec (.cfgConfirm path) s = .next ((({ s with cfg := { s.cfg with trialSlot := none } } : State).put
      CFG_STATUS_TRIAL_PENDING 0).setVolatile.cfgDone .done) := by
  rw [exec_cfgConfirm, State.cfgConfirmNow, State.cfgCommand_ready _ _ h, if_neg htr, hslot]

/-- RAISE_SVN_FLOOR raises the floor to the active image's SVN (R61). -/
theorem exec_cfgRaiseSvnFloor_ready (hst : s.stg ∈ [0, 1, 3]) :
    exec (.cfgRaiseSvnFloor path) s = .next (({ s with cfg := { s.cfg with
      svnFloor := max s.cfg.svnFloor s.cfg.activeSvn } } : State).cfgDone .done) := by
  rw [exec_cfgRaiseSvnFloor, State.cfgRaise, State.cfgCommand_inStates _ _ h hst]

/-- An unassigned OP is refused in every state of the staging set (R53). -/
theorem exec_cfgOpUnassigned_ready {op : Nat} (hop : op = 0 ∨ 11 ≤ op ∧ op ≤ 15) :
    exec (.cfgOpUnassigned path op) s = .next (s.cfgDone .refusedPartition) := by
  rw [exec_cfgOpUnassigned, execCfgOpUnassigned, if_pos hop, State.cfgCommand_ready _ _ h]

end

/-! ## The ends of a check and of a flash operation (R55, R62, R63) -/

section
variable {s : State} (hl : s.live = true)
include hl

/-- A check that ends while the staging set is still Checking gives its result and frees the engine (R55). -/
theorem exec_checkComplete_checking (hb : s.get CFG_STATUS_BUSY = 1) (hp : s.cfg.programming = none)
    (hst : s.stg = 2) :
    exec .checkComplete s = .next ((s.endCheck.put CFG_STATUS_BUSY 0).cfgResume) := by
  rw [exec_checkComplete, execCheckComplete, if_pos (by simp [hl, hb, hp]), if_pos hst]

/-- An erase that ends well leaves the slot Empty and frees the engine (R62). -/
theorem exec_almanacProgramComplete_erased {k : Nat} (hp : s.cfg.programming = some (k, false)) :
    exec (.almanacProgramComplete true) s = .next (((((({ s with cfg := { s.cfg with
      programming := none } } : State).put CFG_STATUS_BUSY 0).setSlot k ⟨0, 0⟩).cfgDone .done)).cfgResume) := by
  rw [exec_almanacProgramComplete, execAlmanacProgramComplete, if_neg (by simp [hl]), hp]
  rfl

/-- The directory written to flash is the one in force (R63). -/
theorem exec_directoryWriteComplete_pending (hd : s.get CFG_STATUS_DIR_PENDING = 1) :
    exec .directoryWriteComplete s = .next { s.put CFG_STATUS_DIR_PENDING 0 with cfg := { s.cfg with
      dirActive := s.get CFG_STATUS_ACTIVE_SLOT + 1, dirPrevious := s.get CFG_STATUS_PREVIOUS_SLOT
      dirHasPrevious := s.get CFG_STATUS_PREVIOUS_VALID == 1 } } := by
  rw [exec_directoryWriteComplete, execDirectoryWriteComplete, if_pos (by simp [hl, hd])]

/-! ## The ends of a trial, a drain and an arming (R57, R58, R60) -/

/-- A trial whose time is over returns to the Active image (R60). -/
theorem exec_trialExpire_due (htr : s.get CFG_STATUS_TRIAL_PENDING = 1) (hret : s.cfg.returning = false)
    (hdue : s.cfg.trialEnds ≤ s.now) : exec .trialExpire s = .next s.trialReturn := by
  rw [exec_trialExpire, execTrialExpire, if_pos (by simp [hl, htr, hret, hdue])]

variable {a : Armed} (ha : s.cfg.armed = some a)
include ha

/-- A drain at module scope that ends while the live rules hold raises the module Meridian (R56, R57). -/
theorem State.drainEnd_module (hd : a.drained = false)
    (hall : (a.lastStep.all fun x => s.partDrained x.1 x.2) = true) (hlr : s.liveRuleBroken = false)
    (hj : a.jobScope = false) :
    s.drainEnd = ({ s with cfg := { s.cfg with armed := some { a with
      drained := true, voted := false } } } : State).moduleMeridian := by
  rw [State.drainEnd, ha]
  dsimp only
  rw [if_neg (by simp [hl, hd, hall]), if_neg (by simp [hlr]), hj]
  exact if_neg (by decide)

/-- A drain that has not ended at its limit is abandoned for cause 1 (R57). -/
theorem State.drainLimit_due (hd : a.drained = false)
    (hdue : a.since + s.cfg.active.drainLimit * 1000000 ≤ s.now) : s.drainLimit = s.abandonFor 1 := by
  rw [State.drainLimit, ha]
  exact if_pos (by simp [hl, hd, hdue])

/-- A commit at job scope that has not applied at ARM_TIMEOUT is abandoned for cause 2 (R58). -/
theorem State.armTimeout_due (hj : a.jobScope = true)
    (hdue : a.since + s.cfg.active.armTimeout * 1000000 ≤ s.now) : s.armTimeout = s.abandonFor 2 := by
  rw [State.armTimeout, ha]
  exact if_pos (by simp [hl, hj, hdue])

end

end Sys2Proof.Machine

/-! ## The obligation -/

open Sys2Proof Sys2Proof.Machine

/-- Settles O41, one command or event after the other. -/
theorem configurationCompletes : Obligations.ConfigurationCompletes := by
  refine ⟨?loadBuffer, ?loadSlot, ?check, ?checkComplete, ?arm, ?discard, ?store, ?erase, ?revert, ?confirm, ?raiseFloor,
    ?unassigned, ?programComplete, ?directoryWritten, ?trialExpire, ?drainEnd, ?drainLimit, ?armTimeout⟩
  case loadBuffer =>
    intro path s h hst
    exact exec_loadBuffer_ready h (by simp [hst])
  case loadSlot =>
    intro path k s h hst
    exact exec_loadSlot_ready h k (by simp [hst])
  case check =>
    intro path s h hst
    exact exec_check_ready h (by simp [hst])
  case checkComplete =>
    intro s hl hb hp hst
    exact exec_checkComplete_checking hl hb hp hst
  case arm =>
    intro path w s h hst hupd
    exact exec_arm_ready h w (by simp [hst]) hupd
  case discard =>
    intro path s h hst
    exact exec_discard_ready h (by simp [hst])
  case store =>
    intro path k s h hst hed him hslot htr
    exact exec_cfgStore_ready h (by simp [hst]) hed him (by simp [hslot]) (by simp [hslot]) htr
  case erase =>
    intro path k s h hst hslot htr
    exact exec_eraseSlot_ready h (by simp [hst]) (by simp [hslot]) (by simp [hslot]) htr
  case revert =>
    intro path s h hst htr
    rw [exec_revert_ready h (by simp [hst]) htr]
    refine ⟨fun hv => ?_, fun hv => ?_⟩
    · rw [if_neg (by simp [hv])]
    · rw [if_pos hv]
  case confirm =>
    intro path s h htr hslot
    exact exec_cfgConfirm_unstored h (by simp [htr]) hslot
  case raiseFloor =>
    intro path s h hst
    refine ⟨_, exec_cfgRaiseSvnFloor_ready h (by simp [hst]), ?_, State.cfgDone_lastStatus _ _, State.put_mem _ _ _,
      fun _ hoff => State.put_rd_other _ _ hoff⟩
    rw [State.cfgDone, State.put_cfg]
  case unassigned =>
    intro path s h
    exact exec_cfgOpUnassigned_ready h (.inl rfl)
  case programComplete =>
    intro s k hl hp
    exact exec_almanacProgramComplete_erased hl hp
  case directoryWritten =>
    intro s hl hd
    exact exec_directoryWriteComplete_pending hl hd
  case trialExpire =>
    intro s hl htr hret hdue
    exact exec_trialExpire_due hl htr hret hdue
  case drainEnd =>
    intro s a hl ha hd hall hlr hj
    rw [exec_drainEnd, State.drainEnd_module hl ha hd hall hlr hj]
  case drainLimit =>
    intro s a hl ha hd hdue
    rw [exec_drainLimitExpire, State.drainLimit_due hl ha hd hdue]
  case armTimeout =>
    intro s a hl ha hj hdue
    rw [exec_armTimeoutExpire, State.armTimeout_due hl ha hj hdue]

end

section
/-!
PROOFS. Numbers and NaN (04_number_formats_and_quantisation.md R67, R69, R78): which codes of a format read as NaN, and
that a conversion of anything but NaN produces none of them.
-/

namespace Sys2Proof.Machine

open Sys2Proof

/-! ## The codes that read as NaN (R67, R69) -/

/-- The magnitude code that an infinity converts to: that of ±Inf, or of the largest finite value in a format without. -/
def infMagnitude (f : Nat) : Nat := if fmtInf f then (2 ^ fmtE f - 1) * 2 ^ fmtM f else fmtMax f

theorem fmtMax_le_infMagnitude {f : Nat} (hf : f < 5) : fmtMax f ≤ infMagnitude f := by
  interval_cases f <;> decide

theorem infMagnitude_lt {f : Nat} (hf : f < 5) : infMagnitude f < 2 ^ (fmtE f + fmtM f) := by
  interval_cases f <;> decide

/-- A code reads as NaN where it is FP8-E4M3's one NaN magnitude, or has an exponent of ones and a payload. -/
theorem decodeF_eq_nan_iff (f bits : Nat) :
    decodeF f bits = .nan ↔
      f = 3 ∧ bits % 2 ^ (fmtE f + fmtM f) = 0x7F ∨
      fmtInf f = true ∧ bits % 2 ^ (fmtE f + fmtM f) / 2 ^ fmtM f = 2 ^ fmtE f - 1 ∧
        bits % 2 ^ (fmtE f + fmtM f) % 2 ^ fmtM f ≠ 0 := by
  unfold decodeF
  dsimp only
  generalize bits % 2 ^ (fmtE f + fmtM f) = c
  generalize c / 2 ^ fmtM f = e
  generalize c % 2 ^ fmtM f = man
  split_ifs <;> simp_all

/-- The codes that read as NaN are those whose magnitude lies above infinity's. -/
theorem decodeF_eq_nan_iff_infMagnitude_lt {f : Nat} (hf : f < 5) (bits : Nat) :
    decodeF f bits = .nan ↔ infMagnitude f < bits % 2 ^ (fmtE f + fmtM f) := by
  have hlt : bits % 2 ^ (fmtE f + fmtM f) < 2 ^ (fmtE f + fmtM f) := Nat.mod_lt _ (Nat.two_pow_pos _)
  rw [decodeF_eq_nan_iff]
  generalize bits % 2 ^ (fmtE f + fmtM f) = c at hlt ⊢
  interval_cases f <;> simp [infMagnitude, fmtInf, fmtE, fmtM, fmtMax] at hlt ⊢ <;> omega

/-! ## What a conversion produces (R69, R78) -/

/-- The sign bit does not change the magnitude of a code. -/
theorem sign_add_mod {w c : Nat} (n : Bool) (hc : c < 2 ^ w) : ((if n then 2 ^ w else 0) + c) % 2 ^ w = c := by
  cases n <;> simp [Nat.mod_eq_of_lt hc]

/-- A value that is not NaN converts to a sign and a magnitude no greater than infinity's. -/
theorem encodeF_sign_magnitude {f : Nat} (hf : f < 5) (mode u : Nat) (sat : Bool) {v : Val} (hv : v ≠ .nan) :
    ∃ (n : Bool) (c : Nat), c ≤ infMagnitude f ∧
      (encodeF f mode u sat v).1 = (if n then 2 ^ (fmtE f + fmtM f) else 0) + c := by
  have hmax := fmtMax_le_infMagnitude hf
  cases v with
  | nan => exact absurd rfl hv
  | inf n => exact ⟨n, infMagnitude f, Nat.le_refl _, rfl⟩
  | fin n a b =>
    by_cases hc : roundCode f mode u a b ≤ fmtMax f
    · exact ⟨n, _, Nat.le_trans hc hmax, by simp only [encodeF, if_pos hc]⟩
    · refine ⟨n, if sat || !fmtInf f then fmtMax f else infMagnitude f, ?_, by simp only [encodeF, if_neg hc]; rfl⟩
      split
      · exact hmax
      · exact Nat.le_refl _

/-- A conversion produces a code that reads as NaN from NaN alone. -/
theorem decodeF_encodeF_ne_nan {f : Nat} (hf : f < 5) (mode u : Nat) (sat : Bool) {v : Val} (hv : v ≠ .nan) :
    decodeF f (encodeF f mode u sat v).1 ≠ .nan := by
  obtain ⟨n, c, hc, he⟩ := encodeF_sign_magnitude hf mode u sat hv
  rw [ne_eq, decodeF_eq_nan_iff_infMagnitude_lt hf, he, sign_add_mod n (Nat.lt_of_le_of_lt hc (infMagnitude_lt hf))]
  exact Nat.not_lt.mpr hc

/-- NaN converts to its format's canonical quiet NaN (R69). -/
theorem encodeF_nan {f : Nat} (hf : f < 5) (mode u : Nat) (sat : Bool) :
    (encodeF f mode u sat .nan).1 = [0x7FC00000, 0x7FC0, 0x7E00, 0x7F, 0x7E].getD f 0 := by
  interval_cases f <;> rfl

/-- In a format with infinities, an exponent of ones with a payload reads as NaN whatever the sign (R69). -/
theorem decodeF_payload {f sign payload : Nat} (hf : fmtInf f = true) (hpos : 0 < payload)
    (hlt : payload < 2 ^ fmtM f) :
    decodeF f (sign * 2 ^ (fmtE f + fmtM f) + (2 ^ fmtE f - 1) * 2 ^ fmtM f + payload) = .nan := by
  have hmag : (2 ^ fmtE f - 1) * 2 ^ fmtM f + payload < 2 ^ (fmtE f + fmtM f) := by
    calc (2 ^ fmtE f - 1) * 2 ^ fmtM f + payload < (2 ^ fmtE f - 1) * 2 ^ fmtM f + 2 ^ fmtM f := by omega
      _ = 2 ^ (fmtE f + fmtM f) := by
        rw [← Nat.succ_mul, Nat.succ_eq_add_one, Nat.sub_add_cancel Nat.one_le_two_pow, Nat.pow_add]
  refine (decodeF_eq_nan_iff _ _).mpr (.inr ⟨hf, ?_⟩)
  rw [Nat.add_assoc, Nat.mul_add_mod_of_lt hmag]
  exact ⟨by rw [Nat.mul_comm, Nat.mul_add_div (Nat.two_pow_pos _), Nat.div_eq_of_lt hlt, Nat.add_zero],
    by rw [Nat.mul_add_mod_of_lt hlt]; exact hpos.ne'⟩

end Sys2Proof.Machine

/-! ## The obligation -/

open Sys2Proof Sys2Proof.Machine

/-- Settles O50: the codes that read as NaN lie above infinity's magnitude, and only NaN converts to one of them. -/
theorem canonicalNaN : Obligations.CanonicalNaN := by
  refine ⟨?produced, ?payload, rfl, rfl⟩
  case produced =>
    intro f mode u sat v hf
    refine ⟨encodeF_nan hf mode u sat, fun hdec => ?_⟩
    have hv : v = .nan := by_contra fun hne => decodeF_encodeF_ne_nan hf mode u sat hne hdec
    exact ⟨hv ▸ encodeF_nan hf mode u sat, hv⟩
  case payload =>
    intro f sign payload hf _ hpos hlt
    have hinf : fmtInf f = true := by
      simp only [List.mem_cons, List.not_mem_nil, or_false] at hf
      rcases hf with rfl | rfl | rfl | rfl <;> rfl
    exact decodeF_payload hinf hpos hlt

end

section
/-!
PROOFS. Control operations (OPCODE 0x00 to 0x06) and events of tiles (04_number_formats_and_quantisation.md R89;
05_tile_and_tile_programs.md R95 to R102; 06_streams_pace_and_meridian.md R134): each operation's effect once it is ready at the head of its tile.
-/

namespace Sys2Proof.Machine

open Sys2Proof

/-! ## The dispatcher's arms for control operations and tile events -/

theorem exec_nop (t : Fin 272) (w : Entry) (s : State) : exec (.nop t w) s = execNop t w s := rfl

theorem exec_endOp (t : Fin 272) (w : Entry) (s : State) : exec (.endOp t w) s = execEndOp t w s := rfl

theorem exec_fence (t : Fin 272) (w : Entry) (s : State) : exec (.fence t w) s = execFence t w s := rfl

theorem exec_wait (t : Fin 272) (w : Entry) (s : State) : exec (.wait t w) s = execWait t w s := rfl

theorem exec_signal (t : Fin 272) (w : Entry) (s : State) : exec (.signal t w) s = execSignal t w s := rfl

theorem exec_loop (t : Fin 272) (w : Entry) (s : State) : exec (.loop t w) s = execLoop t w s := rfl

theorem exec_barrier (t : Fin 272) (w : Entry) (s : State) : exec (.barrier t w) s = execBarrier t w s := rfl

theorem exec_macroOpComplete (t : Fin 272) (s : State) : exec (.macroOpComplete t) s = execMacroOpComplete t s := rfl

theorem exec_waitTimeout (t : Fin 272) (s : State) : exec (.waitTimeout t) s = execWaitTimeout t s := rfl

theorem exec_qsatCtlWrite (path : Path) (t : Fin 272) (h : Half) (v : Word) (s : State) :
    exec (.qsatCtlWrite path t h v) s = execQsatCtlWrite path t h v s := rfl

/-! ## Control operations at the head of a tile (R101, R102) -/

section
variable {t : Fin 272} {w : Entry} {s : State}

/-- NOP issues done (R101). -/
theorem exec_nop_ready (h : s.ctlReady t.val 0x00 w = true) :
    exec (.nop t w) s = .next (s.issueDone t.val (s.opForm t.val (fun _ => 0) w) .done []) := by
  rw [exec_nop, execNop, State.macroOp_ready _ h]

/-- END issues done and marks the program ended (R97). -/
theorem exec_endOp_ready (h : s.ctlReady t.val 0x01 w = true) :
    let a := s.issueDone t.val (s.opForm t.val (fun _ => 0) w) .done []
    exec (.endOp t w) s = .next (a.setTile t.val { a.tile t.val with ended := true }) := by
  rw [exec_endOp, execEndOp, State.macroOp_ready _ h]

/-- FENCE issues once nothing is in flight, and waits until then (R101). -/
theorem exec_fence_ready (h : s.ctlReady t.val 0x02 w = true) :
    exec (.fence t w) s = .next (if (s.tile t.val).issued = [] then
      s.issueDone t.val (s.opForm t.val (fun _ => 0) w) .done [] else s) := by
  rw [exec_fence, execFence, State.macroOp_ready _ h]

/-- WAIT holds its tile until its counter is there, at once where it is there already (R102). -/
theorem exec_wait_ready (h : s.ctlReady t.val 0x03 w = true) :
    let v := s.opForm t.val (fun _ => 0) w
    let a := s.issueOp t.val v .done true 0 qcount0 []
    exec (.wait t w) s = .next ((a.setTile t.val
      { a.tile t.val with wait := some ⟨Entry_bits v 0 31 28, Entry_bits v 1 31 0⟩ }).checkWait t.val) := by
  rw [exec_wait, execWait, State.macroOp_ready _ h]

/-- SIGNAL without REMOTE raises a counter of its own tile (R102). -/
theorem exec_signal_local (h : s.ctlReady t.val 0x04 w = true) (hi : (s.tile t.val).issued = [])
    (hr : Entry_bits (s.opForm t.val (fun _ => 0) w) 0 15 15 = 0) :
    let v := s.opForm t.val (fun _ => 0) w
    exec (.signal t w) s = .next ((s.issueDone t.val v .done []).deliverOnce t.val fun a =>
      a.signal t.val (Entry_bits v 0 31 28) (Entry_bits v 1 31 0)) := by
  rw [exec_signal, execSignal, State.macroOp_ready _ h, if_neg (by simp [hi])]
  dsimp only
  rw [if_neg (by simp [hr])]

/-- SIGNAL with REMOTE raises a counter of the tile that its logical number names in its partition (R102). -/
theorem exec_signal_remote (h : s.ctlReady t.val 0x04 w = true) (hi : (s.tile t.val).issued = [])
    (hr : Entry_bits (s.opForm t.val (fun _ => 0) w) 0 15 15 = 1)
    (hp : s.tilePart (Entry_bits (s.opForm t.val (fun _ => 0) w) 0 23 16) = some (s.tileCtx t.val).part) :
    let v := s.opForm t.val (fun _ => 0) w
    exec (.signal t w) s = .next ((s.issueDone t.val v .done []).deliverOnce t.val fun a =>
      a.signal (a.physOf (Entry_bits v 0 23 16)) (Entry_bits v 0 31 28) (Entry_bits v 1 31 0)) := by
  rw [exec_signal, execSignal, State.macroOp_ready _ h, if_neg (by simp [hi])]
  dsimp only
  rw [if_pos hr, if_pos hp]

/-- LOOP issues done and opens its loop (R102). -/
theorem exec_loop_ready (h : s.opReady t.val 0x06 w (fun v => if s.loopBad t.val v then some 0x09 else none)
      (fun _ => []) (fun _ => 0) = true) :
    let v := s.opForm t.val (fun _ => 0) w
    let a := s.issueDone t.val v .done []
    exec (.loop t w) s = .next (a.setTile t.val { a.tile t.val with
      loop := some ⟨s.get (TILE_PC_PC t.val) + 64, 64 * (Entry_bits v 0 15 12 + 1), Entry_bits v 0 31 16 + 1, 0,
        Entry_bits v 1 63 32, Entry_bits v 1 31 0, Entry_bits v 2 63 32⟩ }) := by
  rw [exec_loop, execLoop, State.macroOp_ready _ h]

/-- BARRIER of a run that is not a replay of arrivals already made arrives and waits (R113, R134). -/
theorem exec_barrier_first (h : s.opReady t.val 0x05 w (fun v => if Entry_bits v 0 1 0 = 3 then some 0x08 else none)
      (fun _ => []) (fun _ => 0) = true) (hd : (s.tile t.val).skipDeliveries ≤ (s.tile t.val).delivered) :
    let v := s.opForm t.val (fun _ => 0) w
    let sc := Entry_bits v 0 1 0
    let p := (s.tileCtx t.val).part
    exec (.barrier t w) s = .next (((s.issueOp t.val v .done true 0 qcount0 []).deliverOnce t.val fun b =>
      (b.haloArrive p sc).arrive p sc (.tile (s.get (TILE_STATUS_LOGICAL_ID t.val))) 0 0xFF none).arriveLater p) := by
  rw [exec_barrier, execBarrier, State.macroOp_ready _ h]
  simp only [Nat.not_lt.mpr hd, decide_false, Bool.not_false, Bool.true_or]

/-! ## Events of a tile (R89, R97, R102) -/

/-- The first operation whose work is done retires (R97). -/
theorem exec_macroOpComplete_found {i : Issued} (hl : s.live = true)
    (hi : ((s.tile t.val).issued.find? fun i => !i.waits) = some i) :
    exec (.macroOpComplete t) s = .next (s.retireOp t.val i) := by
  rw [exec_macroOpComplete, execMacroOpComplete, if_pos hl, hi]

/-- A WAIT whose timer runs out ends with TIMEOUT (R102). -/
theorem exec_waitTimeout_waiting (hl : s.live = true) (hw : (s.tile t.val).wait.isSome = true) :
    exec (.waitTimeout t) s = .next (s.endWait t.val .timeout) := by
  rw [exec_waitTimeout, execWaitTimeout, if_pos (by simp [hl, hw])]

/-- A write of the counters' control restarts the window (R89). -/
theorem exec_qsatCtlWrite_taken {path : Path} (h : Half) (v : Word) (hw : s.takesWrites = true)
    (hp : ctrlPath path = true) :
    exec (.qsatCtlWrite path t h v) s =
      .next ((s.writeAny path (0x10000400 + t.val * 0x10000) h v.toNat).restartWindow t.val) := by
  rw [exec_qsatCtlWrite, execQsatCtlWrite, State.ctrl_takesWrites _ _ hw hp]

end

end Sys2Proof.Machine

/-! ## The obligation -/

open Sys2Proof Sys2Proof.Machine

/-- Settles O16, one operation or event after the other. -/
theorem tileControlCompletes : Obligations.TileControlCompletes := by
  refine ⟨?nop, ?endOp, ?fence, ?wait, ?signal, ?loop, ?barrier, ?macroOpComplete, ?waitTimeout, ?qsatCtlWrite⟩
  case nop =>
    intro t w s h
    exact exec_nop_ready h
  case endOp =>
    intro t w s h
    exact exec_endOp_ready h
  case fence =>
    intro t w s h
    rw [exec_fence_ready h]
    exact ⟨fun hi => by rw [if_pos hi], fun hi => by rw [if_neg hi]⟩
  case wait =>
    intro t w s h
    exact exec_wait_ready h
  case signal =>
    intro t w s h hi
    exact ⟨exec_signal_local h hi, exec_signal_remote h hi⟩
  case loop =>
    intro t w s h
    exact exec_loop_ready h
  case barrier =>
    intro t w s h hd v sc l p _
    exact exec_barrier_first h hd
  case macroOpComplete =>
    intro t s i hl hi
    exact exec_macroOpComplete_found hl hi
  case waitTimeout =>
    intro t s hl hw
    exact exec_waitTimeout_waiting hl hw
  case qsatCtlWrite =>
    intro path t h v s hw hp
    exact exec_qsatCtlWrite_taken h v hw hp

end

section
/-!
PROOFS. Elementwise operations (04_number_formats_and_quantisation.md R71, R79; 05_tile_and_tile_programs.md R101, R112):
all of them issue through the vector unit's one gate, and each maps a function of its own over the elements.
-/

namespace Sys2Proof.Machine

open Sys2Proof

/-! ## The dispatcher's arms for elementwise operations -/

section
variable (t : Fin 272) (w : Entry) (chk : TileCheck) (s : State)

theorem exec_vadd : exec (.vadd t w chk) s = execVadd t w chk s := rfl

theorem exec_vsub : exec (.vsub t w chk) s = execVsub t w chk s := rfl

theorem exec_vmul : exec (.vmul t w chk) s = execVmul t w chk s := rfl

theorem exec_vfma : exec (.vfma t w chk) s = execVfma t w chk s := rfl

theorem exec_vmax : exec (.vmax t w chk) s = execVmax t w chk s := rfl

theorem exec_vmin : exec (.vmin t w chk) s = execVmin t w chk s := rfl

theorem exec_vact : exec (.vact t w chk) s = execVact t w chk s := rfl

theorem exec_vcmp : exec (.vcmp t w chk) s = execVcmp t w chk s := rfl

theorem exec_vsel : exec (.vsel t w chk) s = execVsel t w chk s := rfl

theorem exec_vcvt : exec (.vcvt t w chk) s = execVcvt t w chk s := rfl

theorem exec_quant : exec (.quant t w chk) s = execQuant t w chk s := rfl

theorem exec_dequant : exec (.dequant t w chk) s = execDequant t w chk s := rfl

end

/-- A vector operation that is ready, its physical checks passed, steps to its own effect (R95, R112). -/
theorem next_vector_ready {s : State} {t c : Nat} {w : Entry} (body : State → Entry → List Reg → State)
    (h : s.vecReady t c w = true) :
    (.next (s.vector t c w .pass body) : Host.Outcome State Fault Refusal) =
      .next (body s (s.opForm t (vBlocks c) w) (vRegs c (s.opForm t (vBlocks c) w))) := by
  rw [State.vector_ready body h]

end Sys2Proof.Machine

/-! ## The obligation -/

open Sys2Proof Sys2Proof.Machine

/-- Settles O18: each operation's arm is the vector unit's gate over its own function, and the gate lets it through. -/
theorem elementwiseCompletes : Obligations.ElementwiseCompletes :=
  ⟨fun t w s h => (exec_vadd t w .pass s).trans (next_vector_ready _ h),
    fun t w s h => (exec_vsub t w .pass s).trans (next_vector_ready _ h),
    fun t w s h => (exec_vmul t w .pass s).trans (next_vector_ready _ h),
    fun t w s h => (exec_vfma t w .pass s).trans (next_vector_ready _ h),
    fun t w s h => (exec_vmax t w .pass s).trans (next_vector_ready _ h),
    fun t w s h => (exec_vmin t w .pass s).trans (next_vector_ready _ h),
    fun t w s h => (exec_vact t w .pass s).trans (next_vector_ready _ h),
    fun t w s h => (exec_vcmp t w .pass s).trans (next_vector_ready _ h),
    fun t w s h => (exec_vsel t w .pass s).trans (next_vector_ready _ h),
    fun t w s h => (exec_vcvt t w .pass s).trans (next_vector_ready _ h),
    fun t w s h => (exec_quant t w .pass s).trans (next_vector_ready _ h),
    fun t w s h => (exec_dequant t w .pass s).trans (next_vector_ready _ h)⟩

end

section
/-!
PROOFS. The exact sum (05_tile_and_tile_programs.md R109, R110): within its range it is the element that counts, flags and
adds the whole list, and that element does not depend on the list's order.
-/

namespace Sys2Proof.Machine

open Sys2Proof

/-! ## What one value brings to an exact element -/

/-- What a value adds to VALUE, in units of 2^-149: a NaN or an infinity adds nothing (R110). -/
def Val_units : Val → Int
  | .fin n a b => signedNum n (a * 2 ^ 149 / b)
  | _ => 0

/-- A value that sets NZS: any but −0 (R110). -/
def Val_setsNzs : Val → Bool
  | .fin n a _ => !(n && a == 0)
  | _ => true

/-- A value that is a NaN, an infinity, or finite with magnitude below 2^128 (R110). -/
def Val_belowFp32Range (v : Val) : Prop := ∀ n a b, v = .fin n a b → a * 2 ^ 149 / b < 2 ^ 277

/-- The element that holds the exact sum of a whole list of values. -/
def exactTotal (vs : List Val) : Exact :=
  { value := (vs.map Val_units).sum, any := !vs.isEmpty, nzs := vs.any Val_setsNzs, ninf := vs.any (· == .inf true),
    pinf := vs.any (· == .inf false), nan := vs.any (· == .nan), count := min 0xFFFFFFFF vs.length }

/-- The element of a list does not depend on the list's order. -/
theorem exactTotal_perm {vs ws : List Val} (h : vs.Perm ws) : exactTotal vs = exactTotal ws := by
  simp only [exactTotal, (h.map Val_units).sum_eq, h.isEmpty_eq, h.any_eq, h.length_eq]

/-! ## The range -/

theorem natAbs_signedNum (n : Bool) (a : Nat) : (signedNum n a).natAbs = a := by
  cases n <;> simp [signedNum]

theorem Val_units_natAbs_le {v : Val} (h : Val_belowFp32Range v) : (Val_units v).natAbs ≤ 2 ^ 277 := by
  cases v with
  | nan => exact Nat.zero_le _
  | inf n => exact Nat.zero_le _
  | fin n a b =>
    rw [Val_units, natAbs_signedNum]
    exact (h n a b rfl).le

/-- The magnitude of a sum grows by less than 2^128 with each value. -/
theorem sum_units_natAbs_le {vs : List Val} (h : ∀ v ∈ vs, Val_belowFp32Range v) :
    ((vs.map Val_units).sum).natAbs ≤ vs.length * 2 ^ 277 := by
  have hv : ∀ x ∈ vs.map Val_units, -(2 ^ 277 : Int) ≤ x ∧ x ≤ 2 ^ 277 := by
    intro x hx
    obtain ⟨v, hmem, rfl⟩ := List.mem_map.mp hx
    have := Val_units_natAbs_le (h v hmem)
    omega
  have hlo := List.card_nsmul_le_sum _ _ fun x hx => (hv x hx).1
  have hhi := List.sum_le_card_nsmul _ _ fun x hx => (hv x hx).2
  simp only [List.length_map, nsmul_eq_mul] at hlo hhi
  omega

/-- The sum of at most 2^32 values below 2^128 stays in the range of VALUE (R110). -/
theorem exactOver_sum_units {vs : List Val} (hlen : vs.length ≤ 2 ^ 32) (h : ∀ v ∈ vs, Val_belowFp32Range v) :
    exactOver (vs.map Val_units).sum = false := by
  have hsum := sum_units_natAbs_le h
  have hbound : vs.length * 2 ^ 277 ≤ 2 ^ 32 * 2 ^ 277 := Nat.mul_le_mul_right _ hlen
  simp only [exactOver, decide_eq_false_iff_not]
  omega

/-! ## The sum of a list -/

theorem exactSum_append_singleton (vs : List Val) (v : Val) :
    exactSum (vs ++ [v]) = ((exactAdd (exactSum vs).1 v).1, (exactSum vs).2 || (exactAdd (exactSum vs).1 v).2) := by
  simp only [exactSum, List.foldl_append, List.foldl_cons, List.foldl_nil]

theorem exactCount_min (n : Nat) : exactCount (min 0xFFFFFFFF n) 1 = min 0xFFFFFFFF (n + 1) := by
  unfold exactCount satAdd
  split <;> omega

/-- One more value added to the element of a list, where the sum stays in its range, gives the longer list's element. -/
theorem exactAdd_exactTotal {vs : List Val} {v : Val} (h : exactOver ((vs ++ [v]).map Val_units).sum = false) :
    exactAdd (exactTotal vs) v = (exactTotal (vs ++ [v]), false) := by
  cases v with
  | nan => simp [exactAdd, exactTotal, Val_units, Val_setsNzs, exactCount_min]
  | inf n => cases n <;> simp [exactAdd, exactTotal, Val_units, Val_setsNzs, exactCount_min]
  | fin n a b =>
    have hover : exactOver ((exactTotal vs).value + signedNum n (a * 2 ^ 149 / b)) = false := by
      simpa [exactTotal, Val_units] using h
    simp only [exactAdd]
    rw [if_neg (Bool.eq_false_iff.mp hover)]
    simp [exactTotal, Val_units, Val_setsNzs, exactCount_min]

/-- At most 2^32 values below 2^128 sum to the element of their list, and the sum never leaves its range (R110). -/
theorem exactSum_eq_exactTotal (vs : List Val) (hlen : vs.length ≤ 2 ^ 32) (h : ∀ v ∈ vs, Val_belowFp32Range v) :
    exactSum vs = (exactTotal vs, false) := by
  induction vs using List.reverseRecOn with
  | nil => rfl
  | append_singleton vs v ih =>
    have hvs : exactSum vs = (exactTotal vs, false) :=
      ih (by simp at hlen; omega) fun x hx => h x (List.mem_append_left _ hx)
    rw [exactSum_append_singleton, hvs, exactAdd_exactTotal (exactOver_sum_units hlen h), Bool.false_or]

end Sys2Proof.Machine

/-! ## The obligation -/

open Sys2Proof Sys2Proof.Machine

/-- Settles O51: both orders sum to the element of their list, which is the same for both and holds the sum of the units. -/
theorem exactSumInEveryOrder : Obligations.ExactSumInEveryOrder := by
  intro vs ws hperm hlen hrange
  have hvs : exactSum vs = (exactTotal vs, false) := exactSum_eq_exactTotal vs hlen hrange
  have hws : exactSum ws = (exactTotal ws, false) :=
    exactSum_eq_exactTotal ws (hperm.length_eq ▸ hlen) fun w hw => hrange w (hperm.mem_iff.mpr hw)
  have hunits : Val_units = fun v => match v with
      | .fin n a b => signedNum n (a * 2 ^ 149 / b)
      | _ => 0 := by
    funext v
    cases v <;> rfl
  rw [hvs, hws, exactTotal_perm hperm]
  refine ⟨rfl, rfl, ?_⟩
  rw [← exactTotal_perm hperm]
  exact congrArg (fun f => (vs.map f).sum) hunits

end

section
/-!
PROOFS. The block mover's operations (05_tile_and_tile_programs.md R101 to R104, R115; 06_streams_pace_and_meridian.md R130)
and a unit that is full (R95, R96): what issue does with an operation that is ready, and with one that must wait.
-/

namespace Sys2Proof.Machine

open Sys2Proof

/-! ## Issue (R95, R96) -/

/-- A unit is full exactly when it holds four operations that have not completed (R96). -/
theorem State.unitFull_iff (s : State) (t u : Nat) :
    s.unitFull t u = true ↔ 4 ≤ ((s.tile t).issued.filter fun i => i.unit == u).length := by
  simp [State.unitFull]

/-- A well-formed operation whose unit is full, or whose slots overlap those of one in flight, stays at the head (R95, R96). -/
theorem State.macroOp_blocked {s : State} {t op : Nat} {w : Entry} {chk : Entry → Option Nat} {regs : Entry → List Reg}
    {blocks : Entry → Nat} (body : State → Entry → List Reg → State) (hissue : s.canIssue t = true)
    (hpc : s.get (TILE_PC_PC t) < (s.tile t).progStart + (s.tile t).progLen) (hraw : s.raw t = w) (hop : opCode w = op)
    (hunit : opUnit op ≠ none) (hver : Entry_bits w 0 55 52 = 1) (hres : reservedZero w (macroMasks op) = true)
    (hchk : chk (s.opForm t blocks w) = none)
    (hprog : ((regs (s.opForm t blocks w)).any fun r => r.wr && rangesMeet r.off r.len (s.tile t).progStart
      (s.tile t).progLen) = false)
    (hwait : s.unitFull t ((opUnit op).getD 0) = true ∨ s.hazard t (regs (s.opForm t blocks w)) = true) :
    s.macroOp t op w chk regs blocks body = s := by
  unfold State.macroOp
  dsimp only
  rw [if_neg (by simp [hissue]), if_neg (Nat.not_le.mpr hpc), if_neg (by simp [hraw]), if_neg (hop ▸ hunit),
    if_neg (by simp [hop]), if_neg (by simp [hver]), if_neg (by simp [hres])]
  change (match chk (s.opForm t blocks w) with
    | some r => s.malform t r w
    | none => if ((regs (s.opForm t blocks w)).any fun r => r.wr && rangesMeet r.off r.len (s.tile t).progStart
          (s.tile t).progLen) = true then s.malform t 0x07 w
        else if (s.unitFull t ((opUnit op).getD 0) || s.hazard t (regs (s.opForm t blocks w))) = true then s
        else body s (s.opForm t blocks w) (regs (s.opForm t blocks w))) = _
  rw [hchk]
  dsimp only
  rw [if_neg (by simp [hprog]), if_pos (by simpa using hwait)]

/-- An operation that is ready steps to its own effect. -/
theorem next_macroOp_ready {s : State} {t op : Nat} {w : Entry} {chk : Entry → Option Nat} {regs : Entry → List Reg}
    {blocks : Entry → Nat} (body : State → Entry → List Reg → State) (h : s.opReady t op w chk regs blocks = true) :
    (.next (s.macroOp t op w chk regs blocks body) : Host.Outcome State Fault Refusal) =
      .next (body s (s.opForm t blocks w) (regs (s.opForm t blocks w))) := by
  rw [State.macroOp_ready body h]

/-! ## The dispatcher's arms for the block mover -/

section
variable (t : Fin 272) (w : Entry) (s : State)

theorem exec_load (flt : List FetchFault) : exec (.load t w flt) s = execLoad t w flt s := rfl

theorem exec_gather (flt : List FetchFault) : exec (.gather t w flt) s = execGather t w flt s := rfl

theorem exec_store (chk : TileCheck) : exec (.store t w chk) s = execStore t w chk s := rfl

theorem exec_scatter (chk : TileCheck) : exec (.scatter t w chk) s = execScatter t w chk s := rfl

theorem exec_copy (chk : TileCheck) : exec (.copy t w chk) s = execCopy t w chk s := rfl

theorem exec_send (chk : TileCheck) : exec (.send t w chk) s = execSend t w chk s := rfl

theorem exec_prefetch : exec (.prefetch t w) s = execPrefetch t w s := rfl

theorem exec_sealchk (chk : TileCheck) : exec (.sealchk t w chk) s = execSealchk t w chk s := rfl

end

/-! ## Moves that depend on more than their gate -/

/-- The slots of a SEND: those it reads, and those it writes where its own tile is the target (R102). -/
def sendRegs (s : State) (t : Nat) (v : Entry) : List Reg :=
  moSlots v true false ::
    (if (Entry_bits v 4 7 0 == s.get (TILE_STATUS_LOGICAL_ID t)) = true then
      [⟨Entry_bits v 1 22 0, 4096 * moBlocks v, false, true, none, none⟩] else [])

section
variable {t : Fin 272} {w : Entry} {s : State}

/-- SEND to a tile of its own partition moves its slots to that tile's local store (R101, R102). -/
theorem exec_send_inside
    (h : s.opReady t.val 0x15 w (fun v => moBad v (sendRegs s t.val v) false false (some (Entry_bits v 1 22 0)))
      (sendRegs s t.val) (fun _ => 0) = true)
    (hpart : s.tilePart (Entry_bits (s.opForm t.val (fun _ => 0) w) 4 7 0) = some (s.tileCtx t.val).part) :
    let v := s.opForm t.val (fun _ => 0) w
    exec (.send t w .pass) s =
      .next (s.moveLocal t.val v (sendRegs s t.val v) (s.physOf (Entry_bits v 4 7 0)) (Entry_bits v 1 22 0)) := by
  rw [exec_send]
  refine (next_macroOp_ready _ h).trans ?_
  rw [if_pos hpart]
  rfl

/-- PREFETCH in a partition without cache slices moves nothing and is done (R130; log 30). -/
theorem exec_prefetch_no_slices
    (h : s.opReady t.val 0x16 w (fun v => moBad v [] true true none) (fun _ => []) (fun _ => 0) = true)
    (hfree : s.moverBusy t.val = false) (hctx : (s.ctx (s.tileCtx t.val).ctx).changes = [])
    (hslices : (s.cacheSlices (s.tileCtx t.val).part).isEmpty = true) :
    exec (.prefetch t w) s = .next (s.issueDone t.val (s.opForm t.val (fun _ => 0) w) .done []) := by
  rw [exec_prefetch, execPrefetch, next_macroOp_ready _ h]
  dsimp only
  rw [if_neg (by simp [hfree, hctx]), if_pos hslices]

/-- SEALCHK on a mover that holds nothing back checks its slots one after the other (R115). -/
theorem exec_sealchk_free
    (h : s.opReady t.val 0x50 w (fun v => moBad v [] false false none) (fun v => [moSlots v true false]) (fun _ => 0) = true)
    (hfree : s.moverBusy t.val = false) :
    let v := s.opForm t.val (fun _ => 0) w
    let r := runBlocks (fun (b : State) j _ => b.sealSlot t.val v j) s (List.replicate (moBlocks v) (.here 0 0))
    exec (.sealchk t w .pass) s = .next (r.1.issueDone t.val v r.2 [moSlots v true false]) := by
  rw [exec_sealchk, execSealchk, next_macroOp_ready _ h]
  dsimp only [moverChk, State.checked]
  rw [if_neg (by simp [hfree])]

end

end Sys2Proof.Machine

/-! ## The obligations -/

open Sys2Proof Sys2Proof.Machine

/-- Settles O17, one operation after the other. -/
theorem moverCompletes : Obligations.MoverCompletes := by
  refine ⟨?load, ?gather, ?store, ?scatter, ?copy, ?send, ?prefetch, ?sealchk⟩
  case load =>
    intro t w flt s h
    exact (exec_load t w s flt).trans (next_macroOp_ready _ h)
  case gather =>
    intro t w flt s h
    exact (exec_gather t w s flt).trans (next_macroOp_ready _ h)
  case store =>
    intro t w s h
    exact (exec_store t w s .pass).trans (next_macroOp_ready _ h)
  case scatter =>
    intro t w s h
    exact (exec_scatter t w s .pass).trans (next_macroOp_ready _ h)
  case copy =>
    intro t w s regs h
    exact (exec_copy t w s .pass).trans (next_macroOp_ready _ h)
  case send =>
    intro t w s regs h v hpart
    exact exec_send_inside h hpart
  case prefetch =>
    intro t w s h v hfree hctx hslices
    exact exec_prefetch_no_slices h hfree hctx hslices
  case sealchk =>
    intro t w s h v hfree
    exact exec_sealchk_free h hfree

/-- Settles O58: the count of the unit's operations, and the gate of issue in the case that waits. -/
theorem fullUnitStopsIssue : Obligations.FullUnitStopsIssue :=
  ⟨fun s t u h => (s.unitFull_iff t u).mpr h,
    fun _ _ _ _ _ _ _ body => State.macroOp_blocked body⟩

end

section
/-!
PROOFS. Row reductions, layout, fills, draws and exact regions (05_tile_and_tile_programs.md R101, R109 to R113;
12_collectives_and_reproducibility.md R310), and the operations that update in place (R105, R113).
-/

namespace Sys2Proof.Machine

open Sys2Proof

/-! ## The dispatcher's arms -/

section
variable (t : Fin 272) (w : Entry) (chk : TileCheck) (s : State)

theorem exec_vrsum : exec (.vrsum t w chk) s = execVrsum t w chk s := rfl

theorem exec_vrmax : exec (.vrmax t w chk) s = execVrmax t w chk s := rfl

theorem exec_vtopk : exec (.vtopk t w chk) s = execVtopk t w chk s := rfl

theorem exec_vtrans : exec (.vtrans t w chk) s = execVtrans t w chk s := rfl

theorem exec_vfill : exec (.vfill t w chk) s = execVfill t w chk s := rfl

theorem exec_vrand : exec (.vrand t w chk) s = execVrand t w chk s := rfl

theorem exec_vidx : exec (.vidx t w chk) s = execVidx t w chk s := rfl

theorem exec_xround : exec (.xround t w chk) s = execXround t w chk s := rfl

theorem exec_xzero : exec (.xzero t w chk) s = execXzero t w chk s := rfl

theorem exec_mm : exec (.mm t w chk) s = execMm t w chk s := rfl

theorem exec_mmta : exec (.mmta t w chk) s = execMmta t w chk s := rfl

theorem exec_xadd : exec (.xadd t w chk) s = execXadd t w chk s := rfl

theorem exec_xmerge : exec (.xmerge t w chk) s = execXmerge t w chk s := rfl

end

/-! ## Reductions and moves that depend on more than their gate -/

section
variable {t : Fin 272} {w : Entry} {s : State}

/-- VRSUM whose sums all stay in their range stores them and leaves the non-finite flag alone (R110). -/
theorem exec_vrsum_inRange (h : s.vecReady t.val 0x39 w = true)
    (hsums : (((s.vRowsOf t.val 0x39 (s.opForm t.val (vBlocks 0x39) w)).map exactSum).any fun x => x.2) = false) :
    let v := s.opForm t.val (vBlocks 0x39) w
    exec (.vrsum t w .pass) s = .next (s.vStore t.val 0x39 v (vRegs 0x39 v) (vRows v) 1
      (((s.vRowsOf t.val 0x39 v).map exactSum).map fun x => exactVal x.1)) := by
  rw [exec_vrsum, execVrsum, next_vector_ready _ h]
  dsimp only
  rw [if_neg (Bool.eq_false_iff.mp hsums)]

/-- VTOPK to FP32 withholds nothing: the columns go to B and the values to D (R101; log 32). -/
theorem exec_vtopk_fp32 (h : s.vecReady t.val 0x3B w = true)
    (hfmt : lvFmt (s.opForm t.val (vBlocks 0x3B) w) 3 = 0) :
    let v := s.opForm t.val (vBlocks 0x3B) w
    let tops := (s.vRowsOf t.val 0x3B v).map (topK (vK v))
    exec (.vtopk t w .pass) s = .next ((s.writeSlots t.val (lvAddr v 2) (lvTensor v 2) 0 0
      (wideBlocks 0 (tops.flatMap fun r => r.map fun x => x.2))).vStore t.val 0x3B v (vRegs 0x3B v) (vRows v) (vK v)
        ((tops.map fun r => r.map fun x => x.1).flatMap fun r => r)) := by
  rw [exec_vtopk, execVtopk, next_vector_ready _ h]
  dsimp only
  rw [if_neg (by simp [hfmt])]

/-- The rows that a list of row numbers picks, where each of them names a row: free values play no part. -/
theorem pickRows_of_lt {is : List Nat} {rows : Nat} (cols : Nat) (row free : Nat → Nat → Nat) (h : ∀ i ∈ is, i < rows) :
    (is.zipIdx.flatMap fun i => (List.range cols).map fun c => if i.1 < rows then row i.1 c else free i.2 c) =
      is.flatMap fun i => (List.range cols).map (row i) := by
  have hfst : is = is.zipIdx.map Prod.fst := by simp
  conv_rhs => rw [hfst, List.flatMap_map]
  refine List.flatMap_congr fun x hx => List.map_congr_left fun c _ => ?_
  rw [if_pos (h x.1 (List.fst_mem_of_mem_zipIdx hx))]

/-- VIDX whose indices all name rows of A gives those rows and uses no free value (R101; log 32). -/
theorem exec_vidx_inside (h : s.vecReady t.val 0x42 w = true)
    (hidx : ∀ i ∈ s.codesAt t.val (lvAddr (s.opForm t.val (vBlocks 0x42) w) 2) 0
      (vRows (s.opForm t.val (vBlocks 0x42) w)), i < vRows (s.opForm t.val (vBlocks 0x42) w)) :
    let v := s.opForm t.val (vBlocks 0x42) w
    let cs := s.codesAt t.val (lvAddr v 1) (lvFmt v 1) (vRows v * vCols v)
    exec (.vidx t w .pass) s = .next (s.plainD t.val v (vRegs 0x42 v) (lvFmt v 1)
      ((s.codesAt t.val (lvAddr v 2) 0 (vRows v)).flatMap fun i =>
        (List.range (vCols v)).map fun c => cs.getD (i * vCols v + c) 0)) := by
  intro v cs
  have hout : (s.codesAt t.val (lvAddr v 2) 0 (vRows v)).filter (fun i => decide (vRows v ≤ i)) = [] :=
    List.filter_eq_nil_iff.mpr fun i hi => by simpa using hidx i hi
  rw [exec_vidx, execVidx, next_vector_ready _ h]
  dsimp only
  rw [if_pos (by rw [hout]; simp)]
  exact congrArg (fun x => Host.Outcome.next (s.plainD t.val v (vRegs 0x42 v) (lvFmt v 1) x))
    (pickRows_of_lt (vCols v) (fun i c => cs.getD (i * vCols v + c) 0)
      (fun j c => (Config.freeValue (s.free + j * vCols v + c)).toNat % 2 ^ fmtWidth (lvFmt v 1)) hidx)

/-! ## Macro-ops that update in place (R105, R113) -/

/-- A vector operation of an in-place form that is ready saves its pre-images first (R113). -/
theorem next_vector_inPlace {c : Nat} (body : State → Entry → List Reg → State) (hc : c = 0x48 ∨ c = 0x49)
    (h : s.opReady t.val c w (vBad c) (vRegs c) (vBlocks c) = true)
    (hslots : s.slotsGood t.val (vRegs c (s.opForm t.val (vBlocks c) w)) = true) :
    let v := s.opForm t.val (vBlocks c) w
    let rs := vRegs c v
    (.next (s.vector t.val c w .pass body) : Host.Outcome State Fault Refusal) =
      .next (s.withPre t.val v rs rs [] fun a => body a v rs) := by
  have hpre : (c == 0x48 || c == 0x49) = true := by simpa using hc
  refine (next_macroOp_ready _ h).trans ?_
  dsimp only
  rw [State.compute_pass _ _ hslots, hpre, Bool.true_or, if_pos rfl]

/-- A matrix operation that does not accumulate onto its own result works at once (R105). -/
theorem State.compute_matrix {t : Nat} {v : Entry} {rs : List Reg} (ta : Bool) (hslots : s.slotsGood t rs = true)
    (hacc : mmAcc v < 2) :
    s.compute t v rs .pass (decide (2 ≤ mmAcc v)) (fun a => a.matrixRun t ta v rs) = s.matrixRun t ta v rs := by
  rw [State.compute_pass _ _ hslots, if_neg (by simpa using hacc)]

end

end Sys2Proof.Machine

/-! ## The obligations -/

open Sys2Proof Sys2Proof.Machine

/-- Settles O19, one operation after the other. -/
theorem reductionsComplete : Obligations.ReductionsComplete := by
  refine ⟨?vrsum, ?vrmax, ?vtopk, ?vtrans, ?vfill, ?vrand, ?vidx, ?xround, ?xzero⟩
  case vrsum =>
    intro t w s h v rs sums hsums
    exact exec_vrsum_inRange h hsums
  case vrmax =>
    intro t w s h
    exact (exec_vrmax t w .pass s).trans (next_vector_ready _ h)
  case vtopk =>
    intro t w s h v rs tops hfmt
    exact exec_vtopk_fp32 h hfmt
  case vtrans =>
    intro t w s h
    exact (exec_vtrans t w .pass s).trans (next_vector_ready _ h)
  case vfill =>
    intro t w s h
    exact (exec_vfill t w .pass s).trans (next_vector_ready _ h)
  case vrand =>
    intro t w s h
    exact (exec_vrand t w .pass s).trans (next_vector_ready _ h)
  case vidx =>
    intro t w s h v rs cs is hidx
    exact exec_vidx_inside h hidx
  case xround =>
    intro t w s h
    exact (exec_xround t w .pass s).trans (next_vector_ready _ h)
  case xzero =>
    intro t w s h
    exact (exec_xzero t w .pass s).trans (next_vector_ready _ h)

/-- Settles O20: MM and MMTA by the compute gate, XADD and XMERGE by the in-place one. -/
theorem matrixAndExactComplete : Obligations.MatrixAndExactComplete := by
  refine ⟨?mm, ?mmta, ?xadd, ?xmerge⟩
  case mm =>
    intro t w s blocks h v hslots hacc
    exact (exec_mm t w .pass s).trans
      ((next_macroOp_ready _ h).trans (congrArg _ (State.compute_matrix false hslots hacc)))
  case mmta =>
    intro t w s blocks h v hslots hacc
    exact (exec_mmta t w .pass s).trans
      ((next_macroOp_ready _ h).trans (congrArg _ (State.compute_matrix true hslots hacc)))
  case xadd =>
    intro t w s h v rs hslots
    exact (exec_xadd t w .pass s).trans (next_vector_inPlace _ (.inl rfl) h hslots)
  case xmerge =>
    intro t w s h v rs hslots
    exact (exec_xmerge t w .pass s).trans (next_vector_inPlace _ (.inr rfl) h hslots)

end

section
/-!
PROOFS. Writes of the queues' registers, doorbells, heartbeats and the interrupt delay (06_streams_pace_and_meridian.md
R118; 14_host_coupling.md R329 to R331, R339): what the operation of a write does to a queue in the states that it names,
then one lemma per command.
-/

namespace Sys2Proof.Machine

open Sys2Proof

/-! ## The dispatcher's arms for queues -/

theorem exec_queueEnWrite (path : Path) (q : QueueId) (en : Bool) (s : State) :
    exec (.queueEnWrite path q en) s = execQueueEnWrite path q en s := rfl

theorem exec_queueRestart (path : Path) (q : QueueId) (s : State) :
    exec (.queueRestart path q) s = execQueueRestart path q s := rfl

theorem exec_queueTailWrite (path : Path) (q : QueueId) (tail : Nat) (s : State) :
    exec (.queueTailWrite path q tail) s = execQueueTailWrite path q tail s := rfl

theorem exec_completionRingRoom (path : Path) (q : QueueId) (head : Nat) (s : State) :
    exec (.completionRingRoom path q head) s = execCompletionRingRoom path q head s := rfl

theorem exec_doorbell (fn : Fin 256) (slot qn tail : Nat) (s : State) :
    exec (.doorbell fn slot qn tail) s = execDoorbell fn slot qn tail s := rfl

theorem exec_heartbeat (fn : Fin 256) (slot : Nat) (s : State) :
    exec (.heartbeat fn slot) s = execHeartbeat fn slot s := rfl

theorem exec_interruptDelayExpire (c : Fin 4096) (s : State) :
    exec (.interruptDelayExpire c) s = execInterruptDelayExpire c s := rfl

/-! ## What a write does to its queue (R118, R330, R331) -/

section
variable {s : State} {q : QueueId}

/-- EN 1 on a queue that is off and whose setup is good starts it. -/
theorem State.writeEn_start (hen : s.get (qEn q) = 0) (hgood : s.queueSetupGood q = true) :
    s.writeEn q true =
      if QueueId_isList q then (s.setEn q 1).put (qState q) 1
      else ((s.setEn q 1).put (qState q) 1).setQueue q
        { ((s.setEn q 1).put (qState q) 1).queue q with phase := true } := by
  rw [State.writeEn, if_pos rfl, if_neg (by simp [hen]), if_pos hgood]
  cases q <;> rfl

/-- EN 0 on a queue of an engine or a context has no feeds to cancel. -/
theorem State.writeEn_stop_of_not_isList (s : State) (hq : QueueId_isList q = false) :
    s.writeEn q false = (s.setEn q 0).put (qState q) 0 := by
  cases q with
  | workList p w => cases hq
  | haloQp _ _ => rfl
  | orrQp _ _ => rfl
  | collCh _ _ => rfl
  | cmdRing _ => rfl

/-- RESTART of a Stopped queue whose completion ring holds no records back. -/
theorem State.restart_stopped (hst : s.get (qState q) = 2) (hheld : (s.queue (s.cqOf q)).heldRecs = []) :
    s.restart q = s.put (qState q) 1 := by
  rw [State.restart, if_pos hst]
  exact if_pos hheld

/-- A TAIL inside the ring wakes the queue's partition. -/
theorem State.writeTail_inside {tail p : Nat} (ht : tail < s.ringSize q) (hp : s.queuePart q = some p) :
    s.writeTail q tail = (s.wakePart p).put (qTail q) tail := by
  rw [State.writeTail, if_pos ht, hp]

/-- A TAIL outside the ring is discarded with the event of REFUSED_CAPACITY. -/
theorem State.writeTail_outside {tail : Nat} (ht : s.ringSize q ≤ tail) :
    s.writeTail q tail = s.queueEvent q (s.get (qHead q)) 0x12 :=
  if_neg (Nat.not_lt.mpr ht)

end

/-! ## The commands -/

section
variable {s : State} (hw : s.takesWrites = true)
include hw

section
variable {path : Path} {q : QueueId} (hp : s.queuePath path q = true)
include hp

/-- A write of EN by a path that may write the queue's registers (R118). -/
theorem exec_queueEnWrite_taken (en : Bool) : exec (.queueEnWrite path q en) s = .next (s.writeEn q en) := by
  rw [exec_queueEnWrite, execQueueEnWrite, State.ctrl_takesWrites _ _ hw hp]

/-- RESTART by such a path (R118). -/
theorem exec_queueRestart_taken : exec (.queueRestart path q) s = .next (s.restart q) := by
  rw [exec_queueRestart, execQueueRestart, State.ctrl_takesWrites _ _ hw hp]

/-- A write of TAIL by such a path (R118). -/
theorem exec_queueTailWrite_taken (tail : Nat) : exec (.queueTailWrite path q tail) s = .next (s.writeTail q tail) := by
  rw [exec_queueTailWrite, execQueueTailWrite, State.ctrl_takesWrites _ _ hw hp]

/-- A write of CQ_HEAD inside the ring writes the records held back while there is room (R331). -/
theorem exec_completionRingRoom_inside {head : Nat} (hq : QueueId_isList q = false) (hh : head < s.ringSize q) :
    exec (.completionRingRoom path q head) s =
      .next ((s.put (cqHead q) head).drainRecs q (s.queue q).heldRecs) := by
  rw [exec_completionRingRoom, execCompletionRingRoom, State.ctrl_takesWrites _ _ hw (by simp [hp, hq, hh])]
  dsimp only
  rw [State.put_queue]

end

/-- A doorbell of a queue of its page's context, while the function is not in Orphan (R329). -/
theorem exec_doorbell_owned {fn : Fin 256} {slot qn n : Nat} {q : QueueId} (tail : Nat)
    (hn : s.ctxOf fn.val slot = some n) (hst : s.get (PCIE_FN_CFG_STATE fn.val) ≠ 2) (hq : queueOfNumber n qn = some q)
    (ho : (s.beat fn.val).owner q = n) :
    exec (.doorbell fn slot qn tail) s = .next ((s.beat fn.val).writeTail q tail) := by
  rw [exec_doorbell, execDoorbell, State.ctrl_takesWrites _ _ hw rfl, hn]
  dsimp only
  rw [if_neg hst, hq]
  dsimp only
  rw [if_pos ho]

/-- A heartbeat through a page that is assigned (R339). -/
theorem exec_heartbeat_assigned {fn : Fin 256} {slot n : Nat} (hn : s.ctxOf fn.val slot = some n) :
    exec (.heartbeat fn slot) s = .next (s.beat fn.val) := by
  rw [exec_heartbeat, execHeartbeat, State.ctrl_takesWrites _ _ hw (by simp [hn])]

end

/-- The interrupt delay of a context with unsignalled records raises its vector (R330). -/
theorem exec_interruptDelayExpire_pending {c : Fin 4096} {s : State} (hon : s.on = true)
    (hp : (s.ctx c.val).irqPending = true) (hitr : s.get (CTX_PAGE_ITR_US c.val) ≠ 0) :
    exec (.interruptDelayExpire c) s = .next (s.raiseIrq c.val) := by
  rw [exec_interruptDelayExpire, execInterruptDelayExpire, if_pos (by simp [hon, hp, hitr])]

/-! ## What a heartbeat changes (R339) -/

theorem State.beat_get_lastHb (s : State) (f : Nat) : (s.beat f).get (PCIE_FN_CFG_LAST_HB f) = s.now := by
  rw [State.beat, State.setFn_get, State.put_get_eq _ (Nat.zero_le _) (Nat.lt_succ_self 63) s.now_lt]

theorem State.beat_rd_other (s : State) {f off : Nat} (h : off ≠ (PCIE_FN_CFG_LAST_HB f).off) :
    (s.beat f).rd off = s.rd off := by
  rw [State.beat, State.setFn_rd, State.put_rd_other _ _ h]

end Sys2Proof.Machine

/-! ## The obligation -/

open Sys2Proof Sys2Proof.Machine

/-- Settles O10, one command after the other. -/
theorem queueWritesComplete : Obligations.QueueWritesComplete := by
  refine ⟨?start, ?stop, ?restart, ?tail, ?tailOutside, ?room, ?doorbell, ?heartbeat, ?interruptDelay⟩
  case start =>
    intro path q s hw hp hen hgood
    rw [exec_queueEnWrite_taken hw hp, State.writeEn_start hen hgood]
    exact ⟨fun hl => by rw [if_pos hl], fun hl => by rw [if_neg (by simp [hl])]⟩
  case stop =>
    intro path q s hw hp hq
    rw [exec_queueEnWrite_taken hw hp, s.writeEn_stop_of_not_isList hq]
  case restart =>
    intro path q s hw hp hst hheld
    rw [exec_queueRestart_taken hw hp, State.restart_stopped hst hheld]
  case tail =>
    intro path q tail s p hw hp ht hpart
    rw [exec_queueTailWrite_taken hw hp, State.writeTail_inside ht hpart]
  case tailOutside =>
    intro path q tail s hw hp ht
    rw [exec_queueTailWrite_taken hw hp, State.writeTail_outside ht]
  case room =>
    intro path q head s hw hp hq hh
    exact exec_completionRingRoom_inside hw hp hq hh
  case doorbell =>
    intro fn slot qn tail s n q hw hn hst hq ho
    exact exec_doorbell_owned hw tail hn hst hq ho
  case heartbeat =>
    intro fn slot s n hw hn
    exact ⟨s.beat fn.val, exec_heartbeat_assigned hw hn, s.beat_get_lastHb fn.val, fun _ hoff => s.beat_rd_other hoff,
      rfl, rfl, rfl, rfl⟩
  case interruptDelay =>
    intro c s hon hp hitr
    exact exec_interruptDelayExpire_pending hon hp hitr

end

section
/-!
PROOFS. Work lists and their step gate (06_streams_pace_and_meridian.md R119 to R122, R126, R130, R135): the gate's answers
as facts about steps modulo 2^32, what the head of a list does with an entry that its gate cancels or holds back, then one
lemma per kind of entry and per event of an entry or stream.
-/

namespace Sys2Proof.Machine

open Sys2Proof

/-! ## The dispatcher's arms for work lists and streams -/

theorem exec_run (p : Fin 128) (l : Fin 8) (s : State) : exec (.run p l) s = execRun p l s := rfl

theorem exec_feedStart (p : Fin 128) (l : Fin 8) (s : State) : exec (.feedStart p l) s = execFeedStart p l s := rfl

theorem exec_notify (p : Fin 128) (l : Fin 8) (s : State) : exec (.notify p l) s = execNotify p l s := rfl

theorem exec_meridian (p : Fin 128) (l : Fin 8) (s : State) : exec (.meridian p l) s = execMeridian p l s := rfl

theorem exec_entryComplete (p : Fin 128) (l : Fin 8) (seq : Nat) (s : State) :
    exec (.entryComplete p l seq) s = execEntryComplete p l seq s := rfl

theorem exec_streamAccessResume (i : Fin 1024) (s : State) :
    exec (.streamAccessResume i) s = execStreamAccessResume i s := rfl

theorem exec_streamWatchdogExpire (i : Fin 1024) (s : State) :
    exec (.streamWatchdogExpire i) s = execStreamWatchdogExpire i s := rfl

/-! ## The step gate (R121) -/

theorem stepLe_iff (a b : Nat) : stepLe a b = true ↔ (b + 2 ^ 32 - a) % 2 ^ 32 < 2 ^ 31 := decide_eq_true_iff

theorem stepLe_refl (a : Nat) : stepLe a a = true := by
  rw [stepLe_iff]
  omega

/-- The step after the last committed one is not at or before it, across the wrap too. -/
theorem stepLe_next_eq_false {c : Nat} (hc : c < 2 ^ 32) : stepLe ((c + 1) % 2 ^ 32) c = false := by
  rw [← Bool.not_eq_true, stepLe_iff]
  omega

section
variable (c step : Nat)

/-- An entry with EVAL 0 is cancelled at a step already committed. -/
theorem gate_train_cancelled_iff : gate c step false = some true ↔ stepLe step c = true := by
  cases h : stepLe step c <;> simp [gate, h]

/-- An entry with EVAL 0 dispatches at the step after the last committed one alone. -/
theorem gate_train_dispatched_iff (hc : c < 2 ^ 32) : gate c step false = some false ↔ step = (c + 1) % 2 ^ 32 := by
  rw [gate, if_neg (by decide)]
  cases h : stepLe step c with
  | true =>
    have hne : step ≠ (c + 1) % 2 ^ 32 := by
      rintro rfl
      exact Bool.noConfusion (h.symm.trans (stepLe_next_eq_false hc))
    exact iff_of_false (by simp) hne
  | false => simp

/-- An entry with EVAL 1 dispatches at the last committed step alone. -/
theorem gate_eval_dispatched_iff : gate c step true = some false ↔ step = c := by
  cases h : stepLe step c <;> simp [gate, h]

/-- An entry with EVAL 1 is cancelled at a step before the last committed one. -/
theorem gate_eval_cancelled_iff : gate c step true = some true ↔ step ≠ c ∧ stepLe step c = true := by
  cases h : stepLe step c <;> simp [gate, h]

end

/-! ## Entries at the head of a list that do not dispatch (R120 to R122) -/

section
variable {s : State} {p w : Nat} {e : Entry} (hhas : s.ringHas (.workList p w) = true)
  (he : s.ringEntry (.workList p w) = some e)
include hhas he

/-- The list that does not dispatch entries of a step leaves them at its head. -/
theorem State.wlHead_of_not_listRuns {kind : Nat} (body : Entry → State) (hr : s.listRuns p w (weStep e) = false) :
    s.wlHead p w kind body = s := by
  unfold State.wlHead
  dsimp only
  rw [if_neg (by simp [hhas]), he]
  dsimp only
  rw [if_pos (by simp [hr])]

variable (hbad : s.entryBad p w e = none) (hdep : Entry_bits e 2 31 31 = 0)
include hbad hdep

/-- A well-formed entry whose gate has not come stays at the head, whatever command looks at it. -/
theorem State.wlHead_of_gate_none {kind : Nat} (body : Entry → State)
    (hg : gate (s.committed p) (weStep e) (weEval e) = none) : s.wlHead p w kind body = s := by
  unfold State.wlHead
  simp [hhas, he, hbad, hdep, hg]

/-- A well-formed entry whose gate has passed is consumed and completes with CANCELLED. -/
theorem State.wlHead_of_gate_cancelled (body : Entry → State) (hr : s.listRuns p w (weStep e) = true)
    (hg : gate (s.committed p) (weStep e) (weEval e) = some true) :
    s.wlHead p w (weKind e) body =
      (s.consume p w).complete (.workList p w) (weSeq e) (weStep e) .cancelled 0 0 := by
  unfold State.wlHead
  simp [hhas, he, hr, hbad, hdep, hg]

end

/-- While a drain holds a list, it dispatches no entry of a step after the last that the drain lets finish (R57). -/
theorem State.listRuns_of_held {s : State} {p w step last : Nat} {a : Armed} (hst : s.get (qState (.workList p w)) = 3)
    (ha : s.cfg.armed = some a) (hlast : a.lastStep.find? (fun x => x.1 == p) = some (p, last))
    (hstep : stepLe step last = false) : s.listRuns p w step = false := by
  unfold State.listRuns
  rw [ha]
  dsimp only
  rw [hst, hlast, Option.any_some, hstep]
  exact Bool.and_false _

/-! ## The entries that dispatch (R119, R120, R130, R135) -/

section
variable {p : Fin 128} {l : Fin 8} {s : State} {e : Entry}

/-- RUN without a feed, on an idle tile that is not drained, starts its program. -/
theorem exec_run_started (h : s.listHeadReady p.val l.val 1 e = true)
    (hroom : s.get (QD_JOURNAL_STATUS_RECORDS (quadOfTile (s.physOf (weTile e)))) < 65536)
    (hidle : s.get (TILE_STATUS_STATE (s.physOf (weTile e))) = 0)
    (hdrain : s.flt.draining.contains (10, quadOfTile (s.physOf (weTile e))) = false) (hsrc : s.sourceServes e = true)
    (hfeed : Entry_bits e 0 46 46 = 0) :
    exec (.run p l) s = .next (s.startRun p.val l.val e (s.physOf (weTile e))) := by
  rw [exec_run, execRun, State.wlHead_ready _ h]
  dsimp only
  rw [if_neg (Nat.not_le.mpr hroom), if_neg (by simp only [hidle, hdrain, hsrc]; decide), if_neg (by simp [hfeed])]

/-- RUN while the quadrant's journal has no free record counts its wait (R374). -/
theorem exec_run_journal_full (h : s.listHeadReady p.val l.val 1 e = true)
    (hfull : 65536 ≤ s.get (QD_JOURNAL_STATUS_RECORDS (quadOfTile (s.physOf (weTile e))))) :
    exec (.run p l) s = .next (s.inc (QD_JOURNAL_COUNT_WAITS (quadOfTile (s.physOf (weTile e)))) 1) := by
  rw [exec_run, execRun, State.wlHead_ready _ h]
  dsimp only
  rw [if_pos hfull]

/-- A feed in its context's view that has not started starts, and is marked. -/
theorem exec_feedStart_started {t : State} (h : s.listHeadReady p.val l.val 1 e = true)
    (hfeed : Entry_bits e 0 46 46 = 1)
    (hnew : s.feedStarted p.val l.val (weSeq e) (Entry_bits e 6 63 52) = false)
    (ht : s.startFeed p.val l.val e = some t) :
    exec (.feedStart p l) s = .next (t.markFeed p.val l.val (weSeq e) (Entry_bits e 6 63 52)) := by
  rw [exec_feedStart, execFeedStart, State.wlHead_ready _ h]
  dsimp only
  rw [if_neg (by simp [hfeed, hnew]), ht]

/-- NOTIFY dispatches and completes with the entries before it. -/
theorem exec_notify_dispatched (h : s.listHeadReady p.val l.val 3 e = true) :
    let t := s.dispatch p.val l.val e
    let x := t.wlist p.val l.val
    exec (.notify p l) s = .next (State.notifyHeads (x.inflight.length + 1)
      (t.setWlist p.val l.val { x with later := x.later ++ [⟨weSeq e, 3, 0⟩] }) p.val l.val) := by
  rw [exec_notify, execNotify, State.wlHead_ready _ h]

/-- MERIDIAN dispatches, and arrives at the barrier of its scope with the Halo engines that join it (R209, log 29). -/
theorem exec_meridian_dispatched (h : s.listHeadReady p.val l.val 2 e = true) :
    let t := s.dispatch p.val l.val e
    let x := t.wlist p.val l.val
    exec (.meridian p l) s = .next (((t.setWlist p.val l.val
      { x with later := x.later ++ [⟨weSeq e, Entry_bits e 4 1 0, Entry_bits e 5 31 0⟩] }).haloArrive p.val
        (Entry_bits e 4 1 0)).arriveLater p.val) := by
  rw [exec_meridian, execMeridian, State.wlHead_ready _ h]

/-! ## The ends of entries and the waits of streams (R122, R126) -/

/-- The program of an entry in flight has ended on its tile, whose control core runs. -/
theorem exec_entryComplete_finished {seq : Nat} {kv : Nat × Tile} {st : Status} (hl : s.live = true)
    (hin : s.isInflight p.val l.val seq = true)
    (hkv : (s.tiles.find? fun kv => kv.2.entry.any fun e => e.part == p.val && e.list == l.val && e.seq == seq) = some kv)
    (hst : kv.2.finished = some st) (hdrain : s.flt.draining.contains (10, quadOfTile kv.1) = false) :
    exec (.entryComplete p l seq) s = .next (s.finishRun p.val l.val seq kv.1 st) := by
  rw [exec_entryComplete, execEntryComplete, if_pos (by simp [hl, hin]), hkv]
  dsimp only
  rw [hst]
  dsimp only
  rw [hdrain, if_neg (by decide)]

end

section
variable {i : Fin 1024} {s : State} (hl : s.live = true)
include hl

/-- The feeds of a stream go on, where no tile's access waits on it after them. -/
theorem exec_streamAccessResume_feeds
    (hw : ∀ w ∈ ((s.feeds.filter fun f => f.stream == i.val).foldl (fun (t : State) f => t.feedResume f) s).waits,
      w.stream ≠ i.val) :
    exec (.streamAccessResume i) s =
      .next ((s.feeds.filter fun f => f.stream == i.val).foldl (fun (t : State) f => t.feedResume f) s) := by
  have hnone : (((s.feeds.filter fun f => f.stream == i.val).foldl (fun (t : State) f => t.feedResume f) s).waits.filter
      fun w => w.stream == i.val) = [] := List.filter_eq_nil_iff.mpr fun w hmem => by simp [hw w hmem]
  rw [exec_streamAccessResume, execStreamAccessResume, if_pos hl]
  dsimp only
  rw [hnone, List.foldl_nil]

/-- The first access that has waited on a stream for WATCHDOG ends with TIMEOUT. -/
theorem exec_streamWatchdogExpire_due {d : StreamDef} {w : StreamWait} (hd : s.stream i.val = some d)
    (hw : (s.waits.find? fun w => w.stream == i.val) = some w) (hdue : w.since + s.watchdog d.part * 1000 ≤ s.now) :
    exec (.streamWatchdogExpire i) s =
      .next ((({ s with waits := s.waits.filter (· != w) } : State).endIssued w.tile w.n .timeout).evLim 0x7106 i.val 0 0
        i.val (if w.load then 1 else 0)) := by
  rw [exec_streamWatchdogExpire, execStreamWatchdogExpire, if_pos hl, hd, hw]
  dsimp only
  rw [if_neg (Nat.not_lt.mpr hdue)]

end

end Sys2Proof.Machine

/-! ## The obligations -/

open Sys2Proof Sys2Proof.Machine

/-- Settles O21, one entry or event after the other. -/
theorem workListCompletes : Obligations.WorkListCompletes := by
  refine ⟨?run, ?runWaits, ?feedStart, ?notify, ?meridian, ?entryComplete, ?accessResume, ?watchdog⟩
  case run =>
    intro p l s e h t hroom hidle hdrain hsrc hfeed
    exact exec_run_started h hroom hidle hdrain hsrc hfeed
  case runWaits =>
    intro p l s e h t hfull
    exact exec_run_journal_full h hfull
  case feedStart =>
    intro p l s e t h hfeed hnew ht
    exact exec_feedStart_started h hfeed hnew ht
  case notify =>
    intro p l s e h
    exact exec_notify_dispatched h
  case meridian =>
    intro p l s e h
    exact exec_meridian_dispatched h
  case entryComplete =>
    intro p l seq s kv st hl hin hkv hst hdrain
    exact exec_entryComplete_finished hl hin hkv hst hdrain
  case accessResume =>
    intro i s hl t hw
    exact exec_streamAccessResume_feeds hl hw
  case watchdog =>
    intro i s d w hl hd hw hdue
    exact exec_streamWatchdogExpire_due hl hd hw hdue

/-- Settles O53: the gate's answers, the head of a list where its entry is cancelled or waits, and the lists that a drain
holds. -/
theorem stepGateHolds : Obligations.StepGateHolds := by
  refine ⟨?gate, ?head, ?held⟩
  case gate =>
    intro c step hc _
    exact ⟨(gate_train_cancelled_iff c step).trans (stepLe_iff step c), gate_train_dispatched_iff c step hc,
      gate_eval_dispatched_iff c step, (gate_eval_cancelled_iff c step).trans (and_congr_right' (stepLe_iff step c))⟩
  case head =>
    intro p l s e hhas he hbad hdep
    refine ⟨fun hr hg => ?cancelled, fun hwait => ?waits⟩
    case cancelled =>
      have hcancel (body : Entry → State) := State.wlHead_of_gate_cancelled hhas he hbad hdep body hr hg
      refine ⟨fun hk => ?_, fun hk => ?_, fun hk => ?_⟩
      · rw [exec_run, execRun, ← hk, hcancel]
      · rw [exec_meridian, execMeridian, ← hk, hcancel]
      · rw [exec_notify, execNotify, ← hk, hcancel]
    case waits =>
      have hstay (kind : Nat) (body : Entry → State) : s.wlHead p.val l.val kind body = s :=
        hwait.elim (State.wlHead_of_not_listRuns hhas he body) (State.wlHead_of_gate_none hhas he hbad hdep body)
      refine ⟨?_, ?_, ?_⟩
      · rw [exec_run, execRun, hstay]
      · rw [exec_meridian, execMeridian, hstay]
      · rw [exec_notify, execNotify, hstay]
  case held =>
    intro s p l step a last hst ha hlast hstep
    exact State.listRuns_of_held hst ha hlast hstep

end

section
/-!
PROOFS. The pace (06_streams_pace_and_meridian.md R139 to R142; R432): writes of PACE_SET, the group boundary, stretches,
PACE_EPOCH and PACE_REF.  The statement about the group boundary fails at LIMITER: it reads the field as 3 bits wide, and
the model, as its register table, has bits 35 to 32.
-/

namespace Sys2Proof.Machine

open Sys2Proof

/-! ## The dispatcher's arms for the pace -/

theorem exec_paceSetWrite (path : Path) (v : Nat) (s : State) :
    exec (.paceSetWrite path v) s = execPaceSetWrite path v s := rfl

theorem exec_paceGroupBoundary (groups : Nat) (s : State) :
    exec (.paceGroupBoundary groups) s = execPaceGroupBoundary groups s := rfl

theorem exec_droopTrip (d : Fin 1088) (s : State) : exec (.droopTrip d) s = execDroopTrip d s := rfl

theorem exec_droopClear (slots : Nat) (s : State) : exec (.droopClear slots) s = execDroopClear slots s := rfl

theorem exec_paceEpoch (s : State) : exec .paceEpoch s = execPaceEpoch s := rfl

theorem exec_paceRefLoss (s : State) : exec .paceRefLoss s = execPaceRefLoss s := rfl

theorem exec_paceRefResume (s : State) : exec .paceRefResume s = execPaceRefResume s := rfl

/-! ## PACE_SET (R140) -/

section
variable {lo hi v : Nat}

theorem clampTo_of_mem (hlo : lo ≤ v) (hhi : v ≤ hi) : clampTo lo hi v = v := by
  rw [clampTo, if_neg (Nat.not_lt.mpr hlo), if_neg (Nat.not_lt.mpr hhi)]

theorem clampTo_of_lt (h : v < lo) : clampTo lo hi v = lo := if_pos h

theorem clampTo_of_gt (hle : lo ≤ hi) (h : hi < v) : clampTo lo hi v = hi := by
  rw [clampTo, if_neg (by omega), if_pos h]

theorem clampTo_le (hle : lo ≤ hi) : clampTo lo hi v ≤ hi := by
  unfold clampTo
  split_ifs <;> omega

end

/-- The state after a write of PACE_SET: the value clamped, and whether it was. -/
def State.withPaceSet (s : State) (v : Nat) : State :=
  { s.put HUB_PACE_CFG_PACE_SET (clampTo 16 384 v) with
    pace := if clampTo 16 384 v = v then s.pace else { s.pace with clamped := true } }

theorem exec_paceSetWrite_taken {s : State} {path : Path} (v : Nat) (hw : s.takesWrites = true)
    (hp : ctrlPath path = true) : exec (.paceSetWrite path v) s = .next (s.withPaceSet v) := by
  rw [exec_paceSetWrite, execPaceSetWrite, State.ctrl_takesWrites _ _ hw hp, State.withPaceSet]
  by_cases hc : clampTo 16 384 v = v
  · simp only [hc, if_true]
    rfl
  · simp only [hc, if_false]
    rfl

theorem State.withPaceSet_get (s : State) (v : Nat) :
    (s.withPaceSet v).get HUB_PACE_CFG_PACE_SET = clampTo 16 384 v := by
  have hlt : clampTo 16 384 v < 2 ^ 9 := Nat.lt_of_le_of_lt (clampTo_le (by decide)) (by decide)
  exact s.put_get_eq (f := HUB_PACE_CFG_PACE_SET) (by decide) (by decide) hlt

theorem State.withPaceSet_rd_other (s : State) (v : Nat) {off : Nat} (h : off ≠ HUB_PACE_CFG_PACE_SET.off) :
    (s.withPaceSet v).rd off = s.rd off :=
  s.put_rd_other _ h

theorem State.withPaceSet_pace_of_mem (s : State) {v : Nat} (h : clampTo 16 384 v = v) :
    (s.withPaceSet v).pace = s.pace := if_pos h

theorem State.withPaceSet_clamped (s : State) {v : Nat} (h : clampTo 16 384 v ≠ v) :
    (s.withPaceSet v).pace.clamped = true := by
  rw [State.withPaceSet]
  dsimp only
  rw [if_neg h]

/-! ## The group boundary (R139, R140) -/

/-- A boundary of a running group at which the pace stays and no write was clamped: LIMITER holds the low four bits of
the limiter in force. -/
theorem limiter_of_paceGroupBoundary_quiet {groups : Nat} {s t : State} (hon : s.on = true) (hfr : s.frozen = false)
    (hforced : s.get PWR_STATUS_FORCED ≠ 1) (hst : s.get PWR_STATUS_STATE < 3) (href : s.pace.refPresent = true)
    (hcl : s.pace.clamped = false) (hsame : s.paceNext.1 = s.get HUB_PACE_STATUS_PACE_NOW)
    (ht : exec (.paceGroupBoundary groups) s = .next t) : t.get HUB_PACE_STATUS_LIMITER = s.paceNext.2 % 16 := by
  rw [exec_paceGroupBoundary, execPaceGroupBoundary, if_pos hon] at ht
  dsimp only at ht
  rw [if_neg (by simp [hfr, hforced, hst]), if_neg (by simp [href]), hcl, if_neg (by decide), if_neg (by simp [hsame])] at ht
  cases ht
  exact State.put_get_same (f := HUB_PACE_STATUS_LIMITER) _ _ (by decide) (by decide)

/-! ## Stretches (R141) -/

/-- A trip of a detector that is not masked starts a hold. -/
theorem exec_droopTrip_unmasked {d : Fin 1088} {s : State} (hon : s.on = true)
    (hm : s.pwr.masked.contains d.val = false) :
    exec (.droopTrip d) s = .next { s with
      pace := { s.pace with drooping := true }
      pwr := { s.pwr with tripped := d.val :: s.pwr.tripped.filter (· != d.val), lastDet := d.val } } := by
  rw [exec_droopTrip, execDroopTrip, hon, hm]
  rfl

/-- The end of a hold counts its slots in HELD and the run as one stretch. -/
theorem exec_droopClear_drooping (slots : Nat) {s : State} (hon : s.on = true) (hd : s.pace.drooping = true) :
    let t : State := { s with
      pace := { s.pace with drooping := false, groupHeld := s.pace.groupHeld + slots }
      pwr := { s.pwr with tripped := [], holdBeats := s.pwr.holdBeats + slots } }
    exec (.droopClear slots) s = .next (((t.put HUB_HELD_HELD (s.get HUB_HELD_HELD + slots)).inc
      HUB_PACE_STATUS_STRETCH_COUNT 1).stretchEvent slots s.pwr.lastDet) := by
  rw [exec_droopClear, execDroopClear, hon, hd]
  rfl

/-! ## PACE_EPOCH and PACE_REF (R142, R432) -/

/-- The edge of PACE_EPOCH without a value distributed resets BEAT alone. -/
theorem exec_paceEpoch_none {s : State} (hon : s.on = true) (hv : s.const.epochValue = none) :
    exec .paceEpoch s = .next (s.put HUB_BEAT_BEAT 0) := by
  rw [exec_paceEpoch, execPaceEpoch, if_pos hon, hv]

/-- With a value distributed, the time takes it too. -/
theorem exec_paceEpoch_some {s : State} {v : Nat} (hon : s.on = true) (hv : s.const.epochValue = some v) :
    exec .paceEpoch s = .next (({ s.put HUB_BEAT_BEAT 0 with
      const := { s.const with epochValue := none } } : State).put HUB_TIME_TIME v) := by
  rw [exec_paceEpoch, execPaceEpoch, if_pos hon, hv]
  rfl

/-- PACE_REF back on a powered module: the beats held since the loss are one stretch (log 50). -/
theorem exec_paceRefResume_on {s : State} (href : s.pace.refPresent = false) (hon : s.on = true) :
    let t : State := { s with pace := { s.pace with refPresent := true } }
    exec .paceRefResume s = .next ((t.inc HUB_PACE_STATUS_STRETCH_COUNT 1).stretchEvent
      (s.get HUB_HELD_HELD - s.pace.lossHeld) 0xFFFF) := by
  rw [exec_paceRefResume, execPaceRefResume, href, if_neg (by decide), if_pos hon]

end Sys2Proof.Machine

/-! ## The obligations -/

open Sys2Proof Sys2Proof.Machine

/-- Settles O22: the three ranges of the value, and a write that touches PACE_SET and the pace's own note alone. -/
theorem paceSetClamps : Obligations.PaceSetClamps := by
  intro path v s hw hp
  refine ⟨s.withPaceSet v, exec_paceSetWrite_taken v hw hp, fun hlo hhi => ?inside, fun hgt => ?above, fun hlt => ?below,
    fun _ hoff => s.withPaceSet_rd_other v hoff, rfl, rfl, rfl, rfl⟩
  case inside =>
    have hc : clampTo 16 384 v = v := clampTo_of_mem hlo hhi
    exact ⟨(s.withPaceSet_get v).trans hc, s.withPaceSet_pace_of_mem hc⟩
  case above =>
    have hc : clampTo 16 384 v = 384 := clampTo_of_gt (by decide) hgt
    exact ⟨(s.withPaceSet_get v).trans hc, s.withPaceSet_clamped (by omega)⟩
  case below =>
    have hc : clampTo 16 384 v = 16 := clampTo_of_lt hlt
    exact ⟨(s.withPaceSet_get v).trans hc, s.withPaceSet_clamped (by omega)⟩

/-- Refutes O23: LIMITER is four bits wide (35 to 32), and the statement reads it modulo 8.  A powered module whose power
controller caps the pace at 16, the pace in force, with limiter 8 shows 8 after the boundary. -/
theorem not_paceGroupCountsSlots : ¬ Obligations.PaceGroupCountsSlots := by
  intro h
  obtain ⟨t, ht, -, -, -, -, hlim, -⟩ := h 1 (State.put { State.reset with
    phase := .on
    pwr := { State.reset.pwr with engaged := true, cap := 16, limiter := 8 } } HUB_PACE_STATUS_PACE_NOW 16)
    (by decide) (by decide +kernel) (by decide +kernel) (by decide +kernel) (by decide)
  have hnext := limiter_of_paceGroupBoundary_quiet (by decide) (by decide +kernel) (by decide +kernel)
    (by decide +kernel) (by decide) (by decide) (by decide +kernel) ht
  exact absurd (hlim.symm.trans hnext) (by decide +kernel)

/-- Settles O24, one event after the other. -/
theorem paceEventsComplete : Obligations.PaceEventsComplete := by
  refine ⟨?droopTrip, ?droopClear, ?epoch, exec_paceRefLoss, ?refResume⟩
  case droopTrip =>
    intro d s hon hm
    exact exec_droopTrip_unmasked hon hm
  case droopClear =>
    intro slots s hon hd
    exact exec_droopClear_drooping slots hon hd
  case epoch =>
    intro s hon
    have hbeat : (s.put HUB_BEAT_BEAT 0).get HUB_BEAT_BEAT = 0 := s.put_get_eq (by decide) (by decide) (by decide)
    have hheld : (s.put HUB_BEAT_BEAT 0).get HUB_HELD_HELD = s.get HUB_HELD_HELD :=
      s.put_get_other 0 (by decide) (by decide) (.inl (by decide))
    cases hv : s.const.epochValue with
    | none =>
      have htime : (s.put HUB_BEAT_BEAT 0).get HUB_TIME_TIME = s.get HUB_TIME_TIME :=
        s.put_get_other 0 (by decide) (by decide) (.inl (by decide))
      exact ⟨_, exec_paceEpoch_none hon hv, hbeat, fun _ h => (nomatch h), fun _ => htime, hheld, rfl, rfl, rfl⟩
    | some w =>
      refine ⟨_, exec_paceEpoch_some hon hv, ?beat, ?time, fun h => (nomatch h), ?held, rfl, rfl, rfl⟩
      case beat =>
        exact (State.put_get_other _ w (by decide) (by decide) (.inl (by decide))).trans hbeat
      case time =>
        rintro v ⟨⟩
        exact State.put_get_same (f := HUB_TIME_TIME) _ _ (by decide) (by decide)
      case held =>
        exact (State.put_get_other _ w (by decide) (by decide) (.inl (by decide))).trans hheld
  case refResume =>
    intro s href hon
    exact exec_paceRefResume_on href hon

end

section
/-!
PROOFS. The check, verdict and job barriers, their time-out, DIM tokens and the module Meridian
(06_streams_pace_and_meridian.md R133, R136 to R138; R241, R242, R383): one lemma per event, saying what it does where its
time has come.
-/

namespace Sys2Proof.Machine

open Sys2Proof

/-! ## The dispatcher's arms for barriers and commits -/

theorem exec_parallaxReplayComplete (q : Fin 4) (p : Fin 128) (l : Fin 8) (seq digest : Nat) (status : Status)
    (s : State) : exec (.parallaxReplayComplete q p l seq digest status) s =
      execParallaxReplayComplete q p l seq digest status s := rfl

theorem exec_parallaxWindowExpire (p : Fin 128) (s : State) :
    exec (.parallaxWindowExpire p) s = execParallaxWindowExpire p s := rfl

theorem exec_checkBarrierRelease (p : Fin 128) (s : State) :
    exec (.checkBarrierRelease p) s = execCheckBarrierRelease p s := rfl

theorem exec_verdictRelease (p : Fin 128) (s : State) : exec (.verdictRelease p) s = execVerdictRelease p s := rfl

theorem exec_jobReleaseInstant (p : Fin 128) (s : State) :
    exec (.jobReleaseInstant p) s = execJobReleaseInstant p s := rfl

theorem exec_meridianTimeout (p : Fin 128) (scope : Fin 3) (s : State) :
    exec (.meridianTimeout p scope) s = execMeridianTimeout p scope s := rfl

theorem exec_dimTokenSend (p : Fin 128) (s : State) : exec (.dimTokenSend p) s = execDimTokenSend p s := rfl

theorem exec_moduleMeridianRaise (s : State) : exec .moduleMeridianRaise s = execModuleMeridianRaise s := rfl

/-! ## The events of a partition's step (R136 to R138, R241, R242, R383) -/

section
variable {p : Fin 128} {s : State} (hl : s.live = true)
include hl

section
variable (hv : (s.commit p.val).verdict = true) (ha : (s.commit p.val).arrived = false)
include hv ha

/-- In the verdict phase the replay of a pinned entry is compared with it, and the module arrives once all are. -/
theorem exec_parallaxReplayComplete_pinned {q : Fin 4} {l : Fin 8} {seq : Nat} (digest : Nat) (status : Status) {r : JRec}
    (hr : ((s.pinned p.val).find? fun r => r.quad == q.val && r.list == l.val && r.seq == seq && !r.compared &&
      r.replayTile.isSome) = some r) :
    exec (.parallaxReplayComplete q p l seq digest status) s =
      .next (((s.inc (HUB_PART_PARALLAX_REPLAYED p.val) 1).compared r (status == .done && digest == r.outDigest)
        (status == .nonfinite)).verdictArrive p.val false) := by
  rw [exec_parallaxReplayComplete, execParallaxReplayComplete, if_pos (by simp [hl, hv, ha]), hr]

/-- At the end of the window the module arrives late. -/
theorem exec_parallaxWindowExpire_due
    (hdue : (s.commit p.val).checkInstant +
      clampTo 100 100000 (s.get (HUB_PART_COMMIT_PARALLAX_WINDOW p.val)) * 1000 ≤ s.now) :
    exec (.parallaxWindowExpire p) s = .next (s.verdictArrive p.val true) := by
  have hcond : (s.live && (s.commit p.val).verdict && !(s.commit p.val).arrived && decide ((s.commit p.val).checkInstant +
      clampTo 100 100000 (s.get (HUB_PART_COMMIT_PARALLAX_WINDOW p.val)) * 1000 ≤ s.now)) = true := by
    rw [hl, hv, ha, decide_eq_true hdue]
    rfl
  rw [exec_parallaxWindowExpire, execParallaxWindowExpire, if_pos hcond]

end

section
variable (hd : s.relDue p.val = true)
include hd

/-- T_rel of the check barrier: it decides the step. -/
theorem exec_checkBarrierRelease_due (hc : s.isCheck p.val (s.barrier p.val 2) = true) :
    exec (.checkBarrierRelease p) s = .next (s.jobRelease p.val) := by
  rw [exec_checkBarrierRelease, execCheckBarrierRelease, if_pos (by simp [hl, hd, hc])]

/-- T_rel of the verdict barrier. -/
theorem exec_verdictRelease_due (hv : s.isVerdict p.val (s.barrier p.val 2) = true) :
    exec (.verdictRelease p) s = .next (s.jobRelease p.val) := by
  rw [exec_verdictRelease, execVerdictRelease, if_pos (by simp [hl, hd, hv])]

/-- T_rel of a barrier that is neither. -/
theorem exec_jobReleaseInstant_due (hc : s.isCheck p.val (s.barrier p.val 2) = false)
    (hv : s.isVerdict p.val (s.barrier p.val 2) = false) :
    exec (.jobReleaseInstant p) s = .next ((s.jobRelease p.val).settle) := by
  rw [exec_jobReleaseInstant, execJobReleaseInstant]
  rw [if_pos (by simp [hl, hd, hc, hv])]

end

/-- An open barrier whose deadline has passed before its release is abandoned. -/
theorem exec_meridianTimeout_due {scope : Fin 3} (hopen : (s.barrier p.val scope.val).arrived.isEmpty = false)
    (hrel : (s.barrier p.val scope.val).tRel = none) (hdue : s.deadline (s.barrier p.val scope.val) ≤ s.now) :
    exec (.meridianTimeout p scope) s = .next (s.abandon (s.barrier p.val scope.val)) := by
  rw [exec_meridianTimeout, execMeridianTimeout]
  rw [if_pos (by simp [hl, hopen, hrel, hdue])]

/-- A module with a stack at T2 that does not lead the job sends a DIM token to its parent. -/
theorem exec_dimTokenSend_throttled {k : Nat} (hk : k < 12) (hlevel : s.get (HBM_STACK_STATUS_LEVEL k) = 2)
    (hlead : bitsOf 31 31 (s.rd (HUB_MER_JOB_LEAD p.val).off) = 0) (hvalid : s.partValid p.val = true) :
    exec (.dimTokenSend p) s = .next (s.sendMer (bitsOf 28 24 (s.rd (HUB_MER_JOB_LEAD p.val).off)) true
      (merPayload 2 p.val 0 0 (s.barrier p.val 2).number none 0)) := by
  have hany : ((List.range 12).any fun k => s.get (HBM_STACK_STATUS_LEVEL k) == 2) = true :=
    List.any_eq_true.mpr ⟨k, List.mem_range.mpr hk, beq_iff_eq.mpr hlevel⟩
  rw [exec_dimTokenSend, execDimTokenSend]
  rw [hl, hany, hlead, hvalid]
  exact congrArg _ (if_pos rfl)

end

/-- The Meridian of the module (R133): commit, route flip, table flips, the Deep tier's flip, and the firmware's switch. -/
theorem exec_moduleMeridianRaise_live {s : State} (hl : s.live = true) :
    exec .moduleMeridianRaise s = .next (((((s.commitAt).routeFlipAt).haloFlips).deepFlip).switchStart.settle) := by
  rw [exec_moduleMeridianRaise, execModuleMeridianRaise, if_pos hl, State.moduleMeridian]

end Sys2Proof.Machine

/-! ## The obligation -/

open Sys2Proof Sys2Proof.Machine

/-- Settles O32, one event after the other. -/
theorem commitEventsComplete : Obligations.CommitEventsComplete := by
  refine ⟨?replay, ?window, ?releases, ?timeout, ?dimToken, ?moduleMeridian⟩
  case replay =>
    intro q p l seq digest status s r hl hv ha hr
    exact exec_parallaxReplayComplete_pinned hl hv ha digest status hr
  case window =>
    intro p s hl hv ha hdue
    exact exec_parallaxWindowExpire_due hl hv ha hdue
  case releases =>
    intro p s hl hd
    exact ⟨exec_checkBarrierRelease_due hl hd, exec_verdictRelease_due hl hd, exec_jobReleaseInstant_due hl hd⟩
  case timeout =>
    intro p scope s hl hopen hrel hdue
    exact exec_meridianTimeout_due hl hopen hrel hdue
  case dimToken =>
    intro p k s hl hk hlevel hlead hvalid
    exact exec_dimTokenSend_throttled hl hk hlevel hlead hvalid
  case moduleMeridian =>
    intro s hl
    exact exec_moduleMeridianRaise_live hl

end

section
/-!
PROOFS. Packets of the constellation, of collectives, of notices and of the Meridian (R136, R279 to R284, R289, R299, R305
to R307, R385 to R387): each command names the packets that are its own, and the gate of packets takes them.
-/

namespace Sys2Proof.Machine

open Sys2Proof

/-! ## The dispatcher's arms for control packets -/

theorem exec_time (rx : Rx) (s : State) : exec (.time rx) s = execTime rx s := rfl

theorem exec_constHeartbeat (rx : Rx) (s : State) : exec (.constHeartbeat rx) s = execConstHeartbeat rx s := rfl

theorem exec_constMembership (rx : Rx) (s : State) : exec (.constMembership rx) s = execConstMembership rx s := rfl

theorem exec_takeoverClaimAck (rx : Rx) (s : State) : exec (.takeoverClaimAck rx) s = execTakeoverClaimAck rx s := rfl

theorem exec_constPoolGrant (rx : Rx) (s : State) : exec (.constPoolGrant rx) s = execConstPoolGrant rx s := rfl

theorem exec_groupCrcReceive (rx : Rx) (s : State) : exec (.groupCrcReceive rx) s = execGroupCrcReceive rx s := rfl

theorem exec_groupAnswer (rx : Rx) (s : State) : exec (.groupAnswer rx) s = execGroupAnswer rx s := rfl

theorem exec_collContribution (rx : Rx) (s : State) : exec (.collContribution rx) s = execCollContribution rx s := rfl

theorem exec_collResult (rx : Rx) (s : State) : exec (.collResult rx) s = execCollResult rx s := rfl

theorem exec_collProgress (rx : Rx) (s : State) : exec (.collProgress rx) s = execCollProgress rx s := rfl

theorem exec_collResendRequest (rx : Rx) (s : State) :
    exec (.collResendRequest rx) s = execCollResendRequest rx s := rfl

theorem exec_collStatus (rx : Rx) (s : State) : exec (.collStatus rx) s = execCollStatus rx s := rfl

theorem exec_noticeAccusation (rx : Rx) (s : State) : exec (.noticeAccusation rx) s = execNoticeAccusation rx s := rfl

theorem exec_noticeMergedAccusation (rx : Rx) (s : State) :
    exec (.noticeMergedAccusation rx) s = execNoticeMergedAccusation rx s := rfl

theorem exec_noticePowerHold (rx : Rx) (s : State) : exec (.noticePowerHold rx) s = execNoticePowerHold rx s := rfl

theorem exec_noticeFreeze (rx : Rx) (s : State) : exec (.noticeFreeze rx) s = execNoticeFreeze rx s := rfl

theorem exec_noticeRelease (rx : Rx) (s : State) : exec (.noticeRelease rx) s = execNoticeRelease rx s := rfl

theorem exec_meridianPacket (rx : Rx) (s : State) : exec (.meridianPacket rx) s = execMeridianPacket rx s := rfl

/-- A MERIDIAN packet that arrives good and in order is handed up, and what waits for it settles (R136). -/
theorem exec_meridianPacket_ready {rx : Rx} {s : State} (h : s.rxReady rx = true) (hty : rx.pkt.ty = 0x0A) :
    exec (.meridianPacket rx) s =
      .next (((s.rxTaken rx).handUp (.meridianPacket rx) (rx.port % 32) rx.pkt).settle) := by
  rw [exec_meridianPacket, execMeridianPacket, State.packetIn_ready _ h (by simp [hty])]

end Sys2Proof.Machine

/-! ## The obligation -/

open Sys2Proof Sys2Proof.Machine

/-- Settles O34: each kind's packets are its command's own, and the shared gate hands them up. -/
theorem controlPacketsArrive : Obligations.ControlPacketsArrive :=
  ⟨fun rx s h hty => (exec_time rx s).trans (next_packetIn_ready _ h (by simp [hty])),
    fun rx s h hty hkind => (exec_constHeartbeat rx s).trans (next_packetIn_ready _ h (by simp [hty, hkind])),
    fun rx s h hty hkind => (exec_constMembership rx s).trans (next_packetIn_ready _ h (by simp [hty, hkind])),
    fun rx s h hty hkind => (exec_takeoverClaimAck rx s).trans (next_packetIn_ready _ h (by simp [hty, hkind])),
    fun rx s h hty hkind => (exec_constPoolGrant rx s).trans (next_packetIn_ready _ h (by simp [hty, hkind])),
    fun rx s h hty hop hkind => (exec_groupCrcReceive rx s).trans (next_packetIn_ready _ h (by simp [hty, hop, hkind])),
    fun rx s h hty hop hkind => (exec_groupAnswer rx s).trans (next_packetIn_ready _ h (by simp [hty, hop, hkind])),
    fun rx s h hty hop hkind => (exec_collContribution rx s).trans (next_packetIn_ready _ h (by simp [hty, hop, hkind])),
    fun rx s h hty hop hkind => (exec_collResult rx s).trans (next_packetIn_ready _ h (by simp [hty, hop, hkind])),
    fun rx s h hty hop hkind => (exec_collProgress rx s).trans (next_packetIn_ready _ h (by simp [hty, hop, hkind])),
    fun rx s h hty hop hkind => (exec_collResendRequest rx s).trans (next_packetIn_ready _ h (by simp [hty, hop, hkind])),
    fun rx s h hty hop hkind => (exec_collStatus rx s).trans (next_packetIn_ready _ h (by simp [hty, hop, hkind])),
    fun rx s h hty hkind => (exec_noticeAccusation rx s).trans (next_packetIn_ready _ h (by simp [hty, hkind])),
    fun rx s h hty hkind => (exec_noticeMergedAccusation rx s).trans (next_packetIn_ready _ h (by simp [hty, hkind])),
    fun rx s h hty hkind => (exec_noticePowerHold rx s).trans (next_packetIn_ready _ h (by simp [hty, hkind])),
    fun rx s h hty hkind => (exec_noticeFreeze rx s).trans (next_packetIn_ready _ h (by simp [hty, hkind])),
    fun rx s h hty hkind => (exec_noticeRelease rx s).trans (next_packetIn_ready _ h (by simp [hty, hkind])),
    fun _ _ h hty => exec_meridianPacket_ready h hty⟩

end

section
/-!
PROOFS. The memory stacks (07_stacked_memory_and_llm.md R149 to R151, R154, R155, R158, R159): one lemma per command or
event of a stack, and what the end of an exerciser's run leaves in its result register.
-/

namespace Sys2Proof.Machine

open Sys2Proof

/-! ## The dispatcher's arms for the stacks -/

theorem exec_offline (k : Fin 12) (c : Fin 34) (s : State) : exec (.offline k c) s = execOffline k c s := rfl

theorem exec_online (k : Fin 12) (c : Fin 34) (s : State) : exec (.online k c) s = execOnline k c s := rfl

theorem exec_sparingCopyComplete (k : Fin 12) (c : Fin 34) (s : State) :
    exec (.sparingCopyComplete k c) s = execSparingCopyComplete k c s := rfl

theorem exec_channelUnreadable (k : Fin 12) (c : Fin 34) (s : State) :
    exec (.channelUnreadable k c) s = execChannelUnreadable k c s := rfl

theorem exec_foldComplete (k : Fin 12) (c : Fin 34) (s : State) :
    exec (.foldComplete k c) s = execFoldComplete k c s := rfl

theorem exec_refresh (k : Fin 12) (pc : Nat) (waits : List (Nat × Nat)) (s : State) :
    exec (.refresh k pc waits) s = execRefresh k pc waits s := rfl

theorem exec_exerciserStart (k : Fin 12) (s : State) : exec (.exerciserStart k) s = execExerciserStart k s := rfl

theorem exec_exerciserAbort (k : Fin 12) (s : State) : exec (.exerciserAbort k) s = execExerciserAbort k s := rfl

theorem exec_exerciserRunComplete (k : Fin 12) (errors lo hi : Nat) (s : State) :
    exec (.exerciserRunComplete k errors lo hi) s = execExerciserRunComplete k errors lo hi s := rfl

theorem exec_stackTempSample (k : Fin 12) (temp : Nat) (s : State) :
    exec (.stackTempSample k temp) s = execStackTempSample k temp s := rfl

theorem exec_t3HoldExpire (k : Fin 12) (s : State) : exec (.t3HoldExpire k) s = execT3HoldExpire k s := rfl

/-! ## Channels (R149, R150) -/

section
variable {k : Fin 12} {c : Fin 34} {s : State}

/-- OFFLINE of an Active channel starts its copy to the free Spare. -/
theorem exec_offline_active {d : Nat} (hw : s.takesWrites = true) (hst : s.get (HBM_CH_STATUS_STATE k.val c.val) = 1)
    (hd : s.freeSpare k.val = some d) :
    exec (.offline k c) s = .next (((s.setChannel k.val c.val 3).setSparing k.val c.val (some ⟨1, d, false⟩)).put
      (HBM_CH_STATUS_COPY_PCT k.val c.val) 0) := by
  rw [exec_offline, execOffline, State.ctrl_takesWrites _ _ hw (beq_iff_eq.mpr hst), hd]

/-- ONLINE of an Offline channel starts its copy back. -/
theorem exec_online_offline (hw : s.takesWrites = true) (hst : s.get (HBM_CH_STATUS_STATE k.val c.val) = 4) :
    exec (.online k c) s = .next (((s.setChannel k.val c.val 3).setSparing k.val c.val (some ⟨2, c.val, false⟩)).put
      (HBM_CH_STATUS_COPY_PCT k.val c.val) 0) := by
  rw [exec_online, execOnline, State.ctrl_takesWrites _ _ hw (beq_iff_eq.mpr hst)]

/-- At the end of the copy of OFFLINE the spare serves the slot, and the channel is Offline with the spare noted. -/
theorem exec_sparingCopyComplete_offline {d : Nat} (hl : s.live = true)
    (hx : s.sparing k.val c.val = some ⟨1, d, false⟩) :
    let slot := s.get (HBM_CH_STATUS_SLOT k.val c.val)
    let t := ((((s.put (HBM_CH_STATUS_SLOT k.val d) slot).setChannel k.val d 1).put (HBM_CH_STATUS_COPY_PCT k.val c.val)
      100).setChannel k.val c.val 4).setSparing k.val c.val none
    exec (.sparingCopyComplete k c) s = .next ((t.setStk k.val { t.stk k.val with
      replacedBy := smSet (fun _ => none) (t.stk k.val).replacedBy c.val (some d) }).nextRepair k.val) := by
  rw [exec_sparingCopyComplete, execSparingCopyComplete, if_pos hl]
  dsimp only
  rw [hx]
  dsimp only
  rw [if_neg (by decide), if_neg (by decide), if_neg (by decide)]

/-- A source that is unreadable during its copy poisons the blocks of its slot, and the copy goes on. -/
theorem exec_channelUnreadable_copying (hl : s.live = true) (hst : s.get (HBM_CH_STATUS_STATE k.val c.val) = 3) :
    exec (.channelUnreadable k c) s = .next (s.poisonSlot k.val (s.get (HBM_CH_STATUS_SLOT k.val c.val)) c.val) := by
  rw [exec_channelUnreadable, execChannelUnreadable, if_pos hl]
  dsimp only
  rw [hst, if_neg (by decide), if_pos rfl]

/-! ## Folds (R151) -/

/-- A fold whose extents have room elsewhere completes: they move, and the stack keeps two GiB less. -/
theorem exec_foldComplete_room {x : Sparing} (hl : s.live = true) (hx : s.sparing k.val c.val = some x)
    (hk : x.kind = 3) :
    let n := s.get (HBM_STACK_STATUS_FOLDS k.val) + 1
    let lim := (64 - 2 * n) * 512
    s.extentsIn (k.val * 2 ^ 36 + lim * 2 ^ 21) ((k.val + 1) * 2 ^ 36) ≤ (s.freeH k.val lim).length →
    let t := ((s.evacuate k.val lim).put (HBM_STACK_STATUS_FOLDS k.val) n).put (HBM_STACK_STATUS_CAP_GIB k.val) (64 - 2 * n)
    let t := t.setStk k.val { t.stk k.val with
      folded := (t.stk k.val).folded ++ [s.get (HBM_CH_STATUS_SLOT k.val c.val)] }
    exec (.foldComplete k c) s = .next
      (((t.channelRetired k.val c.val 3 none).ev 0x8103 (0x10 + k.val) 0 1 n c.val).scaleGuarantees.nextRepair k.val) := by
  intro n lim hroom
  rw [exec_foldComplete, execFoldComplete, if_pos hl]
  dsimp only
  rw [hx]
  dsimp only
  rw [if_neg (not_not_intro hk), if_neg (Nat.not_lt.mpr hroom)]

end

/-! ## Refresh (R154) -/

theorem exec_refresh_one (k : Fin 12) (pc : Nat) {w : Nat × Nat} {s : State} (hon : s.on = true) (hw : w.1 < 128) :
    exec (.refresh k pc [w]) s = .next (s.inc (HUB_PART_TIMING_REFRESH_WAIT w.1) w.2) := by
  rw [exec_refresh, execRefresh, if_pos hon, List.foldl_cons, List.foldl_nil, if_pos hw]

/-! ## The exerciser (R159) -/

/-- The state at the end of an exerciser's run: the result register tells its errors, margins and verdict. -/
def State.exerciserEnded (s : State) (k errors lo hi : Nat) (good : Bool) : State :=
  let t := s.setStk k { s.stk k with exerciser := false }
  let t := ((t.put (HBM_EXER_RESULT_ERRORS k) (min errors 0xFFFFFFFF)).put (HBM_EXER_RESULT_MARGIN_LO k)
    (min lo 255)).put (HBM_EXER_RESULT_MARGIN_HI k) (min hi 255)
  ((t.put (HBM_EXER_RESULT_STATUS k) 0).put (HBM_EXER_RESULT_PASS k) (if good then 1 else 0)).put
    (HBM_EXER_RESULT_DONE k) 1

section
variable {k : Fin 12} {s : State}

/-- A start on a Spare channel, while no run is going on, starts one. -/
theorem exec_exerciserStart_spare (hw : s.takesWrites = true) (hx : (s.stk k.val).exerciser = false)
    (hc : s.get (HBM_EXER_CTL_CHANNEL k.val) ≤ 33)
    (hst : s.get (HBM_CH_STATUS_STATE k.val (s.get (HBM_EXER_CTL_CHANNEL k.val))) = 2) :
    exec (.exerciserStart k) s = .next ((s.put (HBM_EXER_RESULT_DONE k.val) 0).setStk k.val
      { s.stk k.val with exerciser := true }) := by
  rw [exec_exerciserStart, execExerciserStart, State.ctrl_takesWrites _ _ hw rfl]
  dsimp only
  rw [if_neg (by simp [hx]), if_pos ⟨hc, .inl hst⟩]

/-- An abort of a run ends it with counts that the spec leaves open (log 7). -/
theorem exec_exerciserAbort_running (hw : s.takesWrites = true) (hx : (s.stk k.val).exerciser = true) :
    exec (.exerciserAbort k) s = .next ((((s.useFree.useFree.setStk k.val { s.stk k.val with exerciser := false }).put
      (HBM_EXER_RESULT_ERRORS k.val) (Config.freeValue s.free).toNat).put (HBM_EXER_RESULT_STATUS k.val)
      (Config.freeValue (s.free + 1)).toNat).put (HBM_EXER_RESULT_DONE k.val) 1) := by
  rw [exec_exerciserAbort, execExerciserAbort, State.ctrl_takesWrites _ _ hw hx]

/-- A run of patterns (MODE 0) ends with the verdict that it found no error. -/
theorem exec_exerciserRunComplete_patterns (errors lo hi : Nat) (hon : s.on = true)
    (hx : (s.stk k.val).exerciser = true) (hm : s.get (HBM_EXER_CTL_MODE k.val) = 0) :
    exec (.exerciserRunComplete k errors lo hi) s =
      .next (s.exerciserEnded k.val errors lo hi (errors == 0)) := by
  rw [exec_exerciserRunComplete, execExerciserRunComplete, if_pos (by simp [hon, hx])]
  dsimp only
  rw [if_pos hm]
  rfl

end

/-! ### What the result register tells after a run

Whether bit ranges fit or meet does not depend on the stack, so that these checks evaluate for every stack. -/

/-- A field whose bits are those of a register, low bit first. -/
def fieldInWord (f : Fld) : Bool := decide (f.lo ≤ f.hi) && decide (f.hi < 64)

/-- Two fields that share no bit, in whatever registers they lie. -/
def fieldsApart (f g : Fld) : Bool := decide (g.hi < f.lo) || decide (f.hi < g.lo)

theorem State.put_get_fits (s : State) {f : Fld} {v : Nat} (hf : fieldInWord f = true)
    (hv : v < 2 ^ (f.hi + 1 - f.lo)) : (s.put f v).get f = v := by
  obtain ⟨hle, hlt⟩ := Bool.and_eq_true_iff.mp hf
  exact s.put_get_eq (of_decide_eq_true hle) (of_decide_eq_true hlt) hv

theorem State.put_get_apart (s : State) {f g : Fld} (v : Nat) (hf : fieldInWord f = true) (hg : fieldInWord g = true)
    (h : fieldsApart f g = true) : (s.put f v).get g = s.get g := by
  simp only [fieldInWord, fieldsApart, Bool.and_eq_true, Bool.or_eq_true, decide_eq_true_eq] at hf hg h
  obtain ⟨hle, -⟩ := hf
  obtain ⟨-, hlt⟩ := hg
  exact s.put_get_other v hle hlt (.inr h)

section
variable (s : State) (k errors lo hi : Nat) (good : Bool)

theorem State.exerciserEnded_done : (s.exerciserEnded k errors lo hi good).get (HBM_EXER_RESULT_DONE k) = 1 :=
  State.put_get_fits (f := HBM_EXER_RESULT_DONE k) _ rfl Nat.one_lt_two

theorem State.exerciserEnded_pass :
    (s.exerciserEnded k errors lo hi good).get (HBM_EXER_RESULT_PASS k) = if good then 1 else 0 := by
  have hlt : (if good then 1 else 0) < 2 := by split <;> decide
  rw [State.exerciserEnded]
  dsimp only
  rw [State.put_get_apart (f := HBM_EXER_RESULT_DONE k) _ _ rfl rfl rfl]
  exact State.put_get_fits _ rfl hlt

theorem State.exerciserEnded_status : (s.exerciserEnded k errors lo hi good).get (HBM_EXER_RESULT_STATUS k) = 0 := by
  rw [State.exerciserEnded]
  dsimp only
  rw [State.put_get_apart (f := HBM_EXER_RESULT_DONE k) _ _ rfl rfl rfl,
    State.put_get_apart (f := HBM_EXER_RESULT_PASS k) _ _ rfl rfl rfl]
  exact State.put_get_fits _ rfl (Nat.two_pow_pos _)

theorem State.exerciserEnded_errors :
    (s.exerciserEnded k errors lo hi good).get (HBM_EXER_RESULT_ERRORS k) = min errors 0xFFFFFFFF := by
  rw [State.exerciserEnded]
  dsimp only
  rw [State.put_get_apart (f := HBM_EXER_RESULT_DONE k) _ _ rfl rfl rfl,
    State.put_get_apart (f := HBM_EXER_RESULT_PASS k) _ _ rfl rfl rfl,
    State.put_get_apart (f := HBM_EXER_RESULT_STATUS k) _ _ rfl rfl rfl,
    State.put_get_apart (f := HBM_EXER_RESULT_MARGIN_HI k) _ _ rfl rfl rfl,
    State.put_get_apart (f := HBM_EXER_RESULT_MARGIN_LO k) _ _ rfl rfl rfl]
  have hlt : min errors 0xFFFFFFFF < 2 ^ 32 := by omega
  exact State.put_get_fits _ rfl hlt

theorem State.exerciserEnded_exerciser : ((s.exerciserEnded k errors lo hi good).stk k).exerciser = false := by
  simp only [State.exerciserEnded, State.put_stk, State.setStk_stk_same]

theorem State.exerciserEnded_mem : (s.exerciserEnded k errors lo hi good).mem = s.mem := by
  simp only [State.exerciserEnded, State.put_mem, State.setStk_mem]

theorem State.exerciserEnded_seals : (s.exerciserEnded k errors lo hi good).seals = s.seals := by
  simp only [State.exerciserEnded, State.put_seals, State.setStk_seals]

theorem State.exerciserEnded_eph : (s.exerciserEnded k errors lo hi good).eph = s.eph := by
  simp only [State.exerciserEnded, State.put_eph, State.setStk_eph]

/-- The end of a run writes the result register of its stack and no other. -/
theorem State.exerciserEnded_rd_other {off : Nat} (h : off ≠ 0x20004008 + k * 0x100000) :
    (s.exerciserEnded k errors lo hi good).rd off = s.rd off := by
  rw [State.exerciserEnded]
  dsimp only
  iterate 6 rw [State.put_rd_other _ _ h]
  rfl

end

/-! ## Temperature (R155, R158) -/

section
variable {k : Fin 12} {s : State}

/-- A stack that is out of service only shows the sample. -/
theorem exec_stackTempSample_outOfService (temp : Nat) (hon : s.on = true)
    (hlevel : 4 ≤ s.get (HBM_STACK_STATUS_LEVEL k.val)) :
    exec (.stackTempSample k temp) s = .next (s.put (HBM_STACK_STATUS_TEMP k.val) (min temp 1023)) := by
  have hkeep : (s.put (HBM_STACK_STATUS_TEMP k.val) (min temp 1023)).get (HBM_STACK_STATUS_LEVEL k.val) =
      s.get (HBM_STACK_STATUS_LEVEL k.val) := s.put_get_apart _ rfl rfl rfl
  rw [exec_stackTempSample, execStackTempSample, if_pos hon]
  dsimp only
  rw [if_pos (hkeep ▸ hlevel)]

/-- At T3 for longer than the hold the stack leaves service, with event 0x8106 and a failover. -/
theorem exec_t3HoldExpire_due {a : Nat} (hw : s.takesWrites = true) (hlevel : s.get (HBM_STACK_STATUS_LEVEL k.val) = 3)
    (ha : (s.stk k.val).t3At = some a) :
    let hold := max 1 (s.get (HBM_THERM_CTL_HOLD_MS k.val))
    a + hold * 1000000 ≤ s.now →
    let t := s.put (HBM_STACK_STATUS_LEVEL k.val) 4
    let t := t.setStk k.val { t.stk k.val with t3At := none, outOfService := true }
    exec (.t3HoldExpire k) s = .next
      ((t.ev 0x8106 (0x10 + k.val) 0 (t.get (HBM_STACK_STATUS_TEMP k.val)) hold 0).emit (.failover 2 k.val)) := by
  intro hold hdue
  obtain ⟨hon, hfr⟩ := s.takesWrites_iff.mp hw
  rw [exec_t3HoldExpire, execT3HoldExpire, if_pos (by simp [hon, hfr, hlevel]), ha]
  dsimp only
  rw [if_pos hdue]

end

end Sys2Proof.Machine

/-! ## The obligation -/

open Sys2Proof Sys2Proof.Machine

/-- Settles O25, one command or event after the other. -/
theorem stackEventsComplete : Obligations.StackEventsComplete := by
  refine ⟨?offline, ?online, ?copied, ?unreadable, ?fold, ?refresh, ?start, ?abort, ?ended, ?temp, ?t3Hold⟩
  case offline =>
    intro k c s d hw hst hd
    exact exec_offline_active hw hst hd
  case online =>
    intro k c s hw hst
    exact exec_online_offline hw hst
  case copied =>
    intro k c s d hl hx
    exact exec_sparingCopyComplete_offline hl hx
  case unreadable =>
    intro k c s hl hst
    exact exec_channelUnreadable_copying hl hst
  case fold =>
    intro k c s x hl hx hk
    exact exec_foldComplete_room hl hx hk
  case refresh =>
    intro k pc w s hon hw
    exact exec_refresh_one k pc hon hw
  case start =>
    intro k s hw hx hc hst
    exact exec_exerciserStart_spare hw hx hc hst
  case abort =>
    intro k s hw hx
    exact exec_exerciserAbort_running hw hx
  case ended =>
    intro k errors lo hi s hon hx hm
    have hpass := s.exerciserEnded_pass k.val errors lo hi (errors == 0)
    simp only [beq_iff_eq] at hpass
    exact ⟨_, exec_exerciserRunComplete_patterns errors lo hi hon hx hm, s.exerciserEnded_done _ _ _ _ _, hpass,
      s.exerciserEnded_errors _ _ _ _ _, s.exerciserEnded_status _ _ _ _ _, s.exerciserEnded_exerciser _ _ _ _ _,
      s.exerciserEnded_mem _ _ _ _ _, s.exerciserEnded_seals _ _ _ _ _, s.exerciserEnded_eph _ _ _ _ _,
      fun _ hoff => s.exerciserEnded_rd_other _ _ _ _ _ hoff⟩
  case temp =>
    intro k temp s hon hlevel
    exact exec_stackTempSample_outOfService temp hon hlevel
  case t3Hold =>
    intro k s a hw hlevel ha
    exact exec_t3HoldExpire_due hw hlevel ha

end

section
/-!
PROOFS. The last-level memory (07_stacked_memory_and_llm.md R165, R167): one lemma per operation of a slice.
-/

namespace Sys2Proof.Machine

open Sys2Proof

/-! ## The dispatcher's arms for the last-level memory -/

theorem exec_llmFlush (q : Fin 4) (i : Fin 17) (s : State) : exec (.llmFlush q i) s = execLlmFlush q i s := rfl

theorem exec_llmInvalidate (q : Fin 4) (i : Fin 17) (s : State) :
    exec (.llmInvalidate q i) s = execLlmInvalidate q i s := rfl

theorem exec_llmFlushInvalidate (q : Fin 4) (i : Fin 17) (s : State) :
    exec (.llmFlushInvalidate q i) s = execLlmFlushInvalidate q i s := rfl

theorem exec_llmOpComplete (q : Fin 4) (i : Fin 17) (s : State) :
    exec (.llmOpComplete q i) s = execLlmOpComplete q i s := rfl

theorem exec_llmRange (c : Fin 4096) (s : State) : exec (.llmRange c) s = execLlmRange c s := rfl

theorem exec_llmSliceCopyComplete (q : Fin 4) (i : Fin 17) (s : State) :
    exec (.llmSliceCopyComplete q i) s = execLlmSliceCopyComplete q i s := rfl

/-! ## Operations of a slice (R165) -/

section
variable {q : Fin 4} {i : Fin 17} {s : State}

section
variable (hw : s.takesWrites = true)
include hw

theorem exec_llmFlush_taken : exec (.llmFlush q i) s = .next (s.regOp q.val i.val 1) := by
  rw [exec_llmFlush, execLlmFlush, State.ctrl_takesWrites _ _ hw rfl]

theorem exec_llmInvalidate_taken : exec (.llmInvalidate q i) s = .next (s.regOp q.val i.val 2) := by
  rw [exec_llmInvalidate, execLlmInvalidate, State.ctrl_takesWrites _ _ hw rfl]

theorem exec_llmFlushInvalidate_taken : exec (.llmFlushInvalidate q i) s = .next (s.regOp q.val i.val 3) := by
  rw [exec_llmFlushInvalidate, execLlmFlushInvalidate, State.ctrl_takesWrites _ _ hw rfl]

end

/-- An operation with no write-back held up and none queued behind it visits its lines and ends DONE. -/
theorem exec_llmOpComplete_unqueued {o : LlmOp} (hl : s.live = true)
    (ho : (s.llmOps.find? fun o => o.running && o.slices.contains (17 * q.val + i.val)) = some o)
    (hb : s.opBlocked o = false) :
    let t := ((s.opBlocks o).foldl (fun (t : State) b => t.lineOp o.op b) s).endOp o .done
    (t.llmOps.find? fun x => !x.running && x.slices.contains (17 * q.val + i.val)) = none →
    exec (.llmOpComplete q i) s = .next t := by
  intro t hq
  rw [exec_llmOpComplete, execLlmOpComplete, if_pos hl]
  dsimp only
  rw [ho]
  dsimp only
  rw [if_neg (by simp [hb]), hq]

end

/-- LLM_RANGE over a range of the view, in a partition without cache slices, has no line to visit (R332). -/
theorem exec_llmRange_no_slices {c : Fin 4096} {s t : State} {e : Entry} {x : Extent} {rel : Nat}
    (h : s.cmdReady c.val 0x28 e = true) (ht : s.advance (.cmdRing c.val) 1 = t) (hop : Entry_bits e 1 1 0 ≠ 0)
    (hv : t.view c.val (Entry_bits e 2 63 0) (Entry_bits e 3 63 0) false [1] = .extent x rel)
    (hks : t.cacheSlices (t.get (CTX_PARTITION c.val)) = []) :
    exec (.llmRange c) s = .next (t.cmdDone c.val (s.get (qHead (.cmdRing c.val))) .done 0) := by
  rw [exec_llmRange, execLlmRange, State.command_ready _ h, ht]
  dsimp only
  rw [if_neg hop, hv]
  dsimp only
  rw [if_pos hks]

/-! ## Retired slices (R167) -/

/-- At the end of a scratchpad slice's copy the spare takes its place. -/
theorem exec_llmSliceCopyComplete_spare {q : Fin 4} {i : Fin 17} {s : State} {d : Nat} (hl : s.live = true)
    (hd : s.flt.draining.contains (3, 17 * q.val + i.val) = true) :
    let t : State := { s with flt := { s.flt with
      draining := s.flt.draining.filter (· != (3, 17 * q.val + i.val)) } }
    t.spareSlice q.val = some d → exec (.llmSliceCopyComplete q i) s =
      .next ((t.remapSlice q.val i.val d).sliceRetired q.val i.val (s.get (LLM_SLICE_STATUS_ACTIVE_INDEX q.val i.val)) 0 0
        (some d)) := by
  intro t hspare
  rw [exec_llmSliceCopyComplete, execLlmSliceCopyComplete, if_pos (by rw [hl, hd]; rfl)]
  dsimp only
  rw [hspare]

end Sys2Proof.Machine

/-! ## The obligation -/

open Sys2Proof Sys2Proof.Machine

/-- Settles O26, one operation after the other. -/
theorem lastLevelCompletes : Obligations.LastLevelCompletes := by
  refine ⟨?registers, ?complete, ?range, ?copied⟩
  case registers =>
    intro q i s hw
    exact ⟨exec_llmFlush_taken hw, exec_llmInvalidate_taken hw, exec_llmFlushInvalidate_taken hw⟩
  case complete =>
    intro q i s o hl ho hb
    exact exec_llmOpComplete_unqueued hl ho hb
  case range =>
    intro c s e x rel h
    exact exec_llmRange_no_slices h rfl
  case copied =>
    intro q i s d hl hd
    exact exec_llmSliceCopyComplete_spare hl hd

end

section
/-!
PROOFS. Commands of the command ring about tables, shards and copies (08_tiers_quotas_and_deep_tier.md R178, R179;
09_halo_engines_and_embeddings.md R192, R211; 10_orrery_and_step_commit.md R227; 13_laying_a_job_over_an_array.md R325;
14_host_coupling.md R332, R333): one lemma per command, saying what it does where its checks pass.
-/

namespace Sys2Proof.Machine

open Sys2Proof

/-! ## The dispatcher's arms for tables, shards and copies -/

theorem exec_tableCreate (c : Fin 4096) (s : State) : exec (.tableCreate c) s = execTableCreate c s := rfl

theorem exec_tableDestroy (c : Fin 4096) (s : State) : exec (.tableDestroy c) s = execTableDestroy c s := rfl

theorem exec_tableParam (c : Fin 4096) (s : State) : exec (.tableParam c) s = execTableParam c s := rfl

theorem exec_tableFlush (c : Fin 4096) (s : State) : exec (.tableFlush c) s = execTableFlush c s := rfl

theorem exec_tableCheckpoint (c : Fin 4096) (s : State) : exec (.tableCheckpoint c) s = execTableCheckpoint c s := rfl

theorem exec_tableRestore (c : Fin 4096) (s : State) : exec (.tableRestore c) s = execTableRestore c s := rfl

theorem exec_shardCreate (c : Fin 4096) (s : State) : exec (.shardCreate c) s = execShardCreate c s := rfl

theorem exec_shardDestroy (c : Fin 4096) (s : State) : exec (.shardDestroy c) s = execShardDestroy c s := rfl

theorem exec_stepRebase (c : Fin 4096) (s : State) : exec (.stepRebase c) s = execStepRebase c s := rfl

theorem exec_hostCopy (c : Fin 4096) (s : State) : exec (.hostCopy c) s = execHostCopy c s := rfl

/-! ## What the commands look up -/

/-- STEP_REBASE, once it is not refused (R325). -/
def State.rebase (s : State) (p step : Nat) : State :=
  let u := (s.partStreams p).foldl (fun (v : State) j => v.resetStream j)
    (s.put (HUB_PART_RUN_COMMITTED_STEP p) step)
  let u := ((u.put (HUB_PART_COMMIT_NONFINITE p) 0).put (HUB_PART_COMMIT_SUSPECT p) 0).setCommit p commit0
  { u with shards := u.shards.map fun (x : Shard) => if x.part = p then { x with gradStep := none } else x }

theorem State.partStreams_eq_nil {s : State} {p : Nat}
    (h : ∀ kv ∈ s.cfg.active.streams, ∀ d, kv.2 = some d → d.part ≠ p) : s.partStreams p = [] := by
  refine List.filterMap_eq_nil_iff.mpr fun kv hkv => ?_
  cases hd : kv.2 with
  | none => rfl
  | some d => exact if_neg (h kv hkv d hd)

/-- A table's rows that are Dirty now (R178). -/
def dirtyRows (b : Table) : List Row := b.rows.filter fun x => x.state == 3

/-- TABLE_FLUSH over a table with Dirty rows: the rows that the command waits for are noted and written back (R178). -/
def State.flushStarted (s : State) (ring i : Nat) (b : Table) (cls : Nat) : State :=
  let u := s.cmdOpen ring i
  ({ u with tiers := { u.tiers with
    flushes := u.tiers.flushes ++ [(ring, i, b.key, (dirtyRows b).map fun (x : Row) => (x.row, x.version))] } } :
      State).writeBack b (dirtyRows b) false cls

/-- The parameters that a TABLE_PARAM carries are in range (R211). -/
def paramGood (e : Entry) : Bool :=
  finite32 (Entry_bits e 2 63 32) && positive32 (Entry_bits e 2 31 0) && unit32 (Entry_bits e 3 63 32) &&
    unit32 (Entry_bits e 3 31 0)

/-- A COPY that begins, before it moves any data (R333). -/
def State.newCopy (s : State) (ring i : Nat) (e : Entry) : Copy :=
  ⟨s.nextPcie, ring, i, e, 0, false, none, false, false, [], false⟩

/-! ## The commands -/

section
variable {c : Fin 4096} {s t u : State} {i n : Nat} {e : Entry} {b : Table}
variable (ht : s.advance (.cmdRing c.val) 1 = t) (hi : s.get (qHead (.cmdRing c.val)) = i)
include ht hi

/-- The command at a ring's head that is ready has its effect on the state that has taken it. -/
theorem State.command_taken {op : Nat} (body : State → Nat → Entry → State) (h : s.cmdReady c.val op e = true) :
    s.command c.val op body = body t i e := by
  rw [State.command_ready body h, ht, hi]

/-- TABLE_CREATE of a legal descriptor whose regions are there, under a free TABLE_ID, on an engine with room (R192). -/
theorem exec_tableCreate_added {d : Desc} {x : Extent} {k : Nat} (h : s.cmdReady c.val 0x20 e = true)
    (hn : t.cmdTarget c.val e = n) (hm : t.manageable n = true) (hd : t.readDesc c.val i e = (u, some d))
    (hlegal : tdLegal d = true) (hx : findExtent (u.ctx n).extents 1 (offOf (tdValueH d)) 1 = some x)
    (hk : stackOf (Extent_phys x (offOf (tdValueH d) - x.off)) = k) (hlt : k < 12)
    (hfree : u.tableAt k (u.get (CTX_JOB_DOMAIN n)) (Desc_bits d 0 63 48) = none) (hreg : u.tdRegions n k d = true)
    (hroom : (u.tables.filter fun b => b.engine == k).length < 256) :
    exec (.tableCreate c) s = .next ((u.addTable n k d).cmdDone c.val i .done 0) := by
  rw [exec_tableCreate, execTableCreate, State.command_taken ht hi _ h]
  dsimp only
  rw [hn, if_neg (by simp [hm]), hd]
  dsimp only
  rw [hx]
  subst hk
  dsimp only
  rw [if_neg (by simp [hlegal, hlt, hfree, hreg]), if_neg (Nat.not_le.mpr hroom)]

/-- TABLE_DESTROY drops the table's replicas and frees it once nothing names it (R332). -/
theorem exec_tableDestroy_doomed (h : s.cmdReady c.val 0x21 e = true) (hm : t.manageable (t.cmdTarget c.val e) = true)
    (hb : t.doomedTable c.val e = some b) :
    exec (.tableDestroy c) s = .next ((((t.cmdOpen c.val i).dropReplicas b fun _ => true).mapTable b.key fun y =>
      { y with destroying := some (c.val, i) }).tablesLeave) := by
  rw [exec_tableDestroy, execTableDestroy, State.command_taken ht hi _ h]
  dsimp only
  rw [if_neg (by simp [hm]), hb]

/-- TABLE_PARAM in range waits for the next commit Meridian (R211). -/
theorem exec_tableParam_pending (h : s.cmdReady c.val 0x22 e = true) (hb : t.cmdTable c.val e = some b)
    (hgood : paramGood e = true) :
    exec (.tableParam c) s = .next ((t.cmdOpen c.val i).mapTable b.key fun y => { y with
      pendingParams := y.pendingParams ++
        [(c.val, i, ⟨Entry_bits e 2 63 32, Entry_bits e 2 31 0, Entry_bits e 3 63 32, Entry_bits e 3 31 0⟩)] }) := by
  rw [paramGood] at hgood
  rw [exec_tableParam, execTableParam, State.command_taken ht hi _ h]
  dsimp only
  rw [hb]
  dsimp only
  rw [if_neg (by simp [hgood])]

/-- TABLE_FLUSH of a table without Dirty rows is done at once (R178). -/
theorem exec_tableFlush_clean (h : s.cmdReady c.val 0x23 e = true) (hb : t.cmdTable c.val e = some b)
    (hclean : dirtyRows b = []) : exec (.tableFlush c) s = .next (t.cmdDone c.val i .done 0) := by
  rw [exec_tableFlush, execTableFlush, State.command_taken ht hi _ h]
  dsimp only
  rw [hb]
  exact congrArg Host.Outcome.next (if_pos (Or.inr hclean))

/-- TABLE_FLUSH of a D-backed table with Dirty rows, where D takes writes (R178, R185). -/
theorem exec_tableFlush_started (h : s.cmdReady c.val 0x23 e = true) (hb : t.cmdTable c.val e = some b)
    (hdirty : dirtyRows b ≠ []) (hbacked : tdHOnly b.desc = false) (hw : t.deepReadOnly = false) :
    exec (.tableFlush c) s = .next (t.flushStarted c.val i b (cmdClass e)) := by
  have hsome : ¬ (tdHOnly b.desc = true ∨ (b.rows.filter fun x => x.state == 3) = []) := by
    rw [hbacked]
    exact fun ho => ho.elim Bool.false_ne_true hdirty
  rw [exec_tableFlush, execTableFlush, State.command_taken ht hi _ h]
  dsimp only
  rw [hb]
  dsimp only
  rw [if_neg hsome, if_neg (by simp [hw])]
  rfl

/-- TABLE_CHECKPOINT stays open while its file goes to its destination (R179, R247). -/
theorem exec_tableCheckpoint_sent {bs : List FBlock} (h : s.cmdReady c.val 0x24 e = true)
    (hb : t.cmdTable c.val e = some b) (hap : t.applying b.part = false) (hfile : t.tableFile b = .inr bs)
    (hsend : t.fileSend c.val i (Entry_bits e 2 63 0) 3 bs (.cmd c.val i e) = (u, none)) :
    exec (.tableCheckpoint c) s = .next (u.cmdOpen c.val i) := by
  rw [exec_tableCheckpoint, execTableCheckpoint, State.command_taken ht hi _ h, hb]
  dsimp only
  rw [if_neg (by simp [hap]), hfile]
  dsimp only
  rw [hsend]

/-- TABLE_RESTORE in an idle partition, of a file that this module holds (R325). -/
theorem exec_tableRestore_fetched {bs : List (List Byte × Option Seal)} (h : s.cmdReady c.val 0x25 e = true)
    (hb : t.cmdTable c.val e = some b) (hidle : t.partIdle b.part = true)
    (hfetch : t.fileFetch c.val i (Entry_bits e 2 63 0) [1, 2, 3, 4] headLength 0 (.cmd c.val i e) = (u, .have_ bs)) :
    exec (.tableRestore c) s = .next ((u.cmdOpen c.val i).restoreNow c.val i e bs) := by
  rw [exec_tableRestore, execTableRestore, State.command_taken ht hi _ h, hb]
  dsimp only
  rw [if_neg (by simp [hidle]), hfetch]

/-- SHARD_CREATE with INIT_SRC 0 makes the shard with a master of zeros (R227, R230). -/
theorem exec_shardCreate_zero {d : Desc} {k : Nat} (h : s.cmdReady c.val 0x26 e = true) (hn : t.cmdTarget c.val e = n)
    (hm : t.manageable n = true) (hd : t.readDesc c.val i e = (u, some d)) (hslot : u.shardSlot n d = .inr k)
    (hsrc : Entry_bits e 3 63 0 = 0) :
    exec (.shardCreate c) s = .next ((u.addShard n k d (List.replicate (sdSize d) 0)).cmdDone c.val i .done 0) := by
  rw [exec_shardCreate, execShardCreate, State.command_taken ht hi _ h]
  dsimp only
  rw [hn, if_neg (by simp [hm]), hd]
  dsimp only
  rw [hslot]
  dsimp only
  rw [if_pos hsrc]

/-- SHARD_DESTROY marks the shard, which is freed once nothing names it (R332). -/
theorem exec_shardDestroy_marked {x : Shard} (h : s.cmdReady c.val 0x27 e = true) (hn : t.cmdTarget c.val e = n)
    (hm : t.manageable n = true)
    (hx : t.shardOf (Entry_bits e 1 18 16) (t.get (CTX_JOB_DOMAIN n)) (Entry_bits e 1 15 0) = some x)
    (hlive : x.destroying = none) :
    exec (.shardDestroy c) s =
      .next (((t.cmdOpen c.val i).setShard { x with destroying := some (c.val, i) }).shardsLeave) := by
  rw [exec_shardDestroy, execShardDestroy, State.command_taken ht hi _ h]
  dsimp only
  rw [hn, if_neg (by simp [hm]), hx, Option.filter_some_pos (by rw [hlive]; rfl)]

section
variable {p : Nat} (h : s.cmdReady c.val 0x2A e = true) (hp : Entry_bits e 1 6 0 = p)
include h hp

/-- STEP_REBASE in a partition at work is refused (R325). -/
theorem exec_stepRebase_busy (hbusy : t.partIdle p = false) :
    exec (.stepRebase c) s = .next (t.cmdDone c.val i .refusedPartition 0) := by
  rw [exec_stepRebase, execStepRebase, State.command_taken ht hi _ h]
  dsimp only
  rw [hp, if_pos (by simp [hbusy])]

/-- STEP_REBASE in an idle partition (R325). -/
theorem exec_stepRebase_idle (hv : t.partValid p = true) (hidle : t.partIdle p = true) :
    exec (.stepRebase c) s = .next ((t.rebase p (Entry_bits e 2 31 0)).cmdDone c.val i .done 0) := by
  rw [exec_stepRebase, execStepRebase, State.command_taken ht hi _ h]
  dsimp only
  rw [hp, if_neg (by simp [hv, hidle]), State.rebase]
  rfl

end

/-- A COPY to a tier of this module begins with its first segment (R333, R334). -/
theorem exec_hostCopy_inbound (h : s.cmdReady c.val 0x01 e = true) (hgood : copyBad e = false)
    (href : t.copyRefusal c.val e = none) (hserves : t.copyServes c.val e = true) (hdst : hostTier (cpDst e) = false) :
    exec (.hostCopy c) s = .next (State.copyNext (copyFuel (t.newCopy c.val i e))
      { t with copies := t.copies ++ [t.newCopy c.val i e], nextPcie := t.nextPcie + 1 } (t.newCopy c.val i e)) := by
  rw [exec_hostCopy, execHostCopy, State.command_taken ht hi _ h]
  dsimp only
  rw [if_neg (by simp [hgood]), href]
  dsimp only
  rw [if_neg (by simp [hserves]), if_neg (by simp [hdst])]
  rfl

end

/-- Where no stream is the partition's, STEP_REBASE sets COMMITTED_STEP and clears what the step's commit gathered. -/
theorem State.rebase_of_no_streams {s : State} {p : Nat} (step : Nat)
    (h : ∀ kv ∈ s.cfg.active.streams, ∀ d, kv.2 = some d → d.part ≠ p) :
    s.rebase p step =
      (let u := (((s.put (HUB_PART_RUN_COMMITTED_STEP p) step).put (HUB_PART_COMMIT_NONFINITE p) 0).put
        (HUB_PART_COMMIT_SUSPECT p) 0).setCommit p commit0
       { u with shards := u.shards.map fun (x : Shard) => if x.part = p then { x with gradStep := none } else x }) := by
  rw [State.rebase, State.partStreams_eq_nil h, List.foldl_nil]

end Sys2Proof.Machine

/-! ## The obligation -/

open Sys2Proof Sys2Proof.Machine

/-- Settles O14, one command after the other. -/
theorem tableCommandsComplete : Obligations.TableCommandsComplete := by
  refine ⟨?create, ?destroy, ?param, ?flush, ?checkpoint, ?restore, ?shardCreate, ?shardDestroy, ?rebaseBusy, ?rebase,
    ?copy⟩
  case create =>
    intro c s e u d x h t i n hm hd hlegal hx k hlt hfree hreg hroom
    exact exec_tableCreate_added rfl rfl h rfl hm hd hlegal hx rfl hlt hfree hreg hroom
  case destroy =>
    intro c s e b h t i hm hb
    exact exec_tableDestroy_doomed rfl rfl h hm hb
  case param =>
    intro c s e b h t i hb hgood
    exact exec_tableParam_pending rfl rfl h hb hgood
  case flush =>
    intro c s e b h t i hb
    exact ⟨exec_tableFlush_clean rfl rfl h hb, exec_tableFlush_started rfl rfl h hb⟩
  case checkpoint =>
    intro c s e b bs u h t i hb hap hfile hsend
    exact exec_tableCheckpoint_sent rfl rfl h hb hap hfile hsend
  case restore =>
    intro c s e b u bs h t i hb hidle hfetch
    exact exec_tableRestore_fetched rfl rfl h hb hidle hfetch
  case shardCreate =>
    intro c s e u d k h t i n hm hd hslot hsrc
    exact exec_shardCreate_zero rfl rfl h rfl hm hd hslot hsrc
  case shardDestroy =>
    intro c s e x h t i n hm hx hlive
    exact exec_shardDestroy_marked rfl rfl h rfl hm hx hlive
  case rebaseBusy =>
    intro c s e h t i p _ hbusy
    exact exec_stepRebase_busy rfl rfl h rfl hbusy
  case rebase =>
    intro c s e h t i p hv hidle hstreams u
    rw [exec_stepRebase_idle rfl rfl h rfl hv hidle, State.rebase_of_no_streams _ hstreams]
  case copy =>
    intro c s e h t i hgood href hserves hdst k
    exact exec_hostCopy_inbound rfl rfl h hgood href hserves hdst

end

section
/-!
PROOFS. The events of the Deep-tier controller (08_tiers_quotas_and_deep_tier.md R173, R174, R182 to R184, R186, R187,
R190): one lemma per event, saying what it does where its conditions hold.
-/

namespace Sys2Proof.Machine

open Sys2Proof

/-! ## The dispatcher's arms for the Deep tier -/

theorem exec_governorCreditSave (s : State) : exec .governorCreditSave s = execGovernorCreditSave s := rfl

theorem exec_garbageCollection (moved : Nat) (s : State) :
    exec (.garbageCollection moved) s = execGarbageCollection moved s := rfl

theorem exec_staticWearLevelling (moved : Nat) (s : State) :
    exec (.staticWearLevelling moved) s = execStaticWearLevelling moved s := rfl

theorem exec_readDisturbRefresh (block moved : Nat) (s : State) :
    exec (.readDisturbRefresh block moved) s = execReadDisturbRefresh block moved s := rfl

theorem exec_retentionRefresh (moved : Nat) (s : State) :
    exec (.retentionRefresh moved) s = execRetentionRefresh moved s := rfl

theorem exec_badBlockRetirement (block : Nat) (lost : List Nat) (s : State) :
    exec (.badBlockRetirement block lost) s = execBadBlockRetirement block lost s := rfl

theorem exec_translationRebuildComplete (s : State) :
    exec .translationRebuildComplete s = execTranslationRebuildComplete s := rfl

theorem exec_dWriteAcknowledge (id : Nat) (s : State) : exec (.dWriteAcknowledge id) s = execDWriteAcknowledge id s := rfl

theorem exec_deferralHeadReadmit (point : Nat) (s : State) :
    exec (.deferralHeadReadmit point) s = execDeferralHeadReadmit point s := rfl

theorem exec_deferralWaitLimit (point : Nat) (s : State) :
    exec (.deferralWaitLimit point) s = execDeferralWaitLimit point s := rfl

theorem exec_deepRestoreComplete (s : State) : exec .deepRestoreComplete s = execDeepRestoreComplete s := rfl

theorem whenLive_of_live {s : State} (t : State) (h : s.live = true) : whenLive s t = t := if_pos h

/-! ## The governor and the flash translation layer (R183, R184, R187, R190) -/

section
variable {s : State} (hon : s.on = true)
include hon

/-- The credit and the counters of DEEP_LIFE are saved (R187). -/
theorem exec_governorCreditSave_on :
    exec .governorCreditSave s = .next (({ s with tiers := { s.tiers with
      savedCredit := s.tiers.credit, savedLogical := s.tiers.logicalBlocks, savedNand := s.tiers.nandBlocks } } :
        State).wear) := by
  rw [exec_governorCreditSave, execGovernorCreditSave, whenOn_of_on _ hon]

theorem exec_garbageCollection_on (moved : Nat) : exec (.garbageCollection moved) s = .next (s.nand 0 moved) := by
  rw [exec_garbageCollection, execGarbageCollection, whenOn_of_on _ hon]

theorem exec_readDisturbRefresh_on (block moved : Nat) :
    exec (.readDisturbRefresh block moved) s = .next (s.nand 0 moved) := by
  rw [exec_readDisturbRefresh, execReadDisturbRefresh, whenOn_of_on _ hon]

theorem exec_retentionRefresh_on (moved : Nat) : exec (.retentionRefresh moved) s = .next (s.nand 0 moved) := by
  rw [exec_retentionRefresh, execRetentionRefresh, whenOn_of_on _ hon]

/-- A sweep during a translation rebuild does not start another (R183, R190). -/
theorem exec_staticWearLevelling_rebuilding (moved : Nat) (hr : s.tiers.rebuilding = true) :
    exec (.staticWearLevelling moved) s = .next (s.nand 0 moved) := by
  rw [exec_staticWearLevelling, execStaticWearLevelling, whenOn_of_on _ hon]
  dsimp only
  rw [if_pos hr]

/-- An erase block retired without a lost block leaves the spare pool (R184). -/
theorem exec_badBlockRetirement_lossless {block : Nat} (hb : s.tiers.retiredErase.contains block = false) :
    exec (.badBlockRetirement block []) s = .next (({ s with tiers := { s.tiers with
      retiredErase := s.tiers.retiredErase ++ [block] } } : State).wear) := by
  rw [exec_badBlockRetirement, execBadBlockRetirement, whenOn_of_on _ hon]
  dsimp only
  rw [if_neg (by simpa using hb), List.foldl_nil]

end

/-! ## Writes, deferred requests and resets (R173, R174, R182, R186, R190) -/

section
variable {s : State} (hl : s.live = true)
include hl

theorem exec_translationRebuildComplete_rebuilding (hr : s.tiers.rebuilding = true) :
    exec .translationRebuildComplete s = .next { s with tiers := { s.tiers with rebuildReady := true } } := by
  rw [exec_translationRebuildComplete, execTranslationRebuildComplete, whenLive_of_live _ hl, if_pos hr]

/-- The acknowledged block of a write-back is in D, and no copy or file waits for it (R182). -/
theorem exec_dWriteAcknowledge_rows {id key : Nat} {rs : List Nat} {w : DWrite}
    (hw : (s.tiers.dwrites.find? fun w => w.id == id) = some w) (hc : w.credited = true)
    (he : s.earlierWrite w = false) (hwhat : w.what = .rows key rs) :
    exec (.dWriteAcknowledge id) s = .next ((s.dAck w).reflush) := by
  rw [exec_dWriteAcknowledge, execDWriteAcknowledge, whenLive_of_live _ hl, hw]
  dsimp only
  rw [if_neg (by simp [hc, he]), hwhat]

/-- A deferred extent passes admission again (R174). -/
theorem exec_deferralHeadReadmit_extent {point : Nat} {d : DeferReq} (hd : s.deferHead point = some d)
    (hp : point % 16 = 1) : exec (.deferralHeadReadmit point) s = .next (s.readmitExtent d) := by
  rw [exec_deferralHeadReadmit, execDeferralHeadReadmit, whenLive_of_live _ hl, hd]
  dsimp only
  rw [if_pos hp]

/-- An extent that a command waits for is refused 1,000 ms after it was deferred (R173, R174). -/
theorem exec_deferralWaitLimit_extent {point ring : Nat} {d : DeferReq} (h5 : point ≠ 5)
    (hd : s.deferHead point = some d) (hp : point % 16 = 1) (hdue : d.since + 1000000000 ≤ s.now)
    (hring : d.ring = .cmdRing ring) :
    exec (.deferralWaitLimit point) s =
      .next (((s.dropDeferral d).countRefusal d.ctx d.tier 1 .refusedCapacity).cmdClose ring d.index
        .refusedCapacity 0 0) := by
  rw [exec_deferralWaitLimit, execDeferralWaitLimit, whenLive_of_live _ hl, if_neg h5, hd]
  dsimp only
  rw [if_pos ⟨hp, hdue⟩, hring]

/-- A drained controller that is in service serves again under a new generation (R186). -/
theorem exec_deepRestoreComplete_drained (hst : s.get DEEP_STATUS_STATE = 2)
    (hdr : s.flt.draining.contains (8, 0) = false) (hout : s.isOut 8 0 = false) :
    let t := (s.put DEEP_STATUS_STATE (if s.readOnlyCause.isSome then 3 else 1)).next DEEP_STATUS_GENERATION
    exec .deepRestoreComplete s = .next ((({ t with tiers := { t.tiers with
      rebuildReady := false, forwarded := 0, rebuildSince := s.now, returned := 0 } } : State).ev 0x910A 0x040 0
        (s.get DEEP_STATUS_GENERATION) s.tiers.returned ((s.now - s.tiers.resetAt) / 1000000)).reflush) := by
  intro t
  rw [exec_deepRestoreComplete, execDeepRestoreComplete, whenLive_of_live _ hl,
    if_pos ⟨hst, by rw [hdr]; rfl, by rw [hout]; rfl⟩]

end

end Sys2Proof.Machine

/-! ## The obligation -/

open Sys2Proof Sys2Proof.Machine

/-- Settles O28, one event after the other. -/
theorem deepTierCompletes : Obligations.DeepTierCompletes := by
  refine ⟨?save, ?moves, ?levelling, ?badBlock, ?rebuilt, ?acknowledged, ?readmitted, ?refused, ?restored⟩
  case save => exact fun s => exec_governorCreditSave_on
  case moves =>
    intro moved block s hon
    exact ⟨exec_garbageCollection_on hon moved, exec_readDisturbRefresh_on hon block moved,
      exec_retentionRefresh_on hon moved⟩
  case levelling => exact fun moved s hon => exec_staticWearLevelling_rebuilding hon moved
  case badBlock => exact fun block s hon => exec_badBlockRetirement_lossless hon
  case rebuilt => exact fun s => exec_translationRebuildComplete_rebuilding
  case acknowledged => exact fun id s w key rs hl => exec_dWriteAcknowledge_rows hl
  case readmitted => exact fun point s d hl => exec_deferralHeadReadmit_extent hl
  case refused => exact fun point s d ring hl => exec_deferralWaitLimit_extent hl
  case restored => exact fun s => exec_deepRestoreComplete_drained

end

section
/-!
PROOFS. The events of the Halo engines (08_tiers_quotas_and_deep_tier.md R176; 09_halo_engines_and_embeddings.md R215,
R216, R218, R220): one lemma per event, saying what it does to the one table or row that it is about.
-/

namespace Sys2Proof.Machine

open Sys2Proof

/-! ## The dispatcher's arms for Halo events -/

theorem exec_promotionComplete (k : Fin 12) (tid row : Nat) (ok : Bool) (s : State) :
    exec (.promotionComplete k tid row ok) s = execPromotionComplete k tid row ok s := rfl

theorem exec_writeBackAck (k : Fin 12) (tid row : Nat) (s : State) :
    exec (.writeBackAck k tid row) s = execWriteBackAck k tid row s := rfl

theorem exec_migrationCopyComplete (k : Fin 12) (tid : Nat) (s : State) :
    exec (.migrationCopyComplete k tid) s = execMigrationCopyComplete k tid s := rfl

theorem exec_rowMapRebuildComplete (k : Fin 12) (tid : Nat) (replica : Bool) (s : State) :
    exec (.rowMapRebuildComplete k tid replica) s = execRowMapRebuildComplete k tid replica s := rfl

theorem exec_replPushTimeout (k : Fin 12) (tid row : Nat) (s : State) :
    exec (.replPushTimeout k tid row) s = execReplPushTimeout k tid row s := rfl

theorem exec_loadWindowEnd (k : Fin 12) (tid : Nat) (s : State) :
    exec (.loadWindowEnd k tid) s = execLoadWindowEnd k tid s := rfl

/-! ## Rows that D answers (R176) -/

section
variable {k : Fin 12} {tid row : Nat} {s : State} {b : Table} {x : Row} (hl : s.live = true)
include hl

section
variable (hst : s.get DEEP_STATUS_STATE ≠ 2) (hserves : s.haloServes k.val = true)
variable (hb : (s.tables.find? fun b => b.engine == k.val && b.tid == tid && !b.retired &&
  b.rows.any fun x => x.row == row && x.state == 1) = some b)
variable (hx : (b.rows.find? fun x => x.row == row) = some x)
include hst hserves hb hx

/-- A promotion whose home reads good leaves its row Clean, with value and state in its slot. -/
theorem exec_promotionComplete_good (hgood : Status_ok (s.readHome b x).1 = true) :
    exec (.promotionComplete k tid row true) s =
      (let r := s.readHome b x
       .next ((((s.writeRow b x.slot r.2.2.2 r.2.1).writeState b x.slot r.2.2.2 r.2.2.1).setRow b.key
        { x with state := 2 }).rowsMoved)) := by
  rw [exec_promotionComplete, execPromotionComplete, whenLive_of_live _ hl, if_neg (by simp [hst, hserves]), hb]
  dsimp only
  rw [hx]
  dsimp only
  rw [if_pos rfl, if_pos hgood]

/-- A promotion that fails leaves its row Cold, and what waits for it ends. -/
theorem exec_promotionComplete_failed :
    exec (.promotionComplete k tid row false) s = .next (((s.coldRow b x).failRow b row .sealMismatch).rowsMoved) := by
  rw [exec_promotionComplete, execPromotionComplete, whenLive_of_live _ hl, if_neg (by simp [hst, hserves]), hb]
  dsimp only
  rw [hx]
  rfl

end

/-- The last acknowledged write of a row that no commit has changed since leaves it Clean. -/
theorem exec_writeBackAck_clean
    (hb : (s.tables.find? fun b => b.engine == k.val && b.tid == tid &&
      b.rows.any fun x => x.row == row && x.state == 4) = some b)
    (hx : (b.rows.find? fun x => x.row == row) = some x) (hwrites : s.tiers.dwrites = [])
    (hversion : x.version = x.wbVersion) (hevict : x.evict = false) :
    let t := (s.setRow b.key { x with state := 2, dirty := false }).flushAcked b.key row x.wbVersion
    t.deferHead (rowPoint k.val) = none → exec (.writeBackAck k tid row) s = .next t.rowsMoved := by
  intro t hhead
  rw [exec_writeBackAck, execWriteBackAck, whenLive_of_live _ hl, hb]
  dsimp only
  rw [hx]
  dsimp only
  rw [hwrites, if_neg (by simp), if_neg (by simpa using hversion), if_neg (by simp [hevict]), hhead]

end

/-! ## Events of one table (R215, R216, R218, R220) -/

section
variable {k : Fin 12} {tid : Nat} {s : State} {b : Table} (hl : s.live = true)
include hl

section
variable (hb : (s.tables.filter fun b => b.engine == k.val && b.tid == tid && !b.retired) = [b])
include hb

/-- An admitted migration with every row Outbound and no copy outstanding is copied (R218). -/
theorem exec_migrationCopyComplete_copied {t : State} {c : Table} {g : Migration} (ht : s.migSteps b.key = t)
    (hc : t.tableKey b.key = some c) (hg : (c.migrations.filter fun g => g.admitted && !g.copied) = [g])
    (hrows : ((List.range g.count).all fun i => (t.rowOf c (g.first + i)).any fun x => x.state == 5) = true)
    (hacked : (t.xreqs.any fun x => x.what == .migrate k.val tid) = false) :
    exec (.migrationCopyComplete k tid) s = .next (t.mapMig b.key g fun z => { z with copied := true }) := by
  rw [exec_migrationCopyComplete, execMigrationCopyComplete, whenLive_of_live _ hl, hb, List.foldl_cons, List.foldl_nil]
  dsimp only
  rw [ht, hc]
  dsimp only
  rw [hg, List.foldl_cons, List.foldl_nil, if_pos ⟨hrows, by rw [hacked]; rfl⟩]

/-- A rebuilt row map waits for the next module Meridian (R220). -/
theorem exec_rowMapRebuildComplete_rows :
    exec (.rowMapRebuildComplete k tid false) s =
      .next (s.mapTable b.key fun y => if y.rebuildRow then { y with rowsReady := true } else y) := by
  rw [exec_rowMapRebuildComplete, execRowMapRebuildComplete, whenLive_of_live _ hl, hb, List.foldl_cons, List.foldl_nil]
  rfl

/-- A Stale replica without a push in time is dropped (R215). -/
theorem exec_replPushTimeout_stale {row : Nat} (hr : (b.replicas.any fun x => x.row == row && x.state == 2) = true) :
    exec (.replPushTimeout k tid row) s = .next (s.dropReplica b.key row) := by
  rw [exec_replPushTimeout, execReplPushTimeout, whenLive_of_live _ hl, hb, List.foldl_cons, List.foldl_nil, if_pos hr]

end

/-- A table whose load window closes at partition step `step`: its counts are kept for LOAD_STATS and start again, and
replicas read too seldom are dropped (R215, R216). -/
def Table_windowClosed (step : Nat) (y : Table) : Table :=
  { y with
    closed := some ⟨y.window, y.windowFirst, y.rowReads, y.replReads, y.rowUpdates, y.imported⟩
    window := 0, windowFirst := (step + 1) % 2 ^ 32, rowReads := [], replReads := [], rowUpdates := []
    imported := 0, remoteReads := []
    rows := y.rows.map fun (x : Row) => { x with load := 0 }
    replicas := (y.replicas.filter fun x => decide (Desc_bits y.desc 12 31 16 ≤ 2 * x.reads)).map fun (x : Replica) =>
      { x with reads := 0 } }

/-- The end of a load window tells no owner where the table holds no replica (R216). -/
theorem exec_loadWindowEnd_no_replicas
    (hb : (s.tables.filter fun b => b.engine == k.val && b.tid == tid && !b.retired &&
      decide (Desc_bits b.desc 12 15 0 ≤ b.window)) = [b]) (hrepl : b.replicas = []) :
    exec (.loadWindowEnd k tid) s =
      .next (s.mapTable b.key fun y => Table_windowClosed (s.committed y.part) y) := by
  rw [exec_loadWindowEnd, execLoadWindowEnd, whenLive_of_live _ hl, hb, List.foldl_cons, List.foldl_nil]
  dsimp only
  rw [hrepl, List.filter_nil, List.foldl_nil]
  rfl

end

end Sys2Proof.Machine

/-! ## The obligation -/

open Sys2Proof Sys2Proof.Machine

/-- Settles O30, one event after the other. -/
theorem haloEventsComplete : Obligations.HaloEventsComplete := by
  refine ⟨?promoted, ?writtenBack, ?copied, ?rebuilt, ?pushLate, ?windowEnd⟩
  case promoted =>
    intro k tid row s b x hl hst hserves hb hx r
    exact ⟨exec_promotionComplete_good hl hst hserves hb hx, exec_promotionComplete_failed hl hst hserves hb hx⟩
  case writtenBack => exact fun k tid row s b x hl => exec_writeBackAck_clean hl
  case copied =>
    intro k tid s b g hl hb t c hc hg hrows hacked
    exact exec_migrationCopyComplete_copied hl hb rfl hc hg hrows hacked
  case rebuilt => exact fun k tid s b => exec_rowMapRebuildComplete_rows
  case pushLate => exact fun k tid row s b hl hb => exec_replPushTimeout_stale hl hb
  case windowEnd => exact fun k tid s b => exec_loadWindowEnd_no_replicas

end

section
/-!
PROOFS. The descriptors of a Halo queue pair (09_halo_engines_and_embeddings.md R201 to R203, R207 to R209, R216, R217,
R219, R221): the gate of a descriptor read off the gate of a work-list entry, what the head of a pair does with a descriptor
that its gate cancels or holds back, then one lemma per op code for a descriptor that is taken.
-/

namespace Sys2Proof.Machine

open Sys2Proof

/-! ## The dispatcher's arms for Halo descriptors -/

section
variable (k : Fin 12) (qp : Fin 32) (s : State)

theorem exec_haloGather : exec (.haloGather k qp) s = execHaloGather k qp s := rfl

theorem exec_update : exec (.update k qp) s = execUpdate k qp s := rfl

theorem exec_haloStepEnd : exec (.haloStepEnd k qp) s = execHaloStepEnd k qp s := rfl

theorem exec_lookahead : exec (.lookahead k qp) s = execLookahead k qp s := rfl

theorem exec_migrate : exec (.migrate k qp) s = execMigrate k qp s := rfl

theorem exec_swap : exec (.swap k qp) s = execSwap k qp s := rfl

theorem exec_loadStats : exec (.loadStats k qp) s = execLoadStats k qp s := rfl

theorem exec_override : exec (.override k qp) s = execOverride k qp s := rfl

end

/-- The operation that a descriptor becomes keeps the descriptor's words. -/
@[simp] theorem State.haloOpOf_words (s : State) (k qp op : Nat) (e : Entry) : (s.haloOpOf k qp op e).words = e := rfl

/-! ## The step gate (R201) -/

section
variable {c look : Nat} {e : Entry} (hop : Entry_bits e 0 63 56 ∈ [1, 2, 3, 7])
include hop

/-- GATHER, UPDATE, STEP_END and LOAD_STATS have the gate of a work-list entry of their step and EVAL. -/
theorem haloGate_eq_gate : haloGate c e look = gate c (Entry_bits e 1 63 32) (haloEval e) := by
  have hne : Entry_bits e 0 63 56 ≠ 4 ∧ Entry_bits e 0 63 56 ≠ 5 ∧ Entry_bits e 0 63 56 ≠ 6 ∧ Entry_bits e 0 63 56 ≠ 8 := by
    simp only [List.mem_cons, List.not_mem_nil, or_false] at hop
    omega
  obtain ⟨h4, h5, h6, h8⟩ := hne
  unfold haloGate
  dsimp only
  rw [if_neg h5, if_neg (not_or.mpr ⟨h6, h8⟩), if_neg h4]

/-- Such a descriptor dispatches at the last committed step with EVAL 1, at the one after it with EVAL 0. -/
theorem haloGate_dispatched_iff (hc : c < 2 ^ 32) :
    haloGate c e look = some false ↔ Entry_bits e 1 63 32 = if haloEval e then c else (c + 1) % 2 ^ 32 := by
  rw [haloGate_eq_gate hop]
  cases haloEval e with
  | false => exact gate_train_dispatched_iff c _ hc
  | true => exact gate_eval_dispatched_iff c _

/-- Such a descriptor is cancelled at a step already committed, unless it is the last one and EVAL is 1. -/
theorem haloGate_cancelled_iff :
    haloGate c e look = some true ↔
      stepLe (Entry_bits e 1 63 32) c = true ∧ ¬ (haloEval e = true ∧ Entry_bits e 1 63 32 = c) := by
  rw [haloGate_eq_gate hop]
  cases haloEval e with
  | false => simpa using gate_train_cancelled_iff c _
  | true => simpa [and_comm] using gate_eval_cancelled_iff c _

end

/-! ## Descriptors at the head of a queue pair that are not taken (R201, R202) -/

section
variable {s : State} {k qp : Nat} {e : Entry} (hhas : s.ringHas (.haloQp k qp) = true)
  (he : s.ringEntry (.haloQp k qp) = some e)
  (hruns : s.pairRuns (.haloQp k qp) (s.get (HALO_QP_CFG_PARTITION k qp)) (Entry_bits e 1 63 32) = true)
  (hbad : s.haloBad k qp e = false)
include hhas he hruns hbad

/-- A well-formed descriptor whose gate has not come stays at the head, whatever command looks at it. -/
theorem State.haloHead_of_gate_none {op : Nat} (body : State → HaloOp → State)
    (hg : haloGate (s.committed (s.get (HALO_QP_CFG_PARTITION k qp))) e (s.get (HALO_QP_CFG_LOOKAHEAD k qp)) = none) :
    s.haloHead k qp op body = s := by
  unfold State.haloHead
  simp [hhas, he, hruns, hbad, hg]

/-- A well-formed descriptor whose gate has passed leaves the ring and completes with CANCELLED. -/
theorem State.haloHead_of_gate_cancelled (body : State → HaloOp → State)
    (hg : haloGate (s.committed (s.get (HALO_QP_CFG_PARTITION k qp))) e (s.get (HALO_QP_CFG_LOOKAHEAD k qp)) = some true) :
    s.haloHead k qp (Entry_bits e 0 63 56) body =
      (s.advance (.haloQp k qp) 1).complete (.haloQp k qp) (s.get (qHead (.haloQp k qp))) (Entry_bits e 1 63 32)
        .cancelled 0 0 := by
  unfold State.haloHead
  simp [hhas, he, hruns, hbad, hg, State.take]

end

/-! ## Descriptors that try their work or complete at once (R203, R207 to R209) -/

section
variable {k : Fin 12} {qp : Fin 32} {s : State} {e : Entry}

/-- GATHER is taken and tries to read its rows. -/
theorem exec_haloGather_taken (h : s.haloHeadReady k.val qp.val 1 e = true) :
    exec (.haloGather k qp) s =
      .next ((s.haloTaken k.val qp.val 1 e).haloTry (s.haloOpOf k.val qp.val 1 e) State.gather) := by
  rw [exec_haloGather, execHaloGather, State.haloHead_ready _ h]

/-- UPDATE is taken and tries to merge its gradients; the partition's waiting checks look again. -/
theorem exec_update_taken (h : s.haloHeadReady k.val qp.val 2 e = true) :
    let t := s.haloTaken k.val qp.val 2 e
    exec (.update k qp) s = .next ((t.haloTry (s.haloOpOf k.val qp.val 2 e) State.update).haloChecks
      (t.get (HALO_QP_CFG_PARTITION k.val qp.val))) := by
  rw [exec_update, execUpdate, State.haloHead_ready _ h]

/-- STEP_END marks the end of its pair's updates and completes. -/
theorem exec_haloStepEnd_marked (h : s.haloHeadReady k.val qp.val 3 e = true) :
    let t := s.haloTaken k.val qp.val 3 e
    let p := t.get (HALO_QP_CFG_PARTITION k.val qp.val)
    exec (.haloStepEnd k qp) s = .next ((t.setCommit p { t.commit p with
      haloStepEnds := (t.commit p).haloStepEnds ++ [(k.val, qp.val)] }).haloEnd (s.haloOpOf k.val qp.val 3 e) .done) := by
  rw [exec_haloStepEnd, execHaloStepEnd, State.haloHead_ready _ h]

/-- LOOKAHEAD is taken and tries to promote its rows. -/
theorem exec_lookahead_taken (h : s.haloHeadReady k.val qp.val 4 e = true) :
    exec (.lookahead k qp) s =
      .next ((s.haloTaken k.val qp.val 4 e).haloTry (s.haloOpOf k.val qp.val 4 e) State.lookahead) := by
  rw [exec_lookahead, execLookahead, State.haloHead_ready _ h]

end

/-! ## Descriptors that wait with their table for a Meridian (R219, R221) -/

section
variable {k : Fin 12} {qp : Fin 32} {s t : State} {e : Entry} {o : HaloOp}

/-- SWAP to a table of the same context, shape and kind is posted with the old table. -/
theorem exec_swap_posted {b n : Table} (h : s.haloHeadReady k.val qp.val 6 e = true)
    (ht : s.haloTaken k.val qp.val 6 e = t) (ho : s.haloOpOf k.val qp.val 6 e = o) (hb : t.tableKey o.key = some b)
    (hn : t.tableAt k.val (t.tableDomain b) (Entry_bits e 2 15 0) = some n)
    (hsame : (n.ctx == b.ctx && n.key != b.key && tdRows n.desc == tdRows b.desc && tdDim n.desc == tdDim b.desc &&
      tdFmt n.desc == tdFmt b.desc && tdKind n.desc == tdKind b.desc && tdShards n.desc == tdShards b.desc) = true) :
    exec (.swap k qp) s = .next ((t.mapTable o.key fun b => { b with
      pendingSwap := b.pendingSwap ++ [(o.step, Entry_bits e 2 15 0, o.qp, o.index)] }).haloHold o) := by
  have hw : o.words = e := by rw [← ho, State.haloOpOf_words]
  rw [exec_swap, execSwap, State.haloHead_ready _ h, ht, ho]
  dsimp only
  rw [hw, hb]
  dsimp only
  rw [if_pos (by rw [hn]; exact hsame)]

/-- OVERRIDE with well-formed entries whose ranges lie apart is posted with its table. -/
theorem exec_override_posted {u : State} {bs : List Byte} {l : List (Option OverrideEnt)}
    (h : s.haloHeadReady k.val qp.val 8 e = true) (ht : s.haloTaken k.val qp.val 8 e = t)
    (ho : s.haloOpOf k.val qp.val 8 e = o)
    (hbs : t.haloFetch (t.owner (.haloQp k.val qp.val)) o.index (Entry_bits e 2 63 0) (16 * haloCount e) = (u, some bs))
    (hl : ((List.range (haloCount e)).map fun i => overrideOf ((bs.drop (16 * i)).take 16)) = l)
    (hgood : ∀ x ∈ l, x ≠ none) (hapart : overridesMeet (l.filterMap fun x => x) = false) :
    exec (.override k qp) s = .next ((u.mapTable o.key fun b => { b with
      pendingOverride := b.pendingOverride ++ [(o.step, o.qp, o.index, l.filterMap fun x => x)] }).haloHold o) := by
  have hw : o.words = e := by rw [← ho, State.haloOpOf_words]
  have hany : l.any Option.isNone = false :=
    List.any_eq_false.mpr fun x hx => by simpa using hgood x hx
  rw [exec_override, execOverride, State.haloHead_ready _ h, ht, ho]
  dsimp only
  rw [hw, hbs]
  dsimp only
  rw [hl, hany, hapart, if_neg (by decide)]

end

/-! ## MIGRATE and LOAD_STATS (R216, R217) -/

/-- The migration of the one row that a MIGRATE descriptor names, to another engine of its own module. -/
def HaloOp.localMigration (o : HaloOp) : Migration :=
  ⟨Entry_bits o.words 2 47 0, 1, Entry_bits o.words 4 23 0, Entry_bits o.words 4 27 24, o.qp, o.index, o.step, true, false,
    false⟩

/-- The blocks that LOAD_STATS writes (R216; log 36): the closed window's counts of a table, cut at 4 KiB and padded with
zeros. -/
def State.statsBlocks (s : State) (k qp : Nat) (b : Table) : List (List Byte) :=
  let bs := statsBytes b.desc b.tid (s.get (HALO_QP_CFG_LOADFMT k qp) == 1) (b.closed.getD ⟨0, 0, [], [], [], 0⟩)
  (cutList 4096 bs.length bs).map fun l => l ++ List.replicate (4096 - l.length) 0

section
variable {k : Fin 12} {qp : Fin 32} {s t u : State} {e : Entry} {o : HaloOp} {b : Table}

/-- MIGRATE of one Clean row to an engine of this module that admits it: the row's replicas are dropped, and the copy
begins. -/
theorem exec_migrate_started {x : Row} {g : Migration} (h : s.haloHeadReady k.val qp.val 5 e = true)
    (ht : s.haloTaken k.val qp.val 5 e = t) (ho : s.haloOpOf k.val qp.val 5 e = o) (hb : t.tableKey o.key = some b)
    (hcount : haloCount e = 1) (hx : t.rowOf b (Entry_bits e 2 47 0) = some x) (hclean : x.state = 2)
    (hself : Entry_bits e 4 23 0 = t.self) (hstack : Entry_bits e 4 27 24 ≤ 11) (hother : Entry_bits e 4 27 24 ≠ k.val)
    (hhome : (t.localHome b (Entry_bits e 4 23 0) (Entry_bits e 4 27 24)).isSome = true)
    (hadmit : ((t.localHome b (Entry_bits e 4 23 0) (Entry_bits e 4 27 24)).bind fun h =>
      (t.haloHold o).migAdmit h (Entry_bits e 2 47 0) 1) = some u)
    (hg : o.localMigration = g) :
    exec (.migrate k qp) s =
      .next (((u.dropReplicas b fun r => Migration_has g r).mapTable b.key fun y =>
        { y with migrations := y.migrations ++ [g] }).migSteps b.key) := by
  have hw : o.words = e := by rw [← ho, State.haloOpOf_words]
  have hqp : o.qp = qp.val := by rw [← ho]; rfl
  have hlocal : (Entry_bits e 4 23 0 == t.self) = true := beq_iff_eq.mpr hself
  have hpresent : (t.localHome b (Entry_bits e 4 23 0) (Entry_bits e 4 27 24)).isNone = false := by
    rw [← Option.not_isSome, hhome]
    rfl
  rw [exec_migrate, execMigrate, State.haloHead_ready _ h, ht, ho]
  dsimp only
  rw [hb]
  dsimp only
  rw [hw, hcount, hlocal, if_neg (by simp [List.range_succ, hx, hclean, hstack, hother, hpresent]), if_pos rfl, hadmit,
    ← hg, HaloOp.localMigration, hw, hqp]

/-- LOAD_STATS that restarts no window writes the closed window's counts to OUT and completes. -/
theorem exec_loadStats_written {blocks : List (List Byte)} (h : s.haloHeadReady k.val qp.val 7 e = true)
    (ht : s.haloTaken k.val qp.val 7 e = t) (ho : s.haloOpOf k.val qp.val 7 e = o) (hb : t.tableKey o.key = some b)
    (hkeep : Entry_bits e 0 0 0 = 0) (hblocks : t.statsBlocks k.val qp.val b = blocks)
    (hdest : t.haloDest (t.owner (.haloQp k.val qp.val)) o.index (Entry_bits e 5 63 0)
      (4096 * blocks.length) = (u, true)) :
    exec (.loadStats k qp) s =
      .next ((u.haloOut (t.owner (.haloQp k.val qp.val)) (Entry_bits e 5 63 0) (tdTag b.desc) 0 o.step
        blocks).haloEnd o .done) := by
  have hw : o.words = e := by rw [← ho, State.haloOpOf_words]
  rw [exec_loadStats, execLoadStats, State.haloHead_ready _ h, ht, ho]
  dsimp only
  rw [hb, hw]
  dsimp only
  unfold State.statsBlocks at hblocks
  dsimp only at hblocks
  rw [hblocks, hdest]
  dsimp only
  rw [if_neg (by rw [hkeep]; decide)]

end

end Sys2Proof.Machine

/-! ## The obligations -/

open Sys2Proof Sys2Proof.Machine

/-- Settles O29, one descriptor after the other. -/
theorem haloDescriptorsComplete : Obligations.HaloDescriptorsComplete := by
  refine ⟨?gather, ?update, ?stepEnd, ?lookahead, ?swap, ?override, ?migrate, ?loadStats⟩
  case gather => exact fun k qp s e => exec_haloGather_taken
  case update => exact fun k qp s e => exec_update_taken
  case stepEnd => exact fun k qp s e => exec_haloStepEnd_marked
  case lookahead => exact fun k qp s e => exec_lookahead_taken
  case swap =>
    intro k qp s e b n h t o hb hn hsame
    exact exec_swap_posted h rfl rfl hb hn hsame
  case override =>
    intro k qp s e u bs h t o hbs l hgood hapart
    exact exec_override_posted h rfl rfl hbs rfl hgood hapart
  case migrate =>
    intro k qp s e b x u h t o first hb hcount hx hclean hself hstack hother hhome hadmit g
    exact exec_migrate_started h rfl rfl hb hcount hx hclean hself hstack hother hhome hadmit rfl
  case loadStats =>
    intro k qp s e b u h t o ctx hb hkeep bs blocks hdest
    exact exec_loadStats_written h rfl rfl hb hkeep rfl hdest

/-- Settles O54: the gate's answers, and the head of a queue pair where its descriptor is cancelled or waits. -/
theorem haloGateHolds : Obligations.HaloGateHolds := by
  refine ⟨?gate, ?head⟩
  case gate =>
    intro c look e hc hop step
    exact ⟨haloGate_dispatched_iff hop hc, (haloGate_cancelled_iff hop).trans (and_congr_left' (stepLe_iff step c))⟩
  case head =>
    intro k qp s e hhas he hruns hbad g
    refine ⟨fun hg => ?cancelled, fun hg => ?waits⟩
    case cancelled =>
      intro t
      have hcancel (body : State → HaloOp → State) := State.haloHead_of_gate_cancelled hhas he hruns hbad body hg
      refine ⟨fun hop => ?_, fun hop => ?_, fun hop => ?_, fun hop => ?_⟩
      · rw [exec_haloGather, execHaloGather, ← hop, hcancel]
      · rw [exec_update, execUpdate, ← hop, hcancel]
      · rw [exec_haloStepEnd, execHaloStepEnd, ← hop, hcancel]
      · rw [exec_loadStats, execLoadStats, ← hop, hcancel]
    case waits =>
      have hstay (op : Nat) (body : State → HaloOp → State) : s.haloHead k.val qp.val op body = s :=
        State.haloHead_of_gate_none hhas he hruns hbad body hg
      refine ⟨?_, ?_, ?_, ?_⟩
      · rw [exec_haloGather, execHaloGather, hstay]
      · rw [exec_update, execUpdate, hstay]
      · rw [exec_haloStepEnd, execHaloStepEnd, hstay]
      · rw [exec_loadStats, execLoadStats, hstay]

end

section
/-!
PROOFS. The descriptors of an Orrery queue pair and the end of a root computation (10_orrery_and_step_commit.md R231, R232,
R237, R240, R244, R246, R248): what a descriptor at the head of a pair does once its checks hold, what taking a GRAD
changes, and when a shard's oldest unfinished roots complete.
-/

namespace Sys2Proof.Machine

open Sys2Proof

/-! ## The dispatcher's arms for the Orrery -/

section
variable (q : Fin 4) (qp : Fin 16) (s : State)

theorem exec_grad : exec (.grad q qp) s = execGrad q qp s := rfl

theorem exec_orrStepEnd : exec (.orrStepEnd q qp) s = execOrrStepEnd q qp s := rfl

theorem exec_setHyper : exec (.setHyper q qp) s = execSetHyper q qp s := rfl

theorem exec_exportOp : exec (.exportOp q qp) s = execExportOp q qp s := rfl

theorem exec_importOp : exec (.importOp q qp) s = execImportOp q qp s := rfl

theorem exec_skip : exec (.skip q qp) s = execSkip q qp s := rfl

theorem exec_rootComputeComplete (k : Fin 512) :
    exec (.rootComputeComplete q k) s = execRootComputeComplete q k s := rfl

end

/-! ## A shard's data set -/

section
variable (s : State) (d : Shard)

@[simp] theorem State.setShard_orrOps : (s.setShard d).orrOps = s.orrOps := (rfl)

@[simp] theorem State.setShard_mem : (s.setShard d).mem = s.mem := (rfl)

@[simp] theorem State.setShard_seals : (s.setShard d).seals = s.seals := (rfl)

end

/-! ## Descriptors that are taken (R231, R232, R240, R244, R246, R248) -/

section
variable {q : Fin 4} {qp : Fin 16} {s : State} {e : Entry}

theorem exec_grad_taken (h : s.orrHeadReady q.val qp.val 1 e = true) :
    exec (.grad q qp) s = .next ((s.orrTaken q.val qp.val 1 e).orrTry (s.orrOpOf q.val qp.val 1 e)) := by
  rw [exec_grad, execGrad, State.orrHead_ready h]

theorem exec_orrStepEnd_taken (h : s.orrHeadReady q.val qp.val 2 e = true) :
    exec (.orrStepEnd q qp) s = .next ((s.orrTaken q.val qp.val 2 e).orrTry (s.orrOpOf q.val qp.val 2 e)) := by
  rw [exec_orrStepEnd, execOrrStepEnd, State.orrHead_ready h]

theorem exec_setHyper_taken (h : s.orrHeadReady q.val qp.val 3 e = true) :
    exec (.setHyper q qp) s = .next ((s.orrTaken q.val qp.val 3 e).orrTry (s.orrOpOf q.val qp.val 3 e)) := by
  rw [exec_setHyper, execSetHyper, State.orrHead_ready h]

theorem exec_exportOp_taken (h : s.orrHeadReady q.val qp.val 4 e = true) :
    exec (.exportOp q qp) s = .next ((s.orrTaken q.val qp.val 4 e).orrTry (s.orrOpOf q.val qp.val 4 e)) := by
  rw [exec_exportOp, execExportOp, State.orrHead_ready h]

theorem exec_importOp_taken (h : s.orrHeadReady q.val qp.val 5 e = true) :
    exec (.importOp q qp) s = .next ((s.orrTaken q.val qp.val 5 e).orrTry (s.orrOpOf q.val qp.val 5 e)) := by
  rw [exec_importOp, execImportOp, State.orrHead_ready h]

theorem exec_skip_taken (h : s.orrHeadReady q.val qp.val 6 e = true) :
    exec (.skip q qp) s = .next ((s.orrTaken q.val qp.val 6 e).orrTry (s.orrOpOf q.val qp.val 6 e)) := by
  rw [exec_skip, execSkip, State.orrHead_ready h]

end

/-! ## What taking a GRAD changes (R232) -/

/-- The shard `x` with the step of the GRAD `e` marked as the one it has a gradient of. -/
def Shard_marked (x : Shard) (e : Entry) : Shard := { x with gradStep := some (Entry_bits e 1 63 32) }

section
variable {q qp : Nat} {s : State} {e : Entry} {x : Shard} (hx : s.orrShard q qp e = some x)
include hx

/-- A taken GRAD has moved its ring's head, marked its shard and joined the operations in progress. -/
theorem State.orrTaken_grad :
    s.orrTaken q qp 1 e =
      (let t := (s.advance (.orrQp q qp) 1).setShard (Shard_marked x e)
       { t with orrOps := s.orrOps ++ [s.orrOpOf q qp 1 e] }) := by
  have htarget : s.orrTarget q qp 1 e = some x := hx
  simp only [State.orrTaken, htarget, if_pos, State.setShard_orrOps, State.advance_orrOps, Shard_marked]

theorem State.orrTaken_grad_orrOps : (s.orrTaken q qp 1 e).orrOps = s.orrOps ++ [s.orrOpOf q qp 1 e] := by
  rw [State.orrTaken_grad hx]

theorem State.orrTaken_grad_shards :
    (s.orrTaken q qp 1 e).shards = ((s.advance (.orrQp q qp) 1).setShard (Shard_marked x e)).shards := by
  rw [State.orrTaken_grad hx]

theorem State.orrTaken_grad_mem : (s.orrTaken q qp 1 e).mem = s.mem := by
  rw [State.orrTaken_grad hx]
  rw [State.setShard_mem, State.advance_mem]

theorem State.orrTaken_grad_seals : (s.orrTaken q qp 1 e).seals = s.seals := by
  rw [State.orrTaken_grad hx]
  rw [State.setShard_seals, State.advance_seals]

end

/-! ## Roots (R237) -/

/-- An Orrery that serves completes the oldest unfinished roots of its shard. -/
theorem exec_rootComputeComplete_serving {q : Fin 4} {k : Fin 512} {s : State} (hl : s.live = true)
    (hserves : s.orrServes q.val = true) :
    exec (.rootComputeComplete q k) s = .next (s.rootsDone q.val k.val) := by
  rw [exec_rootComputeComplete, execRootComputeComplete, if_pos (by rw [hl, hserves]; rfl)]

end Sys2Proof.Machine

/-! ## The obligation -/

open Sys2Proof Sys2Proof.Machine

/-- Settles O31: one op code after the other, then what a taken GRAD changes, then the roots. -/
theorem orreryCompletes : Obligations.OrreryCompletes := by
  refine ⟨?grad, ?stepEnd, ?setHyper, ?exports, ?imports, ?skip, ?marks, ?roots⟩
  case grad => exact fun q qp s e => exec_grad_taken
  case stepEnd => exact fun q qp s e => exec_orrStepEnd_taken
  case setHyper => exact fun q qp s e => exec_setHyper_taken
  case exports => exact fun q qp s e => exec_exportOp_taken
  case imports => exact fun q qp s e => exec_importOp_taken
  case skip => exact fun q qp s e => exec_skip_taken
  case marks =>
    intro q qp e s x hx t
    exact ⟨State.orrTaken_grad_orrOps hx, State.orrTaken_grad_shards hx, State.orrTaken_grad_mem hx,
      State.orrTaken_grad_seals hx⟩
  case roots => exact fun q k s => exec_rootComputeComplete_serving

end

section
/-!
PROOFS. Requests that wait on the network, and Ethernet frames (11_starlane_and_constellations.md R267, R268, R277;
16_faults_repair_and_parallax.md R379, R385): how each wait of a request ends, and what a port in Ethernet role does with
a frame.
-/

namespace Sys2Proof.Machine

open Sys2Proof

/-! ## The dispatcher's arms for waiting requests and Ethernet frames -/

theorem exec_deferredRetry (id : Nat) (s : State) : exec (.deferredRetry id) s = execDeferredRetry id s := rfl

theorem exec_accusationWindowEnd (s : State) : exec .accusationWindowEnd s = execAccusationWindowEnd s := rfl

theorem exec_xtTimeoutExpire (unit txn : Nat) (s : State) :
    exec (.xtTimeoutExpire unit txn) s = execXtTimeoutExpire unit txn s := rfl

theorem exec_routeWaitExpire (unit txn : Nat) (s : State) :
    exec (.routeWaitExpire unit txn) s = execRouteWaitExpire unit txn s := rfl

theorem exec_ethernetFrameReceive (port : Fin 32) (f : Frame) (s : State) :
    exec (.ethernetFrameReceive port f) s = execEthernetFrameReceive port f s := rfl

theorem whenRunning_of_takesWrites {s : State} (t : State) (h : s.takesWrites = true) : whenRunning s t = t := if_pos h

/-! ## Requests that wait (R267, R268, R379) -/

/-- The outstanding requests do not depend on what the module keeps about faults. -/
theorem State.xreq_withFlt (s : State) (flt : Faults) (unit txn : Nat) :
    ({ s with flt := flt } : State).xreq unit txn = s.xreq unit txn := rfl

section
variable {id unit txn : Nat} {r : Nat × Nat × Nat} {s : State} {x : XReq} (hl : s.live = true)
include hl

/-- A retry that falls due is no longer kept, and its request is sent again (R379). -/
theorem exec_deferredRetry_due
    (hr : (s.flt.retries.find? fun r => r.1 == id) = some r) (hx : s.xreq r.2.1 r.2.2 = some x) :
    exec (.deferredRetry id) s = .next
      (({ s with flt := { s.flt with retries := s.flt.retries.filter fun z => z.1 != id } } : State).xAgain x) := by
  rw [exec_deferredRetry, execDeferredRetry, whenLive_of_live _ hl, hr]
  dsimp only
  rw [State.xreq_withFlt, hx]

variable (hx : s.xreq unit txn = some x)
include hx

/-- The X-tier time-out ends a request that has been sent, unless a collective keeps its own time (R267). -/
theorem exec_xtTimeoutExpire_sent (hsent : x.waitingPort = false)
    (hcoll : ∀ q c gid seq, x.what ≠ .coll q c gid seq) :
    exec (.xtTimeoutExpire unit txn) s =
      .next ((s.accuse 3 (x.pkt.dstModule + x.pkt.dstUnit * 2 ^ 24) x.part).xEnd x .timeout []) := by
  rw [exec_xtTimeoutExpire, execXtTimeoutExpire, whenLive_of_live _ hl, hx]
  dsimp only
  rw [if_neg (by simp [hsent])]
  split
  · next hwhat => exact absurd hwhat (hcoll _ _ _ _)
  · rfl

/-- A request that has waited in vain for a port of its route set ends (R268). -/
theorem exec_routeWaitExpire_waiting (hwait : x.waitingPort = true) :
    exec (.routeWaitExpire unit txn) s =
      .next ((s.notDelivered (s.eventPort x.pkt.dstModule) 1 x.pkt.dstModule).xEnd x .portNotReady []) := by
  rw [exec_routeWaitExpire, execRouteWaitExpire, whenLive_of_live _ hl, hx]
  dsimp only
  rw [if_pos hwait]

end

/-! ## The window of accusations (R385) -/

section
variable {a : Accuse} {s : State} (hw : s.takesWrites = true)
include hw

/-- A window in which nothing was accused only ends. -/
theorem exec_accusationWindowEnd_empty (ha : s.flt.accusations = []) :
    exec .accusationWindowEnd s = .next { s with flt := { s.flt with accusations := [], accusedAt := none } } := by
  rw [exec_accusationWindowEnd, execAccusationWindowEnd, whenRunning_of_takesWrites _ hw, ha, List.foldl_nil]

/-- A final aggregator delivers the accusation of its window. -/
theorem exec_accusationWindowEnd_aggregator (ha : s.flt.accusations = [a])
    (hagg : s.aggregates = true) :
    exec .accusationWindowEnd s = .next
      (({ s with flt := { s.flt with accusations := [], accusedAt := none } } : State).deliverAccusation a) := by
  rw [exec_accusationWindowEnd, execAccusationWindowEnd, whenRunning_of_takesWrites _ hw, ha, List.foldl_cons,
    List.foldl_nil, if_pos hagg]

end

/-! ## Ethernet frames at a port that is Up (R277) -/

section
variable {port : Fin 32} {f : Frame} {s : State} (hon : s.on = true) (hforced : s.get PWR_STATUS_FORCED ≠ 1)
  (hrole : s.get (SL_STATUS_ROLE port.val) = 2) (hst : s.portState port.val = 3)
include hon hforced hrole hst

/-- A bad FCS counts as one receive error. -/
theorem exec_ethernetFrameReceive_bad_fcs (hfcs : f.fcsGood = false) :
    exec (.ethernetFrameReceive port f) s = .next (s.raiseErr port.val (SL_ERR_RX_ERR port.val) 1) := by
  rw [exec_ethernetFrameReceive, execEthernetFrameReceive]
  dsimp only
  rw [whenOn_of_on _ hon, if_neg (by simp [hforced, hrole, hst]), if_pos (by simp [hfcs])]

/-- A frame for this module that carries a packet of requests or answers hands the packet up; the hub answers
nothing. -/
theorem exec_ethernetFrameReceive_handUp (hfcs : f.fcsGood = true) (hprefix : f.dstPrefix = s.get HUB_SL_ETH_MAC_PREFIX)
    (hmod : f.dstModule = s.self) (hety : f.etherType = s.get HUB_SL_ETH_ETHERTYPE) (hwf : f.wellFormed = true)
    (hform : packetForm f.pkt = true) (hty : f.pkt.ty < 0x0A) :
    exec (.ethernetFrameReceive port f) s = .next (s.handUp (.ethernetFrameReceive port f) port.val f.pkt) := by
  rw [exec_ethernetFrameReceive, execEthernetFrameReceive]
  dsimp only
  rw [whenOn_of_on _ hon, if_neg (by simp [hforced, hrole, hst]), if_neg (by simp [hfcs]),
    if_neg (by simp [hprefix, hmod]), if_neg (by simp [hety]), if_neg (by simp [hwf, hform]),
    if_neg fun hhub => absurd hty (Nat.not_lt.mpr hhub.1)]

end

end Sys2Proof.Machine

/-! ## The obligation -/

open Sys2Proof Sys2Proof.Machine

/-- Settles O36: the retry, the window of accusations, the two ends of a waiting request, and the frame. -/
theorem networkTimersComplete : Obligations.NetworkTimersComplete := by
  refine ⟨?retry, ?noAccusation, ?accusation, ?timeout, ?routeWait, ?badFrame, ?frame⟩
  case retry => exact fun id s r x => exec_deferredRetry_due
  case noAccusation => exact fun s => exec_accusationWindowEnd_empty
  case accusation => exact fun a s => exec_accusationWindowEnd_aggregator
  case timeout => exact fun unit txn s x => exec_xtTimeoutExpire_sent
  case routeWait => exact fun unit txn s x => exec_routeWaitExpire_waiting
  case badFrame => exact fun port f s => exec_ethernetFrameReceive_bad_fcs
  case frame => exact fun port f s => exec_ethernetFrameReceive_handUp

end

section
/-!
PROOFS. The training of a port (11_starlane_and_constellations.md R256, R257): the signal that starts it, the steps that
end, fail or time out, the exchange of capabilities, and the last step.
-/

namespace Sys2Proof.Machine

open Sys2Proof

/-! ## The dispatcher's arms for training -/

section
variable (port : Fin 32) (s : State)

theorem exec_signalDetect (lanes : Nat) : exec (.signalDetect port lanes) s = execSignalDetect port lanes s := rfl

theorem exec_trainingStepDone (lanes : Nat) :
    exec (.trainingStepDone port lanes) s = execTrainingStepDone port lanes s := rfl

theorem exec_trainingStepTimeout : exec (.trainingStepTimeout port) s = execTrainingStepTimeout port s := rfl

theorem exec_train (payload : List Byte) : exec (.train port payload) s = execTrain port payload s := rfl

end

/-- Training that has not started before begins past the wait for signal. -/
theorem State.startTraining_first_step {s : State} {p : Nat} (lanes : Nat) (hfirst : (s.port p).startedAt = none) :
    ((s.startTraining p lanes).port p).step = 2 := by
  rw [State.startTraining, State.setPort_port_same, hfirst]
  rfl

section
variable {port : Fin 32} {lanes : Nat} {payload : List Byte} {s : State} (hon : s.on = true)
include hon

/-- Signal on two lanes or more starts the first training of a Starlane port that is Down. -/
theorem exec_signalDetect_down (hst : s.portState port.val = 1) (hlanes : 2 ≤ laneCountOf lanes)
    (hrole : s.get (SL_STATUS_ROLE port.val) = 1) (hfirst : (s.port port.val).startedAt = none) :
    exec (.signalDetect port lanes) s = .next (s.startTraining port.val (lanes % 16)) := by
  rw [exec_signalDetect, execSignalDetect]
  dsimp only
  rw [whenOn_of_on _ hon, if_pos ⟨.inl hst, hlanes, .inl hrole⟩, if_pos (State.startTraining_first_step _ hfirst)]

variable (hst : s.portState port.val = 2)
include hst

/-- Step 2 ends on enough lanes: the lanes that passed go on to step 3. -/
theorem exec_trainingStepDone_two (hstep : (s.port port.val).step = 2)
    (hlanes : s.lanesNeeded port.val ≤ laneCountOf ((s.port port.val).lanes &&& lanes % 16)) :
    exec (.trainingStepDone port lanes) s = .next (s.setPort port.val { s.port port.val with
      lanes := (s.port port.val).lanes &&& lanes % 16, step := 3 }) := by
  rw [exec_trainingStepDone, execTrainingStepDone]
  dsimp only
  rw [whenOn_of_on _ hon, if_neg (not_not_intro hst), if_pos (by omega), if_neg (Nat.not_lt.mpr hlanes),
    if_pos (by omega), hstep]

/-- Step 6 ends: the port is Up, and a member it leads to is live. -/
theorem exec_trainingStepDone_six (hstep : (s.port port.val).step = 6) :
    exec (.trainingStepDone port lanes) s = .next ((s.trained port.val).memberUp port.val) := by
  rw [exec_trainingStepDone, execTrainingStepDone]
  dsimp only
  rw [whenOn_of_on _ hon, if_neg (not_not_intro hst), if_neg (by omega), if_pos hstep]

/-- A step past the wait for signal that times out fails. -/
theorem exec_trainingStepTimeout_training (hstep : 2 ≤ (s.port port.val).step) :
    exec (.trainingStepTimeout port) s = .next (s.trainFail port.val) := by
  rw [exec_trainingStepTimeout, execTrainingStepTimeout, whenOn_of_on _ hon, if_pos ⟨hst, hstep⟩]

/-- The peer's capabilities allow version 1 and leave two lanes or more: the port notes its version and its peer, and
goes on to step 6. -/
theorem exec_train_agreed (hstep : (s.port port.val).step = 5) (hmax : bitsOf 7 4 (ofBytesLE (payload.take 1)) = 1)
    (hmin : bitsOf 3 0 (ofBytesLE (payload.take 1)) ≤ 1)
    (hlanes : 2 ≤ laneCountOf ((s.port port.val).lanes &&& ofBytesLE ((payload.drop 1).take 1) % 16)) :
    let b (i n : Nat) : Nat := ofBytesLE ((payload.drop i).take n)
    let t := (s.setPort port.val { s.port port.val with
      lanes := (s.port port.val).lanes &&& ofBytesLE ((payload.drop 1).take 1) % 16, step := 6 }).put
      (SL_STATUS_PROTO port.val) 1
    exec (.train port payload) s = .next ((t.put (SL_STATUS_PEER_MODULE port.val) (b 2 3)).matchMember port.val (b 2 3)
      (b 5 1) (b 6 2) (b 10 1 % 2)) := by
  have hagreed : ¬ min 1 (bitsOf 7 4 (ofBytesLE ((payload.drop 0).take 1))) <
      max 1 (bitsOf 3 0 (ofBytesLE ((payload.drop 0).take 1))) := by
    rw [List.drop_zero, hmax]
    omega
  rw [exec_train, execTrain]
  dsimp only
  rw [whenOn_of_on _ hon, if_neg (by simp [hst, hstep]), if_neg hagreed, if_neg (Nat.not_lt.mpr hlanes),
    List.drop_zero, hmax, Nat.min_self]

end

end Sys2Proof.Machine

/-! ## The obligation -/

open Sys2Proof Sys2Proof.Machine

/-- Settles O38: from the signal to Up, one step after the other. -/
theorem portTrainingCompletes : Obligations.PortTrainingCompletes := by
  refine ⟨?signal, ?stepTwo, ?timeout, ?capabilities, ?stepSix⟩
  case signal => exact fun port lanes s => exec_signalDetect_down
  case stepTwo => exact fun port lanes s => exec_trainingStepDone_two
  case timeout => exact fun port s => exec_trainingStepTimeout_training
  case capabilities => exact fun port payload s => exec_train_agreed
  case stepSix => exact fun port lanes s => exec_trainingStepDone_six

end

section
/-!
PROOFS. Events and commands of a port in service (11_starlane_and_constellations.md R252, R257, R258, R261, R266, R270,
R271, R273 to R276, R278): link retry, calibration and retraining, lost lanes and signal, the C0 move and the counters' decay,
what waits in a port's queues, Ethernet's pauses and re-sends, and the commands of SL_CMD.
-/

namespace Sys2Proof.Machine

open Sys2Proof

/-! ## The dispatcher's arms for ports -/

section
variable (path : Path) (port : Fin 32) (s : State)

theorem exec_linkAck (ack : Nat) : exec (.linkAck port ack) s = execLinkAck port ack s := rfl

theorem exec_linkNak (ack : Nat) : exec (.linkNak port ack) s = execLinkNak port ack s := rfl

theorem exec_replayTimerExpire : exec (.replayTimerExpire port) s = execReplayTimerExpire port s := rfl

theorem exec_calibrationDue : exec (.calibrationDue port) s = execCalibrationDue port s := rfl

theorem exec_calibrationDone : exec (.calibrationDone port) s = execCalibrationDone port s := rfl

theorem exec_retrainDone (lanes : Nat) : exec (.retrainDone port lanes) s = execRetrainDone port lanes s := rfl

theorem exec_laneSignalLost (lane : Fin 4) : exec (.laneSignalLost port lane) s = execLaneSignalLost port lane s := rfl

theorem exec_signalLost : exec (.signalLost port) s = execSignalLost port s := rfl

theorem exec_c0MoveComplete : exec (.c0MoveComplete port) s = execC0MoveComplete port s := rfl

theorem exec_errCounterDecay : exec (.errCounterDecay port) s = execErrCounterDecay port s := rfl

theorem exec_portQueueWaitExpire : exec (.portQueueWaitExpire port) s = execPortQueueWaitExpire port s := rfl

theorem exec_priorityFlowControlFrame (cls pauses : Nat) (pfc : Bool) :
    exec (.priorityFlowControlFrame port cls pauses pfc) s = execPriorityFlowControlFrame port cls pauses pfc s := rfl

theorem exec_ethernetResendTimer (unit txn : Nat) :
    exec (.ethernetResendTimer port unit txn) s = execEthernetResendTimer port unit txn s := rfl

theorem exec_portRetrain : exec (.portRetrain path port) s = execPortRetrain path port s := rfl

theorem exec_portClear : exec (.portClear path port) s = execPortClear path port s := rfl

theorem exec_portCalibrate : exec (.portCalibrate path port) s = execPortCalibrate path port s := rfl

theorem exec_portReset : exec (.portReset path port) s = execPortReset path port s := rfl

theorem exec_portDrainComplete : exec (.portDrainComplete port) s = execPortDrainComplete port s := rfl

theorem exec_routeFlip : exec (.routeFlip path) s = execRouteFlip path s := rfl

end

section
variable {port : Fin 32} {s : State} (hon : s.on = true)
include hon

/-! ## Link retry (R261) -/

/-- An ACK at a Starlane port in service is taken. -/
theorem exec_linkAck_inService {ack : Nat} (hrole : s.get (SL_STATUS_ROLE port.val) = 1)
    (hserv : s.inService port.val = true) : exec (.linkAck port ack) s = .next (s.linkAck port.val ack) := by
  rw [exec_linkAck, execLinkAck, whenOn_of_on _ hon, if_pos ⟨hrole, hserv⟩]

/-- A NAK at a Starlane port in service is taken. -/
theorem exec_linkNak_inService {ack : Nat} (hrole : s.get (SL_STATUS_ROLE port.val) = 1)
    (hserv : s.inService port.val = true) : exec (.linkNak port ack) s = .next (s.linkNak port.val ack) := by
  rw [exec_linkNak, execLinkNak, whenOn_of_on _ hon, if_pos ⟨hrole, hserv⟩]

/-- A Starlane port that has had no ACK in time replays. -/
theorem exec_replayTimerExpire_starlane (hrole : s.get (SL_STATUS_ROLE port.val) = 1) :
    exec (.replayTimerExpire port) s = .next (s.replay port.val) := by
  rw [exec_replayTimerExpire, execReplayTimerExpire, whenOn_of_on _ hon, if_pos hrole]

/-! ## Calibration and retraining (R258, R270) -/

/-- An Up port that waits for no other change goes to Calibrating when its calibration is due. -/
theorem exec_calibrationDue_up (hst : s.portState port.val = 3) (hp : (s.port port.val).pending = none) :
    exec (.calibrationDue port) s = .next (s.changeTo port.val 4) := by
  rw [exec_calibrationDue, execCalibrationDue, whenOn_of_on _ hon, if_pos ⟨hst, hp⟩]

/-- A calibration that ends brings its port Up. -/
theorem exec_calibrationDone_calibrating (hst : s.portState port.val = 4) :
    exec (.calibrationDone port) s = .next (s.portUp port.val) := by
  rw [exec_calibrationDone, execCalibrationDone, whenOn_of_on _ hon, if_pos hst]

/-- A retrain that no Degrade has set off brings its port Up on the lanes that work, with its retry buffer replayed. -/
theorem exec_retrainDone_not_degraded {lanes : Nat} (hst : s.portState port.val = 5)
    (hdeg : (s.port port.val).degraded = false)
    (hlanes : s.lanesNeeded port.val ≤ laneCountOf ((s.port port.val).lanes &&& lanes % 16)) :
    exec (.retrainDone port lanes) s = .next (((((s.setPort port.val { s.port port.val with degraded := false }).put
      (SL_STATUS_LANE_MASK port.val) ((s.port port.val).lanes &&& lanes % 16))).replayOut port.val).portUp port.val) := by
  rw [exec_retrainDone, execRetrainDone]
  dsimp only
  rw [whenOn_of_on _ hon, if_neg (not_not_intro hst), if_neg (Nat.not_lt.mpr hlanes)]
  simp only [hdeg, Bool.false_and, Bool.false_eq_true, if_false]

/-! ## Lost lanes and lost signal (R252, R258) -/

/-- A port in service that would be left with fewer than two lanes goes to Quarantine. -/
theorem exec_laneSignalLost_too_few {lane : Fin 4} (hserv : s.inService port.val = true)
    (hlane : bitAt (s.get (SL_STATUS_LANE_MASK port.val)) lane.val = true)
    (hfew : laneCountOf (s.get (SL_STATUS_LANE_MASK port.val) - 2 ^ lane.val) < 2) :
    exec (.laneSignalLost port lane) s = .next (s.changeTo port.val 6) := by
  rw [exec_laneSignalLost, execLaneSignalLost]
  dsimp only
  rw [whenOn_of_on _ hon, if_pos hserv, if_neg (by simp [hlane]), if_pos hlane, if_pos hfew]

/-- An Up port that loses its signal is Down. -/
theorem exec_signalLost_up (hst : s.portState port.val = 3) :
    exec (.signalLost port) s = .next (s.portOut port.val 1) := by
  rw [exec_signalLost, execSignalLost, whenOn_of_on _ hon, if_neg (by omega)]

/-! ## The C0 move and the error counters (R270, R271) -/

/-- A state change that waited for the C0 move proceeds. -/
theorem exec_c0MoveComplete_pending {target : Nat} (hp : (s.port port.val).pending = some target) :
    exec (.c0MoveComplete port) s = .next ((s.moveC0 port.val).enterState port.val target) := by
  rw [exec_c0MoveComplete, execC0MoveComplete, whenOn_of_on _ hon, hp]

/-- Counters that decay below 64 arm Warning and Degrade again. -/
theorem exec_errCounterDecay_armed (hst : s.portState port.val ≠ 6) :
    let t := (s.put (SL_ERR_TX_ERR port.val) (s.get (SL_ERR_TX_ERR port.val) - 1)).put (SL_ERR_RX_ERR port.val)
      (s.get (SL_ERR_RX_ERR port.val) - 1)
    t.errHigh port.val < 64 → exec (.errCounterDecay port) s =
      .next (t.setPort port.val { t.port port.val with warnArmed := true, degradeArmed := true }) := by
  intro t hlow
  rw [exec_errCounterDecay, execErrCounterDecay]
  dsimp only
  rw [whenOn_of_on _ hon, if_neg hst, if_pos hlow]

/-! ## Ethernet (R276, R278) -/

/-- A PFC frame with a pause time pauses its class. -/
theorem exec_priorityFlowControlFrame_pause {cls pauses : Nat} (hrole : s.get (SL_STATUS_ROLE port.val) = 2)
    (hcls : cls ≤ 2) (hpause : pauses ≠ 0) :
    exec (.priorityFlowControlFrame port cls pauses true) s = .next ((s.setPort port.val { s.port port.val with
      pfcPaused := cls :: (s.port port.val).pfcPaused.filter (· != cls) }).pump port.val) := by
  rw [exec_priorityFlowControlFrame, execPriorityFlowControlFrame]
  dsimp only
  rw [whenOn_of_on _ hon, if_pos ⟨rfl, hrole, hcls⟩, if_neg hpause]

/-- A packet that may be delivered more than once is sent again up to eight times. -/
theorem exec_ethernetResendTimer_again {unit txn : Nat} {k : Kept}
    (hk : ((s.port port.val).ethUnacked.find? fun k => k.pkt.srcUnit == unit && k.pkt.txn == txn) = some k)
    (hst : s.portState port.val = 3) (hpfc : (s.port port.val).pfcPaused = []) (honce : onceOnly k.pkt.ty = false)
    (hsends : k.sends < 9) :
    exec (.ethernetResendTimer port unit txn) s = .next (((s.setPort port.val { s.port port.val with
      ethUnacked := (s.port port.val).ethUnacked.map fun y => if y = k then { y with sends := y.sends + 1 } else y }).emit
        (.packet port.val 0 0 k.pkt)).raiseErr port.val (SL_ERR_TX_ERR port.val) 1) := by
  rw [exec_ethernetResendTimer, execEthernetResendTimer]
  dsimp only
  rw [whenOn_of_on _ hon, hk]
  dsimp only
  rw [if_neg (by simp [hst, hpfc]), if_neg (by simp [honce]), if_neg (Nat.not_le.mpr hsends)]

/-! ## Draining (R275) -/

/-- A drained port whose unit is in service is Down under a new generation. -/
theorem exec_portDrainComplete_drained (hst : s.portState port.val = 8) (hout : s.isOut 9 port.val = false) :
    exec (.portDrainComplete port) s = .next ((((s.put (SL_STATUS_STATE port.val) 1).next
      (SL_STATUS_GENERATION port.val)).put (SL_STATUS_PROTO port.val) 0).setPort port.val
        { ((s.put (SL_STATUS_STATE port.val) 1).next (SL_STATUS_GENERATION port.val)).port port.val with
          step := 0, lanes := 0 }) := by
  rw [exec_portDrainComplete, execPortDrainComplete, whenOn_of_on _ hon, State.portDrained,
    if_pos (by simp [hst, hout])]

end

/-! ## Packets that wait in a port's queue (R274) -/

/-- The oldest packet of a port that is not Up, and those that have waited 50 µs, are handed on. -/
theorem exec_portQueueWaitExpire_due {port : Fin 32} {s : State} {k : Kept} {l : List Kept} (hl : s.live = true)
    (hst : s.portState port.val ≠ 3) (hq : (s.port port.val).queues = k :: l) :
    let due (y : Kept) : Bool := y == k || decide (y.first + 50000 ≤ s.now)
    exec (.portQueueWaitExpire port) s = .next (((s.setPort port.val { s.port port.val with
      queues := (k :: l).filter fun y => !due y }).inc (SL_CNT_NOT_READY port.val) ((k :: l).filter due).length).handOnAll
        port.val ((k :: l).filter due)) := by
  rw [exec_portQueueWaitExpire, execPortQueueWaitExpire]
  dsimp only
  rw [whenLive_of_live _ hl, if_neg hst, hq]

/-! ## The commands of SL_CMD and the flip of route tables (R257, R258, R266, R273, R275) -/

section
variable {path : Path} {port : Fin 32} {s : State} (hw : s.takesWrites = true) (hpath : ctrlPath path = true)
include hw hpath

/-- An Up port retrains on all four lanes. -/
theorem exec_portRetrain_up (hst : s.portState port.val = 3) :
    exec (.portRetrain path port) s =
      .next ((s.setPort port.val { s.port port.val with lanes := 15 }).changeTo port.val 5) := by
  rw [exec_portRetrain, execPortRetrain]
  dsimp only
  rw [State.ctrl_takesWrites _ _ hw hpath, if_pos hst]

/-- A port in Quarantine that is cleared trains all four lanes with both counters at zero. -/
theorem exec_portClear_quarantine (hst : s.portState port.val = 6) :
    let t := (s.put (SL_ERR_TX_ERR port.val) 0).put (SL_ERR_RX_ERR port.val) 0
    exec (.portClear path port) s = .next ((t.setPort port.val { t.port port.val with
      warnArmed := true, degradeArmed := true }).startTraining port.val 15) := by
  rw [exec_portClear, execPortClear]
  dsimp only
  rw [State.ctrl_takesWrites _ _ hw hpath, if_pos hst]

/-- An Up port that waits for no other change is calibrated. -/
theorem exec_portCalibrate_up (hst : s.portState port.val = 3) (hp : (s.port port.val).pending = none) :
    exec (.portCalibrate path port) s = .next (s.changeTo port.val 4) := by
  rw [exec_portCalibrate, execPortCalibrate, State.ctrl_takesWrites _ _ hw hpath, if_pos ⟨hst, hp⟩]

theorem exec_portReset_taken : exec (.portReset path port) s = .next (s.portReset port.val) := by
  rw [exec_portReset, execPortReset, State.ctrl_takesWrites _ _ hw hpath]

/-- A flip waits for the next module Meridian. -/
theorem exec_routeFlip_taken : exec (.routeFlip path) s = .next (s.put HUB_SL_RCTL_PENDING 1) := by
  rw [exec_routeFlip, execRouteFlip, State.ctrl_takesWrites _ _ hw hpath]

end

end Sys2Proof.Machine

/-! ## The obligation -/

open Sys2Proof Sys2Proof.Machine

/-- Settles O39, one event or command after the other. -/
theorem portEventsComplete : Obligations.PortEventsComplete := by
  refine ⟨?acks, ?replay, ?calDue, ?calDone, ?retrained, ?laneLost, ?signalLost, ?c0Move, ?decay, ?queueWait, ?pause,
    ?resend, ?retrain, ?clear, ?calibrate, ?reset, ?drained, ?flip⟩
  case acks =>
    intro port ack s hon hrole hserv
    exact ⟨exec_linkAck_inService hon hrole hserv, exec_linkNak_inService hon hrole hserv⟩
  case replay => exact fun port s => exec_replayTimerExpire_starlane
  case calDue => exact fun port s => exec_calibrationDue_up
  case calDone => exact fun port s => exec_calibrationDone_calibrating
  case retrained => exact fun port lanes s hon => exec_retrainDone_not_degraded hon
  case laneLost => exact fun port lane s hon => exec_laneSignalLost_too_few hon
  case signalLost => exact fun port s => exec_signalLost_up
  case c0Move => exact fun port s target hon => exec_c0MoveComplete_pending hon
  case decay => exact fun port s => exec_errCounterDecay_armed
  case queueWait => exact fun port s k l => exec_portQueueWaitExpire_due
  case pause => exact fun port cls pauses s hon => exec_priorityFlowControlFrame_pause hon
  case resend => exact fun port unit txn s k hon => exec_ethernetResendTimer_again hon
  case retrain => exact fun path port s => exec_portRetrain_up
  case clear => exact fun path port s => exec_portClear_quarantine
  case calibrate => exact fun path port s => exec_portCalibrate_up
  case reset => exact fun path port s => exec_portReset_taken
  case drained => exact fun port s => exec_portDrainComplete_drained
  case flip => exact fun path s => exec_routeFlip_taken

end

section
/-!
PROOFS. Constellations (11_starlane_and_constellations.md R280, R282, R284): what the Lodestar sends, what a member does
that has heard no heartbeat, and how a pool is released or given up.  The bytes of TIME and CONST packets are the model's
own (log 58), and a claimant counts itself among those that acknowledge its claim (log 60).
-/

namespace Sys2Proof.Machine

open Sys2Proof

/-! ## The dispatcher's arms for constellations -/

theorem exec_lodestarTimeSend (s : State) : exec .lodestarTimeSend s = execLodestarTimeSend s := rfl

theorem exec_lodestarHeartbeatSend (s : State) : exec .lodestarHeartbeatSend s = execLodestarHeartbeatSend s := rfl

theorem exec_heartbeatLoss (us : Nat) (s : State) : exec (.heartbeatLoss us) s = execHeartbeatLoss us s := rfl

theorem exec_pool (c : Fin 4096) (s : State) : exec (.pool c) s = execPool c s := rfl

theorem exec_poolFormTimeout (tag : Nat) (s : State) : exec (.poolFormTimeout tag) s = execPoolFormTimeout tag s := rfl

/-! ## What the Lodestar sends (R280) -/

section
variable {s : State} (hw : s.takesWrites = true) (hlode : s.isLodestar = true)
include hw hlode

/-- A Lodestar without a parent in the job tree sends its time on its constellation ports only. -/
theorem exec_lodestarTimeSend_no_parent (hparent : s.jobParent = none) :
    exec .lodestarTimeSend s = .next (s.constPorts.foldl (fun (t : State) p => t.sendC0On p {
      ty := 0x0C, cls := 0, dstModule := s.get (SL_STATUS_PEER_MODULE p), srcModule := s.self
      payload := timePayload 0 s.now 0 }) s) := by
  rw [exec_lodestarTimeSend, execLodestarTimeSend, whenRunning_of_takesWrites _ hw, if_neg (by simp [hlode])]
  dsimp only
  rw [hparent]

theorem exec_lodestarHeartbeatSend_lodestar :
    exec .lodestarHeartbeatSend s = .next (s.tellMembers (s.constMsg 0 0 (0, 0, 0, 0))) := by
  rw [exec_lodestarHeartbeatSend, execLodestarHeartbeatSend, whenRunning_of_takesWrites _ hw, if_pos hlode]

end

/-! ## The loss of the heartbeat (R282) -/

section
variable {us : Nat} {s : State} (hw : s.takesWrites = true) (hlo : 50 ≤ us) (hhi : us < 100)
  (hlode : s.isLodestar = false) (hmem : s.members ≠ 0) (hmin : s.get HUB_CONST_STATUS_MINORITY ≠ 1)
  (hlive : s.const.liveBefore ≠ 0)
include hw hlo hhi hlode hmem hmin hlive

/-- Between 50 and 100 µs a member that is not the lowest live one only notes the loss. -/
theorem exec_heartbeatLoss_follower
    (hlead : (memberList s.members).find? (· != s.get HUB_CONST_STATUS_LODESTAR) ≠ some s.cascade) :
    exec (.heartbeatLoss us) s = .next { s with const := { s.const with lossUs := us } } := by
  rw [exec_heartbeatLoss, execHeartbeatLoss, whenRunning_of_takesWrites _ hw,
    if_neg (by simp [Nat.not_lt.mpr hlo, hlode, hmem, hmin])]
  dsimp only
  rw [if_pos hlead, if_neg fun hlate => absurd hlate.1 (Nat.not_le.mpr hhi), if_neg hlive]

/-- Between 50 and 100 µs the lowest live member claims the Lodestar's role, and counts itself for its claim. -/
theorem exec_heartbeatLoss_claimant
    (hlead : (memberList s.members).find? (· != s.get HUB_CONST_STATUS_LODESTAR) = some s.cascade) :
    let t : State := { s with const := { s.const with
      lossUs := us, claiming := true, claimAcks := s.const.claimAcks ||| 2 ^ s.cascade } }
    exec (.heartbeatLoss us) s = .next ((t.tellMembers (t.constMsg 2 0 (0, 0, 0, 0))).tryTakeover) := by
  rw [exec_heartbeatLoss, execHeartbeatLoss, whenRunning_of_takesWrites _ hw,
    if_neg (by simp [Nat.not_lt.mpr hlo, hlode, hmem, hmin])]
  dsimp only
  rw [if_neg (not_not_intro hlead), if_neg fun hlate => absurd hlate.1 (Nat.not_le.mpr hhi), if_neg hlive]

end

/-! ## Pools (R284) -/

/-- A member of a granted pool that is in no minority releases the pool: it leaves this member's map, every other member
is told, and the command is done. -/
theorem exec_pool_released {c : Fin 4096} {s t : State} {e : Entry} {i : Nat} {x : Pool}
    (ht : s.advance (.cmdRing c.val) 1 = t) (hi : s.get (qHead (.cmdRing c.val)) = i)
    (h : s.cmdReady c.val 0x29 e = true) (hkind : Entry_bits e 1 11 8 ≤ 2) (hact : Entry_bits e 1 15 12 = 1)
    (hself : bitAt (Entry_bits e 1 7 0) t.cascade = true)
    (hlive : Entry_bits e 1 7 0 &&& t.members = Entry_bits e 1 7 0) (hmin : t.get HUB_CONST_STATUS_MINORITY ≠ 1)
    (hx : t.poolOf (Entry_bits e 2 63 0) = some x) (hgranted : x.granted = true) :
    exec (.pool c) s = .next (((t.setPool (Entry_bits e 2 63 0) none).tellMembers
      (t.constMsg 6 0 (x.members, x.kind, Entry_bits e 2 63 0, x.param))).cmdDone c.val i .done 0) := by
  rw [exec_pool, execPool, State.command_taken ht hi _ h]
  dsimp only
  rw [if_neg (by simp [Nat.not_lt.mpr hkind, hact, hself, hlive]), if_neg hmin, if_pos hact, hx]
  dsimp only
  rw [if_pos hgranted]

/-- The Lodestar gives up a pool whose requests have not all come in time. -/
theorem exec_poolFormTimeout_lodestar {tag : Nat} {s : State} {x : Pool} (hw : s.takesWrites = true)
    (hx : s.poolOf tag = some x) (hopen : x.granted = false) (hlode : s.isLodestar = true) :
    exec (.poolFormTimeout tag) s = .next (s.poolDecide x .refusedPartition) := by
  rw [exec_poolFormTimeout, execPoolFormTimeout, whenRunning_of_takesWrites _ hw, hx]
  dsimp only
  rw [if_neg (by simp [hopen]), if_pos hlode]

end Sys2Proof.Machine

/-! ## The obligation -/

open Sys2Proof Sys2Proof.Machine

/-- Settles O40: what the Lodestar sends, the two sides of a lost heartbeat, then a pool released and one given up. -/
theorem constellationCompletes : Obligations.ConstellationCompletes := by
  refine ⟨?time, ?heartbeat, ?follower, ?claimant, ?release, ?givenUp⟩
  case time => exact fun s => exec_lodestarTimeSend_no_parent
  case heartbeat => exact fun s => exec_lodestarHeartbeatSend_lodestar
  case follower => exact fun us s => exec_heartbeatLoss_follower
  case claimant => exact fun us s => exec_heartbeatLoss_claimant
  case release => exact fun c s e x h => exec_pool_released rfl rfl h
  case givenUp => exact fun tag s x => exec_poolFormTimeout_lodestar

end

section
/-!
PROOFS. What every step keeps (00_scope.md, 95_what_each_step_holds.md): the relation `Keeps` between the state before and a
state after, and its rules for the state's own operations.  A rule says that a state made from one that keeps, keeps too; it is
stated for both `κ`, or for `false` alone where memory or seals may change.
-/

namespace Sys2Proof.Machine

open Sys2Proof

/-! ## The relation -/

/-- What every command keeps, from a state `s` to a state `t` that its effect reaches: the canonical form, the commands that
wait, what has been sent, and the count of free values used; with `κ` true also memory and seals. -/
structure Keeps (κ : Bool) (s t : State) : Prop where
  canon : s.canon = true → t.canon = true
  pending : t.pending = s.pending
  out : s.out <+: t.out
  free : s.free ≤ t.free
  memory : κ = true → t.mem = s.mem ∧ t.seals = s.seals

/-- A command's answer is a next state, which keeps what `Keeps` names. -/
def Answers (κ : Bool) (s : State) (o : Host.Outcome State Fault Refusal) : Prop := ∃ t, o = .next t ∧ Keeps κ s t

section
variable {κ : Bool} {s₀ s t : State}

theorem Keeps.refl : Keeps κ s s := ⟨id, rfl, List.prefix_rfl, le_rfl, fun _ => ⟨rfl, rfl⟩⟩

theorem Keeps.ite {c : Prop} [Decidable c] (h : Keeps κ s₀ s) (h' : Keeps κ s₀ t) : Keeps κ s₀ (if c then s else t) := by
  split
  · exact h
  · exact h'

theorem Keeps.iteFst {α : Type} {c : Prop} [Decidable c] {x y : State × α} (h : Keeps κ s₀ x.1) (h' : Keeps κ s₀ y.1) :
    Keeps κ s₀ (if c then x else y).1 := by
  split
  · exact h
  · exact h'

theorem Keeps.of_eq {α : Type} {x : State × α} {a : α} (h : Keeps κ s₀ x.1) (e : x = (t, a)) : Keeps κ s₀ t := by
  subst e; exact h

theorem Keeps.pair {α : Type} {a : α} (h : Keeps κ s₀ s) : Keeps κ s₀ (s, a).1 := h

theorem Keeps.foldlFst {α β : Type} {f : State × β → α → State × β} {l : List α} {x : State × β}
    (hf : ∀ x a, Keeps κ s₀ x.1 → Keeps κ s₀ (f x a).1) (h : Keeps κ s₀ x.1) : Keeps κ s₀ (l.foldl f x).1 := by
  induction l generalizing x with
  | nil => exact h
  | cons a l ih => exact ih (hf x a h)

theorem Keeps.foldl {α : Type} {f : State → α → State} {l : List α} (hf : ∀ t a, Keeps κ s₀ t → Keeps κ s₀ (f t a))
    (h : Keeps κ s₀ s) : Keeps κ s₀ (l.foldl f s) := by
  induction l generalizing s with
  | nil => exact h
  | cons a l ih => exact ih (hf s a h)

/-- A state that differs only in groups that `Keeps` does not speak of. -/
theorem Keeps.others (h : Keeps κ s₀ s)
    (e : (t.regs, t.mem, t.seals, t.ctxs, t.queues, t.tiles, t.lists, t.commits, t.ports, t.fns, t.stks, t.txns,
        t.seenGen, t.spray, t.cfgSpace, t.out, t.free, t.pending) =
      (s.regs, s.mem, s.seals, s.ctxs, s.queues, s.tiles, s.lists, s.commits, s.ports, s.fns, s.stks, s.txns,
        s.seenGen, s.spray, s.cfgSpace, s.out, s.free, s.pending)) :
    Keeps κ s₀ t := by
  simp only [Prod.mk.injEq] at e
  obtain ⟨hr, hm, hx, hctx, hq, htile, hl, hc, hport, hfn, hk, htxn, hg, hsp, hsc, ho, hf, hp⟩ := e
  refine ⟨fun c => ?_, hp ▸ h.pending, ho ▸ h.out, hf ▸ h.free, hm ▸ hx ▸ h.memory⟩
  simpa only [State.canon, State.canonGroups, hr, hm, hx, hctx, hq, htile, hl, hc, hport, hfn, hk, htxn, hg, hsp, hsc]
    using h.canon c

/-! ## The groups of the state that it does not name -/

theorem Keeps.eph {x : Eph} (h : Keeps κ s₀ s) : Keeps κ s₀ { s with eph := x } :=
  ⟨h.canon, h.pending, h.out, h.free, h.memory⟩
theorem Keeps.ecl {x : Ecl} (h : Keeps κ s₀ s) : Keeps κ s₀ { s with ecl := x } :=
  ⟨h.canon, h.pending, h.out, h.free, h.memory⟩
theorem Keeps.jtag {x : Jtag} (h : Keeps κ s₀ s) : Keeps κ s₀ { s with jtag := x } :=
  ⟨h.canon, h.pending, h.out, h.free, h.memory⟩
theorem Keeps.waits {x : List StreamWait} (h : Keeps κ s₀ s) : Keeps κ s₀ { s with waits := x } :=
  ⟨h.canon, h.pending, h.out, h.free, h.memory⟩
theorem Keeps.feeds {x : List Feed} (h : Keeps κ s₀ s) : Keeps κ s₀ { s with feeds := x } :=
  ⟨h.canon, h.pending, h.out, h.free, h.memory⟩
theorem Keeps.barriers {x : List Barrier} (h : Keeps κ s₀ s) : Keeps κ s₀ { s with barriers := x } :=
  ⟨h.canon, h.pending, h.out, h.free, h.memory⟩
theorem Keeps.journal {x : List JRec} (h : Keeps κ s₀ s) : Keeps κ s₀ { s with journal := x } :=
  ⟨h.canon, h.pending, h.out, h.free, h.memory⟩
theorem Keeps.tables {x : List Table} (h : Keeps κ s₀ s) : Keeps κ s₀ { s with tables := x } :=
  ⟨h.canon, h.pending, h.out, h.free, h.memory⟩
theorem Keeps.haloOps {x : List HaloOp} (h : Keeps κ s₀ s) : Keeps κ s₀ { s with haloOps := x } :=
  ⟨h.canon, h.pending, h.out, h.free, h.memory⟩
theorem Keeps.fetched {x : List RowFetch} (h : Keeps κ s₀ s) : Keeps κ s₀ { s with fetched := x } :=
  ⟨h.canon, h.pending, h.out, h.free, h.memory⟩
theorem Keeps.shards {x : List Shard} (h : Keeps κ s₀ s) : Keeps κ s₀ { s with shards := x } :=
  ⟨h.canon, h.pending, h.out, h.free, h.memory⟩
theorem Keeps.orrOps {x : List OrrOp} (h : Keeps κ s₀ s) : Keeps κ s₀ { s with orrOps := x } :=
  ⟨h.canon, h.pending, h.out, h.free, h.memory⟩
theorem Keeps.xreqs {x : List XReq} (h : Keeps κ s₀ s) : Keeps κ s₀ { s with xreqs := x } :=
  ⟨h.canon, h.pending, h.out, h.free, h.memory⟩
theorem Keeps.delivered {x : List Delivered} (h : Keeps κ s₀ s) : Keeps κ s₀ { s with delivered := x } :=
  ⟨h.canon, h.pending, h.out, h.free, h.memory⟩
theorem Keeps.const {x : Const} (h : Keeps κ s₀ s) : Keeps κ s₀ { s with const := x } :=
  ⟨h.canon, h.pending, h.out, h.free, h.memory⟩
theorem Keeps.pcie {x : List PcieReq} (h : Keeps κ s₀ s) : Keeps κ s₀ { s with pcie := x } :=
  ⟨h.canon, h.pending, h.out, h.free, h.memory⟩
theorem Keeps.copies {x : List Copy} (h : Keeps κ s₀ s) : Keeps κ s₀ { s with copies := x } :=
  ⟨h.canon, h.pending, h.out, h.free, h.memory⟩
theorem Keeps.files {x : List FileOp} (h : Keeps κ s₀ s) : Keeps κ s₀ { s with files := x } :=
  ⟨h.canon, h.pending, h.out, h.free, h.memory⟩
theorem Keeps.numVfs {x : Nat} (h : Keeps κ s₀ s) : Keeps κ s₀ { s with numVfs := x } :=
  ⟨h.canon, h.pending, h.out, h.free, h.memory⟩
theorem Keeps.cfg {x : Cfg} (h : Keeps κ s₀ s) : Keeps κ s₀ { s with cfg := x } :=
  ⟨h.canon, h.pending, h.out, h.free, h.memory⟩
theorem Keeps.lines {x : List Line} (h : Keeps κ s₀ s) : Keeps κ s₀ { s with lines := x } :=
  ⟨h.canon, h.pending, h.out, h.free, h.memory⟩
theorem Keeps.llmOps {x : List LlmOp} (h : Keeps κ s₀ s) : Keeps κ s₀ { s with llmOps := x } :=
  ⟨h.canon, h.pending, h.out, h.free, h.memory⟩
theorem Keeps.tiers {x : Tiers} (h : Keeps κ s₀ s) : Keeps κ s₀ { s with tiers := x } :=
  ⟨h.canon, h.pending, h.out, h.free, h.memory⟩
theorem Keeps.coll {x : Coll} (h : Keeps κ s₀ s) : Keeps κ s₀ { s with coll := x } :=
  ⟨h.canon, h.pending, h.out, h.free, h.memory⟩
theorem Keeps.fw {x : Fw} (h : Keeps κ s₀ s) : Keeps κ s₀ { s with fw := x } :=
  ⟨h.canon, h.pending, h.out, h.free, h.memory⟩
theorem Keeps.flt {x : Faults} (h : Keeps κ s₀ s) : Keeps κ s₀ { s with flt := x } :=
  ⟨h.canon, h.pending, h.out, h.free, h.memory⟩
theorem Keeps.pwr {x : Power} (h : Keeps κ s₀ s) : Keeps κ s₀ { s with pwr := x } :=
  ⟨h.canon, h.pending, h.out, h.free, h.memory⟩
theorem Keeps.pace {x : Pace} (h : Keeps κ s₀ s) : Keeps κ s₀ { s with pace := x } :=
  ⟨h.canon, h.pending, h.out, h.free, h.memory⟩
theorem Keeps.phase {x : Phase} (h : Keeps κ s₀ s) : Keeps κ s₀ { s with phase := x } :=
  ⟨h.canon, h.pending, h.out, h.free, h.memory⟩
theorem Keeps.pins {x : Pins} (h : Keeps κ s₀ s) : Keeps κ s₀ { s with pins := x } :=
  ⟨h.canon, h.pending, h.out, h.free, h.memory⟩
theorem Keeps.recorded {x : List (Nat × Nat)} (h : Keeps κ s₀ s) : Keeps κ s₀ { s with recorded := x } :=
  ⟨h.canon, h.pending, h.out, h.free, h.memory⟩

/-! ## The groups that it names -/

theorem Keeps.addFree {n : Nat} (h : Keeps κ s₀ s) : Keeps κ s₀ { s with free := s.free + n } :=
  ⟨h.canon, h.pending, h.out, h.free.trans (Nat.le_add_right _ n), h.memory⟩

theorem Keeps.addOut {os : List Output} (h : Keeps κ s₀ s) : Keeps κ s₀ { s with out := s.out ++ os } :=
  ⟨h.canon, h.pending, h.out.trans (List.prefix_append _ os), h.free, h.memory⟩

/-- Memory and seals replaced by canonical ones. -/
theorem Keeps.setMemory {m : SMap Byte} {x : SMap Seal} (h : Keeps false s₀ s)
    (hm : Memory.wf s.mem = true → Memory.wf m = true) (hx : smWf sealAt0 s.seals = true → smWf sealAt0 x = true) :
    Keeps false s₀ { s with mem := m, seals := x } where
  canon c := by
    have := h.canon c
    simp only [State.canon, Bool.and_eq_true] at this ⊢
    obtain ⟨⟨⟨hr, hm'⟩, hx'⟩, hg⟩ := this
    exact ⟨⟨⟨hr, hm hm'⟩, hx hx'⟩, hg⟩
  pending := h.pending
  out := h.out
  free := h.free
  memory := nofun

/-- A register or a sparse group other than memory and seals changed: the canonical form is what there is to prove. -/
theorem Keeps.regroup {t : State} (h : Keeps κ s₀ s) (hc : s.canon = true → t.canon = true)
    (he : (t.pending, t.out, t.free, t.mem, t.seals) = (s.pending, s.out, s.free, s.mem, s.seals)) : Keeps κ s₀ t := by
  simp only [Prod.mk.injEq] at he
  obtain ⟨hp, ho, hf, hm, hx⟩ := he
  exact ⟨hc ∘ h.canon, hp.trans h.pending, ho ▸ h.out, hf ▸ h.free, fun e => ⟨hm.trans (h.memory e).1, hx.trans (h.memory e).2⟩⟩

theorem Keeps.wr {off v : Nat} (h : Keeps κ s₀ s) : Keeps κ s₀ (s.wr off v) :=
  h.regroup (by simp_all [State.canon, State.canonGroups, State.wr, smWf_smSet]) rfl

theorem Keeps.setCtx {n : Nat} {x : CtxData} (h : Keeps κ s₀ s) : Keeps κ s₀ (s.setCtx n x) :=
  h.regroup (by simp_all [State.canon, State.canonGroups, State.setCtx, smWf_smSet]) rfl

theorem Keeps.setTile {n : Nat} {x : Tile} (h : Keeps κ s₀ s) : Keeps κ s₀ (s.setTile n x) :=
  h.regroup (by simp_all [State.canon, State.canonGroups, State.setTile, smWf_smSet]) rfl

theorem Keeps.setWlist {p w : Nat} {x : WorkList} (h : Keeps κ s₀ s) : Keeps κ s₀ (s.setWlist p w x) :=
  h.regroup (by simp_all [State.canon, State.canonGroups, State.setWlist, smWf_smSet]) rfl

theorem Keeps.setQueue {q : QueueId} {x : QueueData} (h : Keeps κ s₀ s) : Keeps κ s₀ (s.setQueue q x) :=
  h.regroup (by simp_all [State.canon, State.canonGroups, State.setQueue, smWf_smSet]) rfl

theorem Keeps.setCommit {p : Nat} {x : CommitData} (h : Keeps κ s₀ s) : Keeps κ s₀ (s.setCommit p x) :=
  h.regroup (by simp_all [State.canon, State.canonGroups, State.setCommit, smWf_smSet]) rfl

theorem Keeps.setPort {p : Nat} {x : Port} (h : Keeps κ s₀ s) : Keeps κ s₀ (s.setPort p x) :=
  h.regroup (by simp_all [State.canon, State.canonGroups, State.setPort, smWf_smSet]) rfl

theorem Keeps.setFn {n : Nat} {x : FnData} (h : Keeps κ s₀ s) : Keeps κ s₀ (s.setFn n x) :=
  h.regroup (by simp_all [State.canon, State.canonGroups, State.setFn, smWf_smSet]) rfl

theorem Keeps.setStk {n : Nat} {x : Stack} (h : Keeps κ s₀ s) : Keeps κ s₀ (s.setStk n x) :=
  h.regroup (by simp_all [State.canon, State.canonGroups, State.setStk, smWf_smSet]) rfl

theorem Keeps.useTxn {n : Nat} (h : Keeps κ s₀ s) : Keeps κ s₀ (s.useTxn n) :=
  h.regroup (by simp_all [State.canon, State.canonGroups, State.useTxn, smWf_smSet]) rfl

theorem Keeps.seeGen {m u g : Nat} (h : Keeps κ s₀ s) : Keeps κ s₀ (s.seeGen m u g) :=
  h.regroup (by simp_all [State.canon, State.canonGroups, State.seeGen, smWf_smSet]) rfl

theorem Keeps.spray {k v : Nat} (h : Keeps κ s₀ s) : Keeps κ s₀ { s with spray := smSet (fun _ => 0) s.spray k v } :=
  h.regroup (by simp_all [State.canon, State.canonGroups, smWf_smSet]) rfl

theorem Keeps.cfgSpace {k v : Nat} (h : Keeps κ s₀ s) :
    Keeps κ s₀ { s with cfgSpace := smSet (fun _ => 0) s.cfgSpace k v } :=
  h.regroup (by simp_all [State.canon, State.canonGroups, smWf_smSet]) rfl

theorem Keeps.dropCfgSpace (h : Keeps κ s₀ s) : Keeps κ s₀ { s with numVfs := 0, cfgSpace := [] } :=
  h.regroup (by simp_all [State.canon, State.canonGroups, smWf_nil]) rfl

theorem Keeps.emit {o : Output} (h : Keeps κ s₀ s) : Keeps κ s₀ (s.emit o) := h.addOut
theorem Keeps.emits {os : List Output} (h : Keeps κ s₀ s) : Keeps κ s₀ (s.emits os) := h.addOut
theorem Keeps.useFree (h : Keeps κ s₀ s) : Keeps κ s₀ s.useFree := h.addFree

theorem Keeps.setBytes {sp : Space} {a : Nat} {bs : List Byte} (h : Keeps false s₀ s) : Keeps false s₀ (s.setBytes sp a bs) :=
  h.setMemory (smWf_smSetList _ _ _) id

theorem Keeps.setSeal {sp : Space} {a : Nat} {x : Seal} (h : Keeps false s₀ s) : Keeps false s₀ (s.setSeal sp a x) :=
  h.setMemory id (smWf_smSet _ _ _)

theorem Keeps.dropCore (h : Keeps false s₀ s) : Keeps false s₀ s.dropCore := h.setMemory (smWf_filter _ _) id

theorem Keeps.clearSlice {k : Nat} (h : Keeps false s₀ s) : Keeps false s₀ (s.clearSlice k) :=
  h.setMemory (smWf_filter _ _) (smWf_filter _ _)

theorem Keeps.restoreBlock {b : Nat × Seal × List Byte} (h : Keeps false s₀ s) : Keeps false s₀ (s.restoreBlock b) :=
  h.setMemory (smWf_smSetList _ _ _) (smWf_smSet _ _ _)

theorem Keeps.copyStore {n m : Nat} (h : Keeps false s₀ s) : Keeps false s₀ (s.copyStore n m) :=
  h.setMemory (fun w => smWf_foldl_smSet _ _ _ _ (smWf_filter _ _ w)) fun w => smWf_foldl_smSet _ _ _ _ (smWf_filter _ _ w)

end

end Sys2Proof.Machine

end


section
/-!
PROOFS. What every step keeps: the events, records and packets that commands share.
-/

namespace Sys2Proof.Machine

open Sys2Proof

variable {κ : Bool} {s₀ s t : State}

theorem Keeps.put {f : Fld} {v : Nat} (h : Keeps κ s₀ s) : Keeps κ s₀ (s.put f v) :=
  h.wr

theorem Keeps.inc {f : Fld} {n : Nat} (h : Keeps κ s₀ s) : Keeps κ s₀ (s.inc f n) :=
  h.put

theorem Keeps.next {f : Fld} (h : Keeps κ s₀ s) : Keeps κ s₀ (s.next f) :=
  h.put

theorem Keeps.whenLive {t : State} (h : Keeps κ s₀ s) (ht : Keeps κ s₀ t) : Keeps κ s₀ (whenLive s t) :=
  .ite ht h

theorem Keeps.whenOn {t : State} (h : Keeps κ s₀ s) (ht : Keeps κ s₀ t) : Keeps κ s₀ (whenOn s t) :=
  .ite ht h

theorem Keeps.setBlock {sp : Space} {a : Nat} {bs : List Byte} {x : Seal} (h : Keeps false s₀ s) :
    Keeps false s₀ (s.setBlock sp a bs x) :=
  h.setBytes.setSeal

theorem Keeps.reseal {sp : Space} {a : Nat} (h : Keeps false s₀ s) : Keeps false s₀ (s.reseal sp a) :=
  h.setSeal

theorem Keeps.partialWrite {sp : Space} {a : Nat} {bs : List Byte} (h : Keeps false s₀ s) :
    Keeps false s₀ (s.partialWrite sp a bs) :=
  .foldl (fun _ _ h => h.reseal) h.setBytes

theorem Keeps.sendKept {p : Nat} {k : Kept} (h : Keeps κ s₀ s) : Keeps κ s₀ (s.sendKept p k) :=
  .ite h.setPort.emit h.setPort.emit

theorem Keeps.pumpN {p n : Nat} (h : Keeps κ s₀ s) : Keeps κ s₀ (s.pumpN p n) := by
  induction n generalizing s with
  | zero => exact h
  | succ n ih =>
    unfold State.pumpN
    dsimp only
    split
    · exact ih h.setPort.sendKept
    · exact h

theorem Keeps.pump {p : Nat} (h : Keeps κ s₀ s) : Keeps κ s₀ (s.pump p) :=
  h.pumpN

theorem Keeps.enqueue {p : Nat} {k : Kept} (h : Keeps κ s₀ s) : Keeps κ s₀ (s.enqueue p k) :=
  h.setPort.pump

theorem Keeps.sendOn {p part : Nat} {pkt : Packet} (h : Keeps κ s₀ s) : Keeps κ s₀ (s.sendOn p part pkt) :=
  .ite h.useTxn.enqueue h.enqueue

theorem Keeps.notice {payload : List Byte} (h : Keeps κ s₀ s) : Keeps κ s₀ (s.notice payload) :=
  .foldl (fun _ _ h => h.sendOn) h

theorem Keeps.setStaged {l : List EphRec} (h : Keeps κ s₀ s) : Keeps κ s₀ (s.setStaged l) :=
  h.eph.put

theorem Keeps.countDrop {sev : Nat} (h : Keeps κ s₀ s) : Keeps κ s₀ (s.countDrop sev) :=
  h.eph.inc

theorem Keeps.genWrite {r : EphRec} (h : Keeps κ s₀ s) : Keeps κ s₀ (s.genWrite r) :=
  .ite h.eph.put.next h.eph.put

theorem Keeps.keepPut {r : EphRec} (h : Keeps κ s₀ s) : Keeps κ s₀ (s.keepPut r).1 :=
  .ite h.eph.put.next h.eph.put

theorem Keeps.stageWith {program : State → EphRec → State} {r : EphRec} (h : Keeps κ s₀ s)
    (hprogram : ∀ t, Keeps κ s₀ t → ∀ a, Keeps κ s₀ (program t a)) :
    Keeps κ s₀ (s.stageWith program r) := by
  unfold State.stageWith
  refine .ite h.setStaged ?_
  split
  · exact h.countDrop.setStaged
  · refine .ite ?_ h.countDrop
    split
    · exact h.setStaged
    · exact (hprogram _ h _).put.setStaged

theorem Keeps.keepCopies {rs : List EphRec} {total lost : Nat} (h : Keeps κ s₀ s) :
    Keeps κ s₀ (s.keepCopies rs total lost).1 := by
  induction rs generalizing s total lost with
  | nil => exact h
  | cons r rs ih => exact .iteFst (ih h.inc) (ih h.keepPut)

theorem Keeps.stagePlain {r : EphRec} (h : Keeps κ s₀ s) : Keeps κ s₀ (s.stagePlain r) :=
  h.stageWith (fun _ ht _ => ht)

theorem Keeps.keepEnter (h : Keeps κ s₀ s) : Keeps κ s₀ s.keepEnter :=
  .ite h.keepCopies.eph h.keepCopies.eph.stagePlain

theorem Keeps.keepWrite {r : EphRec} (h : Keeps κ s₀ s) : Keeps κ s₀ (s.keepWrite r) :=
  .ite h.keepPut.keepEnter h.keepPut

theorem Keeps.programRec {r : EphRec} (h : Keeps κ s₀ s) : Keeps κ s₀ (s.programRec r) :=
  .ite h.genWrite.keepWrite h.genWrite

theorem Keeps.stage {r : EphRec} (h : Keeps κ s₀ s) : Keeps κ s₀ (s.stage r) :=
  h.stageWith (fun _ ht _ => ht.programRec)

theorem Keeps.freezeFrom {src : Nat} (h : Keeps κ s₀ s) : Keeps κ s₀ (s.freezeFrom src) :=
  .ite h (.stage (.notice (.ite h.put.put.inc.put.ecl.pins.emit h.put.put.inc.put.ecl)))

theorem Keeps.trigger {code sev : Nat} (h : Keeps κ s₀ s) : Keeps κ s₀ (s.trigger code sev) :=
  .ite h.freezeFrom h

theorem Keeps.cper {code sev cls idx action spares p0 p1 p2 : Nat} (h : Keeps κ s₀ s) :
    Keeps κ s₀ (s.cper code sev cls idx action spares p0 p1 p2) :=
  h.flt.put.put.emit

theorem Keeps.evS {code sev unit op p0 p1 p2 : Nat} (h : Keeps κ s₀ s) :
    Keeps κ s₀ (s.evS code sev unit op p0 p1 p2) :=
  .trigger (.ite h.stage.cper h.stage)

theorem Keeps.ev {code unit op p0 p1 p2 : Nat} (h : Keeps κ s₀ s) : Keeps κ s₀ (s.ev code unit op p0 p1 p2) :=
  h.evS

theorem Keeps.evEvery {period code sev key unit op n first : Nat} {mk : Nat → Nat → Nat × Nat × Nat}
    (h : Keeps κ s₀ s) :
    Keeps κ s₀ (s.evEvery period code sev key unit op n first mk) := by
  unfold State.evEvery
  split
  · exact .ite h.eph h.eph.evS
  · exact h.eph.evS

theorem Keeps.evLim {code key unit op p0 p1 : Nat} (h : Keeps κ s₀ s) : Keeps κ s₀ (s.evLim code key unit op p0 p1) :=
  h.evEvery

theorem Keeps.evLim3 {code key unit op p0 p1 p2 : Nat} (h : Keeps κ s₀ s) :
    Keeps κ s₀ (s.evLim3 code key unit op p0 p1 p2) :=
  h.evEvery

theorem Keeps.evIso {code ctx op addr : Nat} (h : Keeps κ s₀ s) : Keeps κ s₀ (s.evIso code ctx op addr) :=
  h.evEvery

theorem Keeps.evOnce {code key p0 p1 p2 : Nat} (h : Keeps κ s₀ s) : Keeps κ s₀ (s.evOnce code key p0 p1 p2) :=
  .ite h h.recorded.ev

end Sys2Proof.Machine

end


section
/-!
PROOFS. What every step keeps: memory, its cache lines, extents, rings and windows.
-/

namespace Sys2Proof.Machine

open Sys2Proof

variable {κ : Bool} {s₀ s t : State}

theorem Keeps.countDirty {k : Nat} (h : Keeps κ s₀ s) : Keeps κ s₀ (s.countDirty k) :=
  h.put

theorem Keeps.saveStale {b : Nat} (h : Keeps false s₀ s) : Keeps false s₀ (s.saveStale b) :=
  h.setBlock

theorem Keeps.dropStale {b : Nat} (h : Keeps false s₀ s) : Keeps false s₀ (s.dropStale b) :=
  h.setBlock

theorem Keeps.writeBackLine {b : Nat} (h : Keeps false s₀ s) : Keeps false s₀ (s.writeBackLine b) := by
  unfold State.writeBackLine
  split
  · exact .ite h.lines.dropStale.countDirty h
  · exact h

theorem Keeps.dropLine {b : Nat} (h : Keeps false s₀ s) : Keeps false s₀ (s.dropLine b) := by
  unfold State.dropLine
  split
  · exact .countDirty (.lines (.ite h.setBlock.dropStale h))
  · exact h

theorem Keeps.recallWrite {a : Nat} (h : Keeps false s₀ s) : Keeps false s₀ (s.recallWrite a) :=
  h.writeBackLine.dropLine

theorem Keeps.recallRead {a : Nat} (h : Keeps false s₀ s) : Keeps false s₀ (s.recallRead a) :=
  h.writeBackLine

theorem Keeps.makeRoom {k set : Nat} {prefetch : Bool} (h : Keeps false s₀ s)
    (e : s.makeRoom k set prefetch = some t) : Keeps false s₀ t := by
  unfold State.makeRoom at e
  split at e
  · cases e
    exact h
  · split at e <;> cases e
    exact h.writeBackLine.dropLine

theorem Keeps.llmAccess {p b : Nat} {write pin : Bool} (h : Keeps false s₀ s) :
    Keeps false s₀ (s.llmAccess p b write pin) := by
  unfold State.llmAccess
  refine .ite h ?_
  split
  next s₁ hit e =>
  have h₁ : Keeps false s₀ s₁ := by
    refine .of_eq ?_ e
    split
    · exact h.inc
    · dsimp only
      split
      · exact (h.inc.makeRoom ‹_›).lines
      · exact h.inc
  refine .ite h₁ ?_
  extract_lets st wasDirty s₂ s₃
  have h₃ : Keeps false s₀ s₃ := .lines (.ite h₁.saveStale h₁)
  clear_value s₃
  split
  · exact h₃.countDirty
  · exact h₃

theorem Keeps.llmPrefetch {p b : Nat} (h : Keeps false s₀ s) : Keeps false s₀ (s.llmPrefetch p b).1 := by
  unfold State.llmPrefetch
  dsimp only
  refine .iteFst h ?_
  split
  · exact (h.makeRoom ‹_›).lines
  · exact h

theorem Keeps.unpin {p : Nat} (h : Keeps κ s₀ s) : Keeps κ s₀ (s.unpin p) :=
  h.lines

theorem Keeps.recallExt {e : Extent} {rel n : Nat} {write : Bool} (h : Keeps false s₀ s) :
    Keeps false s₀ (s.recallExt e rel n write) :=
  .ite (.foldl (fun _ _ h => .ite h.recallWrite h.recallRead) h) h

theorem Keeps.extWrite {e : Extent} {rel : Nat} {bs : List Byte} (h : Keeps false s₀ s) :
    Keeps false s₀ (s.extWrite e rel bs) :=
  .foldlFst (fun _ _ h => h.partialWrite) h.recallExt

theorem Keeps.fenceIfOver {ctx op addr : Nat} (h : Keeps κ s₀ s) : Keeps κ s₀ (s.fenceIfOver ctx op addr) :=
  .ite h.put.put.evIso h

theorem Keeps.violate {ctx code op addr : Nat} (h : Keeps κ s₀ s) : Keeps κ s₀ (s.violate ctx code op addr) :=
  h.inc.evIso.fenceIfOver

theorem Keeps.advance {q : QueueId} {n : Nat} (h : Keeps κ s₀ s) : Keeps κ s₀ (s.advance q n) :=
  h.put

theorem Keeps.queueEvent {q : QueueId} {idx status : Nat} (h : Keeps κ s₀ s) :
    Keeps κ s₀ (s.queueEvent q idx status) := by
  unfold State.queueEvent
  split
  · exact h.evLim3
  · exact h.ev
  · exact h.ev
  · exact h.ev
  · exact h.ev

theorem Keeps.stopQueue {q : QueueId} {idx : Nat} {st : Status} (h : Keeps κ s₀ s) :
    Keeps κ s₀ (s.stopQueue q idx st) :=
  h.put.put.queueEvent

theorem Keeps.raiseIrq {ctx : Nat} (h : Keeps κ s₀ s) : Keeps κ s₀ (s.raiseIrq ctx) :=
  .ite h.setCtx.emit h.setCtx

theorem Keeps.countIrq {ctx : Nat} (h : Keeps κ s₀ s) : Keeps κ s₀ (s.countIrq ctx) :=
  .ite h.setCtx.raiseIrq h.setCtx

theorem Keeps.writeRec {cq : QueueId} {e : Extent} {rel : Nat} {r : CqRec} (h : Keeps false s₀ s) :
    Keeps false s₀ (s.writeRec cq e rel r) := by
  unfold State.writeRec
  refine .countIrq ?_
  split
  · exact .ite (.emit (.ite h.extWrite.put.setQueue h.extWrite.put)) (.ite h.extWrite.put.setQueue h.extWrite.put)
  · exact .ite h.extWrite.put.setQueue h.extWrite.put

theorem Keeps.deliver {q : QueueId} {r : CqRec} (h : Keeps false s₀ s) : Keeps false s₀ (s.deliver q r) := by
  unfold State.deliver
  refine .ite h.setQueue ?_
  split
  · exact h.writeRec
  · exact h.stopQueue.violate.setQueue

theorem Keeps.drainRecs {cq : QueueId} {rs : List CqRec} (h : Keeps false s₀ s) :
    Keeps false s₀ (s.drainRecs cq rs) := by
  induction rs generalizing s with
  | nil => exact h.setQueue
  | cons r rs ih =>
    unfold State.drainRecs
    refine .ite h.setQueue ?_
    split
    · exact ih h.writeRec
    · exact h.setQueue

theorem Keeps.complete {q : QueueId} {seq step : Nat} {st : Status} {r0 r1 : Nat} (h : Keeps false s₀ s) :
    Keeps false s₀ (s.complete q seq step st r0 r1) :=
  .ite h.deliver.setCtx.stopQueue h.deliver.setCtx

theorem Keeps.deferRec {q : QueueId} {seq step hint : Nat} (h : Keeps false s₀ s) :
    Keeps false s₀ (s.deferRec q seq step hint) :=
  h.deliver

theorem Keeps.cfgDone {st : Status} (h : Keeps κ s₀ s) : Keeps κ s₀ (s.cfgDone st) :=
  h.put

theorem Keeps.loadImage {owner : Nat} {im : List Byte} {slot : Option Nat} (h : Keeps κ s₀ s) :
    Keeps κ s₀ (s.loadImage owner im slot) :=
  h.cfg.put.put.put.cfgDone

theorem Keeps.releaseHeld (h : Keeps κ s₀ s) : Keeps κ s₀ s.releaseHeld :=
  .foldl (fun _ _ h => .ite h.put h) h

theorem Keeps.abandonCommit {cause : Nat} (h : Keeps κ s₀ s) : Keeps κ s₀ (s.abandonCommit cause) := by
  unfold State.abandonCommit
  split
  · exact h
  · exact h.cfg.releaseHeld.cfgDone.ev

theorem Keeps.closeSession (h : Keeps κ s₀ s) : Keeps κ s₀ s.closeSession :=
  h.cfg.put.put

theorem Keeps.stageWrite {owner off : Nat} {half : Half} {v : Nat} (h : Keeps κ s₀ s) :
    Keeps κ s₀ (s.stageWrite owner off half v) :=
  .ite h (.put (.put (.cfg (.ite h.cfg.put (.ite h.abandonCommit h)))))

theorem Keeps.setEn {q : QueueId} {en : Nat} (h : Keeps κ s₀ s) : Keeps κ s₀ (s.setEn q en) := by
  unfold State.setEn
  split
  · exact h.put.put
  · exact h.put

theorem Keeps.cancelFeeds {keep : Feed → Bool} (h : Keeps κ s₀ s) : Keeps κ s₀ (s.cancelFeeds keep) :=
  h.feeds

theorem Keeps.writeEn {q : QueueId} {en : Bool} (h : Keeps κ s₀ s) : Keeps κ s₀ (s.writeEn q en) := by
  unfold State.writeEn
  refine .ite (.ite h (.ite ?_ h.queueEvent)) ?_
  · split
    · exact h.setEn.put
    · exact h.setEn.put.setQueue
  · split
    · exact h.setEn.put.cancelFeeds
    · exact h.setEn.put

theorem Keeps.showPower (h : Keeps κ s₀ s) : Keeps κ s₀ s.showPower :=
  h.put

theorem Keeps.leaveDusk (h : Keeps κ s₀ s) : Keeps κ s₀ s.leaveDusk :=
  .showPower (.foldl (fun _ _ h => .ite h.put h) (.foldl (fun _ _ h => .ite h.put h) h))

theorem Keeps.wakeModule (h : Keeps κ s₀ s) : Keeps κ s₀ s.wakeModule :=
  .ite h.leaveDusk h

theorem Keeps.wakePart {p : Nat} (h : Keeps κ s₀ s) : Keeps κ s₀ (s.wakePart p) :=
  .ite h (.ite h h.wakeModule.put.inc.showPower)

theorem Keeps.writeTail {q : QueueId} {tail : Nat} (h : Keeps κ s₀ s) : Keeps κ s₀ (s.writeTail q tail) := by
  unfold State.writeTail
  refine .ite (.put ?_) h.queueEvent
  split
  · exact h.wakePart
  · exact h

theorem Keeps.restart {q : QueueId} (h : Keeps false s₀ s) : Keeps false s₀ (s.restart q) := by
  unfold State.restart
  refine .ite (.ite h.put ?_) h
  split
  · exact h.drainRecs.put
  · exact h

theorem Keeps.holdCmd {i : Instr} (h : Keeps κ s₀ s) : Keeps κ s₀ (s.holdCmd i) :=
  h.ecl

theorem Keeps.ctrl {i : Instr} {ok : Bool} {t : State} (h : Keeps κ s₀ s) (ht : Keeps κ s₀ t) :
    Keeps κ s₀ (s.ctrl i ok t) :=
  .ite h (.ite h.holdCmd ht)

theorem execQueueEnWrite_answers {path : Path} {q : QueueId} {en : Bool} (h : Keeps κ s₀ s) :
    Answers κ s₀ (execQueueEnWrite path q en s) :=
  ⟨_, rfl, h.ctrl h.writeEn⟩

theorem execQueueRestart_answers {path : Path} {q : QueueId} (h : Keeps false s₀ s) :
    Answers false s₀ (execQueueRestart path q s) :=
  ⟨_, rfl, h.ctrl h.restart⟩

theorem execQueueTailWrite_answers {path : Path} {q : QueueId} {tail : Nat} (h : Keeps κ s₀ s) :
    Answers κ s₀ (execQueueTailWrite path q tail s) :=
  ⟨_, rfl, h.ctrl h.writeTail⟩

theorem execCompletionRingRoom_answers {path : Path} {q : QueueId} {head : Nat} (h : Keeps false s₀ s) :
    Answers false s₀ (execCompletionRingRoom path q head s) :=
  ⟨_, rfl, h.ctrl h.put.drainRecs⟩

theorem Keeps.beat {f : Nat} (h : Keeps κ s₀ s) : Keeps κ s₀ (s.beat f) :=
  h.put.setFn

theorem execDoorbell_answers {fn : Fin 256} {slot qn tail : Nat} (h : Keeps κ s₀ s) :
    Answers κ s₀ (execDoorbell fn slot qn tail s) := by
  unfold execDoorbell
  refine ⟨_, rfl, h.ctrl ?_⟩
  split
  · exact h
  · refine .ite h.beat ?_
    split
    · exact h.beat.violate
    · exact .ite h.beat.writeTail h.beat.violate

theorem execHeartbeat_answers {fn : Fin 256} {slot : Nat} (h : Keeps κ s₀ s) :
    Answers κ s₀ (execHeartbeat fn slot s) :=
  ⟨_, rfl, h.ctrl h.beat⟩

theorem execInterruptDelayExpire_answers {c : Fin 4096} (h : Keeps κ s₀ s) :
    Answers κ s₀ (execInterruptDelayExpire c s) :=
  ⟨_, rfl, .ite h.raiseIrq h⟩

theorem Keeps.saveHandover (h : Keeps false s₀ s) : Keeps false s₀ s.saveHandover :=
  h.setBytes

end Sys2Proof.Machine

end


section
/-!
PROOFS. What every step keeps: register accesses, command rings, contexts and the containment of faults.
-/

namespace Sys2Proof.Machine

open Sys2Proof

variable {κ : Bool} {s₀ s t : State}

theorem Keeps.setEff (h : Keeps κ s₀ s) : Keeps κ s₀ s.setEff :=
  h.put

theorem Keeps.writeReg {k : Nat} {half : Half} {v : Nat} (h : Keeps κ s₀ s) : Keeps κ s₀ (s.writeReg k half v) := by
  unfold State.writeReg
  split
  · exact h
  · exact .ite h (.ite h.wr.setEff h.wr)

theorem Keeps.mirrorWrite {path : Path} {k : Nat} {half : Half} {v : Nat} (h : Keeps κ s₀ s) :
    Keeps κ s₀ (s.mirrorWrite path k half v) :=
  .ite h (.ite h.stageWrite h.cfgDone)

theorem Keeps.writeAny {path : Path} {k : Nat} {half : Half} {v : Nat} (h : Keeps κ s₀ s) :
    Keeps κ s₀ (s.writeAny path k half v) :=
  h.mirrorWrite.writeReg

theorem Keeps.registerWrite {path : Path} {a : RegAddr} {half : Half} {v : Word} (h : Keeps κ s₀ s) :
    Keeps κ s₀ (s.registerWrite path a half v) := by
  unfold State.registerWrite
  refine .ite ?_ h
  split
  · exact h
  · exact .ite h.holdCmd h.writeAny

theorem Keeps.readClear {k : Nat} {half : Half} (h : Keeps κ s₀ s) : Keeps κ s₀ (s.readClear k half) := by
  unfold State.readClear
  split
  · exact h.wr
  · exact h

theorem execRcFieldRead_answers {path : Path} {a : RegAddr} {half : Half} (h : Keeps κ s₀ s) :
    Answers κ s₀ (execRcFieldRead path a half s) := by
  unfold execRcFieldRead
  refine ⟨_, rfl, .ite ?_ h⟩
  split
  · exact h.emit
  · exact h.readClear.emit

theorem Keeps.outsideAccess {off size : Nat} {write : Bool} {fn : Nat} (h : Keeps κ s₀ s) :
    Keeps κ s₀ (s.outsideAccess off size write fn) :=
  .ite h.evOnce h.evOnce.emit

theorem execAccessUnsupportedSize_answers {off size : Nat} {write : Bool} {fn : Nat} (h : Keeps κ s₀ s) :
    Answers κ s₀ (execAccessUnsupportedSize off size write fn s) :=
  ⟨_, rfl, .ite (.ite (.ite h.evOnce h.evOnce.emit) h.outsideAccess) h⟩

theorem execAccessOutsideBlocks_answers {off : Nat} {write : Bool} {fn : Nat} (h : Keeps κ s₀ s) :
    Answers κ s₀ (execAccessOutsideBlocks off write fn s) :=
  ⟨_, rfl, .ite h.outsideAccess h⟩

theorem Keeps.windowAccess {off : Nat} {half : Half} {write : Option Word} (h : Keeps false s₀ s) :
    Keeps false s₀ (s.windowAccess off half write) := by
  unfold State.windowAccess
  refine .ite (.ite ?_ (.ite h.outsideAccess ?_)) h
  · split
    · exact h
    · exact h.emit
  · split
    · refine .ite h.holdCmd (.ite h.setBytes ?_)
      split
      · exact h.mirrorWrite
      · exact h.writeAny
    · refine .ite h.emit ?_
      split
      · exact h.emit
      · exact h.readClear.emit

theorem execBar2Read_answers {fn : Fin 256} {off len : Nat} (h : Keeps κ s₀ s) :
    Answers κ s₀ (execBar2Read fn off len s) := by
  unfold execBar2Read
  dsimp only
  refine ⟨_, rfl, .ite ?_ h⟩
  split
  · exact .ite h.emit h.emit
  · exact h.violate.emit
  · exact h

theorem execBar2Write_answers {fn : Fin 256} {off : Nat} {data : List Byte} (h : Keeps false s₀ s) :
    Answers false s₀ (execBar2Write fn off data s) := by
  unfold execBar2Write
  dsimp only
  refine ⟨_, rfl, .ite h (.ite h.holdCmd ?_)⟩
  split
  · exact .ite h.violate h.extWrite
  · exact h.violate
  · exact h

theorem Keeps.take {q : QueueId} (h : Keeps κ s₀ s) : Keeps κ s₀ (s.take q).1 :=
  h.advance

theorem Keeps.refuseHead {q : QueueId} (h : Keeps false s₀ s) : Keeps false s₀ (s.refuseHead q) := by
  unfold State.refuseHead
  exact h.take.complete

theorem Keeps.headOutside {q : QueueId} (h : Keeps false s₀ s) : Keeps false s₀ (s.headOutside q) :=
  h.violate.refuseHead

theorem Keeps.switchDefer {n : Nat} (h : Keeps false s₀ s) : Keeps false s₀ (s.switchDefer n) :=
  .ite h h.recorded.deferRec

theorem Keeps.command {n op : Nat} {body : State → Nat → Entry → State} (h : Keeps false s₀ s)
    (hbody : ∀ t, Keeps false s₀ t → ∀ a b, Keeps false s₀ (body t a b)) :
    Keeps false s₀ (s.command n op body) := by
  unfold State.command
  refine .ite h (.ite h.switchDefer (.ite h ?_))
  split
  · exact h.headOutside
  · exact .ite h.refuseHead (.ite h (.ite h (.ite h.violate.refuseHead
      (.ite h.refuseHead (.ite h.take.complete (hbody _ h.take _ _))))))

theorem Keeps.cmdDone {n i : Nat} {st : Status} {r0 : Nat} (h : Keeps false s₀ s) :
    Keeps false s₀ (s.cmdDone n i st r0) :=
  h.complete

theorem Keeps.cmdOpen {n i : Nat} (h : Keeps κ s₀ s) : Keeps κ s₀ (s.cmdOpen n i) :=
  h.setQueue

theorem Keeps.cmdClose {n i : Nat} {st : Status} {r0 r1 : Nat} (h : Keeps false s₀ s) :
    Keeps false s₀ (s.cmdClose n i st r0 r1) :=
  h.fw.setQueue.complete

theorem Keeps.refreshUse {n : Nat} (h : Keeps κ s₀ s) : Keeps κ s₀ (s.refreshUse n) :=
  h.put.put.put.put.put.put

theorem Keeps.countRefusal {n t point : Nat} {st : Status} (h : Keeps κ s₀ s) :
    Keeps κ s₀ (s.countRefusal n t point st) :=
  .ite h.inc.evLim (.ite h.inc.evLim h)

theorem Keeps.applyChange {n : Nat} {c : ExtChange} (h : Keeps false s₀ s) : Keeps false s₀ (s.applyChange n c) :=
  h.setCtx.put.refreshUse.cmdClose

theorem Keeps.requestChange {n : Nat} {c : ExtChange} (h : Keeps false s₀ s) : Keeps false s₀ (s.requestChange n c) :=
  .ite h.setCtx.cmdOpen.refreshUse h.setCtx.cmdOpen.applyChange

theorem Keeps.admitExtent {ring i n : Nat} {e : Entry} {again : Bool} (h : Keeps false s₀ s) :
    Keeps false s₀ (s.admitExtent ring i n e again) := by
  unfold State.admitExtent
  dsimp only
  split
  · exact h.countRefusal.cmdClose
  · exact .ite h h.tiers.inc.deferRec
  · exact h.addFree.requestChange

theorem Keeps.extentSet {ring i : Nat} {e : Entry} (h : Keeps false s₀ s) : Keeps false s₀ (s.extentSet ring i e) := by
  unfold State.extentSet
  refine .ite h.cmdDone (.ite ?_ ?_)
  · split
    · exact h.requestChange
    · exact h.cmdDone
  · split
    · exact h.cmdDone
    · exact h.cmdOpen.admitExtent

theorem execExtentSet_answers {c : Fin 4096} (h : Keeps false s₀ s) : Answers false s₀ (execExtentSet c s) :=
  ⟨_, rfl, h.command (fun _ ht _ _ => ht.extentSet)⟩

theorem execExtentChangeTakesEffect_answers {ctx : Fin 4096} (h : Keeps false s₀ s) :
    Answers false s₀ (execExtentChangeTakesEffect ctx s) := by
  unfold execExtentChangeTakesEffect
  refine ⟨_, rfl, .ite ?_ h⟩
  split
  · exact h
  · exact h.applyChange

theorem Keeps.dropDeferral {d : DeferReq} (h : Keeps κ s₀ s) : Keeps κ s₀ (s.dropDeferral d) :=
  h.tiers

theorem Keeps.readmitExtent {d : DeferReq} (h : Keeps false s₀ s) : Keeps false s₀ (s.readmitExtent d) := by
  unfold State.readmitExtent
  dsimp only
  split
  · split
    · exact h
    · exact h.dropDeferral.admitExtent
  · exact h

theorem Keeps.toClosing {n : Nat} (h : Keeps κ s₀ s) : Keeps κ s₀ (s.toClosing n) :=
  h.put.setCtx

theorem Keeps.createCtx {e : Entry} (h : Keeps κ s₀ s) : Keeps κ s₀ (s.createCtx e) :=
  .refreshUse (.ite h.put.put.put.put.put.put.put.put.put.put.put.put.setCtx.put.put.put.put.put
    h.put.put.put.put.put.put.put.put.put.put.put.put.setCtx.put.put.put)

theorem execCtxCreate_answers {c : Fin 4096} (h : Keeps false s₀ s) : Answers false s₀ (execCtxCreate c s) := by
  unfold execCtxCreate
  refine ⟨_, rfl, h.command (fun _ ht _ _ => ?_)⟩
  split
  · exact ht.cmdDone
  · exact ht.createCtx.cmdDone

theorem execCtxDestroy_answers {c : Fin 4096} (h : Keeps false s₀ s) : Answers false s₀ (execCtxDestroy c s) :=
  ⟨_, rfl, h.command (fun _ ht _ _ => .cmdDone (.ite ht.toClosing ht))⟩

theorem execCtxFence_answers {c : Fin 4096} (h : Keeps false s₀ s) : Answers false s₀ (execCtxFence c s) :=
  ⟨_, rfl, h.command (fun _ ht _ _ => .ite ht.put.put.cmdDone ht.cmdDone)⟩

theorem execCtxUnfence_answers {c : Fin 4096} (h : Keeps false s₀ s) : Answers false s₀ (execCtxUnfence c s) :=
  ⟨_, rfl, h.command (fun _ ht _ _ => .ite ht.put.put.put.cmdDone ht.cmdDone)⟩

theorem Keeps.setPeer {n w : Nat} {x : Option PeerWin} (h : Keeps κ s₀ s) : Keeps κ s₀ (s.setPeer n w x) :=
  h.setCtx

theorem execPeerWindow_answers {c : Fin 4096} {answers : Bool} (h : Keeps false s₀ s) :
    Answers false s₀ (execPeerWindow c answers s) :=
  ⟨_, rfl, h.command (fun _ ht _ _ => .ite ht.cmdDone
    (.ite ht.setPeer.cmdDone (.ite ht.emit.setPeer.cmdDone (.ite ht.emit.setPeer.cmdDone ht.emit.cmdDone))))⟩

theorem Keeps.fnVector {f : Nat} (h : Keeps κ s₀ s) : Keeps κ s₀ (s.fnVector f) :=
  h.emit

theorem Keeps.orphan {f cause : Nat} (h : Keeps false s₀ s) : Keeps false s₀ (s.orphan f cause) :=
  .ite h (.saveHandover (.ev (.put (.setFn (.foldl (fun _ _ h => .ite h.setCtx.put h.setCtx) h)))))

theorem execHbTimeoutExpire_answers {f : Fin 256} (h : Keeps false s₀ s) :
    Answers false s₀ (execHbTimeoutExpire f s) :=
  ⟨_, rfl, .ite h.orphan h⟩

theorem Keeps.linkReset (h : Keeps false s₀ s) : Keeps false s₀ s.linkReset :=
  .dropCfgSpace (.foldl (fun _ _ h => h.orphan) h)

theorem execPcieLinkReset_answers (h : Keeps false s₀ s) : Answers false s₀ (execPcieLinkReset s) :=
  ⟨_, rfl, h.whenOn h.linkReset⟩

theorem execConfigurationRequest_answers {fn : Fin 256} {reg : Nat} {write : Option Word} (h : Keeps κ s₀ s) :
    Answers κ s₀ (execConfigurationRequest fn reg write s) := by
  unfold execConfigurationRequest
  refine ⟨_, rfl, .ite h (.ite h.emit ?_)⟩
  split
  · exact h.emit
  · refine .ite (.ite h.numVfs h) ?_
    split
    · exact h.cfgSpace
    · exact h

theorem execPerstRelease_answers (h : Keeps κ s₀ s) : Answers κ s₀ (execPerstRelease s) :=
  ⟨_, rfl, h.pins⟩

theorem Keeps.dropOwned {n : Nat} (h : Keeps κ s₀ s) : Keeps κ s₀ (s.dropOwned n) :=
  .others (.foldl (fun _ _ h => h.put) (.foldl (fun _ _ h => h.wr.wr.put) h)) rfl

theorem Keeps.freeCtx {n : Nat} (h : Keeps κ s₀ s) : Keeps κ s₀ (s.freeCtx n) :=
  .ite (.fnVector (.put (.put (.foldl (fun _ _ h => h.wr) h.dropOwned.wr.put.wr.wr.wr.setCtx))))
    (.foldl (fun _ _ h => h.wr) h.dropOwned.wr.put.wr.wr.wr.setCtx)

theorem execContextFree_answers {ctx : Fin 4096} (h : Keeps κ s₀ s) : Answers κ s₀ (execContextFree ctx s) :=
  ⟨_, rfl, .ite h.freeCtx h⟩

theorem Keeps.recOnly {code sev unit op p0 p1 p2 : Nat} (h : Keeps κ s₀ s) :
    Keeps κ s₀ (s.recOnly code sev unit op p0 p1 p2) :=
  h.stage.trigger

theorem Keeps.countFault {cls idx kind : Nat} (h : Keeps κ s₀ s) : Keeps κ s₀ (s.countFault cls idx kind).1 :=
  h.flt

theorem Keeps.faultAt {cls idx kind : Nat} (h : Keeps κ s₀ s) : Keeps κ s₀ (s.faultAt cls idx kind).1 :=
  h.countFault

theorem Keeps.starRetire {cls idx spare : Nat} (h : Keeps κ s₀ s) : Keeps κ s₀ (s.starRetire cls idx spare) :=
  .ite h.flt.flt h.flt.put.flt

theorem Keeps.retired {cls idx action sev : Nat} {spare : Option Nat} {left : Nat} (h : Keeps κ s₀ s) :
    Keeps κ s₀ (s.retired cls idx action sev spare left) := by
  unfold State.retired
  refine .starRetire (.cper (.recOnly ?_))
  split
  · exact h
  · exact h.useFree

theorem Keeps.unitOut {cls idx n : Nat} (h : Keeps κ s₀ s) : Keeps κ s₀ (s.unitOut cls idx n) :=
  h.flt.recOnly.cper.emit

theorem Keeps.journalUse {q : Nat} (h : Keeps κ s₀ s) : Keeps κ s₀ (s.journalUse q) :=
  h.put.put.put

theorem Keeps.mapRec {p w seq : Nat} {f : JRec → JRec} (h : Keeps κ s₀ s) : Keeps κ s₀ (s.mapRec p w seq f) :=
  h.journal

theorem Keeps.addRec {r : JRec} (h : Keeps κ s₀ s) : Keeps κ s₀ (s.addRec r) :=
  h.journal.journalUse

theorem Keeps.freeRecs {gone : JRec → Bool} (h : Keeps κ s₀ s) : Keeps κ s₀ (s.freeRecs gone) :=
  .foldl (fun _ _ h => h.journalUse) h.journal

theorem Keeps.savePre {p w seq : Nat} {blocks : List (Space × Nat)} (h : Keeps κ s₀ s)
    (e : s.savePre p w seq blocks = some t) : Keeps κ s₀ t := by
  unfold State.savePre at e
  split at e
  · cases e
    exact h
  · dsimp only at e
    split at e <;> cases e
    exact h.mapRec.journalUse

theorem Keeps.replayEntry {r : JRec} {phys : Nat} (h : Keeps false s₀ s) : Keeps false s₀ (s.replayEntry r phys) := by
  unfold State.replayEntry
  exact .evEvery (.put (.put (.setTile (.mapRec
      (.waits (.foldl (fun _ _ h => h.put) (.foldl (fun _ _ h => h.restoreBlock) h)))))))

theorem Keeps.loseTile {p : Nat} (h : Keeps κ s₀ s) : Keeps κ s₀ (s.loseTile p) :=
  .ite h.put.put h.put

theorem Keeps.moveTile {t u : Nat} (h : Keeps false s₀ s) : Keeps false s₀ (s.moveTile t u) :=
  .flt (.setTile (.foldl (fun _ _ h => h.put) h.copyStore.put.put.put.put.next))

theorem Keeps.retireTile {t : Nat} (h : Keeps false s₀ s) : Keeps false s₀ (s.retireTile t) := by
  unfold State.retireTile
  extract_lets mapped r a₀ a₁ spare a₂ a₃ left a₄ a₅
  clear_value r spare
  have h₀ : Keeps false s₀ a₀ := by
    cases r with
    | some x => exact .foldl (fun _ _ h => h.restoreBlock) h
    | none => exact h
  have h₁ : Keeps false s₀ a₁ := h₀.put
  have h₂ : Keeps false s₀ a₂ := by
    cases spare with
    | some u => exact h₁.moveTile
    | none => exact .ite h₁.loseTile h₁
  have h₄ : Keeps false s₀ a₄ := h₂.put.setTile.put.inc
  have h₅ : Keeps false s₀ a₅ := .ite (.ite h₄.retired h₄.retired) h₄.retired
  clear_value a₅
  refine .ite h ?_
  split
  · exact h₅.replayEntry
  · exact h₅

theorem Keeps.capture {t : Nat} (h : Keeps κ s₀ s) : Keeps κ s₀ (s.capture t) := by
  unfold State.capture
  split
  · exact h
  · exact .journalUse (.ite h.mapRec h.mapRec.inc)

theorem Keeps.markSuspect {p : Nat} (h : Keeps κ s₀ s) : Keeps κ s₀ (s.markSuspect p) :=
  h.put

theorem Keeps.residueFault {t unit : Nat} (h : Keeps false s₀ s) : Keeps false s₀ (s.residueFault t unit) := by
  unfold State.residueFault
  dsimp only
  split
  · exact h.inc.evLim
  · split
    · exact .faultAt (.capture (.foldl (fun _ _ h => h.restoreBlock) h.inc.evLim.markSuspect))
    · exact .ite (.retireTile (.faultAt (.capture (.foldl (fun _ _ h => h.restoreBlock) h.inc.evLim.markSuspect))))
        (.replayEntry (.faultAt (.capture (.foldl (fun _ _ h => h.restoreBlock) h.inc.evLim.markSuspect))))

theorem Keeps.storeFault {t slot word : Nat} (h : Keeps false s₀ s) : Keeps false s₀ (s.storeFault t slot word).1 :=
  .iteFst h.setSeal.evLim.faultAt.retireTile h.setSeal.evLim.faultAt

theorem Keeps.storeCorrected {t n : Nat} (h : Keeps false s₀ s) : Keeps false s₀ (s.storeCorrected t n).1 :=
  .foldlFst (fun _ _ h => .iteFst h (.iteFst h.inc.faultAt.retireTile h.inc.faultAt)) h

end Sys2Proof.Machine

end


section
/-!
PROOFS. What every step keeps: the on-package network, tiles and stacks.
-/

namespace Sys2Proof.Machine

open Sys2Proof

variable {κ : Bool} {s₀ s t : State}

theorem Keeps.choosePort {dst cls p : Nat} {part : Option Nat} {avoid : List Nat} (h : Keeps κ s₀ s)
    (e : s.choosePort dst cls part avoid = some (p, t)) : Keeps κ s₀ t := by
  unfold State.choosePort at e
  split at e
  · contradiction
  · dsimp only at e
    split at e <;> split at e <;> cases e
    · exact h.spray
    · exact h

theorem Keeps.route {part : Option Nat} {pkt : Packet} (h : Keeps κ s₀ s) (e : s.route part pkt = some t) :
    Keeps κ s₀ t := by
  unfold State.route at e
  split at e <;> cases e
  exact (h.choosePort ‹_›).sendOn

theorem Keeps.c0ToSideband {unit : Nat} {pkt : Packet} (h : Keeps κ s₀ s) : Keeps κ s₀ (s.c0ToSideband unit pkt) :=
  h.emit.ev

theorem Keeps.sendC0 {pkt : Packet} (h : Keeps κ s₀ s) : Keeps κ s₀ (s.sendC0 pkt) := by
  unfold State.sendC0
  split
  · exact h.route ‹_›
  · exact h.c0ToSideband

theorem Keeps.sendC0On {p : Nat} {pkt : Packet} (h : Keeps κ s₀ s) : Keeps κ s₀ (s.sendC0On p pkt) :=
  .ite h.sendOn h.sendC0

theorem Keeps.notDelivered {unit cause dst : Nat} (h : Keeps κ s₀ s) : Keeps κ s₀ (s.notDelivered unit cause dst) :=
  h.evLim

theorem Keeps.sendReply {part : Nat} {pkt : Packet} (h : Keeps κ s₀ s) : Keeps κ s₀ (s.sendReply part pkt) := by
  unfold State.sendReply
  split
  · exact h.route ‹_›
  · exact h.notDelivered

theorem Keeps.request {unit ctx : Nat} {pkt : Packet} {what : ReqFor} (h : Keeps κ s₀ s) :
    Keeps κ s₀ (s.request unit ctx pkt what) := by
  unfold State.request
  dsimp only
  split
  · exact (h.useTxn.route ‹_›).xreqs
  · exact h.useTxn.xreqs

theorem Keeps.sendNotice {port : Option Nat} {dst : Nat} {payload : List Byte} (h : Keeps κ s₀ s) :
    Keeps κ s₀ (s.sendNotice port dst payload) := by
  unfold State.sendNotice
  split
  · exact h.sendC0On
  · exact h.sendC0

theorem Keeps.accused {a : Accuse} (h : Keeps κ s₀ s) : Keeps κ s₀ (s.accused a) :=
  .ite h.put.put.inc h.put.put.flt.inc.ev

theorem Keeps.deliverAccusation {a : Accuse} (h : Keeps κ s₀ s) : Keeps κ s₀ (s.deliverAccusation a) := by
  unfold State.deliverAccusation
  exact .evEvery (.ite h.emit.accused h.emit.sendNotice)

theorem Keeps.sendUp {kind part : Nat} {a : Accuse} (h : Keeps κ s₀ s) : Keeps κ s₀ (s.sendUp kind part a) :=
  .ite h.sendNotice h.sendNotice

theorem Keeps.takeAccusation {a : Accuse} (h : Keeps κ s₀ s) : Keeps κ s₀ (s.takeAccusation a) := by
  unfold State.takeAccusation
  exact .ite (.flt (.ite h.flt h)) (.ite (.ite (.deliverAccusation (.ite h.flt h)) (.sendUp (.ite h.flt h)))
      (.flt (.ite h.flt h)))

theorem Keeps.accuse_send {cause suspect part : Nat} {pend : Nat × Nat} {rest : List RateEnt} (h : Keeps κ s₀ s) :
    Keeps κ s₀ (State.accuse.send s cause suspect part pend rest) :=
  .ite h.flt.takeAccusation h.flt.sendUp

theorem Keeps.accuse {cause suspect part : Nat} (h : Keeps κ s₀ s) : Keeps κ s₀ (s.accuse cause suspect part) := by
  unfold State.accuse
  dsimp only
  split
  · exact .ite h.flt h.accuse_send
  · exact h.accuse_send

theorem Keeps.tryFinish {t : Nat} (h : Keeps κ s₀ s) : Keeps κ s₀ (s.tryFinish t) := by
  unfold State.tryFinish
  refine .ite h ?_
  split
  · exact h.setTile
  · exact .ite h.setTile h
  · exact h

theorem Keeps.noteFailure {t n : Nat} {st : Status} (h : Keeps κ s₀ s) : Keeps κ s₀ (s.noteFailure t n st) :=
  h.setTile.put

theorem Keeps.malform {t reason : Nat} {w : Entry} (h : Keeps κ s₀ s) : Keeps κ s₀ (s.malform t reason w) :=
  h.evLim3.noteFailure.tryFinish

theorem Keeps.issueOp {t : Nat} {w : Entry} {st : Status} {waits : Bool} {txn : Nat} {q : QCount} {rs : List Reg}
    (h : Keeps κ s₀ s) :
    Keeps κ s₀ (s.issueOp t w st waits txn q rs) :=
  h.setTile.put

theorem Keeps.issueDone {t : Nat} {w : Entry} {st : Status} {rs : List Reg} (h : Keeps κ s₀ s) :
    Keeps κ s₀ (s.issueDone t w st rs) :=
  h.issueOp

theorem Keeps.macroOp {t op : Nat} {w : Entry} {chk : Entry → Option Nat} {regs : Entry → List Reg}
    {blocks : Entry → Nat} {body : State → Entry → List Reg → State} (h : Keeps κ s₀ s)
    (hbody : ∀ t, Keeps κ s₀ t → ∀ a b, Keeps κ s₀ (body t a b)) :
    Keeps κ s₀ (s.macroOp t op w chk regs blocks body) := by
  unfold State.macroOp
  dsimp only
  refine .ite h (.ite h.malform (.ite h (.ite h.malform (.ite h (.ite h.malform (.ite h.malform ?_))))))
  split
  · exact h.malform
  · exact .ite h.malform (.ite h (hbody _ h _ _))

theorem Keeps.deliverOnce {t : Nat} {eff : State → State} (h : Keeps κ s₀ s)
    (heff : ∀ t, Keeps κ s₀ t → Keeps κ s₀ (eff t)) :
    Keeps κ s₀ (s.deliverOnce t eff) :=
  .ite h.setTile ((heff _ h.setTile).mapRec)

theorem Keeps.endWait {t : Nat} {st : Status} (h : Keeps κ s₀ s) : Keeps κ s₀ (s.endWait t st) :=
  h.setTile

theorem Keeps.checkWait {t : Nat} (h : Keeps κ s₀ s) : Keeps κ s₀ (s.checkWait t) := by
  unfold State.checkWait
  split
  · exact .ite h.endWait h
  · exact h

theorem Keeps.signal {t c n : Nat} (h : Keeps κ s₀ s) : Keeps κ s₀ (s.signal t c n) :=
  h.put.checkWait

theorem Keeps.breach {t code fmt tensor n : Nat} (h : Keeps κ s₀ s) : Keeps κ s₀ (s.breach t code fmt tensor n) :=
  .ite h.put.put.inc h.put.put.evLim3

theorem Keeps.restartWindow {t : Nat} (h : Keeps κ s₀ s) : Keeps κ s₀ (s.restartWindow t) :=
  h.setTile

theorem Keeps.closeWindow {t fmt tensor : Nat} (h : Keeps κ s₀ s) : Keeps κ s₀ (s.closeWindow t fmt tensor) :=
  .restartWindow (.ite (.breach (.ite h.breach h)) (.ite h.breach h))

theorem Keeps.window {n fmt tensor : Nat} {ms : List Nat} (h : Keeps κ s₀ s) :
    Keeps κ s₀ (s.window n fmt tensor ms) := by
  induction ms generalizing s with
  | nil => exact h
  | cons m ms ih => exact ih (.ite h.setTile.closeWindow h.setTile)

theorem Keeps.countQuant {t : Nat} {q : QCount} (h : Keeps κ s₀ s) : Keeps κ s₀ (s.countQuant t q) :=
  .ite h (.ite h.inc.inc.inc.inc (.window (.ite h.inc.inc.inc.inc h.inc.inc.inc.inc.evLim3)))

theorem Keeps.retireOp {t : Nat} {i : Issued} (h : Keeps κ s₀ s) : Keeps κ s₀ (s.retireOp t i) := by
  unfold State.retireOp
  refine .tryFinish (.ite (.setTile (.ite ?_ (.noteFailure (.ite h.setTile h.setTile.countQuant.mapRec))))
      (.ite ?_ (.noteFailure (.ite h.setTile h.setTile.countQuant.mapRec))))
  · split
    · exact .deliverOnce (.ite h.setTile h.setTile.countQuant.mapRec) (fun _ ht => ht.signal)
    · exact .ite h.setTile h.setTile.countQuant.mapRec
  · split
    · exact .deliverOnce (.ite h.setTile h.setTile.countQuant.mapRec) (fun _ ht => ht.signal)
    · exact .ite h.setTile h.setTile.countQuant.mapRec

theorem execMacroOpComplete_answers {t : Fin 272} (h : Keeps κ s₀ s) : Answers κ s₀ (execMacroOpComplete t s) := by
  unfold execMacroOpComplete
  refine ⟨_, rfl, .ite ?_ h⟩
  split
  · exact h.retireOp
  · exact h

theorem Keeps.slotCheck {n : Nat} {rs : List Reg} {st : Status} (h : Keeps κ s₀ s)
    (e : s.slotCheck n rs = some (t, st)) : Keeps κ s₀ t := by
  unfold State.slotCheck at e
  dsimp only at e
  split at e
  · cases e
    exact h.inc.evLim
  · split at e <;> cases e
    exact h

theorem Keeps.checked {t : Nat} {chk : TileCheck} {k : State → State} (h : Keeps false s₀ s)
    (hk : ∀ t, Keeps false s₀ t → Keeps false s₀ (k t)) :
    Keeps false s₀ (s.checked t chk k) := by
  unfold State.checked
  split
  · exact hk _ h
  · exact h.residueFault
  · exact .ite h.storeFault (hk _ h.storeFault)
  · exact .ite h.storeCorrected (hk _ h.storeCorrected)

theorem Keeps.setNonfinite {p : Nat} {eval : Bool} (h : Keeps κ s₀ s) : Keeps κ s₀ (s.setNonfinite p eval) :=
  .ite h h.put

theorem Keeps.preSlots {n : Nat} {rs : List Reg} (h : Keeps κ s₀ s) (e : s.preSlots n rs = some t) : Keeps κ s₀ t :=
  h.savePre e

theorem Keeps.noteSlots {t : Nat} {slots : List Nat} (h : Keeps κ s₀ s) : Keeps κ s₀ (s.noteSlots t slots) :=
  h.setTile

theorem Keeps.writeSlots {t addr tensor fmt base : Nat} {bs : List (List Byte)} (h : Keeps false s₀ s) :
    Keeps false s₀ (s.writeSlots t addr tensor fmt base bs) :=
  .noteSlots (.foldl (fun _ _ h => h.setBlock) h)

theorem Keeps.writeRange {t off : Nat} {bs : List Byte} (h : Keeps false s₀ s) :
    Keeps false s₀ (s.writeRange t off bs) :=
  h.partialWrite.noteSlots

theorem execNop_answers {t : Fin 272} {w : Entry} (h : Keeps κ s₀ s) : Answers κ s₀ (execNop t w s) :=
  ⟨_, rfl, h.macroOp (fun _ ht _ _ => ht.issueDone)⟩

theorem execEndOp_answers {t : Fin 272} {w : Entry} (h : Keeps κ s₀ s) : Answers κ s₀ (execEndOp t w s) :=
  ⟨_, rfl, h.macroOp (fun _ ht _ _ => ht.issueDone.setTile)⟩

theorem execFence_answers {t : Fin 272} {w : Entry} (h : Keeps κ s₀ s) : Answers κ s₀ (execFence t w s) :=
  ⟨_, rfl, h.macroOp (fun _ ht _ _ => .ite ht.issueDone ht)⟩

theorem execWait_answers {t : Fin 272} {w : Entry} (h : Keeps κ s₀ s) : Answers κ s₀ (execWait t w s) :=
  ⟨_, rfl, h.macroOp (fun _ ht _ _ => ht.issueOp.setTile.checkWait)⟩

theorem execWaitTimeout_answers {t : Fin 272} (h : Keeps κ s₀ s) : Answers κ s₀ (execWaitTimeout t s) :=
  ⟨_, rfl, .ite h.endWait h⟩

theorem execSignal_answers {t : Fin 272} {w : Entry} (h : Keeps κ s₀ s) : Answers κ s₀ (execSignal t w s) :=
  ⟨_, rfl, h.macroOp (fun _ ht _ _ => .ite ht (.ite
    (.ite (ht.issueDone.deliverOnce (fun _ ht => ht.signal)) ht.issueDone)
    (ht.issueDone.deliverOnce (fun _ ht => ht.signal))))⟩

theorem execLoop_answers {t : Fin 272} {w : Entry} (h : Keeps κ s₀ s) : Answers κ s₀ (execLoop t w s) :=
  ⟨_, rfl, h.macroOp (fun _ ht _ _ => ht.issueDone.setTile)⟩

theorem execQsatCtlWrite_answers {path : Path} {t : Fin 272} {half : Half} {v : Word} (h : Keeps κ s₀ s) :
    Answers κ s₀ (execQsatCtlWrite path t half v s) :=
  ⟨_, rfl, h.ctrl h.writeAny.restartWindow⟩

theorem Keeps.countChannels {k : Nat} (h : Keeps κ s₀ s) : Keeps κ s₀ (s.countChannels k) :=
  h.put.put

theorem Keeps.setChannel {k c st : Nat} (h : Keeps κ s₀ s) : Keeps κ s₀ (s.setChannel k c st) :=
  h.put.countChannels

theorem Keeps.setSparing {k c : Nat} {x : Option Sparing} (h : Keeps κ s₀ s) : Keeps κ s₀ (s.setSparing k c x) :=
  h.setStk

theorem Keeps.stackOut {k : Nat} (h : Keeps κ s₀ s) : Keeps κ s₀ (s.stackOut k) :=
  h.put.put.next.setStk

theorem Keeps.foldStart {k c : Nat} {unreadable : Bool} (h : Keeps κ s₀ s) : Keeps κ s₀ (s.foldStart k c unreadable) :=
  .ite h.stackOut h.setChannel.setSparing.ev

theorem Keeps.retireChannel {k c : Nat} (h : Keeps κ s₀ s) : Keeps κ s₀ (s.retireChannel k c) := by
  unfold State.retireChannel
  refine .ite h (.ite h.setStk ?_)
  split
  · exact h.setChannel.setSparing.put
  · exact h.foldStart

theorem Keeps.nextRepair {k : Nat} (h : Keeps κ s₀ s) : Keeps κ s₀ (s.nextRepair k) := by
  unfold State.nextRepair
  split
  · exact h
  · exact h.setStk.retireChannel

theorem Keeps.channelRetired {k c action : Nat} {spare : Option Nat} (h : Keeps κ s₀ s) :
    Keeps κ s₀ (s.channelRetired k c action spare) :=
  h.setChannel.setSparing.evLim3.retired

theorem Keeps.poisonEvent {k o c n : Nat} (h : Keeps κ s₀ s) : Keeps κ s₀ (s.poisonEvent k o c n) :=
  h.evEvery

theorem Keeps.poison {sp : Space} {a : Nat} (h : Keeps false s₀ s) : Keeps false s₀ (s.poison sp a) :=
  h.setSeal

theorem Keeps.poisonSlot {k slot c : Nat} (h : Keeps false s₀ s) : Keeps false s₀ (s.poisonSlot k slot c) := by
  unfold State.poisonSlot
  dsimp only
  split
  · exact .foldl (fun _ _ h => h.poison) h
  · exact .ite (.poisonEvent (.foldl (fun _ _ h => h.poison) h))
      (.poisonEvent (.poisonEvent (.foldl (fun _ _ h => h.poison) h)))

theorem Keeps.hUncorrectable {a : Nat} (h : Keeps false s₀ s) : Keeps false s₀ (s.hUncorrectable a) :=
  .ite h.poison.inc.poisonEvent.faultAt.retireChannel h.poison.inc.poisonEvent.faultAt

theorem execOffline_answers {k : Fin 12} {c : Fin 34} (h : Keeps κ s₀ s) : Answers κ s₀ (execOffline k c s) := by
  unfold execOffline
  refine ⟨_, rfl, h.ctrl ?_⟩
  split
  · exact h.setChannel.setSparing.put
  · exact h

theorem execOnline_answers {k : Fin 12} {c : Fin 34} (h : Keeps κ s₀ s) : Answers κ s₀ (execOnline k c s) :=
  ⟨_, rfl, h.ctrl h.setChannel.setSparing.put⟩

theorem execSparingCopyComplete_answers {kk : Fin 12} {cc : Fin 34} (h : Keeps κ s₀ s) :
    Answers κ s₀ (execSparingCopyComplete kk cc s) := by
  unfold execSparingCopyComplete
  dsimp only
  refine ⟨_, rfl, .ite ?_ h⟩
  split
  · exact h
  · refine .ite h (.ite (.nextRepair ?_) (.ite h.put.setChannel.put.channelRetired.nextRepair
      h.put.setChannel.put.setChannel.setSparing.setStk.nextRepair))
    split
    · exact h.setChannel.put.setSparing.setStk.setChannel
    · exact h.setChannel.put.setSparing.setStk

theorem execChannelUnreadable_answers {kk : Fin 12} {cc : Fin 34} (h : Keeps false s₀ s) :
    Answers false s₀ (execChannelUnreadable kk cc s) := by
  unfold execChannelUnreadable
  refine ⟨_, rfl, .ite (.ite ?_ (.ite h.poisonSlot h)) h⟩
  split
  · exact h.poisonSlot.put.setChannel.channelRetired
  · exact h.poisonSlot.foldStart

theorem Keeps.moveGranule {src dst : Nat} (h : Keeps false s₀ s) : Keeps false s₀ (s.moveGranule src dst) :=
  .foldl (fun _ _ h => h.setBlock) h

theorem Keeps.movePieces {lo hi : Nat} {ps : List (Nat × Nat)} {fs : List Nat} {c : Nat} (h : Keeps false s₀ s) :
    Keeps false s₀ (s.movePieces lo hi ps fs c).1 := by
  induction ps generalizing s fs c with
  | nil => exact h
  | cons p ps ih =>
    obtain ⟨p, n⟩ := p
    unfold State.movePieces
    refine .iteFst (ih (.foldlFst (fun _ _ h => ?_) h)) (ih h)
    extract_lets x g
    exact .iteFst h.moveGranule.pair h

theorem Keeps.evacuate {k lim : Nat} (h : Keeps false s₀ s) : Keeps false s₀ (s.evacuate k lim) :=
  .foldl (fun _ _ h => .setCtx (.foldlFst (fun _ _ h => .iteFst h.movePieces h) h)) h

theorem Keeps.scaleGuarantees (h : Keeps κ s₀ s) : Keeps κ s₀ s.scaleGuarantees :=
  .ite h.tiers.evLim3 h

theorem execFoldComplete_answers {kk : Fin 12} {cc : Fin 34} (h : Keeps false s₀ s) :
    Answers false s₀ (execFoldComplete kk cc s) := by
  unfold execFoldComplete
  dsimp only
  refine ⟨_, rfl, .ite ?_ h⟩
  split
  · exact h
  · exact .ite h (.ite h h.evacuate.put.put.setStk.channelRetired.ev.scaleGuarantees.nextRepair)

theorem execRefresh_answers {k : Fin 12} {pc : Nat} {waits : List (Nat × Nat)} (h : Keeps κ s₀ s) :
    Answers κ s₀ (execRefresh k pc waits s) :=
  ⟨_, rfl, .ite (.foldl (fun _ _ h => .ite h.inc h) h) h⟩

theorem execExerciserStart_answers {k : Fin 12} (h : Keeps κ s₀ s) : Answers κ s₀ (execExerciserStart k s) :=
  ⟨_, rfl, h.ctrl (.ite h (.ite h.put.setStk h.put.put))⟩

theorem execExerciserAbort_answers {k : Fin 12} (h : Keeps κ s₀ s) : Answers κ s₀ (execExerciserAbort k s) :=
  ⟨_, rfl, h.ctrl h.useFree.useFree.setStk.put.put.put⟩

theorem execExerciserRunComplete_answers {k : Fin 12} {errors marginLo marginHi : Nat} (h : Keeps κ s₀ s) :
    Answers κ s₀ (execExerciserRunComplete k errors marginLo marginHi s) :=
  ⟨_, rfl, .ite h.setStk.put.put.put.put.put.put h⟩

theorem Keeps.lineOp {op b : Nat} (h : Keeps false s₀ s) : Keeps false s₀ (s.lineOp op b) :=
  .ite (.ite h h.writeBackLine) (.dropLine (.ite h h.writeBackLine))

theorem Keeps.startOp {o : LlmOp} (h : Keeps κ s₀ s) : Keeps κ s₀ (s.startOp o) :=
  .foldl (fun _ _ h => h.put.put) h.llmOps

theorem Keeps.endOp {o : LlmOp} {st : Status} (h : Keeps false s₀ s) : Keeps false s₀ (s.endOp o st) := by
  unfold State.endOp
  split
  · exact .cmdClose (.foldl (fun _ _ h => h.put.put.put) h.llmOps)
  · exact .foldl (fun _ _ h => h.put.put.put) h.llmOps

theorem Keeps.giveOp {o : LlmOp} (h : Keeps κ s₀ s) : Keeps κ s₀ (s.giveOp o).1 :=
  .iteFst h (.iteFst h.llmOps h.startOp)

theorem Keeps.regOp {q i op : Nat} (h : Keeps κ s₀ s) : Keeps κ s₀ (s.regOp q i op) :=
  .ite h.put (.ite h.giveOp h.giveOp.put)

theorem execLlmFlush_answers {q : Fin 4} {i : Fin 17} (h : Keeps κ s₀ s) : Answers κ s₀ (execLlmFlush q i s) :=
  ⟨_, rfl, h.ctrl h.regOp⟩

theorem execLlmInvalidate_answers {q : Fin 4} {i : Fin 17} (h : Keeps κ s₀ s) :
    Answers κ s₀ (execLlmInvalidate q i s) :=
  ⟨_, rfl, h.ctrl h.regOp⟩

theorem execLlmFlushInvalidate_answers {q : Fin 4} {i : Fin 17} (h : Keeps κ s₀ s) :
    Answers κ s₀ (execLlmFlushInvalidate q i s) :=
  ⟨_, rfl, h.ctrl h.regOp⟩

theorem execLlmOpComplete_answers {q : Fin 4} {i : Fin 17} (h : Keeps false s₀ s) :
    Answers false s₀ (execLlmOpComplete q i s) := by
  unfold execLlmOpComplete
  dsimp only
  refine ⟨_, rfl, .ite ?_ h⟩
  split
  · exact h
  · refine .ite h ?_
    split
    · exact .ite (.endOp (.foldl (fun _ _ h => h.lineOp) h)) (.startOp (.endOp (.foldl (fun _ _ h => h.lineOp) h)))
    · exact .endOp (.foldl (fun _ _ h => h.lineOp) h)

theorem execLlmRange_answers {c : Fin 4096} (h : Keeps false s₀ s) : Answers false s₀ (execLlmRange c s) := by
  unfold execLlmRange
  refine ⟨_, rfl, h.command (fun _ ht _ _ => .ite ht.cmdDone ?_)⟩
  split
  · exact .ite ht.cmdDone (.ite ht.giveOp.cmdOpen (.ite ht.giveOp.cmdOpen.deferRec ht.giveOp.cmdDone))
  · exact ht.violate.cmdDone
  · exact ht.cmdDone

theorem Keeps.remapSlice {q i d : Nat} (h : Keeps κ s₀ s) : Keeps κ s₀ (s.remapSlice q i d) :=
  h.put.put.put.put

theorem Keeps.removeSlice {q i : Nat} (h : Keeps κ s₀ s) : Keeps κ s₀ (s.removeSlice q i) :=
  .put (.ite h.put.put h)

theorem Keeps.sliceRetired {q i idx written poisoned : Nat} {spare : Option Nat} (h : Keeps κ s₀ s) :
    Keeps κ s₀ (s.sliceRetired q i idx written poisoned spare) :=
  h.evEvery.retired

theorem Keeps.retireSlice {q i : Nat} (h : Keeps false s₀ s) : Keeps false s₀ (s.retireSlice q i) := by
  unfold State.retireSlice
  extract_lets k st idx bs dirty t₁ t₂ t₃
  have h₁ : Keeps false s₀ t₁ := .ite (.foldl (fun _ _ h => h.lineOp) h) h
  have h₃ : Keeps false s₀ t₃ := .llmOps (.ite h₁.put h₁)
  clear_value t₃
  refine .ite h (.ite h.put.sliceRetired ?_)
  split
  · exact h₃.removeSlice.sliceRetired
  · exact .ite h₃.flt h₃.remapSlice.sliceRetired

theorem execLlmSliceCopyComplete_answers {q : Fin 4} {i : Fin 17} (h : Keeps κ s₀ s) :
    Answers κ s₀ (execLlmSliceCopyComplete q i s) := by
  unfold execLlmSliceCopyComplete
  dsimp only
  refine ⟨_, rfl, .ite ?_ h⟩
  split
  · exact h.flt.remapSlice.sliceRetired
  · exact h.flt.removeSlice.sliceRetired

end Sys2Proof.Machine

end


section
/-!
PROOFS. What every step keeps: work lists, the mover, and the matrix, vector and deep units.
-/

namespace Sys2Proof.Machine

open Sys2Proof

variable {κ : Bool} {s₀ s t : State}

theorem Keeps.checkArrival {t slot : Nat} {x : Seal} {bs : List Byte} {named : Option (Nat × Nat × Nat)}
    {once twice : Bool} (h : Keeps κ s₀ s) :
    Keeps κ s₀ (s.checkArrival t slot x bs named once twice).1 :=
  .iteFst h.inc.evLim (.iteFst h.inc.evLim (.iteFst h (.iteFst h (.iteFst h.inc.evLim h.inc.inc.evLim))))

theorem Keeps.noteIn {t : Nat} {x : Seal} (h : Keeps κ s₀ s) : Keeps κ s₀ (s.noteIn t x) :=
  h.mapRec

theorem Keeps.noteOut {t : Nat} {x : Seal} (h : Keeps κ s₀ s) : Keeps κ s₀ (s.noteOut t x) :=
  h.mapRec

theorem Keeps.endIssued {t n : Nat} {st : Status} (h : Keeps κ s₀ s) : Keeps κ s₀ (s.endIssued t n st) :=
  h.setTile

theorem Keeps.streamPut {i : Nat} {d : StreamDef} {bs : List Byte} {x : Seal} (h : Keeps false s₀ s) :
    Keeps false s₀ (s.streamPut i d bs x) :=
  h.setBlock.put

theorem Keeps.streamBlock {d : StreamDef} {w : StreamWait} {r : Arrive} (h : Keeps false s₀ s)
    (e : s.streamBlock d w = some (t, r)) : Keeps false s₀ t := by
  unfold State.streamBlock at e
  dsimp only at e
  split at e
  · split at e
    · contradiction
    · split at e <;> cases e
      · exact h.checkArrival
      · exact h.checkArrival.setBlock.noteSlots.noteIn.put
  · split at e
    · contradiction
    · split at e
      · cases e
        exact h.checkArrival
      · split at e <;> cases e
        · exact h.checkArrival.setTile.noteOut
        · exact h.checkArrival.setTile.noteOut.streamPut.mapRec

theorem Keeps.streamRun {d : StreamDef} {n : Nat} {w : StreamWait} (h : Keeps false s₀ s) :
    Keeps false s₀ (s.streamRun d n w).1 := by
  induction n generalizing s w with
  | zero => exact h
  | succ n ih =>
    unfold State.streamRun
    refine .iteFst h ?_
    split
    · exact h
    · exact h.streamBlock ‹_›
    · exact ih (h.streamBlock ‹_›)

theorem Keeps.streamResume {w : StreamWait} (h : Keeps false s₀ s) : Keeps false s₀ (s.streamResume w) := by
  unfold State.streamResume
  dsimp only
  split
  · exact h
  · split
    · exact h.streamRun.waits
    · exact h.streamRun.waits.endIssued

theorem Keeps.endWaits {i : Nat} {st : Status} (h : Keeps κ s₀ s) : Keeps κ s₀ (s.endWaits i st) :=
  .foldl (fun _ _ h => h.endIssued) h.waits

theorem Keeps.resetStream {i : Nat} (h : Keeps κ s₀ s) : Keeps κ s₀ (s.resetStream i) :=
  h.put.put.put.put

theorem Keeps.settleStream {i : Nat} (h : Keeps κ s₀ s) : Keeps κ s₀ (s.settleStream i) := by
  unfold State.settleStream
  split
  · exact .ite h.resetStream h
  · exact h

theorem Keeps.stopStream {i : Nat} (h : Keeps κ s₀ s) : Keeps κ s₀ (s.stopStream i) :=
  h.put.endWaits.cancelFeeds

theorem Keeps.drainStreams {p step : Nat} (h : Keeps κ s₀ s) : Keeps κ s₀ (s.drainStreams p step) :=
  .foldl (fun _ _ h => .ite h h.resetStream.evLim3) h

theorem Keeps.feedRun {d : StreamDef} {n : Nat} {f : Feed} (h : Keeps false s₀ s) :
    Keeps false s₀ (s.feedRun d n f).1 := by
  induction n generalizing s f with
  | zero => exact h
  | succ n ih =>
    unfold State.feedRun
    refine .iteFst h (.iteFst h ?_)
    split
    · exact .iteFst h (ih (Keeps.streamPut (.ite h.llmAccess h)))
    · exact h

theorem Keeps.feedResume {f : Feed} (h : Keeps false s₀ s) : Keeps false s₀ (s.feedResume f) := by
  unfold State.feedResume
  dsimp only
  split
  · exact h
  · split <;> exact h.feedRun.feeds

theorem Keeps.runAhead {p ctx src n : Nat} (h : Keeps false s₀ s) : Keeps false s₀ (s.runAhead p ctx src n) := by
  unfold State.runAhead
  refine .foldl (fun _ _ h => ?_) h
  split
  · exact h.llmPrefetch
  · exact h

theorem execStreamAccessResume_answers {i : Fin 1024} (h : Keeps false s₀ s) :
    Answers false s₀ (execStreamAccessResume i s) :=
  ⟨_, rfl, .ite (.foldl (fun _ _ h => h.streamResume) (.foldl (fun _ _ h => h.feedResume) h)) h⟩

theorem execStreamWatchdogExpire_answers {i : Fin 1024} (h : Keeps κ s₀ s) :
    Answers κ s₀ (execStreamWatchdogExpire i s) := by
  unfold execStreamWatchdogExpire
  refine ⟨_, rfl, .ite ?_ h⟩
  split
  · exact .ite h h.waits.endIssued.evLim
  · exact h

theorem Keeps.consume {p w : Nat} (h : Keeps κ s₀ s) : Keeps κ s₀ (s.consume p w) :=
  h.advance.put

theorem Keeps.notifyHeads {n p w : Nat} (h : Keeps false s₀ s) : Keeps false s₀ (s.notifyHeads n p w) := by
  induction n generalizing s with
  | zero => exact h
  | succ n ih =>
    unfold State.notifyHeads
    dsimp only
    split
    · exact h
    · exact .ite (ih h.setWlist.complete) h

theorem Keeps.completeEntry {p w seq : Nat} {st : Status} {r0 : Nat} (h : Keeps false s₀ s) :
    Keeps false s₀ (s.completeEntry p w seq st r0) := by
  unfold State.completeEntry
  dsimp only
  split
  · exact h
  · exact h.setWlist.complete.notifyHeads

theorem Keeps.wlHead {p w kind : Nat} {body : Entry → State} (h : Keeps false s₀ s)
    (hbody : ∀ a, Keeps false s₀ (body a)) :
    Keeps false s₀ (s.wlHead p w kind body) := by
  unfold State.wlHead
  refine .ite h ?_
  split
  · exact .ite h.violate.consume.complete h
  · refine .ite h ?_
    split
    · exact .complete (.consume (.ite h.violate h))
    · refine .ite h (.ite h ?_)
      split
      · exact h
      · exact h.consume.complete
      · exact hbody _

theorem Keeps.dispatch {p w : Nat} {e : Entry} (h : Keeps κ s₀ s) : Keeps κ s₀ (s.dispatch p w e) :=
  h.consume.setWlist

theorem Keeps.startFeed {p w : Nat} {x : Entry} (h : Keeps false s₀ s) (e : s.startFeed p w x = some t) :
    Keeps false s₀ t := by
  unfold State.startFeed at e
  dsimp only at e
  split at e <;> cases e
  exact h.feeds.runAhead.feedResume

theorem Keeps.markFeed {p w seq i : Nat} (h : Keeps κ s₀ s) : Keeps κ s₀ (s.markFeed p w seq i) :=
  h.recorded

theorem Keeps.unmarkFeed {p w seq : Nat} (h : Keeps κ s₀ s) : Keeps κ s₀ (s.unmarkFeed p w seq) :=
  h.recorded

theorem Keeps.refuseFeed {p w : Nat} {e : Entry} (h : Keeps false s₀ s) : Keeps false s₀ (s.refuseFeed p w e) :=
  h.violate.consume.complete

theorem execFeedStart_answers {p : Fin 128} {l : Fin 8} (h : Keeps false s₀ s) :
    Answers false s₀ (execFeedStart p l s) := by
  unfold execFeedStart
  refine ⟨_, rfl, h.wlHead (fun _ => .ite h ?_)⟩
  split
  · exact (h.startFeed ‹_›).markFeed
  · exact h.refuseFeed

theorem Keeps.loadProgram {t : Nat} {e : Entry} {ext : Extent} {rel : Nat} (h : Keeps false s₀ s) :
    Keeps false s₀ (s.loadProgram t e ext rel).1 := by
  unfold State.loadProgram
  refine .foldlFst (fun _ _ h => ?_) h
  split
  · exact h
  · extract_lets x sp u
    have hu : Keeps false s₀ u := .ite h.llmAccess h
    split
    have hv := hu.checkArrival.of_eq ‹_›
    split
    · exact hv.setBlock
    · exact hv

theorem Keeps.startRun {p w : Nat} {e : Entry} {t : Nat} (h : Keeps false s₀ s) :
    Keeps false s₀ (s.startRun p w e t) := by
  unfold State.startRun
  extract_lets off q a₁ r a₂ a₃ a₄ a₅ stop src
  have ha : Keeps false s₀ a₅ := .put (.put (.put (.setTile (.foldl (fun _ _ h => .ite h.put h) h.dispatch.addRec))))
  have hstop (u st) (h : Keeps false s₀ u) : Keeps false s₀ (stop u st) := .put (.setTile h)
  obtain ⟨load, hl⟩ : ∃ load, a₅.loadProgram t e = load := ⟨_, rfl⟩
  have hload (x rel) : Keeps false s₀ (load x rel).1 := hl ▸ ha.loadProgram
  rw [hl]
  refine .ite ha ?_
  split
  · split
    have hb := (hload _ _).of_eq ‹_›
    split
    · exact hstop _ _ hb
    · exact hb
  · exact hstop _ _ ha.violate
  · exact hstop _ _ ha

theorem execRun_answers {pp : Fin 128} {ll : Fin 8} (h : Keeps false s₀ s) : Answers false s₀ (execRun pp ll s) := by
  unfold execRun
  refine ⟨_, rfl, h.wlHead (fun _ => .ite h.inc (.ite h (.ite ?_ h.startRun)))⟩
  split
  · exact (h.startFeed ‹_›).markFeed.startRun
  · exact h.refuseFeed

theorem execNotify_answers {p : Fin 128} {l : Fin 8} (h : Keeps false s₀ s) : Answers false s₀ (execNotify p l s) :=
  ⟨_, rfl, h.wlHead (fun _ => h.dispatch.setWlist.notifyHeads)⟩

theorem Keeps.setBarrier {b : Barrier} (h : Keeps κ s₀ s) : Keeps κ s₀ (s.setBarrier b) :=
  h.barriers

theorem Keeps.sendMer {port : Nat} {dim : Bool} {payload : List Byte} (h : Keeps κ s₀ s) :
    Keeps κ s₀ (s.sendMer port dim payload) :=
  h.sendC0On

theorem Keeps.climb {b : Barrier} (h : Keeps κ s₀ s) : Keeps κ s₀ (s.climb b) :=
  .ite h.setBarrier (.ite (.foldl (fun _ _ h => h.sendMer) h.setBarrier) h.setBarrier.sendMer)

theorem Keeps.resumeArriver {st : Status} {o n tag : Nat} {a : Arriver} (h : Keeps false s₀ s) :
    Keeps false s₀ (s.resumeArriver st o n tag a) := by
  unfold State.resumeArriver
  split
  · exact h.endWait
  · exact h.completeEntry
  · exact h

theorem Keeps.join {p sc : Nat} {a : Arriver} {o n : Nat} {tag : Option Nat} (h : Keeps false s₀ s) :
    Keeps false s₀ (s.join p sc a o n tag).1 :=
  .iteFst h.setBarrier.resumeArriver (.iteFst h.setBarrier.resumeArriver
    (.iteFst h.setBarrier (.iteFst h.climb (.iteFst h.setBarrier h.setBarrier))))

theorem Keeps.finishBarrier {b : Barrier} {st : Status} (h : Keeps false s₀ s) :
    Keeps false s₀ (s.finishBarrier b st) :=
  .foldl (fun _ _ h => h.join) (.foldl (fun _ _ h => h.resumeArriver) h)

theorem Keeps.arrive {p sc : Nat} {a : Arriver} {o n : Nat} {tag : Option Nat} (h : Keeps false s₀ s) :
    Keeps false s₀ (s.arrive p sc a o n tag) := by
  unfold State.arrive
  split
  · exact (h.join.of_eq ‹_›).finishBarrier
  · exact h.join.of_eq ‹_›

theorem Keeps.haloArrive {p sc : Nat} (h : Keeps false s₀ s) : Keeps false s₀ (s.haloArrive p sc) :=
  .ite (.foldl (fun _ _ h => .ite h.arrive h) h) h

theorem Keeps.arriveLater {p : Nat} (h : Keeps false s₀ s) : Keeps false s₀ (s.arriveLater p) :=
  .foldl (fun _ _ h => .foldl (fun _ _ h => .ite h (.ite h h.setWlist.arrive)) h) h

theorem execMeridian_answers {p : Fin 128} {l : Fin 8} (h : Keeps false s₀ s) :
    Answers false s₀ (execMeridian p l s) :=
  ⟨_, rfl, h.wlHead (fun _ => h.dispatch.setWlist.haloArrive.arriveLater)⟩

theorem execBarrier_answers {t : Fin 272} {w : Entry} (h : Keeps false s₀ s) : Answers false s₀ (execBarrier t w s) :=
  ⟨_, rfl, h.macroOp (fun _ ht _ _ => (ht.issueOp.deliverOnce (fun _ ht => ht.haloArrive.arrive)).arriveLater)⟩

theorem Keeps.closeRec {t : Nat} {r : JRec} (h : Keeps κ s₀ s) : Keeps κ s₀ (s.closeRec t r) :=
  .ite h.freeRecs h.mapRec.journalUse

theorem Keeps.closeStreams {p l : Nat} {st : Status} (h : Keeps κ s₀ s) : Keeps κ s₀ (s.closeStreams p l st) :=
  .foldl (fun _ _ h => h.settleStream) (.ite (.foldl (fun _ _ h => h.put) h)
    (.foldl (fun _ _ h => h.stopStream) (.foldl (fun _ _ h => h.put) h)))

theorem Keeps.finishRun {p w seq t : Nat} {st : Status} (h : Keeps false s₀ s) :
    Keeps false s₀ (s.finishRun p w seq t st) := by
  unfold State.finishRun
  refine .arriveLater (.completeEntry (.closeStreams (.unmarkFeed (.cancelFeeds (.put (.put (.setTile ?_)))))))
  split
  · exact .ite h.closeRec.inc.inc h.closeRec
  · exact h

theorem execEntryComplete_answers {p : Fin 128} {l : Fin 8} {seq : Nat} (h : Keeps false s₀ s) :
    Answers false s₀ (execEntryComplete p l seq s) := by
  unfold execEntryComplete
  refine ⟨_, rfl, .ite ?_ h⟩
  split
  · split
    · exact .ite h h.finishRun
    · exact h
  · split
    · exact .ite h.cancelFeeds.completeEntry.arriveLater h
    · exact h

theorem execPaceSetWrite_answers {path : Path} {v : Nat} (h : Keeps κ s₀ s) :
    Answers κ s₀ (execPaceSetWrite path v s) :=
  ⟨_, rfl, h.ctrl (.ite h.put h.put.pace)⟩

theorem execPaceGroupBoundary_answers {groups : Nat} (h : Keeps κ s₀ s) :
    Answers κ s₀ (execPaceGroupBoundary groups s) :=
  ⟨_, rfl, .ite (.ite h.put.eph.put (.ite h.put.eph.put.put
    (.ite h.put.eph.put.put.pace.put.put.evLim3
    (.ite h.put.eph.put.put.pace.put.put.evLim3 h.put.eph.put.put.pace.put.put)))) h⟩

theorem execDroopTrip_answers {d : Fin 1088} (h : Keeps κ s₀ s) : Answers κ s₀ (execDroopTrip d s) :=
  ⟨_, rfl, .ite (.others h rfl) h⟩

theorem Keeps.stretchEvent {slots det : Nat} (h : Keeps κ s₀ s) : Keeps κ s₀ (s.stretchEvent slots det) := by
  unfold State.stretchEvent
  split
  · exact .ite h.eph h.eph.ev
  · exact h.eph.ev

theorem execDroopClear_answers {slots : Nat} (h : Keeps κ s₀ s) : Answers κ s₀ (execDroopClear slots s) :=
  ⟨_, rfl, .ite (.stretchEvent (.inc (.put (.others h rfl)))) h⟩

theorem execPaceEpoch_answers (h : Keeps κ s₀ s) : Answers κ s₀ (execPaceEpoch s) := by
  unfold execPaceEpoch
  refine ⟨_, rfl, .ite ?_ h⟩
  split
  · exact h.put.const.put
  · exact h.put

theorem Keeps.withPre {t : Nat} {w : Entry} {rs pre : List Reg} {blocks : List (Space × Nat)} {k : State → State}
    (h : Keeps κ s₀ s) (hk : ∀ t, Keeps κ s₀ t → Keeps κ s₀ (k t)) :
    Keeps κ s₀ (s.withPre t w rs pre blocks k) := by
  unfold State.withPre
  dsimp only
  split
  · exact h.issueDone
  · split
    · exact h.issueDone
    · exact .ite h (hk _ ((h.preSlots ‹_›).savePre ‹_›))

theorem Keeps.moverAnswer {t txn : Nat} {st : Status} (h : Keeps κ s₀ s) : Keeps κ s₀ (s.moverAnswer t txn st) :=
  h.setTile

theorem Keeps.touch {t tier a : Nat} {x write : Bool} (h : Keeps false s₀ s) :
    Keeps false s₀ (s.touch t tier a x write) :=
  .ite h (.ite (.ite h.recallWrite h.recallRead) h.llmAccess)

theorem Keeps.loadBlock {t : Nat} {w : Entry} {flt : List FetchFault} {j tier a : Nat} (h : Keeps false s₀ s) :
    Keeps false s₀ (s.loadBlock t w flt j tier a).1 := by
  unfold State.loadBlock
  dsimp only
  split
  · exact .checkArrival (.touch (.ite h.hUncorrectable h))
  · exact .setTile (.noteIn (.noteSlots (.setBlock (.checkArrival (.touch (.ite h.hUncorrectable h))))))

theorem Keeps.runBlocks {f : State → Nat → Place → State × Arrive} {ps : List Place} (h : Keeps κ s₀ s)
    (hf : ∀ t, Keeps κ s₀ t → ∀ a b, Keeps κ s₀ (f t a b).1) :
    Keeps κ s₀ (runBlocks f s ps).1 := by
  unfold Machine.runBlocks
  refine .foldlFst (fun _ _ h => .iteFst h ?_) h
  split <;> exact (hf _ h _ _).of_eq ‹_›

theorem Keeps.streamAccess {t : Nat} {w : Entry} {rs : List Reg} {load : Bool} (h : Keeps false s₀ s) :
    Keeps false s₀ (s.streamAccess t w rs load) := by
  unfold State.streamAccess
  dsimp only
  split
  · exact h.issueDone
  · exact .ite h.issueDone (.ite h.issueDone h.issueOp.waits.streamResume)

theorem Keeps.moveIn {t : Nat} {w : Entry} {rs : List Reg} {flt : List FetchFault} {listed : Bool}
    (h : Keeps false s₀ s) :
    Keeps false s₀ (s.moveIn t w rs flt listed) := by
  unfold State.moveIn
  dsimp only
  refine .ite h (.ite h.streamAccess (.ite h.issueDone ?_))
  split
  · exact h.violate.issueDone
  · refine .ite h ?_
    split
    · refine .foldl (fun _ _ h => ?_) h.issueOp
      split
      · exact h.request
      · exact h
    · refine (h.runBlocks (fun _ ht _ _ => ?_)).issueDone
      split
      · exact ht.loadBlock
      · exact ht

theorem execLoad_answers {t : Fin 272} {w : Entry} {flt : List FetchFault} (h : Keeps false s₀ s) :
    Answers false s₀ (execLoad t w flt s) :=
  ⟨_, rfl, h.macroOp (fun _ ht _ _ => ht.moveIn)⟩

theorem execGather_answers {t : Fin 272} {w : Entry} {flt : List FetchFault} (h : Keeps false s₀ s) :
    Answers false s₀ (execGather t w flt s) :=
  ⟨_, rfl, h.macroOp (fun _ ht _ _ => ht.moveIn)⟩

theorem Keeps.leaveSlot {t : Nat} {w : Entry} {j : Nat} (h : Keeps κ s₀ s) : Keeps κ s₀ (s.leaveSlot t w j).1 :=
  h.checkArrival

theorem Keeps.storeBlock {t : Nat} {w : Entry} {j tier a : Nat} (h : Keeps false s₀ s) :
    Keeps false s₀ (s.storeBlock t w j tier a).1 := by
  unfold State.storeBlock
  split
  · exact h.leaveSlot.of_eq ‹_›
  · exact (h.leaveSlot.of_eq ‹_›).touch.setBlock.noteOut

theorem Keeps.sendBlock {t : Nat} {w : Entry} {j m tier off : Nat} (h : Keeps κ s₀ s) :
    Keeps κ s₀ (s.sendBlock t w j m tier off).1 := by
  unfold State.sendBlock
  split
  · exact h.leaveSlot.of_eq ‹_›
  · exact (h.leaveSlot.of_eq ‹_›).request.noteOut

theorem Keeps.moveOut {t : Nat} {w : Entry} {rs : List Reg} {listed : Bool} (h : Keeps false s₀ s) :
    Keeps false s₀ (s.moveOut t w rs listed) := by
  unfold State.moveOut
  dsimp only
  refine .ite h (.ite h.streamAccess (.ite h.issueDone ?_))
  split
  · exact h.violate.issueDone
  · refine .ite h (h.withPre (fun _ ht => (ht.runBlocks (fun _ ht _ _ => ?_)).issueOp))
    split
    · exact ht.storeBlock
    · exact ht.sendBlock

theorem execStore_answers {t : Fin 272} {w : Entry} {chk : TileCheck} (h : Keeps false s₀ s) :
    Answers false s₀ (execStore t w chk s) :=
  ⟨_, rfl, h.macroOp (fun _ ht _ _ => ht.checked (fun _ ht => ht.moveOut))⟩

theorem execScatter_answers {t : Fin 272} {w : Entry} {chk : TileCheck} (h : Keeps false s₀ s) :
    Answers false s₀ (execScatter t w chk s) :=
  ⟨_, rfl, h.macroOp (fun _ ht _ _ => ht.checked (fun _ ht => ht.moveOut))⟩

theorem Keeps.moveLocal {t : Nat} {w : Entry} {rs : List Reg} {u dst : Nat} (h : Keeps false s₀ s) :
    Keeps false s₀ (s.moveLocal t w rs u dst) := by
  unfold State.moveLocal
  dsimp only
  refine .ite h ((h.runBlocks (fun _ ht _ _ => ?_)).issueDone)
  split
  · exact ht.leaveSlot.of_eq ‹_›
  · exact (ht.leaveSlot.of_eq ‹_›).setBlock.noteSlots

theorem execCopy_answers {t : Fin 272} {w : Entry} {chk : TileCheck} (h : Keeps false s₀ s) :
    Answers false s₀ (execCopy t w chk s) :=
  ⟨_, rfl, h.macroOp (fun _ ht _ _ => ht.checked (fun _ ht => ht.moveLocal))⟩

theorem execSend_answers {t : Fin 272} {w : Entry} {chk : TileCheck} (h : Keeps false s₀ s) :
    Answers false s₀ (execSend t w chk s) :=
  ⟨_, rfl, h.macroOp (fun _ ht _ _ => .ite (ht.checked (fun _ ht => ht.moveLocal)) ht.issueDone)⟩

theorem execPrefetch_answers {t : Fin 272} {w : Entry} (h : Keeps false s₀ s) :
    Answers false s₀ (execPrefetch t w s) := by
  unfold execPrefetch
  refine ⟨_, rfl, h.macroOp (fun _ ht _ _ => .ite ht (.ite ht.issueDone (.ite ht.issueDone ?_)))⟩
  split
  · exact ht.violate.issueDone
  · refine .ite ht (.issueDone (.foldlFst (fun _ _ h => ?_) ht))
    split
    · exact h.llmPrefetch
    · exact h

theorem Keeps.sealSlot {t : Nat} {w : Entry} {j : Nat} (h : Keeps κ s₀ s) : Keeps κ s₀ (s.sealSlot t w j).1 :=
  .iteFst h.inc.evLim (.iteFst h.inc.evLim (.iteFst h h.inc.evLim))

theorem execSealchk_answers {t : Fin 272} {w : Entry} {chk : TileCheck} (h : Keeps false s₀ s) :
    Answers false s₀ (execSealchk t w chk s) := by
  unfold execSealchk
  dsimp only
  exact ⟨_, rfl, h.macroOp (fun _ ht _ _ => ht.checked
      (fun _ ht => .ite ht ((ht.runBlocks (fun _ ht _ _ => ht.sealSlot)).issueDone)))⟩

theorem Keeps.quantD {t : Nat} {w : Entry} {rs : List Reg} {p : QPar} {calList : Bool} {cols : Nat}
    {rows : List (List Val)} {flag : Bool} (h : Keeps false s₀ s) :
    Keeps false s₀ (s.quantD t w rs p calList cols rows flag) :=
  .issueOp (.ite (.ite h.setNonfinite h) (.writeSlots (.ite h.setNonfinite h)))

theorem Keeps.plainD {t : Nat} {w : Entry} {rs : List Reg} {f : Nat} {codes : List Nat} (h : Keeps false s₀ s) :
    Keeps false s₀ (s.plainD t w rs f codes) :=
  h.writeSlots.issueDone

theorem Keeps.matrixD {t : Nat} {w : Entry} {rs : List Reg} {book : Nat → Nat → Val} {rows : List (List Val)}
    (h : Keeps false s₀ s) :
    Keeps false s₀ (s.matrixD t w rs book rows) :=
  .ite (.plainD (.ite h.setNonfinite h)) h.quantD

theorem Keeps.matrixRun {t : Nat} {ta : Bool} {w : Entry} {rs : List Reg} (h : Keeps false s₀ s) :
    Keeps false s₀ (s.matrixRun t ta w rs) :=
  .ite (.matrixD (.ite h.setNonfinite h)) (.ite
    (.matrixD (.writeRange (.ite (.setNonfinite (.ite h.setNonfinite h)) (.ite h.setNonfinite h))))
    (.issueDone (.writeRange (.ite (.setNonfinite (.ite h.setNonfinite h)) (.ite h.setNonfinite h)))))

theorem Keeps.compute {t : Nat} {w : Entry} {rs : List Reg} {chk : TileCheck} {pre : Bool} {k : State → State}
    (h : Keeps false s₀ s) (hk : ∀ t, Keeps false s₀ t → Keeps false s₀ (k t)) :
    Keeps false s₀ (s.compute t w rs chk pre k) := by
  unfold State.compute
  refine h.checked (fun _ ht => ?_)
  split
  · exact (ht.slotCheck ‹_›).issueDone
  · exact .ite (ht.withPre (fun _ ht => hk _ ht)) (hk _ ht)

theorem execMm_answers {t : Fin 272} {w : Entry} {chk : TileCheck} (h : Keeps false s₀ s) :
    Answers false s₀ (execMm t w chk s) :=
  ⟨_, rfl, h.macroOp (fun _ ht _ _ => ht.compute (fun _ ht => ht.matrixRun))⟩

theorem execMmta_answers {t : Fin 272} {w : Entry} {chk : TileCheck} (h : Keeps false s₀ s) :
    Answers false s₀ (execMmta t w chk s) :=
  ⟨_, rfl, h.macroOp (fun _ ht _ _ => ht.compute (fun _ ht => ht.matrixRun))⟩

theorem Keeps.vStore {t c : Nat} {w : Entry} {rs : List Reg} {rows cols : Nat} {vs : List Val}
    (h : Keeps false s₀ s) :
    Keeps false s₀ (s.vStore t c w rs rows cols vs) :=
  .ite h.plainD h.quantD

theorem Keeps.vMap {t c : Nat} {w : Entry} {rs : List Reg} {f : Val → Val → Val → Val} (h : Keeps false s₀ s) :
    Keeps false s₀ (s.vMap t c w rs f) :=
  h.vStore

theorem Keeps.vector {t c : Nat} {w : Entry} {chk : TileCheck} {body : State → Entry → List Reg → State}
    (h : Keeps false s₀ s) (hbody : ∀ t, Keeps false s₀ t → ∀ a b, Keeps false s₀ (body t a b)) :
    Keeps false s₀ (s.vector t c w chk body) :=
  h.macroOp (fun _ ht _ _ => ht.compute (fun _ ht => hbody _ ht _ _))

theorem execVadd_answers {t : Fin 272} {w : Entry} {chk : TileCheck} (h : Keeps false s₀ s) :
    Answers false s₀ (execVadd t w chk s) :=
  ⟨_, rfl, h.vector (fun _ ht _ _ => ht.vMap)⟩

theorem execVsub_answers {t : Fin 272} {w : Entry} {chk : TileCheck} (h : Keeps false s₀ s) :
    Answers false s₀ (execVsub t w chk s) :=
  ⟨_, rfl, h.vector (fun _ ht _ _ => ht.vMap)⟩

theorem execVmul_answers {t : Fin 272} {w : Entry} {chk : TileCheck} (h : Keeps false s₀ s) :
    Answers false s₀ (execVmul t w chk s) :=
  ⟨_, rfl, h.vector (fun _ ht _ _ => ht.vMap)⟩

theorem execVfma_answers {t : Fin 272} {w : Entry} {chk : TileCheck} (h : Keeps false s₀ s) :
    Answers false s₀ (execVfma t w chk s) :=
  ⟨_, rfl, h.vector (fun _ ht _ _ => ht.vMap)⟩

theorem execVmax_answers {t : Fin 272} {w : Entry} {chk : TileCheck} (h : Keeps false s₀ s) :
    Answers false s₀ (execVmax t w chk s) :=
  ⟨_, rfl, h.vector (fun _ ht _ _ => ht.vMap)⟩

theorem execVmin_answers {t : Fin 272} {w : Entry} {chk : TileCheck} (h : Keeps false s₀ s) :
    Answers false s₀ (execVmin t w chk s) :=
  ⟨_, rfl, h.vector (fun _ ht _ _ => ht.vMap)⟩

theorem execVact_answers {t : Fin 272} {w : Entry} {chk : TileCheck} (h : Keeps false s₀ s) :
    Answers false s₀ (execVact t w chk s) :=
  ⟨_, rfl, h.vector (fun _ ht _ _ => ht.vMap)⟩

theorem execVcmp_answers {t : Fin 272} {w : Entry} {chk : TileCheck} (h : Keeps false s₀ s) :
    Answers false s₀ (execVcmp t w chk s) :=
  ⟨_, rfl, h.vector (fun _ ht _ _ => ht.vMap)⟩

theorem execVsel_answers {t : Fin 272} {w : Entry} {chk : TileCheck} (h : Keeps false s₀ s) :
    Answers false s₀ (execVsel t w chk s) :=
  ⟨_, rfl, h.vector (fun _ ht _ _ => ht.vMap)⟩

theorem execVcvt_answers {t : Fin 272} {w : Entry} {chk : TileCheck} (h : Keeps false s₀ s) :
    Answers false s₀ (execVcvt t w chk s) :=
  ⟨_, rfl, h.vector (fun _ ht _ _ => ht.vMap)⟩

theorem execQuant_answers {t : Fin 272} {w : Entry} {chk : TileCheck} (h : Keeps false s₀ s) :
    Answers false s₀ (execQuant t w chk s) :=
  ⟨_, rfl, h.vector (fun _ ht _ _ => ht.vMap)⟩

theorem execDequant_answers {t : Fin 272} {w : Entry} {chk : TileCheck} (h : Keeps false s₀ s) :
    Answers false s₀ (execDequant t w chk s) :=
  ⟨_, rfl, h.vector (fun _ ht _ _ => ht.vMap)⟩

theorem execVrsum_answers {t : Fin 272} {w : Entry} {chk : TileCheck} (h : Keeps false s₀ s) :
    Answers false s₀ (execVrsum t w chk s) :=
  ⟨_, rfl, h.vector (fun _ ht _ _ => .vStore (.ite ht.setNonfinite ht))⟩

theorem execVrmax_answers {t : Fin 272} {w : Entry} {chk : TileCheck} (h : Keeps false s₀ s) :
    Answers false s₀ (execVrmax t w chk s) :=
  ⟨_, rfl, h.vector (fun _ ht _ _ => ht.vStore)⟩

theorem execVtopk_answers {t : Fin 272} {w : Entry} {chk : TileCheck} (h : Keeps false s₀ s) :
    Answers false s₀ (execVtopk t w chk s) :=
  ⟨_, rfl, h.vector (fun _ ht _ _ => .vStore (.ite ht ht.writeSlots))⟩

theorem execVtrans_answers {t : Fin 272} {w : Entry} {chk : TileCheck} (h : Keeps false s₀ s) :
    Answers false s₀ (execVtrans t w chk s) :=
  ⟨_, rfl, h.vector (fun _ ht _ _ => ht.plainD)⟩

theorem execVfill_answers {t : Fin 272} {w : Entry} {chk : TileCheck} (h : Keeps false s₀ s) :
    Answers false s₀ (execVfill t w chk s) :=
  ⟨_, rfl, h.vector (fun _ ht _ _ => ht.vStore)⟩

theorem execVrand_answers {t : Fin 272} {w : Entry} {chk : TileCheck} (h : Keeps false s₀ s) :
    Answers false s₀ (execVrand t w chk s) :=
  ⟨_, rfl, h.vector (fun _ ht _ _ => ht.vStore)⟩

theorem execVidx_answers {t : Fin 272} {w : Entry} {chk : TileCheck} (h : Keeps false s₀ s) :
    Answers false s₀ (execVidx t w chk s) :=
  ⟨_, rfl, h.vector (fun _ ht _ _ => .plainD (.ite ht ht.addFree))⟩

theorem Keeps.regionWrite {t : Nat} {w : Entry} {rs : List Reg} {xs : List (Exact × Bool)} (h : Keeps false s₀ s) :
    Keeps false s₀ (s.regionWrite t w rs xs) :=
  .issueDone (.writeRange (.ite h.setNonfinite h))

theorem execXadd_answers {t : Fin 272} {w : Entry} {chk : TileCheck} (h : Keeps false s₀ s) :
    Answers false s₀ (execXadd t w chk s) :=
  ⟨_, rfl, h.vector (fun _ ht _ _ => ht.regionWrite)⟩

theorem execXmerge_answers {t : Fin 272} {w : Entry} {chk : TileCheck} (h : Keeps false s₀ s) :
    Answers false s₀ (execXmerge t w chk s) :=
  ⟨_, rfl, h.vector (fun _ ht _ _ => ht.regionWrite)⟩

theorem execXround_answers {t : Fin 272} {w : Entry} {chk : TileCheck} (h : Keeps false s₀ s) :
    Answers false s₀ (execXround t w chk s) :=
  ⟨_, rfl, h.vector (fun _ ht _ _ => ht.plainD)⟩

theorem execXzero_answers {t : Fin 272} {w : Entry} {chk : TileCheck} (h : Keeps false s₀ s) :
    Answers false s₀ (execXzero t w chk s) :=
  ⟨_, rfl, h.vector (fun _ ht _ _ => ht.regionWrite)⟩

theorem Keeps.checkReadOnly (h : Keeps κ s₀ s) : Keeps κ s₀ s.checkReadOnly := by
  unfold State.checkReadOnly
  split
  · exact .ite h h.put.ev
  · exact h

theorem Keeps.wear (h : Keeps κ s₀ s) : Keeps κ s₀ s.wear :=
  .checkReadOnly (.ite (.ev (.tiers (.ite (.ev
    (.ite (.ite h.put.put.put.put h.put.put.put.put.put) (.put (.ite h.put.put.put.put h.put.put.put.put.put))))
    (.ite (.ite h.put.put.put.put h.put.put.put.put.put) (.put (.ite h.put.put.put.put h.put.put.put.put.put))))))
    (.ite (.ev (.ite (.ite h.put.put.put.put h.put.put.put.put.put)
    (.put (.ite h.put.put.put.put h.put.put.put.put.put))))
    (.ite (.ite h.put.put.put.put h.put.put.put.put.put) (.put (.ite h.put.put.put.put h.put.put.put.put.put)))))

theorem Keeps.nand {logical moved : Nat} (h : Keeps κ s₀ s) : Keeps κ s₀ (s.nand logical moved) :=
  h.tiers.wear

theorem Keeps.setCredit {c : Nat} (h : Keeps κ s₀ s) : Keeps κ s₀ (s.setCredit c) :=
  h.tiers.put

theorem Keeps.limited (h : Keeps κ s₀ s) : Keeps κ s₀ s.limited :=
  .ite h h.put.ev

theorem Keeps.admitWrites {n : Nat} (h : Keeps κ s₀ s) : Keeps κ s₀ (s.admitWrites n) := by
  induction n generalizing s with
  | zero => exact h.limited
  | succ n ih =>
    unfold State.admitWrites
    refine .ite h.limited ?_
    split
    · exact h.limited
    · exact ih h.setCredit.tiers.nand

theorem Keeps.dWrite {kind cls block : Nat} {data : List Byte} {x : Seal} {what : DFor} (h : Keeps κ s₀ s)
    (e : s.dWrite kind cls block data x what = some t) : Keeps κ s₀ t := by
  unfold State.dWrite at e
  split at e <;> cases e
  exact h.tiers.admitWrites

theorem Keeps.dAck {w : DWrite} (h : Keeps false s₀ s) : Keeps false s₀ (s.dAck w) :=
  h.tiers.setBlock

theorem execCreditAccrual_answers {us : Nat} (h : Keeps κ s₀ s) : Answers κ s₀ (execCreditAccrual us s) :=
  ⟨_, rfl, h.whenOn h.setCredit.admitWrites⟩

theorem execGovernorCreditSave_answers (h : Keeps κ s₀ s) : Answers κ s₀ (execGovernorCreditSave s) :=
  ⟨_, rfl, h.whenOn h.tiers.wear⟩

theorem execGarbageCollection_answers {moved : Nat} (h : Keeps κ s₀ s) :
    Answers κ s₀ (execGarbageCollection moved s) :=
  ⟨_, rfl, h.whenOn h.nand⟩

theorem execStaticWearLevelling_answers {moved : Nat} (h : Keeps κ s₀ s) :
    Answers κ s₀ (execStaticWearLevelling moved s) :=
  ⟨_, rfl, h.whenOn (.nand (.ite h h.tiers.put))⟩

theorem execReadDisturbRefresh_answers {block moved : Nat} (h : Keeps κ s₀ s) :
    Answers κ s₀ (execReadDisturbRefresh block moved s) :=
  ⟨_, rfl, h.whenOn h.nand⟩

theorem execRetentionRefresh_answers {moved : Nat} (h : Keeps κ s₀ s) : Answers κ s₀ (execRetentionRefresh moved s) :=
  ⟨_, rfl, h.whenOn h.nand⟩

theorem execBadBlockRetirement_answers {block : Nat} {lost : List Nat} (h : Keeps false s₀ s) :
    Answers false s₀ (execBadBlockRetirement block lost s) :=
  ⟨_, rfl, h.whenOn (.wear (.foldl (fun _ _ h => h.poison.ev) (.ite h h.tiers)))⟩

theorem execTranslationRebuildComplete_answers (h : Keeps κ s₀ s) : Answers κ s₀ (execTranslationRebuildComplete s) :=
  ⟨_, rfl, h.whenLive (.ite h.tiers h)⟩

theorem Keeps.deepFlip (h : Keeps κ s₀ s) : Keeps κ s₀ s.deepFlip :=
  .ite h.put.put.tiers.ev h

end Sys2Proof.Machine

end


section
/-!
PROOFS. What every step keeps: Halo: tables, gathers, commits and what its modules send each other.
-/

namespace Sys2Proof.Machine

open Sys2Proof

variable {κ : Bool} {s₀ s t : State}

theorem Keeps.mapTable {key : Nat} {f : Table → Table} (h : Keeps κ s₀ s) : Keeps κ s₀ (s.mapTable key f) :=
  h.tables

theorem Keeps.setSlotRec {b : Table} {k row age : Nat} (h : Keeps false s₀ s) :
    Keeps false s₀ (s.setSlotRec b k row age) := by
  unfold State.setSlotRec
  split
  · exact h.recallWrite.partialWrite
  · exact h

theorem Keeps.freeSlot {b : Table} {k : Nat} (h : Keeps false s₀ s) : Keeps false s₀ (s.freeSlot b k) :=
  h.setSlotRec

theorem Keeps.rewrite {sp : Space} {a : Nat} {bs : List Byte} {tensor fmt block step : Nat} (h : Keeps false s₀ s) :
    Keeps false s₀ (s.rewrite sp a bs tensor fmt block step) :=
  h.recallWrite.setBytes.setSeal

theorem Keeps.writeRow {b : Table} {slot step : Nat} {img : List Byte} (h : Keeps false s₀ s) :
    Keeps false s₀ (s.writeRow b slot step img) := by
  unfold State.writeRow
  dsimp only
  split
  · exact h.rewrite
  · exact h

theorem Keeps.writeState {b : Table} {slot step : Nat} {ws : List Byte} (h : Keeps false s₀ s) :
    Keeps false s₀ (s.writeState b slot step ws) := by
  unfold State.writeState
  refine .ite h ?_
  split
  · exact h.rewrite
  · exact h

theorem Keeps.setRow {key : Nat} {x : Row} (h : Keeps κ s₀ s) : Keeps κ s₀ (s.setRow key x) :=
  h.mapTable

theorem Keeps.coldRow {b : Table} {x : Row} (h : Keeps false s₀ s) : Keeps false s₀ (s.coldRow b x) :=
  h.freeSlot.setRow

theorem Keeps.takeSlot {b : Table} {k : Nat} (h : Keeps false s₀ s) (e : s.takeSlot b = some (t, k)) :
    Keeps false s₀ t := by
  unfold State.takeSlot at e
  split at e
  · cases e
    exact h
  · obtain ⟨v, -, hv⟩ := Option.map_eq_some_iff.mp e
    cases hv
    exact h.coldRow

theorem Keeps.groupWrite {b : Table} {kind cls addr block tensor fmt : Nat} {xs : List Row}
    {put : State → List Byte → Row → List Byte} {seals : State → Row → Seal} (h : Keeps κ s₀ s)
    (e : s.groupWrite b kind cls addr block tensor fmt xs put seals = some t) : Keeps κ s₀ t := by
  unfold State.groupWrite at e
  split at e
  · contradiction
  · exact h.dWrite e

theorem Keeps.groupWrite_getD {b : Table} {kind cls addr block tensor fmt : Nat} {xs : List Row}
    {put : State → List Byte → Row → List Byte} {seals : State → Row → Seal} (h : Keeps κ s₀ s) :
    Keeps κ s₀ ((s.groupWrite b kind cls addr block tensor fmt xs put seals).getD s) := by
  cases e : s.groupWrite b kind cls addr block tensor fmt xs put seals with
  | none => exact h
  | some t => exact h.groupWrite e

theorem Keeps.writeBackGroup {b : Table} {xs : List Row} {evict : Bool} {cls : Nat} (h : Keeps κ s₀ s) :
    Keeps κ s₀ (s.writeBackGroup b xs evict cls) := by
  unfold State.writeBackGroup
  dsimp only
  split
  · exact h
  · split
    · exact h
    · have ht := h.groupWrite ‹_›
      exact .foldl (fun _ _ h => h.setRow) (.ite ht (.foldl (fun _ _ h => h.groupWrite_getD) ht))

theorem Keeps.writeBack {b : Table} {xs : List Row} {evict : Bool} {cls : Nat} (h : Keeps κ s₀ s) :
    Keeps κ s₀ (s.writeBack b xs evict cls) :=
  .foldl (fun _ _ h => h.writeBackGroup) h

theorem Keeps.background {key : Nat} (h : Keeps κ s₀ s) : Keeps κ s₀ (s.background key) := by
  unfold State.background
  split
  · exact h
  · exact .ite h h.writeBack

theorem Keeps.evictDirty {b : Table} (h : Keeps κ s₀ s) : Keeps κ s₀ (s.evictDirty b) := by
  unfold State.evictDirty
  refine .ite h ?_
  split
  · exact h.writeBack
  · exact h

theorem Keeps.promote {b : Table} {x : Row} {demand : Bool} (h : Keeps false s₀ s) :
    Keeps false s₀ (s.promote b x demand).1 := by
  unfold State.promote
  split
  · exact (h.takeSlot ‹_›).setSlotRec.setRow
  · exact .iteFst h (.iteFst h h.evictDirty)

theorem Keeps.wantRow {b : Table} {r cls : Nat} (h : Keeps false s₀ s) : Keeps false s₀ (s.wantRow b r cls).1 := by
  unfold State.wantRow
  dsimp only
  split
  · exact h
  · refine .iteFst h (.iteFst h (.iteFst h.setRow ?_))
    split <;> have ht := h.promote.of_eq ‹_›
    · exact ht
    · exact ht.countRefusal.pair
    · exact .iteFst ht (.iteFst ht.countRefusal.pair ht.tiers.inc)

theorem Keeps.serveRow {b : Table} {r : Nat} {eval remote : Bool} (h : Keeps false s₀ s) :
    Keeps false s₀ (s.serveRow b r eval remote).1 := by
  unfold State.serveRow
  split
  · exact h
  · exact .ite (.ev (.ite (.ite h.setRow.setSlotRec.inc h.setRow.setSlotRec)
      (.mapTable (.ite h.setRow.setSlotRec.inc h.setRow.setSlotRec))))
      (.ite (.ite h.setRow.setSlotRec.inc h.setRow.setSlotRec)
      (.mapTable (.ite h.setRow.setSlotRec.inc h.setRow.setSlotRec)))

theorem Keeps.stackRequest {k ctx ty cls m st : Nat} {spec : Bool} {payload : List Byte} {what : ReqFor}
    (h : Keeps κ s₀ s) :
    Keeps κ s₀ (s.stackRequest k ctx ty cls m st spec payload what) :=
  h.request

theorem Keeps.sendRepl {b : Table} {cls m st kind row version : Nat} {img : List Byte} (h : Keeps κ s₀ s) :
    Keeps κ s₀ (s.sendRepl b cls m st kind row version img) :=
  h.stackRequest

theorem Keeps.noReplica {b : Table} {cause : Nat} (h : Keeps κ s₀ s) : Keeps κ s₀ (s.noReplica b cause) :=
  h.evLim

theorem Keeps.countRemote {qp : Nat} {b : Table} {m st r : Nat} (h : Keeps κ s₀ s) :
    Keeps κ s₀ (s.countRemote qp b m st r) :=
  .ite h (.ite h.mapTable (.ite h.mapTable.noReplica h.mapTable.sendRepl))

theorem Keeps.wantSource {o : HaloOp} {b : Table} {i r : Nat} (h : Keeps false s₀ s) :
    Keeps false s₀ (s.wantSource o b i r).1 := by
  unfold State.wantSource
  split
  · exact .iteFst h.wantRow h
  · exact h
  · exact h
  · split
    · exact .iteFst h h
    · exact .iteFst h h.stackRequest

theorem Keeps.wantAll {o : HaloOp} {b : Table} {l : List (Nat × Nat)} (h : Keeps false s₀ s) :
    Keeps false s₀ (s.wantAll o b l).1 := by
  induction l generalizing s with
  | nil => exact h
  | cons x l ih =>
    unfold State.wantAll
    split
    · exact h
    · dsimp only
      split <;> exact ih h.wantSource

theorem Keeps.takeRow {o : HaloOp} {b : Table} {i r : Nat} (h : Keeps false s₀ s) :
    Keeps false s₀ (s.takeRow o b i r).1 := by
  unfold State.takeRow
  split
  · exact h.serveRow
  · exact h.inc.mapTable
  · exact h
  · split
    · exact .ite h h.countRemote
    · exact h

theorem Keeps.takeRows {o : HaloOp} {key : Nat} {l : List (Nat × Nat)} (h : Keeps false s₀ s) :
    Keeps false s₀ (s.takeRows o key l).1 := by
  induction l generalizing s with
  | nil => exact h
  | cons x l ih =>
    unfold State.takeRows
    split
    · exact h
    · exact .iteFst (ih h.takeRow) h.takeRow

theorem Keeps.haloFetch {ctx op addr len : Nat} (h : Keeps false s₀ s) :
    Keeps false s₀ (s.haloFetch ctx op addr len).1 := by
  unfold State.haloFetch
  refine .iteFst h ?_
  split
  · exact h.recallExt
  · exact h
  · exact h.violate

theorem Keeps.haloDest {ctx op addr len : Nat} (h : Keeps κ s₀ s) : Keeps κ s₀ (s.haloDest ctx op addr len).1 := by
  unfold State.haloDest
  refine .iteFst h ?_
  split
  · exact h
  · exact h
  · exact h.violate

theorem Keeps.haloOut {ctx addr tensor fmt step : Nat} {bs : List (List Byte)} (h : Keeps false s₀ s) :
    Keeps false s₀ (s.haloOut ctx addr tensor fmt step bs) := by
  unfold State.haloOut
  refine .foldl (fun _ _ h => ?_) h
  split
  · exact .setBlock (.ite h.recallWrite h)
  · exact h

theorem Keeps.gatherLists {ctx : Nat} {b : Table} {o : HaloOp} (h : Keeps false s₀ s) :
    Keeps false s₀ (s.gatherLists ctx b o).1 := by
  unfold State.gatherLists
  dsimp only
  split
  · exact h.haloFetch
  · refine .iteFst h.haloFetch ?_
    split
    · exact .iteFst (.iteFst h.haloFetch.haloFetch.haloFetch h.haloFetch.haloFetch)
        (.iteFst h.haloFetch.haloFetch.haloFetch h.haloFetch.haloFetch)
    · exact .iteFst h.haloFetch.haloFetch.haloFetch h.haloFetch.haloFetch

theorem Keeps.gather {o : HaloOp} {b : Table} (h : Keeps false s₀ s) : Keeps false s₀ (s.gather o b).1 := by
  unfold State.gather
  extract_lets e ctx p n dim f pool outN argN arg
  refine .iteFst h ?_
  split
  have h₁ := h.haloDest.of_eq ‹_›
  split
  have h₂ := Keeps.of_eq (.iteFst h₁ h₁.haloDest) ‹_›
  refine .iteFst h₂ ?_
  split <;> have h₃ := h₂.gatherLists.of_eq ‹_›
  · exact h₃
  · refine .iteFst h₃ ?_
    extract_lets live
    split <;> have h₄ := h₃.wantAll.of_eq ‹_›
    · exact h₄
    · split
      · exact .iteFst h₄ h₄.haloOps.deferRec
      · exact h₄
    · split <;> have h₅ := h₄.takeRows.of_eq ‹_›
      · exact h₅
      · extract_lets book vals t₆ t₇ outs t₈ t₉ t₁₀
        have h₇ : Keeps false s₀ t₇ := .foldl (fun _ _ h => h.inc.evLim) h₅.inc
        have h₉ : Keeps false s₀ t₉ := .haloOut (.ite h₇.setNonfinite h₇)
        exact .ite h₉ h₉.haloOut

theorem Keeps.lookAt {half : Table} {r : Nat} (h : Keeps false s₀ s) : Keeps false s₀ (s.lookAt half r) := by
  unfold State.lookAt
  split
  · exact .ite h.promote h
  · exact h

theorem Keeps.lookahead {o : HaloOp} {b : Table} (h : Keeps false s₀ s) : Keeps false s₀ (s.lookahead o b).1 := by
  unfold State.lookahead
  dsimp only
  split
  · exact h.haloFetch.of_eq ‹_›
  · refine .iteFst (h.haloFetch.of_eq ‹_›) (.foldl (fun _ _ h => ?_) (h.haloFetch.of_eq ‹_›))
    split
    · exact h
    · split
      · exact h.lookAt
      · exact h.stackRequest
      · exact h

theorem Keeps.invalidate {b : Table} {r : Nat} (h : Keeps κ s₀ s) : Keeps κ s₀ (s.invalidate b r) := by
  unfold State.invalidate
  split
  · exact h
  · exact .foldl (fun _ _ h => h.sendRepl) h.mapTable

theorem Keeps.mirrorMerge {b : Table} {m : Merge} (h : Keeps false s₀ s) : Keeps false s₀ (s.mirrorMerge b m) := by
  unfold State.mirrorMerge
  refine .foldl (fun _ _ h => ?_) h
  split
  · exact h.recallWrite.partialWrite
  · exact h

theorem Keeps.mergePair {key r step col : Nat} {vs : List Val} (h : Keeps false s₀ s) :
    Keeps false s₀ (s.mergePair key r step col vs) := by
  unfold State.mergePair
  split
  · exact h
  · extract_lets old m t₁ added m' t₂ t₃ t₄
    have h₁ : Keeps false s₀ t₁ := by
      refine .ite h (.invalidate ?_)
      split
      · exact .ite h.wantRow h
      · exact h
    have h₃ : Keeps false s₀ t₃ := .ite h₁.mapTable.setNonfinite h₁.mapTable
    exact .ite h.setNonfinite.ev (.mirrorMerge (.ite h₃.inc h₃))

theorem Keeps.gradBlocks {ctx : Nat} {e : Entry} {dim : Nat} (h : Keeps false s₀ s) :
    Keeps false s₀ (s.gradBlocks ctx e dim).1 := by
  unfold State.gradBlocks
  dsimp only
  split
  · exact h
  · exact h.violate
  · split <;> exact h.recallExt

theorem Keeps.update {o : HaloOp} {b : Table} (h : Keeps false s₀ s) : Keeps false s₀ (s.update o b).1 := by
  unfold State.update
  refine .iteFst h ?_
  split <;> have h₁ := h.haloFetch.of_eq ‹_›
  · exact h₁
  · refine .iteFst h₁ ?_
    split <;> have h₂ := h₁.gradBlocks.of_eq ‹_›
    · exact h₂
    · refine .iteFst h₂ (.haloOps (.foldl (fun t x ht => ?_) h₂))
      extract_lets vs away
      have haway (m st : Nat) : Keeps false s₀ (away m st) := .foldl (fun _ _ h => h.stackRequest) ht
      clear_value away
      split
      · refine .ite ?_ ht.mergePair
        split
        · exact ht.mergePair
        · exact haway _ _
        · exact ht
      · split
        · exact ht.mergePair
        · exact haway _ _
        · exact ht

theorem Keeps.haloCheck {p k : Nat} (h : Keeps false s₀ s) : Keeps false s₀ (s.haloCheck p k) :=
  .ite h.setCommit.arrive h

theorem Keeps.haloChecks {p : Nat} (h : Keeps false s₀ s) : Keeps false s₀ (s.haloChecks p) :=
  .foldl (fun _ _ h => h.haloCheck) h

theorem Keeps.freeTable {b : Table} (h : Keeps false s₀ s) : Keeps false s₀ (s.freeTable b) := by
  unfold State.freeTable
  split
  · exact .cmdClose (.foldl (fun _ _ h => h.cmdClose) (.foldl (fun _ _ h => h.cmdClose) (.put (.others h rfl))))
  · exact .foldl (fun _ _ h => h.cmdClose) (.foldl (fun _ _ h => h.cmdClose) (.put (.others h rfl)))

theorem Keeps.tablesLeave (h : Keeps false s₀ s) : Keeps false s₀ s.tablesLeave :=
  .foldl (fun _ _ h => h.freeTable) h

theorem Keeps.haloFinal {o : HaloOp} {st : Status} (h : Keeps false s₀ s) : Keeps false s₀ (s.haloFinal o st) :=
  .tablesLeave (.arriveLater (.haloChecks (.fetched (.ite h.complete.signal h.complete))))

theorem Keeps.haloSettle {n k qp op : Nat} (h : Keeps false s₀ s) : Keeps false s₀ (s.haloSettle n k qp op) := by
  induction n generalizing s with
  | zero => exact h
  | succ n ih =>
    unfold State.haloSettle
    split
    · split
      · exact ih h.haloOps.haloFinal
      · exact h
    · exact h

theorem Keeps.haloEnd {o : HaloOp} {st : Status} (h : Keeps false s₀ s) : Keeps false s₀ (s.haloEnd o st) :=
  h.haloOps.haloSettle

theorem Keeps.haloTry {o : HaloOp} {work : State → HaloOp → Table → State × Option Status} (h : Keeps false s₀ s)
    (hwork : ∀ t, Keeps false s₀ t → ∀ a b, Keeps false s₀ (work t a b).1) :
    Keeps false s₀ (s.haloTry o work) := by
  unfold State.haloTry
  refine .ite h ?_
  split
  · exact h.haloEnd
  · split
    · exact ((hwork _ h _ _).of_eq ‹_›).haloEnd
    · exact (hwork _ h _ _).of_eq ‹_›

theorem Keeps.haloWork {o : HaloOp} {b : Table} (h : Keeps false s₀ s) : Keeps false s₀ (s.haloWork o b).1 :=
  .iteFst h.gather (.iteFst h.update (.iteFst h.lookahead h))

theorem Keeps.haloRetry (h : Keeps false s₀ s) : Keeps false s₀ s.haloRetry := by
  unfold State.haloRetry
  refine .foldl (fun _ _ h => ?_) h
  split
  · exact h.haloTry (fun _ ht _ _ => ht.haloWork)
  · exact h

theorem Keeps.haloTaken {k qp op : Nat} {e : Entry} (h : Keeps κ s₀ s) : Keeps κ s₀ (s.haloTaken k qp op e) :=
  h.advance.haloOps

theorem Keeps.haloHead {k qp op : Nat} {body : State → HaloOp → State} (h : Keeps false s₀ s)
    (hbody : ∀ t, Keeps false s₀ t → ∀ a, Keeps false s₀ (body t a)) :
    Keeps false s₀ (s.haloHead k qp op body) := by
  unfold State.haloHead
  refine .ite h ?_
  split
  · exact .ite h.headOutside h
  · refine .ite h (.ite h.take.complete (.ite h ?_))
    split
    · exact h
    · exact h.take.complete
    · exact hbody _ (.ite h.haloTaken h.haloTaken.deferRec) _

theorem execHaloGather_answers {k : Fin 12} {qp : Fin 32} (h : Keeps false s₀ s) :
    Answers false s₀ (execHaloGather k qp s) :=
  ⟨_, rfl, h.haloHead (fun _ ht _ => ht.haloTry (fun _ ht _ _ => ht.gather))⟩

theorem execUpdate_answers {k : Fin 12} {qp : Fin 32} (h : Keeps false s₀ s) : Answers false s₀ (execUpdate k qp s) :=
  ⟨_, rfl, h.haloHead (fun _ ht _ => (ht.haloTry (fun _ ht _ _ => ht.update)).haloChecks)⟩

theorem execHaloStepEnd_answers {k : Fin 12} {qp : Fin 32} (h : Keeps false s₀ s) :
    Answers false s₀ (execHaloStepEnd k qp s) :=
  ⟨_, rfl, h.haloHead (fun _ ht _ => ht.setCommit.haloEnd)⟩

theorem execLookahead_answers {k : Fin 12} {qp : Fin 32} (h : Keeps false s₀ s) :
    Answers false s₀ (execLookahead k qp s) :=
  ⟨_, rfl, h.haloHead (fun _ ht _ => ht.haloTry (fun _ ht _ _ => ht.lookahead))⟩

theorem Keeps.haloHold {o : HaloOp} (h : Keeps κ s₀ s) : Keeps κ s₀ (s.haloHold o) :=
  h.haloOps

theorem execSwap_answers {k : Fin 12} {qp : Fin 32} (h : Keeps false s₀ s) : Answers false s₀ (execSwap k qp s) :=
  ⟨_, rfl, h.haloHead (fun _ ht _ => .ite ht.mapTable.haloHold ht.haloEnd)⟩

theorem execOverride_answers {k : Fin 12} {qp : Fin 32} (h : Keeps false s₀ s) :
    Answers false s₀ (execOverride k qp s) := by
  unfold execOverride
  refine ⟨_, rfl, h.haloHead (fun _ ht _ => ?_)⟩
  split
  · exact (ht.haloFetch.of_eq ‹_›).haloEnd
  · exact .ite ((ht.haloFetch.of_eq ‹_›).haloEnd) ((ht.haloFetch.of_eq ‹_›).mapTable.haloHold)

theorem execLoadStats_answers {k : Fin 12} {qp : Fin 32} (h : Keeps false s₀ s) :
    Answers false s₀ (execLoadStats k qp s) := by
  unfold execLoadStats
  dsimp only
  refine ⟨_, rfl, h.haloHead (fun _ ht _ => ?_)⟩
  split
  · exact ht.haloEnd
  · split
    · exact (ht.haloDest.of_eq ‹_›).haloEnd
    · exact .haloEnd (.ite ((ht.haloDest.of_eq ‹_›).haloOut.mapTable) ((ht.haloDest.of_eq ‹_›).haloOut))

theorem Keeps.pushReplicas {b : Table} {r version : Nat} {img : List Byte} (h : Keeps κ s₀ s) :
    Keeps κ s₀ (s.pushReplicas b r version img) := by
  unfold State.pushReplicas
  split
  · exact h
  · exact .foldl (fun _ _ h => h.sendRepl) h.mapTable

theorem Keeps.applyMerge {key : Nat} {m : Merge} (h : Keeps false s₀ s) : Keeps false s₀ (s.applyMerge key m) := by
  unfold State.applyMerge
  split
  · exact h
  · split
    · exact h.mapTable
    · exact .ite (.ite h.mapTable.ev h.mapTable)
        (.pushReplicas (.mapTable (.ite h.mapTable.writeRow.writeState.setRow.inc
        h.mapTable.writeRow.writeState.setRow.inc.inc.evEvery)))

theorem Keeps.applyMerges {key : Nat} (h : Keeps false s₀ s) : Keeps false s₀ (s.applyMerges key) := by
  unfold State.applyMerges
  split
  · exact h
  · refine .foldl (fun _ _ h => ?_) h
    split
    · exact .ite h.applyMerge h
    · exact h.applyMerge

theorem Keeps.migAdmit {b : Table} {first n : Nat} (h : Keeps false s₀ s) (e : s.migAdmit b first n = some t) :
    Keeps false s₀ t := by
  unfold State.migAdmit at e
  simp only [Option.ite_none_left_eq_some, Option.some.injEq] at e
  obtain ⟨-, rfl⟩ := e
  exact .foldl (fun _ _ h => h.setSlotRec) h.mapTable

theorem Keeps.migTake {key row off step : Nat} {bs : List Byte} (h : Keeps false s₀ s) :
    Keeps false s₀ (s.migTake key row off step bs) := by
  unfold State.migTake
  split
  · exact h
  · split
    · exact h
    · exact h.mapTable.writeRow.writeState

theorem Keeps.migOwn {key first n : Nat} (h : Keeps κ s₀ s) : Keeps κ s₀ (s.migOwn key first n) :=
  h.mapTable

theorem Keeps.migDrop {b : Table} {first n : Nat} (h : Keeps false s₀ s) : Keeps false s₀ (s.migDrop b first n) :=
  .mapTable (.foldl (fun _ _ h => h.freeSlot) h)

theorem Keeps.migSend {b : Table} {g : Migration} {x : Row} (h : Keeps false s₀ s) :
    Keeps false s₀ (s.migSend b g x) := by
  unfold State.migSend
  split
  · exact h.migTake
  · exact .foldl (fun _ _ h => h.stackRequest) h

theorem Keeps.dropReplicas {b : Table} {rows : Nat → Bool} (h : Keeps κ s₀ s) : Keeps κ s₀ (s.dropReplicas b rows) :=
  .foldl (fun _ _ h => .foldl (fun _ _ h => h.stackRequest) h) h.mapTable

theorem Keeps.migStep {key : Nat} {g : Migration} (h : Keeps false s₀ s) : Keeps false s₀ (s.migStep key g) := by
  unfold State.migStep
  refine .foldl (fun _ _ h => ?_) h
  split
  · exact h
  · split
    · exact h
    · exact .ite h.setRow.migSend (.ite h.promote h)

theorem Keeps.migSteps {key : Nat} (h : Keeps false s₀ s) : Keeps false s₀ (s.migSteps key) := by
  unfold State.migSteps
  split
  · exact h
  · exact .foldl (fun _ _ h => h.migStep) h

theorem Keeps.mapMig {key : Nat} {g : Migration} {f : Migration → Migration} (h : Keeps κ s₀ s) :
    Keeps κ s₀ (s.mapMig key g f) :=
  h.mapTable

theorem Keeps.haloEndAt {k qp index : Nat} {st : Status} (h : Keeps false s₀ s) :
    Keeps false s₀ (s.haloEndAt k qp index st) := by
  unfold State.haloEndAt
  split
  · exact h.haloEnd
  · exact h

theorem execMigrate_answers {k : Fin 12} {qp : Fin 32} (h : Keeps false s₀ s) :
    Answers false s₀ (execMigrate k qp s) := by
  refine ⟨_, rfl, h.haloHead fun _ h _ => ?_⟩
  dsimp only
  split
  · exact h.haloEnd
  · refine .ite h.haloEnd (.ite ?_ h.haloHold.mapTable.stackRequest)
    split
    · exact h.haloHold.haloEndAt
    · obtain ⟨_, -, e⟩ := Option.bind_eq_some_iff.mp ‹_›
      exact (h.haloHold.migAdmit e).dropReplicas.mapTable.migSteps

theorem execMigrationCopyComplete_answers {k : Fin 12} {tid : Nat} (h : Keeps false s₀ s) :
    Answers false s₀ (execMigrationCopyComplete k tid s) := by
  unfold execMigrationCopyComplete
  dsimp only
  refine ⟨_, rfl, h.whenLive (.foldl (fun _ _ h => ?_) h)⟩
  split
  · exact h.migSteps
  · exact .foldl (fun _ _ h => .ite h.mapMig h) h.migSteps

theorem Keeps.migFlip {b : Table} {g : Migration} (h : Keeps false s₀ s) : Keeps false s₀ (s.migFlip b g) := by
  unfold State.migFlip
  refine .haloEndAt (.ev (.mapTable (.foldl (fun _ _ h => h.freeSlot) ?_)))
  split
  · exact .migOwn (.foldl (fun _ _ h => h.migSend) h)
  · exact .stackRequest (.foldl (fun _ _ h => h.migSend) h)

theorem Keeps.startRebuild {key : Nat} {force : Bool} (h : Keeps κ s₀ s) : Keeps κ s₀ (s.startRebuild key force) :=
  h.mapTable

theorem execRowMapRebuildComplete_answers {k : Fin 12} {tid : Nat} {replica : Bool} (h : Keeps κ s₀ s) :
    Answers κ s₀ (execRowMapRebuildComplete k tid replica s) :=
  ⟨_, rfl, h.whenLive (.foldl (fun _ _ h => h.mapTable) h)⟩

theorem Keeps.haloFlips (h : Keeps κ s₀ s) : Keeps κ s₀ s.haloFlips :=
  .foldl (fun _ _ h => .ite (.ev (.mapTable (.ite h.mapTable.ev h))) (.ite h.mapTable.ev h)) h

theorem Keeps.writeReplica {b : Table} {slot step : Nat} {img : List Byte} (h : Keeps false s₀ s) :
    Keeps false s₀ (s.writeReplica b slot step img) := by
  unfold State.writeReplica
  dsimp only
  split
  · exact h.rewrite
  · exact h

theorem Keeps.mapReplica {key r : Nat} {f : Replica → Replica} (h : Keeps κ s₀ s) :
    Keeps κ s₀ (s.mapReplica key r f) :=
  h.mapTable

theorem Keeps.dropReplica {key r : Nat} (h : Keeps κ s₀ s) : Keeps κ s₀ (s.dropReplica key r) :=
  h.mapTable

theorem execReplPushTimeout_answers {k : Fin 12} {tid row : Nat} (h : Keeps κ s₀ s) :
    Answers κ s₀ (execReplPushTimeout k tid row s) :=
  ⟨_, rfl, h.whenLive (.foldl (fun _ _ h => .ite h.dropReplica h) h)⟩

theorem execLoadWindowEnd_answers {k : Fin 12} {tid : Nat} (h : Keeps κ s₀ s) :
    Answers κ s₀ (execLoadWindowEnd k tid s) :=
  ⟨_, rfl, h.whenLive (.foldl (fun _ _ h => .mapTable (.foldl (fun _ _ h => h.stackRequest) h)) h)⟩

theorem Keeps.ageSlots {b : Table} (h : Keeps false s₀ s) : Keeps false s₀ (s.ageSlots b) :=
  .foldl (fun _ _ h => .ite h h.setSlotRec) h

theorem Keeps.swapTable {b : Table} {new : Nat} (h : Keeps false s₀ s) : Keeps false s₀ (s.swapTable b new) := by
  unfold State.swapTable
  split
  · exact h
  · exact .mapTable (.mapTable (.foldl (fun _ _ h => h.cmdClose) h.dropReplicas))

theorem Keeps.finishUpdates {p : Nat} (h : Keeps false s₀ s) : Keeps false s₀ (s.finishUpdates p) :=
  .ite h (.foldl (fun _ _ h => h.haloEnd) h)

theorem Keeps.tableMeridian {n : Nat} {skip : Bool} {b : Table} (h : Keeps false s₀ s) :
    Keeps false s₀ (s.tableMeridian n skip b) := by
  unfold State.tableMeridian
  refine .foldl (fun _ _ h => ?_) (.foldl (fun _ _ h => ?_) h.ageSlots.mapTable)
  · split
    · exact h.swapTable.ev.haloEndAt
    · exact h
  · split
    · exact h.migFlip.startRebuild
    · exact h

theorem Keeps.tableOverride {n : Nat} {b : Table} (h : Keeps false s₀ s) : Keeps false s₀ (s.tableOverride n b) :=
  .foldl (fun _ _ h => h.mapTable.startRebuild.ev.haloEndAt) h

theorem Keeps.tableParams {b : Table} (h : Keeps false s₀ s) : Keeps false s₀ (s.tableParams b) :=
  .foldl (fun _ _ h => h.mapTable.cmdClose) h

theorem Keeps.haloCommit {p n : Nat} (h : Keeps false s₀ s) : Keeps false s₀ (s.haloCommit p n) := by
  unfold State.haloCommit
  refine .haloRetry (.finishUpdates (.foldl (fun _ _ h => ?_)
      (.foldl (fun _ _ h => ?_) (.foldl (fun _ _ h => ?_)
      (.foldl (fun _ _ h => ?_) (.foldl (fun _ _ h => ?_) h.setCommit))))))
  · split
    · exact h.background
    · exact h
  · split
    · exact h.tableOverride
    · exact h
  · split
    · exact h.tableMeridian
    · exact h
  · split
    · exact h.applyMerges
    · exact h
  · split
    · exact h.tableParams
    · exact h

theorem Keeps.haloSkip {p n : Nat} (h : Keeps false s₀ s) : Keeps false s₀ (s.haloSkip p n) := by
  unfold State.haloSkip
  refine .haloRetry (.foldl (fun _ _ h => h.haloEnd)
      (.foldl (fun _ _ h => ?_) (.foldl (fun _ _ h => ?_) (.foldl (fun _ _ h => ?_) h.setCommit))))
  · split
    · exact .foldl (fun _ _ h => h.mapTable.haloEndAt) h
    · exact h
  · split
    · exact h.tableMeridian
    · exact h
  · split
    · exact h.mapTable
    · exact h

theorem Keeps.answerStatus {part : Nat} {p : Packet} {st : Status} {hint : Nat} (h : Keeps κ s₀ s) :
    Keeps κ s₀ (s.answerStatus part p st hint) :=
  h.sendReply

theorem Keeps.rowRead {p : Packet} {b : Table} {again : Bool} (h : Keeps false s₀ s) :
    Keeps false s₀ (s.rowRead p b again) := by
  unfold State.rowRead
  refine .ite (.ite h h.mapTable) ?_
  split
  · exact .ite ((h.wantRow.of_eq ‹_›).serveRow.mapTable.sendReply)
      ((h.wantRow.of_eq ‹_›).serveRow.mapTable.answerStatus)
  · exact .ite (h.wantRow.of_eq ‹_›) ((h.wantRow.of_eq ‹_›).mapTable)
  · exact .answerStatus (.ite (h.wantRow.of_eq ‹_›) ((h.wantRow.of_eq ‹_›).mapTable))
  · exact (h.wantRow.of_eq ‹_›).mapTable.answerStatus
  · exact .ite ((h.wantRow.of_eq ‹_›).mapTable.answerStatus) ((h.wantRow.of_eq ‹_›).mapTable.sendReply)

theorem Keeps.onRowReq {p : Packet} (h : Keeps false s₀ s) : Keeps false s₀ (s.onRowReq p) := by
  unfold State.onRowReq
  split
  · exact h.answerStatus
  · refine .ite h.answerStatus (.ite h.rowRead
      (.ite h.lookAt.answerStatus (.ite ?_ (.ite h.migTake.answerStatus
      (.ite h.migOwn.answerStatus h.migDrop.answerStatus)))))
    split
    · exact (h.migAdmit ‹_›).answerStatus
    · exact h.answerStatus

theorem Keeps.serveWaits {key : Nat} (h : Keeps false s₀ s) : Keeps false s₀ (s.serveWaits key) := by
  unfold State.serveWaits
  split
  · exact h
  · refine .foldl (fun _ _ h => ?_) h
    split
    · exact h.rowRead
    · exact h

theorem Keeps.rowsMoved (h : Keeps false s₀ s) : Keeps false s₀ s.rowsMoved :=
  .haloRetry (.foldl (fun _ _ h => .ite h.finishUpdates h)
    (.foldl (fun _ _ h => h.applyMerges.serveWaits.migSteps) h))

theorem Keeps.onPairs {p : Packet} (h : Keeps false s₀ s) : Keeps false s₀ (s.onPairs p) := by
  unfold State.onPairs
  split
  · exact h.answerStatus
  · refine .ite h.answerStatus ?_
    split
    · exact h.answerStatus
    · refine .ite ?_ h.mergePair.answerStatus
      split
      · exact h.mergePair.answerStatus
      · exact h.sendReply
      · exact h.answerStatus

theorem Keeps.answerRepl {p : Packet} {b : Table} {kind row version : Nat} {img : List Byte} (h : Keeps κ s₀ s) :
    Keeps κ s₀ (s.answerRepl p b kind row version img) :=
  h.sendReply

theorem Keeps.replDone {p : Packet} (h : Keeps κ s₀ s) : Keeps κ s₀ (s.replDone p) :=
  h.xreqs

theorem Keeps.onReplRequest {p : Packet} (h : Keeps κ s₀ s) : Keeps κ s₀ (s.onReplRequest p) := by
  unfold State.onReplRequest
  split
  · exact h.answerStatus
  · refine .ite h.noReplica.answerRepl ?_
    split
    · exact h
    · exact .ite h.noReplica.answerRepl h.mapTable.setRow.answerRepl

theorem Keeps.onReplGrant {p : Packet} (h : Keeps false s₀ s) : Keeps false s₀ (s.onReplGrant p) := by
  unfold State.onReplGrant
  dsimp only
  split
  · exact h.replDone
  · refine .ite h.replDone ?_
    split
    · exact h.replDone.noReplica
    · exact h.replDone.writeReplica.mapTable

theorem Keeps.onReplInvalidation {p : Packet} (h : Keeps κ s₀ s) : Keeps κ s₀ (s.onReplInvalidation p) := by
  unfold State.onReplInvalidation
  split
  · exact h.answerStatus
  · exact h.mapReplica.answerRepl

theorem Keeps.onReplPush {p : Packet} (h : Keeps false s₀ s) : Keeps false s₀ (s.onReplPush p) := by
  unfold State.onReplPush
  split
  · exact h.answerStatus
  · refine .answerRepl ?_
    split
    · exact h.writeReplica.mapReplica
    · exact h

theorem Keeps.replAcked {b : Table} {row : Nat} {who : Nat × Nat} {push : Bool} (h : Keeps false s₀ s) :
    Keeps false s₀ (s.replAcked b row who push) :=
  h.mapTable.haloChecks.haloRetry

theorem Keeps.onReplAck {p : Packet} (h : Keeps false s₀ s) : Keeps false s₀ (s.onReplAck p) := by
  unfold State.onReplAck
  dsimp only
  split
  · exact h.replDone
  · exact h.replDone.replAcked

theorem Keeps.onReplDrop {p : Packet} (h : Keeps false s₀ s) : Keeps false s₀ (s.onReplDrop p) := by
  unfold State.onReplDrop
  dsimp only
  split
  · exact h.answerStatus
  · refine .ite h.answerStatus.dropReplica ?_
    split
    · exact .ite h.answerStatus.replAcked.mapTable h.answerStatus.replAcked.mapTable.setRow
    · exact h.answerStatus.replAcked.mapTable

theorem Keeps.failRow {b : Table} {row : Nat} {st : Status} (h : Keeps false s₀ s) :
    Keeps false s₀ (s.failRow b row st) := by
  unfold State.failRow
  refine .foldl (fun _ _ h => ?_) (.mapTable (.foldl (fun _ _ h => h.answerStatus) h))
  split
  · exact h
  · exact .ite h.haloEnd h

theorem execPromotionComplete_answers {k : Fin 12} {tid row : Nat} {ok : Bool} (h : Keeps false s₀ s) :
    Answers false s₀ (execPromotionComplete k tid row ok s) := by
  unfold execPromotionComplete
  refine ⟨_, rfl, h.whenLive (.ite h ?_)⟩
  split
  · exact h
  · split
    · exact h
    · exact .ite h.writeRow.writeState.setRow.rowsMoved h.coldRow.failRow.rowsMoved

theorem Keeps.flushAcked {key row version : Nat} (h : Keeps false s₀ s) :
    Keeps false s₀ (s.flushAcked key row version) :=
  .foldl (fun _ _ h => h.cmdClose) h.tiers

theorem Keeps.readmitRow {d : DeferReq} (h : Keeps false s₀ s) : Keeps false s₀ (s.readmitRow d) := by
  unfold State.readmitRow
  split
  · exact h.dropDeferral
  · split
    · exact h.dropDeferral
    · refine .ite h.dropDeferral ?_
      split
      · exact (h.promote.of_eq ‹_›).dropDeferral
      · exact h.promote.of_eq ‹_›
      · exact (h.promote.of_eq ‹_›).dropDeferral.countRefusal.failRow

theorem execWriteBackAck_answers {k : Fin 12} {tid row : Nat} (h : Keeps false s₀ s) :
    Answers false s₀ (execWriteBackAck k tid row s) := by
  unfold execWriteBackAck
  dsimp only
  refine ⟨_, rfl, h.whenLive ?_⟩
  split
  · exact h
  · split
    · exact h
    · refine .ite h ?_
      split
      · exact .rowsMoved (.readmitRow (.flushAcked (.ite h.setRow (.ite h.coldRow h.setRow))))
      · exact .rowsMoved (.flushAcked (.ite h.setRow (.ite h.coldRow h.setRow)))

theorem Keeps.rowsDirty {key : Nat} {rs : List Nat} (h : Keeps κ s₀ s) : Keeps κ s₀ (s.rowsDirty key rs) :=
  h.mapTable

theorem Keeps.deepDrain (h : Keeps κ s₀ s) : Keeps κ s₀ s.deepDrain :=
  h.put.tiers

theorem Keeps.deepReset (h : Keeps κ s₀ s) : Keeps κ s₀ s.deepReset := by
  unfold State.deepReset
  refine .tiers (.foldl (fun _ _ h => ?_) h)
  split
  · exact h.rowsDirty
  · exact h

theorem Keeps.reflush (h : Keeps κ s₀ s) : Keeps κ s₀ s.reflush := by
  unfold State.reflush
  refine .foldl (fun _ _ h => ?_) h
  split
  · exact h.writeBack
  · exact h

theorem execDeepRestoreComplete_answers (h : Keeps κ s₀ s) : Answers κ s₀ (execDeepRestoreComplete s) :=
  ⟨_, rfl, h.whenLive (.ite h.put.next.tiers.ev.reflush h)⟩

theorem Keeps.haloReset {k ms : Nat} (h : Keeps false s₀ s) : Keeps false s₀ (s.haloReset k ms) := by
  unfold State.haloReset
  extract_lets old n t u
  have ht : Keeps false s₀ t := h.put.put
  clear_value t
  exact .rowsMoved (.ev (.others ht rfl))

theorem execDeferralHeadReadmit_answers {point : Nat} (h : Keeps false s₀ s) :
    Answers false s₀ (execDeferralHeadReadmit point s) := by
  unfold execDeferralHeadReadmit
  refine ⟨_, rfl, h.whenLive ?_⟩
  split
  · exact h
  · exact .ite h.readmitExtent (.ite h.readmitRow.rowsMoved h)

end Sys2Proof.Machine

end


section
/-!
PROOFS. What every step keeps: Orrery: host files, hops and walks.
-/

namespace Sys2Proof.Machine

open Sys2Proof

variable {κ : Bool} {s₀ s t : State}

theorem Keeps.hostRead {ctx addr len : Nat} {what : PcieFor} (h : Keeps κ s₀ s) :
    Keeps κ s₀ (s.hostRead ctx addr len what) :=
  .emit (.others h rfl)

theorem Keeps.hostWrite {ctx addr : Nat} {bs : List Byte} (h : Keeps κ s₀ s) : Keeps κ s₀ (s.hostWrite ctx addr bs) :=
  h.emit

theorem Keeps.addFile {f : FileOp} (h : Keeps κ s₀ s) : Keeps κ s₀ (s.addFile f) :=
  .others h rfl

theorem Keeps.fileToD {cls id : Nat} {x : Extent} {rel : Nat} {l : List (FBlock × Nat)} (h : Keeps κ s₀ s)
    (e : s.fileToD cls id x rel l = some t) : Keeps κ s₀ t := by
  induction l generalizing s with
  | nil =>
    cases e
    exact h
  | cons b l ih =>
    unfold State.fileToD at e
    split at e
    · contradiction
    · exact ih (h.dWrite ‹_›) e

theorem Keeps.fileSend {ctx op addr cls : Nat} {bs : List FBlock} {what : FileFor} (h : Keeps false s₀ s) :
    Keeps false s₀ (s.fileSend ctx op addr cls bs what).1 := by
  unfold State.fileSend
  refine .iteFst h ?_
  split
  · exact h.violate
  · refine .iteFst (.foldl (fun _ _ h => h.recallWrite.setBlock) h) ?_
    split
    · exact h.addFile.fileToD ‹_›
    · exact h
  · exact .iteFst h (.iteFst h.addFile h.addFile.hostWrite.hostRead)

theorem Keeps.fileFetch {ctx op addr : Nat} {tiers : List Nat} {size : List Byte → Nat} {fixed : Nat}
    {what : FileFor} (h : Keeps false s₀ s) :
    Keeps false s₀ (s.fileFetch ctx op addr tiers size fixed what).1 := by
  unfold State.fileFetch
  dsimp only
  refine .iteFst h ?_
  split
  · exact h.violate
  · split
    · exact h.recallExt.recallExt
    · exact h.recallExt.violate
  · exact .iteFst h.addFile h.addFile.hostRead

theorem Keeps.setShard {d : Shard} (h : Keeps κ s₀ s) : Keeps κ s₀ (s.setShard d) :=
  h.shards

theorem Keeps.readVals {q ctx addr : Nat} {tag : Option Nat} {first n : Nat} (h : Keeps false s₀ s) :
    Keeps false s₀ (s.readVals q ctx addr tag first n).1 := by
  unfold State.readVals
  dsimp only
  refine .foldlFst (fun _ _ h => ?_) h
  split
  · exact h
  · split
    · exact h.recallRead.ev
    · exact h.recallRead

theorem Keeps.putBlocks {ctx addr tensor fmt first step : Nat} {bs : List (List Byte)} (h : Keeps false s₀ s) :
    Keeps false s₀ (s.putBlocks ctx addr tensor fmt first step bs) := by
  unfold State.putBlocks
  refine .foldl (fun _ _ h => ?_) h
  split
  · exact h.recallWrite.setBlock
  · exact h

theorem Keeps.readParts {x : Shard} {b : Nat} (h : Keeps false s₀ s) : Keeps false s₀ (s.readParts x b).1 := by
  unfold State.readParts
  refine Keeps.foldlFst (β := Status × List (List Nat) × Nat) (fun _ _ h => ?_) h
  split
  exact h.readVals.of_eq ‹_›

theorem Keeps.readBank {x : Shard} {b : Nat} (h : Keeps false s₀ s) : Keeps false s₀ (s.readBank x b).1 := by
  unfold State.readBank
  exact h.readVals.readParts

theorem Keeps.writeBank {x : Shard} {b step : Nat} {w : List Nat} {parts : List (List Nat)} (h : Keeps false s₀ s) :
    Keeps false s₀ (s.writeBank x b step w parts) :=
  h.putBlocks.putBlocks.putBlocks

theorem Keeps.orrFinal {o : OrrOp} {st : Status} (h : Keeps false s₀ s) : Keeps false s₀ (s.orrFinal o st) :=
  .ite h.complete.signal h.complete

theorem Keeps.freeShard {x : Shard} (h : Keeps false s₀ s) : Keeps false s₀ (s.freeShard x) := by
  unfold State.freeShard
  split
  · exact h.wr.wr.put.shards.cmdClose
  · exact h.wr.wr.put.shards

theorem Keeps.shardsLeave (h : Keeps false s₀ s) : Keeps false s₀ s.shardsLeave :=
  .foldl (fun _ _ h => h.freeShard) h

theorem Keeps.orrSettle {n q qp op : Nat} (h : Keeps false s₀ s) : Keeps false s₀ (s.orrSettle n q qp op) := by
  induction n generalizing s with
  | zero => exact h
  | succ n ih =>
    unfold State.orrSettle
    split
    · split
      · exact ih h.orrOps.orrFinal.shardsLeave
      · exact h
    · exact h

theorem Keeps.mapOrr {o : OrrOp} {f : OrrOp → OrrOp} (h : Keeps κ s₀ s) : Keeps κ s₀ (s.mapOrr o f) :=
  h.orrOps

theorem Keeps.orrEnd {o : OrrOp} {st : Status} (h : Keeps false s₀ s) : Keeps false s₀ (s.orrEnd o st) :=
  .orrSettle (.ite h.mapOrr.put h.mapOrr)

theorem Keeps.orrCheck {q p : Nat} (h : Keeps false s₀ s) : Keeps false s₀ (s.orrCheck q p) := by
  unfold State.orrCheck
  split
  · exact h
  · exact .orrEnd (.foldl (fun _ _ h => h.arrive) h.mapOrr)

theorem Keeps.grad {o : OrrOp} (h : Keeps false s₀ s) : Keeps false s₀ (s.grad o).1 := by
  unfold State.grad
  split
  · exact h
  · extract_lets d tNext due before importing rootsLate served act roots keep cut
    refine .iteFst h (.iteFst h.mapOrr ?_)
    split
    have h₁ := h.readBank.of_eq ‹_›
    split
    have h₂ := h₁.readVals.of_eq ‹_›
    refine .iteFst h₂ ?_
    split
    extract_lets new wp flag t₃ t₄ t₅ t₆ t₇
    have h₃ : Keeps false s₀ t₃ := .ite h₂.setNonfinite h₂
    have h₄ : Keeps false s₀ t₄ := by
      unfold t₄
      split
      · exact h₃.evLim
      · exact h₃
    have h₆ : Keeps false s₀ t₆ := h₄.setShard.writeBank.put
    exact .mapOrr (.ite h₆.ev h₆)

theorem Keeps.export_ {o : OrrOp} (h : Keeps false s₀ s) : Keeps false s₀ (s.export_ o).1 := by
  unfold State.export_
  split
  · exact h
  · refine .iteFst h ?_
    split
    · exact h
    · split
      · exact h.fileSend.of_eq ‹_›
      · exact (h.fileSend.of_eq ‹_›).put.mapOrr

theorem Keeps.importInto {x : Shard} {step : Nat} {bs : List (List Byte × Option Seal)} (h : Keeps false s₀ s) :
    Keeps false s₀ (s.importInto x step bs).1 :=
  .iteFst h (.iteFst h (.iteFst (.iteFst h h.readBank)
    (.iteFst (.ite (.put (.setShard (.writeBank (.iteFst h h.readBank))))
    (.putBlocks (.put (.setShard (.writeBank (.iteFst h h.readBank))))))
    (.setShard (.writeBank (.iteFst h h.readBank))))))

theorem Keeps.import_ {o : OrrOp} (h : Keeps false s₀ s) : Keeps false s₀ (s.import_ o).1 := by
  unfold State.import_
  split
  · exact h
  · split
    · exact h.fileFetch.of_eq ‹_›
    · exact (h.fileFetch.of_eq ‹_›).mapOrr
    · exact (h.fileFetch.of_eq ‹_›).importInto

theorem Keeps.orrWork {o : OrrOp} (h : Keeps false s₀ s) : Keeps false s₀ (s.orrWork o).1 := by
  unfold State.orrWork
  split
  · exact h.grad
  · split
    · exact h.setShard.mapOrr
    · exact h
  · exact h.export_
  · exact h.import_
  · exact h.setCommit.mapOrr
  · exact h

theorem Keeps.orrTry {o : OrrOp} (h : Keeps false s₀ s) : Keeps false s₀ (s.orrTry o) := by
  unfold State.orrTry
  refine .ite h (.orrCheck ?_)
  split
  · exact (h.orrWork.of_eq ‹_›).orrEnd
  · exact h.orrWork.of_eq ‹_›

theorem Keeps.orrRetry (h : Keeps false s₀ s) : Keeps false s₀ s.orrRetry := by
  unfold State.orrRetry
  refine .foldl (fun _ _ h => ?_) h
  split
  · exact h.orrTry
  · exact h

theorem Keeps.orrTaken {q qp op : Nat} {e : Entry} (h : Keeps κ s₀ s) : Keeps κ s₀ (s.orrTaken q qp op e) := by
  unfold State.orrTaken
  refine .orrOps ?_
  split
  · exact .ite h.advance.setShard h.advance
  · exact h.advance

theorem Keeps.orrHead {q qp op : Nat} (h : Keeps false s₀ s) : Keeps false s₀ (s.orrHead q qp op) := by
  unfold State.orrHead
  refine .ite h ?_
  split
  · exact .ite h.headOutside h
  · refine .ite h (.ite h.take.complete (.ite h ?_))
    split
    · exact h
    · exact h.take.complete
    · exact .ite h.orrTaken.orrTry h.orrTaken.deferRec.mapOrr

theorem execGrad_answers {q : Fin 4} {qp : Fin 16} (h : Keeps false s₀ s) : Answers false s₀ (execGrad q qp s) :=
  ⟨_, rfl, h.orrHead⟩

theorem execOrrStepEnd_answers {q : Fin 4} {qp : Fin 16} (h : Keeps false s₀ s) :
    Answers false s₀ (execOrrStepEnd q qp s) :=
  ⟨_, rfl, h.orrHead⟩

theorem execSetHyper_answers {q : Fin 4} {qp : Fin 16} (h : Keeps false s₀ s) :
    Answers false s₀ (execSetHyper q qp s) :=
  ⟨_, rfl, h.orrHead⟩

theorem execExportOp_answers {q : Fin 4} {qp : Fin 16} (h : Keeps false s₀ s) :
    Answers false s₀ (execExportOp q qp s) :=
  ⟨_, rfl, h.orrHead⟩

theorem execImportOp_answers {q : Fin 4} {qp : Fin 16} (h : Keeps false s₀ s) :
    Answers false s₀ (execImportOp q qp s) :=
  ⟨_, rfl, h.orrHead⟩

theorem execSkip_answers {q : Fin 4} {qp : Fin 16} (h : Keeps false s₀ s) : Answers false s₀ (execSkip q qp s) :=
  ⟨_, rfl, h.orrHead⟩

theorem Keeps.rootsDone {q k : Nat} (h : Keeps false s₀ s) : Keeps false s₀ (s.rootsDone q k) := by
  unfold State.rootsDone
  split
  · exact h
  · split
    · exact h
    · exact h.setShard.putBlocks.orrRetry

theorem Keeps.orrReset {q ms : Nat} (h : Keeps false s₀ s) : Keeps false s₀ (s.orrReset q ms) :=
  h.put.put.orrOps.ev.orrRetry

theorem Keeps.orrHyper {p : Nat} (h : Keeps false s₀ s) : Keeps false s₀ (s.orrHyper p) := by
  unfold State.orrHyper
  refine .foldl (fun _ _ h => .foldl (fun _ _ h => ?_) h.setShard) h
  split
  · exact h.orrEnd
  · exact h

theorem Keeps.orrEndAll {p op step : Nat} {f : OrrOp → Status} (h : Keeps false s₀ s) :
    Keeps false s₀ (s.orrEndAll p op step f) :=
  .foldl (fun _ _ h => h.orrEnd) h

theorem Keeps.flipShard {x : Shard} (h : Keeps false s₀ s) : Keeps false s₀ (s.flipShard x) :=
  .setShard (.iteFst h.put.put.put.readParts h.put.put.put)

theorem Keeps.orrCommit {p n : Nat} (h : Keeps false s₀ s) : Keeps false s₀ (s.orrCommit p n) :=
  .orrEndAll (.orrEndAll (.shards (.orrHyper (.foldl (fun _ _ h => h.flipShard) h))))

theorem Keeps.orrSkip {p n : Nat} {late : Status} (h : Keeps false s₀ s) : Keeps false s₀ (s.orrSkip p n late) :=
  .orrEndAll (.orrEndAll (.orrEndAll (.orrHyper (.foldl (fun _ _ h => h.put) h))))

theorem execRootComputeComplete_answers {q : Fin 4} {k : Fin 512} (h : Keeps false s₀ s) :
    Answers false s₀ (execRootComputeComplete q k s) :=
  ⟨_, rfl, .ite h.rootsDone h⟩

end Sys2Proof.Machine

end


section
/-!
PROOFS. What every step keeps: ports, staging, commits and stack temperatures.
-/

namespace Sys2Proof.Machine

open Sys2Proof

variable {κ : Bool} {s₀ s t : State}

theorem Keeps.handOn {p : Nat} {k : Kept} (h : Keeps κ s₀ s) : Keeps κ s₀ (s.handOn p k) := by
  unfold State.handOn
  refine .ite h ?_
  split
  · exact (h.choosePort ‹_›).enqueue
  · exact .ite h.c0ToSideband (.ite h.xreqs h.notDelivered)

theorem Keeps.handOnAll {p : Nat} {l : List Kept} (h : Keeps κ s₀ s) : Keeps κ s₀ (s.handOnAll p l) :=
  .foldl (fun _ _ h => h.handOn) h

theorem Keeps.moveC0 {p : Nat} (h : Keeps κ s₀ s) : Keeps κ s₀ (s.moveC0 p) :=
  h.setPort.handOnAll

theorem Keeps.resendAll {p : Nat} (h : Keeps κ s₀ s) : Keeps κ s₀ (s.resendAll p) :=
  h.setPort.handOnAll

theorem Keeps.retryPorts (h : Keeps κ s₀ s) : Keeps κ s₀ s.retryPorts := by
  unfold State.retryPorts
  refine .foldl (fun _ _ h => ?_) h
  split
  · exact (h.route ‹_›).xreqs
  · exact h

theorem Keeps.portUp {p : Nat} (h : Keeps κ s₀ s) : Keeps κ s₀ (s.portUp p) :=
  h.put.pump.retryPorts

theorem Keeps.startTraining {p lanes : Nat} (h : Keeps κ s₀ s) : Keeps κ s₀ (s.startTraining p lanes) :=
  h.put.put.put.setPort

theorem Keeps.trainFail {p : Nat} (h : Keeps κ s₀ s) : Keeps κ s₀ (s.trainFail p) :=
  h.setPort.ev

theorem execSignalDetect_answers {port : Fin 32} {lanes : Nat} (h : Keeps κ s₀ s) :
    Answers κ s₀ (execSignalDetect port lanes s) :=
  ⟨_, rfl, h.whenOn (.ite (.ite h.startTraining h) h)⟩

theorem Keeps.trained {p : Nat} (h : Keeps κ s₀ s) : Keeps κ s₀ (s.trained p) :=
  .portUp (.ev (.ite h.setPort.put.put.put h.setPort.put))

theorem Keeps.memberUp {p : Nat} (h : Keeps κ s₀ s) : Keeps κ s₀ (s.memberUp p) :=
  .ite h (.ite h.const.put.put.put.put.put h.const.put.put.put)

theorem execTrainingStepDone_answers {port : Fin 32} {lanes : Nat} (h : Keeps κ s₀ s) :
    Answers κ s₀ (execTrainingStepDone port lanes s) :=
  ⟨_, rfl, h.whenOn (.ite h (.ite (.ite h.setPort.trainFail (.ite h.setPort (.ite h.setPort.trained h.setPort.emit)))
    (.ite h.trained.memberUp h)))⟩

theorem execTrainingStepTimeout_answers {port : Fin 32} (h : Keeps κ s₀ s) :
    Answers κ s₀ (execTrainingStepTimeout port s) :=
  ⟨_, rfl, h.whenOn (.ite h.trainFail h)⟩

theorem Keeps.matchMember {p peer byte5 tag strap : Nat} (h : Keeps κ s₀ s) :
    Keeps κ s₀ (s.matchMember p peer byte5 tag strap) :=
  .ite h.put (.ite h.const.put h.put.ev)

theorem execTrain_answers {port : Fin 32} {payload : List Byte} (h : Keeps κ s₀ s) :
    Answers κ s₀ (execTrain port payload s) :=
  ⟨_, rfl, h.whenOn (.ite h (.ite h.put.ev (.ite h.setPort.trainFail h.setPort.put.put.matchMember)))⟩

theorem Keeps.quarantine {p : Nat} (h : Keeps κ s₀ s) : Keeps κ s₀ (s.quarantine p) :=
  h.put.put.setPort.resendAll.ev

theorem Keeps.enterState {p target : Nat} (h : Keeps κ s₀ s) : Keeps κ s₀ (s.enterState p target) :=
  .ite h.quarantine h.setPort.put

theorem Keeps.changeTo {p target : Nat} (h : Keeps κ s₀ s) : Keeps κ s₀ (s.changeTo p target) :=
  .ite h.setPort h.enterState

theorem execC0MoveComplete_answers {port : Fin 32} (h : Keeps κ s₀ s) : Answers κ s₀ (execC0MoveComplete port s) := by
  unfold execC0MoveComplete
  refine ⟨_, rfl, h.whenOn ?_⟩
  split
  · exact h.moveC0.enterState
  · exact h

theorem Keeps.errActions {p old : Nat} (h : Keeps κ s₀ s) : Keeps κ s₀ (s.errActions p old) :=
  .ite h (.ite (.changeTo (.ite h.setPort.evLim h))
    (.ite (.changeTo (.setPort (.ite h.setPort.evLim h))) (.ite h.setPort.evLim h)))

theorem Keeps.raiseErr {p : Nat} {f : Fld} {n : Nat} (h : Keeps κ s₀ s) : Keeps κ s₀ (s.raiseErr p f n) :=
  h.inc.errActions

theorem execErrCounterDecay_answers {port : Fin 32} (h : Keeps κ s₀ s) : Answers κ s₀ (execErrCounterDecay port s) :=
  ⟨_, rfl, h.whenOn (.ite h (.ite h.put.put.setPort h.put.put))⟩

theorem Keeps.linkAck {p ack : Nat} (h : Keeps κ s₀ s) : Keeps κ s₀ (s.linkAck p ack) :=
  h.setPort.pump

theorem Keeps.replayOut {p : Nat} (h : Keeps κ s₀ s) : Keeps κ s₀ (s.replayOut p) :=
  h.setPort.emits.inc

theorem Keeps.replay {p : Nat} (h : Keeps κ s₀ s) : Keeps κ s₀ (s.replay p) :=
  .ite h (.ite h.replayOut.raiseErr.setPort.changeTo h.replayOut.raiseErr)

theorem Keeps.linkNak {p ack : Nat} (h : Keeps κ s₀ s) : Keeps κ s₀ (s.linkNak p ack) :=
  h.linkAck.replay

theorem execLinkAck_answers {port : Fin 32} {ack : Nat} (h : Keeps κ s₀ s) : Answers κ s₀ (execLinkAck port ack s) :=
  ⟨_, rfl, h.whenOn (.ite h.linkAck h)⟩

theorem execLinkNak_answers {port : Fin 32} {ack : Nat} (h : Keeps κ s₀ s) : Answers κ s₀ (execLinkNak port ack s) :=
  ⟨_, rfl, h.whenOn (.ite h.linkNak h)⟩

theorem execReplayTimerExpire_answers {port : Fin 32} (h : Keeps κ s₀ s) :
    Answers κ s₀ (execReplayTimerExpire port s) :=
  ⟨_, rfl, h.whenOn (.ite h.replay h)⟩

theorem execCalibrationDue_answers {port : Fin 32} (h : Keeps κ s₀ s) : Answers κ s₀ (execCalibrationDue port s) :=
  ⟨_, rfl, h.whenOn (.ite h.changeTo h)⟩

theorem execCalibrationDone_answers {port : Fin 32} (h : Keeps κ s₀ s) : Answers κ s₀ (execCalibrationDone port s) :=
  ⟨_, rfl, h.whenOn (.ite h.portUp h)⟩

theorem execRetrainDone_answers {port : Fin 32} {lanes : Nat} (h : Keeps κ s₀ s) :
    Answers κ s₀ (execRetrainDone port lanes s) :=
  ⟨_, rfl, h.whenOn (.ite h (.ite h.quarantine
    (.portUp (.replayOut (.ite (.ev (.ite (.inc (.put (.setPort (.ite h.useFree h))))
    (.put (.setPort (.ite h.useFree h))))) (.put (.setPort (.ite h.useFree h))))))))⟩

theorem execLaneSignalLost_answers {port : Fin 32} {lane : Fin 4} (h : Keeps κ s₀ s) :
    Answers κ s₀ (execLaneSignalLost port lane s) :=
  ⟨_, rfl, h.whenOn (.ite (.ite h (.ite h.changeTo (.ite (.ite h.setPort.changeTo h) h.setPort.put)))
    (.ite (.ite h.setPort.trainFail h.setPort) h))⟩

theorem Keeps.portOut {p target : Nat} (h : Keeps κ s₀ s) : Keeps κ s₀ (s.portOut p target) :=
  h.moveC0.put.put.put.setPort.resendAll

theorem execSignalLost_answers {port : Fin 32} (h : Keeps κ s₀ s) : Answers κ s₀ (execSignalLost port s) :=
  ⟨_, rfl, h.whenOn (.ite h h.portOut)⟩

theorem Keeps.applyRole {p role : Nat} (h : Keeps κ s₀ s) : Keeps κ s₀ (s.applyRole p role) :=
  .ite h (.put (.put (.ite h.put h.portOut)))

theorem execPortRetrain_answers {path : Path} {port : Fin 32} (h : Keeps κ s₀ s) :
    Answers κ s₀ (execPortRetrain path port s) :=
  ⟨_, rfl, h.ctrl (.ite h.setPort.changeTo (.ite h.startTraining h))⟩

theorem execPortClear_answers {path : Path} {port : Fin 32} (h : Keeps κ s₀ s) :
    Answers κ s₀ (execPortClear path port s) :=
  ⟨_, rfl, h.ctrl (.ite h.put.put.setPort.startTraining (.ite h.put.put.setPort.setPort.changeTo h.put.put.setPort))⟩

theorem execPortCalibrate_answers {path : Path} {port : Fin 32} (h : Keeps κ s₀ s) :
    Answers κ s₀ (execPortCalibrate path port s) :=
  ⟨_, rfl, h.ctrl (.ite h.changeTo h)⟩

theorem Keeps.portDrain {p : Nat} (h : Keeps κ s₀ s) : Keeps κ s₀ (s.portDrain p) :=
  .ite h h.put.moveC0.setPort.put.resendAll

theorem Keeps.portDrained {p : Nat} (h : Keeps κ s₀ s) : Keeps κ s₀ (s.portDrained p) :=
  .ite h.put.next.put.setPort h

theorem execPortDrainComplete_answers {port : Fin 32} (h : Keeps κ s₀ s) :
    Answers κ s₀ (execPortDrainComplete port s) :=
  ⟨_, rfl, h.whenOn h.portDrained⟩

theorem execRouteFlip_answers {path : Path} (h : Keeps κ s₀ s) : Answers κ s₀ (execRouteFlip path s) :=
  ⟨_, rfl, h.ctrl h.put⟩

theorem Keeps.routeFlipAt (h : Keeps κ s₀ s) : Keeps κ s₀ s.routeFlipAt :=
  .ite h h.put.put.ev.retryPorts

theorem execPortQueueWaitExpire_answers {port : Fin 32} (h : Keeps κ s₀ s) :
    Answers κ s₀ (execPortQueueWaitExpire port s) := by
  unfold execPortQueueWaitExpire
  refine ⟨_, rfl, h.whenLive (.ite h ?_)⟩
  split
  · exact h
  · exact h.setPort.inc.handOnAll

theorem execPriorityFlowControlFrame_answers {port : Fin 32} {cls pauses : Nat} {pfc : Bool} (h : Keeps κ s₀ s) :
    Answers κ s₀ (execPriorityFlowControlFrame port cls pauses pfc s) :=
  ⟨_, rfl, h.whenOn (.ite h.setPort.pump h)⟩

theorem execEthernetResendTimer_answers {port : Fin 32} {unit txn : Nat} (h : Keeps κ s₀ s) :
    Answers κ s₀ (execEthernetResendTimer port unit txn s) := by
  unfold execEthernetResendTimer
  refine ⟨_, rfl, h.whenOn ?_⟩
  split
  · exact h
  · exact .ite h (.ite h.setPort (.ite h.setPort.inc.handOn h.setPort.emit.raiseErr))

theorem Keeps.applySlice {k : Nat} (h : Keeps false s₀ s) : Keeps false s₀ (s.applySlice k) := by
  unfold State.applySlice
  split
  · exact h
  · exact .ite h (.put (.put (.ite (.clearSlice (.ite (.foldl (fun _ _ h => h.lineOp) h) h))
      (.ite (.foldl (fun _ _ h => h.lineOp) h) h))))

theorem Keeps.applyTile {l : Nat} (h : Keeps κ s₀ s) : Keeps κ s₀ (s.applyTile l) := by
  unfold State.applyTile
  refine .ite h ?_
  split <;> exact h.put.put

theorem Keeps.countPart {p : Nat} (h : Keeps κ s₀ s) : Keeps κ s₀ (s.countPart p) :=
  h.put.put.put

theorem Keeps.activate (h : Keeps false s₀ s) : Keeps false s₀ s.activate :=
  .foldl (fun _ _ h => h.refreshUse) (.foldl (fun _ _ h => h.applyRole)
    (.foldl (fun _ _ h => h.endWaits.resetStream)
    (.foldl (fun _ _ h => h.put) (.foldl (fun _ _ h => h.countPart)
    (.foldl (fun _ _ h => h.applyTile) (.foldl (fun _ _ h => h.applySlice)
    (.put (.cfg (.foldl (fun _ _ h => h.wr) h)))))))))

theorem Keeps.setSlot {k : Nat} {x : AlmSlot} (h : Keeps κ s₀ s) : Keeps κ s₀ (s.setSlot k x) :=
  h.cfg

theorem Keeps.nameActive {k : Nat} (h : Keeps κ s₀ s) : Keeps κ s₀ (s.nameActive k) :=
  .ite h (.ite (.put (.put (.put (.put (.setSlot
    (.ite (.setSlot (.foldl (fun _ _ h => .ite h.setSlot h) h)) (.foldl (fun _ _ h => .ite h.setSlot h) h)))))))
    (.put (.put (.put (.setSlot (.ite (.setSlot (.foldl (fun _ _ h => .ite h.setSlot h) h))
    (.foldl (fun _ _ h => .ite h.setSlot h) h)))))))

theorem Keeps.setVolatile (h : Keeps κ s₀ s) : Keeps κ s₀ s.setVolatile :=
  h.put

theorem Keeps.applyCommit (h : Keeps false s₀ s) : Keeps false s₀ s.applyCommit := by
  unfold State.applyCommit
  split
  · exact h
  · refine .releaseHeld (.cfgDone (.closeSession
      (.ev (.setVolatile (.ite h.activate.cfg.next.put.cfg (.ite h.activate.cfg.next.put.cfg ?_))))))
    split
    · exact h.activate.cfg.next.nameActive
    · exact h.activate.cfg.next

theorem Keeps.abandonFor {cause : Nat} (h : Keeps κ s₀ s) : Keeps κ s₀ (s.abandonFor cause) :=
  .ite h.abandonCommit.closeSession.cfg h.abandonCommit.put

theorem Keeps.voteOutcome {p : Nat} {b : Barrier} (h : Keeps false s₀ s) : Keeps false s₀ (s.voteOutcome p b) := by
  unfold State.voteOutcome
  split
  · exact .ite h (.ite h.applyCommit h.abandonFor)
  · exact h

theorem Keeps.ckptEnd {n : Nat} {st : Status} (h : Keeps κ s₀ s) : Keeps κ s₀ (s.ckptEnd n st) :=
  h.setFn

theorem Keeps.orphanCkpt {n : Nat} (h : Keeps false s₀ s) : Keeps false s₀ (s.orphanCkpt n) := by
  unfold State.orphanCkpt
  dsimp only
  refine .ite h ?_
  split
  · split
    · exact h.setFn.ckptEnd
    · split
      · exact (h.setFn.fileSend.of_eq ‹_›).ckptEnd
      · exact h.setFn.fileSend.of_eq ‹_›
  · exact h

theorem Keeps.orphanCkpts (h : Keeps false s₀ s) : Keeps false s₀ s.orphanCkpts :=
  .foldl (fun _ _ h => h.orphanCkpt) h

theorem Keeps.resolveStep {p n outcome : Nat} (h : Keeps false s₀ s) : Keeps false s₀ (s.resolveStep p n outcome) :=
  .orphanCkpts (.arriveLater (.ite (.freeRecs (.unpin
    (.drainStreams (.put (.put (.setCommit (.ite (.haloCommit (.orrCommit (.ite h.put.put.put h.put.put.inc)))
    (.haloSkip (.orrSkip (.ite h.put.put.put h.put.put.inc))))))))))
    (.ev (.freeRecs (.unpin (.drainStreams (.put
    (.put (.setCommit (.ite (.haloCommit (.orrCommit (.ite h.put.put.put h.put.put.inc)))
    (.haloSkip (.orrSkip (.ite h.put.put.put h.put.put.inc)))))))))))))

theorem Keeps.verdictArrive {p : Nat} {late : Bool} (h : Keeps false s₀ s) : Keeps false s₀ (s.verdictArrive p late) :=
  .ite h h.setCommit.arrive

theorem Keeps.compared {r : JRec} {agree nonfinite : Bool} (h : Keeps false s₀ s) :
    Keeps false s₀ (s.compared r agree nonfinite) :=
  .ite h.mapRec.setCommit.evS.inc (.ite h.mapRec.setCommit.evS.inc.faultAt.retireTile
    h.mapRec.setCommit.evS.inc.faultAt)

theorem Keeps.enterVerdict {p : Nat} (h : Keeps false s₀ s) : Keeps false s₀ (s.enterVerdict p) :=
  .verdictArrive (.foldl (fun _ _ h => .ite h.compared h.mapRec) h.inc.setCommit)

theorem execParallaxReplayComplete_answers {q : Fin 4} {p : Fin 128} {l : Fin 8} {seq digest : Nat} {status : Status}
    (h : Keeps false s₀ s) :
    Answers false s₀ (execParallaxReplayComplete q p l seq digest status s) := by
  unfold execParallaxReplayComplete
  refine ⟨_, rfl, .ite ?_ h⟩
  split
  · exact h.inc.compared.verdictArrive
  · exact h

theorem execParallaxWindowExpire_answers {p : Fin 128} (h : Keeps false s₀ s) :
    Answers false s₀ (execParallaxWindowExpire p s) :=
  ⟨_, rfl, .ite h.verdictArrive h⟩

theorem Keeps.jobRelease {p : Nat} (h : Keeps false s₀ s) : Keeps false s₀ (s.jobRelease p) := by
  unfold State.jobRelease
  refine .finishBarrier (.ite ?_ (.ite h.setBarrier.put.ev.resolveStep (.ite h.setBarrier.voteOutcome h.setBarrier)))
  split
  · exact h.setBarrier.put.resolveStep
  · exact h.setBarrier.put.enterVerdict

theorem execCheckBarrierRelease_answers {p : Fin 128} (h : Keeps false s₀ s) :
    Answers false s₀ (execCheckBarrierRelease p s) :=
  ⟨_, rfl, .ite h.jobRelease h⟩

theorem execVerdictRelease_answers {p : Fin 128} (h : Keeps false s₀ s) : Answers false s₀ (execVerdictRelease p s) :=
  ⟨_, rfl, .ite h.jobRelease h⟩

theorem Keeps.abandon {b : Barrier} (h : Keeps false s₀ s) : Keeps false s₀ (s.abandon b) :=
  .finishBarrier (.ite (.resolveStep (.setBarrier (.foldl (fun _ _ h => h.accuse) h.ev)))
    (.setBarrier (.foldl (fun _ _ h => h.accuse) h.ev)))

theorem execMeridianTimeout_answers {p : Fin 128} {scope : Fin 3} (h : Keeps false s₀ s) :
    Answers false s₀ (execMeridianTimeout p scope s) :=
  ⟨_, rfl, .ite h.abandon h⟩

theorem execDimTokenSend_answers {p : Fin 128} (h : Keeps κ s₀ s) : Answers κ s₀ (execDimTokenSend p s) :=
  ⟨_, rfl, .ite h.sendMer h⟩

theorem Keeps.onMeridian {port : Nat} {k : Packet} (h : Keeps false s₀ s) : Keeps false s₀ (s.onMeridian port k) := by
  unfold State.onMeridian
  dsimp only
  split
  · exact .ite h h.setBarrier.arrive
  · exact .ite h (.ite (.jobRelease (.evEvery (.inc (.foldl (fun _ _ h => h.sendMer) h.setBarrier))))
      (.foldl (fun _ _ h => h.sendMer) h.setBarrier))
  · exact .ite h (.ite h.setBarrier.arrive h.setBarrier.arrive.arrive)
  · exact .ite h.setBarrier h
  · exact h

theorem Keeps.levelEvent {k was now temp : Nat} (h : Keeps κ s₀ s) : Keeps κ s₀ (s.levelEvent k was now temp) :=
  h.evS

theorem Keeps.levelUp {k temp n : Nat} (h : Keeps κ s₀ s) : Keeps κ s₀ (s.levelUp k temp n) := by
  induction n generalizing s with
  | zero => exact h
  | succ n ih => exact .ite (ih h.put.levelEvent) h

theorem Keeps.levelDown {k temp n : Nat} (h : Keeps κ s₀ s) : Keeps κ s₀ (s.levelDown k temp n) := by
  induction n generalizing s with
  | zero => exact h
  | succ n ih => exact .ite (ih h.put.levelEvent) h

theorem Keeps.enterT3 {k : Nat} (h : Keeps κ s₀ s) : Keeps κ s₀ (s.enterT3 k) :=
  h.put.next.next.setStk.haloOps

theorem Keeps.leaveT3 {k temp : Nat} (h : Keeps false s₀ s) : Keeps false s₀ (s.leaveT3 k temp) :=
  h.put.put.levelEvent.setStk.ev.rowsMoved.orrRetry

theorem execStackTempSample_answers {k : Fin 12} {temp : Nat} (h : Keeps false s₀ s) :
    Answers false s₀ (execStackTempSample k temp s) :=
  ⟨_, rfl, .ite (.ite h.put (.ite (.ite h.put.leaveT3.levelDown h.put)
    (.ite (.enterT3 (.ite h.put.levelUp h.put.levelUp.levelDown)) (.ite h.put.levelUp h.put.levelUp.levelDown)))) h⟩

theorem execT3HoldExpire_answers {k : Fin 12} (h : Keeps κ s₀ s) : Answers κ s₀ (execT3HoldExpire k s) := by
  unfold execT3HoldExpire
  refine ⟨_, rfl, .ite ?_ h⟩
  split
  · exact .ite h.put.setStk.ev.emit h
  · exact h

end Sys2Proof.Machine

end


section
/-!
PROOFS. What every step keeps: collectives, constellations and packets.
-/

namespace Sys2Proof.Machine

open Sys2Proof

variable {κ : Bool} {s₀ s t : State}

theorem Keeps.setGroup {g : Group} (h : Keeps κ s₀ s) : Keeps κ s₀ (s.setGroup g) :=
  h.coll

theorem Keeps.setColl {o : CollOp} (h : Keeps κ s₀ s) : Keeps κ s₀ (s.setColl o) :=
  h.coll

theorem Keeps.countGroups {q : Nat} (h : Keeps κ s₀ s) : Keeps κ s₀ (s.countGroups q) :=
  h.put

theorem Keeps.dropGroup {g : Group} (h : Keeps κ s₀ s) : Keeps κ s₀ (s.dropGroup g) :=
  h.coll.countGroups

theorem Keeps.collSend {g : Group} {cls rank : Nat} {dim : Bool} {seq : Nat} {payload : List Byte}
    (h : Keeps κ s₀ s) :
    Keeps κ s₀ (s.collSend g cls rank dim seq payload) :=
  .ite h h.request.inc

theorem Keeps.opSend {g : Group} {o : CollOp} {rank kind seg src span first : Nat} {dim : Bool} {st : Nat}
    {body : List Byte} (h : Keeps κ s₀ s) :
    Keeps κ s₀ (s.opSend g o rank kind seg src span first dim st body) :=
  h.collSend

theorem Keeps.opCast {g : Group} {o : CollOp} {kind : Nat} {dim : Bool} {st : Nat} (h : Keeps κ s₀ s) :
    Keeps κ s₀ (s.opCast g o kind dim st) :=
  .foldl (fun _ _ h => h.opSend) h

theorem Keeps.sendPart {g : Group} {o : CollOp} {rank kind : Nat} {p : CPart} (h : Keeps κ s₀ s) :
    Keeps κ s₀ (s.sendPart g o rank kind p) :=
  .foldl (fun _ _ h => h.opSend) h

theorem Keeps.castPart {g : Group} {o : CollOp} {kind : Nat} {p : CPart} (h : Keeps κ s₀ s) :
    Keeps κ s₀ (s.castPart g o kind p) :=
  .foldl (fun _ _ h => .ite h h.sendPart) h

theorem Keeps.collRecord {o : CollOp} {st : Status} {e : Entry} {i : Nat} (h : Keeps false s₀ s) :
    Keeps false s₀ (s.collRecord o st e i) :=
  .ite h.complete.signal h.complete

theorem Keeps.collSettle {n q c op : Nat} (h : Keeps false s₀ s) : Keeps false s₀ (s.collSettle n q c op) := by
  induction n generalizing s with
  | zero => exact h
  | succ n ih =>
    unfold State.collSettle
    split
    · split
      · exact ih (.foldl (fun _ _ h => h.collRecord) h.coll)
      · exact h
    · exact h

theorem Keeps.tryDestroy {q c gid : Nat} (h : Keeps false s₀ s) : Keeps false s₀ (s.tryDestroy q c gid) := by
  unfold State.tryDestroy
  split
  · split
    · exact .ite h h.dropGroup.complete
    · exact h
  · exact h

theorem Keeps.collEnd {o : CollOp} {st : Status} (h : Keeps false s₀ s) : Keeps false s₀ (s.collEnd o st) :=
  h.setColl.collSettle.tryDestroy.arriveLater

theorem Keeps.collFail {g : Group} {o : CollOp} {st : Status} (h : Keeps false s₀ s) :
    Keeps false s₀ (s.collFail g o st) :=
  h.opCast.collEnd

theorem Keeps.segBad {o : CollOp} {seg : Nat} (h : Keeps κ s₀ s) : Keeps κ s₀ (s.segBad o seg) :=
  h.evLim

theorem Keeps.collRead {ctx i : Nat} {e : Entry} {n : Nat} (h : Keeps false s₀ s) :
    Keeps false s₀ (s.collRead ctx i e n).1 := by
  unfold State.collRead
  dsimp only
  split <;> exact h.haloFetch.of_eq ‹_›

theorem Keeps.collWrite {ctx : Nat} {e : Entry} {off step : Nat} {codes : List Nat} (h : Keeps false s₀ s) :
    Keeps false s₀ (s.collWrite ctx e off step codes) :=
  .ite h.haloOut h.haloOut

theorem Keeps.byteWrite {ctx : Nat} {e : Entry} {blk step : Nat} {bs : List Byte} (h : Keeps false s₀ s) :
    Keeps false s₀ (s.byteWrite ctx e blk step bs) := by
  unfold State.byteWrite
  refine .foldl (fun _ _ h => ?_) h
  split
  · exact .setBlock (.ite h.recallWrite h)
  · exact h

theorem Keeps.readSet {g : Group} {o : CollOp} (h : Keeps false s₀ s) : Keeps false s₀ (s.readSet g o).1 :=
  .foldlFst (fun _ _ h => h.collRead) h

theorem Keeps.tokenRows {ctx i : Nat} {e : Entry} {n : Nat} (h : Keeps false s₀ s) :
    Keeps false s₀ (s.tokenRows ctx i e n).1 := by
  unfold State.tokenRows
  dsimp only
  split <;> exact h.haloFetch.of_eq ‹_›

theorem Keeps.collContrib {g : Group} {o : CollOp} (h : Keeps false s₀ s) : Keeps false s₀ (s.collContrib g o).1 :=
  .iteFst h.readSet (.iteFst h.readSet (.iteFst h.readSet
    (.iteFst h.haloFetch.haloFetch (.iteFst (.iteFst h.tokenRows h.tokenRows) h))))

theorem Keeps.reduceSeg {g : Group} {o : CollOp} {seg : Nat} (h : Keeps κ s₀ s) : Keeps κ s₀ (s.reduceSeg g o seg).1 :=
  .iteFst h (.iteFst (.castPart (.setColl (.foldl (fun _ _ h => .ite h.evLim h) h)))
    (.castPart (.setColl (.ite h.addFree h))))

theorem Keeps.reduceStep {g : Group} {o : CollOp} (h : Keeps false s₀ s) : Keeps false s₀ (s.reduceStep g o) := by
  unfold State.reduceStep
  dsimp only
  split
  · exact .foldlFst (fun _ _ h => h.reduceSeg) h
  · exact .ite (.collEnd (.foldlFst (fun _ _ h => h.reduceSeg) h))
      (.collEnd (.foldl (fun _ _ h => h.collWrite) (.foldlFst (fun _ _ h => h.reduceSeg) h)))

theorem Keeps.copyStep {g : Group} {o : CollOp} (h : Keeps false s₀ s) : Keeps false s₀ (s.copyStep g o) := by
  unfold State.copyStep
  dsimp only
  split
  · exact h
  · exact .collEnd (.foldl (fun _ _ h => h.collWrite) h)

theorem Keeps.anyStep {g : Group} {o : CollOp} (h : Keeps false s₀ s) : Keeps false s₀ (s.anyStep g o) := by
  unfold State.anyStep
  split
  · exact h
  · refine .ite h.collFail (.ite (.collFail (.iteFst h h.setColl.castPart)) ?_)
    split
    · exact .iteFst h h.setColl.castPart
    · exact .collEnd (.byteWrite (.byteWrite (.inc
        (.addFree (.foldl (fun _ _ h => .ite h.evLim h) (.iteFst h h.setColl.castPart))))))

theorem Keeps.tokenHome {g : Group} {o : CollOp} {msgs : List (List Byte)} (h : Keeps false s₀ s) :
    Keeps false s₀ (s.tokenHome g o msgs).1 :=
  .foldl (fun _ _ h => .ite h (.foldl (fun _ _ h => h.sendPart) h)) h.byteWrite.coll.setColl

theorem Keeps.tokenStep {g : Group} {o : CollOp} (h : Keeps false s₀ s) : Keeps false s₀ (s.tokenStep g o) := by
  unfold State.tokenStep
  dsimp only
  split
  · exact h
  · refine .ite h.byteWrite.collEnd ?_
    split
    · exact .iteFst h h.tokenHome
    · refine .collEnd (.ite (.foldl (fun _ _ h => ?_) (.iteFst h h.tokenHome))
        (.evEvery (.foldl (fun _ _ h => ?_) (.iteFst h h.tokenHome))))
      · split
        · exact h.extWrite
        · exact h
      · split
        · exact h.extWrite
        · exact h

theorem Keeps.collStep {g : Group} {seq : Nat} (h : Keeps false s₀ s) : Keeps false s₀ (s.collStep g seq) := by
  unfold State.collStep
  split
  · exact h
  · exact .ite h (.ite h.reduceStep (.ite h.copyStep (.ite h.anyStep h.tokenStep)))

theorem Keeps.takeParts {o : CollOp} {kind : Nat} {ps : List CPart} (h : Keeps κ s₀ s) :
    Keeps κ s₀ (s.takeParts o kind ps).1 :=
  .foldlFst (fun _ _ h => .iteFst (.ite h.inc h) (.iteFst (.ite h.inc h) h)) h

theorem Keeps.partBad {g : Group} {o : CollOp} {p : Packet} (h : Keeps false s₀ s) :
    Keeps false s₀ (s.partBad g o p) :=
  .ite h.segBad.collFail h.setColl.opSend.inc

theorem Keeps.collResend {g : Group} {o : CollOp} {p : Packet} (h : Keeps false s₀ s) :
    Keeps false s₀ (s.collResend g o p) :=
  .ite (.foldl (fun _ _ h => h.sendPart) h.setColl) (.foldl (fun _ _ h => h.sendPart) h.setColl.collContrib)

theorem Keeps.collTake {g : Group} {o : CollOp} {p : Packet} (h : Keeps false s₀ s) :
    Keeps false s₀ (s.collTake g o p) := by
  unfold State.collTake
  refine .ite (.ite h.setColl h) (.ite h.collResend (.ite h.collEnd (.ite h.ev.collEnd ?_)))
  split
  · exact h.partBad
  · exact h.addFree.takeParts.setColl.collStep

theorem Keeps.takeEarly {g : Group} {seq : Nat} (h : Keeps false s₀ s) : Keeps false s₀ (s.takeEarly g seq) := by
  unfold State.takeEarly
  refine .foldl (fun _ _ h => ?_) h.coll
  split
  · exact h.collTake
  · exact h

theorem Keeps.collBegin {g : Group} {seq : Nat} (h : Keeps false s₀ s) : Keeps false s₀ (s.collBegin g seq) := by
  unfold State.collBegin
  split
  · exact h
  · exact .ite h.setColl.collContrib.segBad.collFail
      (.collStep (.takeEarly (.foldl (fun _ _ h => h.sendPart) h.setColl.collContrib.takeParts.setColl)))

theorem Keeps.collRun {q c : Nat} {words : List Entry} {indices : List Nat} (h : Keeps false s₀ s) :
    Keeps false s₀ (s.collRun q c words indices) := by
  unfold State.collRun
  dsimp only
  split
  · exact .foldl (fun _ _ h => h.complete) h
  · exact .ite (.foldl (fun _ _ h => h.deferRec) h.setGroup.coll) h.setGroup.coll.collBegin

theorem Keeps.collLists {g : Group} {i : Nat} {e : Entry} (h : Keeps false s₀ s) :
    Keeps false s₀ (s.collLists g i e).1 :=
  .iteFst h.haloFetch.haloFetch (.iteFst (.iteFst h h.haloFetch.haloFetch) h)

theorem Keeps.collRanges {g : Group} {i : Nat} {e : Entry} (h : Keeps false s₀ s) :
    Keeps false s₀ (s.collRanges g i e).1 :=
  .iteFst h (.collLists (.iteFst h.haloFetch h.haloFetch.haloDest))

theorem Keeps.closeFused {q c : Nat} (h : Keeps false s₀ s) : Keeps false s₀ (s.closeFused q c) := by
  unfold State.closeFused
  split
  · exact h.coll.collRun
  · exact h

theorem Keeps.collPost {q c i : Nat} {e : Entry} (h : Keeps false s₀ s) : Keeps false s₀ (s.collPost q c i e) := by
  unfold State.collPost
  split
  · exact .ite h.coll h.coll.closeFused
  · exact .ite h.coll h.collRun

theorem Keeps.closeUnfit {q c : Nat} {ok : Bool} {e : Entry} (h : Keeps false s₀ s) :
    Keeps false s₀ (s.closeUnfit q c ok e) := by
  unfold State.closeUnfit
  split
  · exact .ite h h.closeFused
  · exact h

theorem Keeps.groupEnd {g : Group} {st : Status} (h : Keeps false s₀ s) : Keeps false s₀ (s.groupEnd g st) :=
  .complete (.ite h.setGroup.countGroups h.dropGroup.ev)

theorem Keeps.groupAnswer {g : Group} {st : Status} (h : Keeps false s₀ s) : Keeps false s₀ (s.groupAnswer g st) :=
  .groupEnd (.foldl (fun _ _ h => h.collSend) h)

theorem Keeps.groupDecide {q c gid : Nat} (h : Keeps false s₀ s) : Keeps false s₀ (s.groupDecide q c gid) := by
  unfold State.groupDecide
  split
  · exact .ite h h.groupAnswer
  · exact h

theorem Keeps.takeCrc {g : Group} {rank crc : Nat} (h : Keeps false s₀ s) : Keeps false s₀ (s.takeCrc g rank crc) :=
  .ite h h.setGroup.groupDecide

theorem Keeps.earlyCrcs {g : Group} (h : Keeps false s₀ s) : Keeps false s₀ (s.earlyCrcs g) := by
  unfold State.earlyCrcs
  refine .foldl (fun _ _ h => ?_) h.coll
  split
  · exact h.takeCrc
  · exact h

theorem Keeps.groupCreate {q c i : Nat} {e : Entry} (h : Keeps false s₀ s) : Keeps false s₀ (s.groupCreate q c i e) := by
  unfold State.groupCreate
  extract_lets u ctx fail read
  have hread (t : State) (n : Nat) (ht : Keeps false s₀ t) : Keeps false s₀ (read t n).1 := by
    dsimp only [read]
    split
    · exact ht.recallExt
    · exact ht
    · exact ht.violate
  clear_value read
  split <;> have h₁ := (hread _ _ h).of_eq ‹_›
  · exact h₁.complete
  · refine .ite h₁.complete ?_
    split <;> have h₂ := (hread _ _ h₁).of_eq ‹_›
    · exact h₂.complete
    · refine .ite h₂.complete (.ite h₂.complete (.ite ?_ h₂.coll.collSend))
      dsimp only
      split
      · exact h₂.coll.takeCrc.earlyCrcs
      · exact h₂.coll.takeCrc

theorem Keeps.groupDestroy {q c i gid : Nat} (h : Keeps false s₀ s) : Keeps false s₀ (s.groupDestroy q c i gid) := by
  unfold State.groupDestroy
  split
  · exact h.setGroup.tryDestroy
  · exact h

theorem Keeps.collHead {q c op : Nat} (h : Keeps false s₀ s) : Keeps false s₀ (s.collHead q c op) := by
  unfold State.collHead
  dsimp only
  refine .ite h ?_
  split
  · exact .ite h.headOutside h
  · refine .ite h (.ite h.closeUnfit.take.complete (.ite h (.ite h.closeUnfit.take.groupCreate ?_)))
    split
    · exact h
    · refine .ite h (.ite h.closeUnfit.take.groupDestroy ?_)
      split
      · exact h
      · exact h.closeUnfit.take.complete
      · split
        · exact (h.take.closeUnfit.collRanges.of_eq ‹_›).collPost
        · exact (h.take.closeUnfit.collRanges.of_eq ‹_›).closeUnfit.complete

theorem execAllReduce_answers {q : Fin 4} {c : Fin 16} (h : Keeps false s₀ s) :
    Answers false s₀ (execAllReduce q c s) :=
  ⟨_, rfl, h.collHead⟩

theorem execReduceScatter_answers {q : Fin 4} {c : Fin 16} (h : Keeps false s₀ s) :
    Answers false s₀ (execReduceScatter q c s) :=
  ⟨_, rfl, h.collHead⟩

theorem execAllGather_answers {q : Fin 4} {c : Fin 16} (h : Keeps false s₀ s) :
    Answers false s₀ (execAllGather q c s) :=
  ⟨_, rfl, h.collHead⟩

theorem execAllToAll_answers {q : Fin 4} {c : Fin 16} (h : Keeps false s₀ s) : Answers false s₀ (execAllToAll q c s) :=
  ⟨_, rfl, h.collHead⟩

theorem execBroadcast_answers {q : Fin 4} {c : Fin 16} (h : Keeps false s₀ s) :
    Answers false s₀ (execBroadcast q c s) :=
  ⟨_, rfl, h.collHead⟩

theorem execAnyToHome_answers {q : Fin 4} {c : Fin 16} (h : Keeps false s₀ s) :
    Answers false s₀ (execAnyToHome q c s) :=
  ⟨_, rfl, h.collHead⟩

theorem execTokenRoute_answers {q : Fin 4} {c : Fin 16} (h : Keeps false s₀ s) :
    Answers false s₀ (execTokenRoute q c s) :=
  ⟨_, rfl, h.collHead⟩

theorem execGroupCreate_answers {q : Fin 4} {c : Fin 16} (h : Keeps false s₀ s) :
    Answers false s₀ (execGroupCreate q c s) :=
  ⟨_, rfl, h.collHead⟩

theorem execGroupDestroy_answers {q : Fin 4} {c : Fin 16} (h : Keeps false s₀ s) :
    Answers false s₀ (execGroupDestroy q c s) :=
  ⟨_, rfl, h.collHead⟩

theorem execGroupTimeoutExpire_answers {q : Fin 4} {c : Fin 16} {gid : Nat} (h : Keeps false s₀ s) :
    Answers false s₀ (execGroupTimeoutExpire q c gid s) := by
  unfold execGroupTimeoutExpire
  refine ⟨_, rfl, h.whenLive ?_⟩
  split
  · exact .ite h (.ite h.groupAnswer h.groupEnd)
  · exact h

theorem execFusionWatchdogExpire_answers {q : Fin 4} {c : Fin 16} (h : Keeps false s₀ s) :
    Answers false s₀ (execFusionWatchdogExpire q c s) := by
  unfold execFusionWatchdogExpire
  refine ⟨_, rfl, h.whenLive ?_⟩
  split
  · exact .foldl (fun _ _ h => h.complete) h.coll
  · exact h

theorem Keeps.onColl {p : Packet} (h : Keeps false s₀ s) : Keeps false s₀ (s.onColl p) := by
  unfold State.onColl
  split
  · exact h.answerStatus
  · refine .ite h.answerStatus (.ite h.answerStatus.coll ?_)
    split
    · exact h.answerStatus.coll
    · refine .ite (.ite h.answerStatus.takeCrc (.ite h.answerStatus.groupEnd h.answerStatus)) ?_
      split
      · exact .ite h.answerStatus.coll h.answerStatus.collTake
      · exact .ite h.answerStatus.coll (.ite h.answerStatus.inc h.answerStatus)

theorem execCollTimeoutExpire_answers {q : Fin 4} {c : Fin 16} {gid seq : Nat} (h : Keeps false s₀ s) :
    Answers false s₀ (execCollTimeoutExpire q c gid seq s) := by
  unfold execCollTimeoutExpire
  refine ⟨_, rfl, h.whenLive ?_⟩
  split
  · split
    · exact .ite h h.collFail.ev.accuse
    · exact h
  · exact h

theorem execCollDimProgressSend_answers {q : Fin 4} {c : Fin 16} {gid seq : Nat} (h : Keeps κ s₀ s) :
    Answers κ s₀ (execCollDimProgressSend q c gid seq s) := by
  unfold execCollDimProgressSend
  refine ⟨_, rfl, h.whenLive ?_⟩
  split
  · split
    · exact .ite h.opCast h
    · exact h
  · exact h

theorem Keeps.collReset {q ms : Nat} (h : Keeps false s₀ s) : Keeps false s₀ (s.collReset q ms) := by
  unfold State.collReset
  refine .foldl (fun _ _ h => ?_) h.put.put.ev
  split
  · exact h
  · exact .collBegin (.foldl (fun _ _ h => h.opSend.inc) h.setColl)

theorem Keeps.whenRunning {t : State} (h : Keeps κ s₀ s) (ht : Keeps κ s₀ t) : Keeps κ s₀ (whenRunning s t) :=
  .ite ht h

theorem Keeps.sendMember {ty m : Nat} {payload : List Byte} (h : Keeps κ s₀ s) :
    Keeps κ s₀ (s.sendMember ty m payload) := by
  unfold State.sendMember
  split
  · exact h.sendC0On
  · exact h.sendC0

theorem execLodestarTimeSend_answers (h : Keeps κ s₀ s) : Answers κ s₀ (execLodestarTimeSend s) := by
  unfold execLodestarTimeSend
  refine ⟨_, rfl, h.whenRunning (.ite h ?_)⟩
  split
  · exact .ite (.foldl (fun _ _ h => h.sendC0On) h) (.sendMember (.foldl (fun _ _ h => h.sendC0On) h))
  · exact .foldl (fun _ _ h => h.sendC0On) h

theorem Keeps.slew {theirs : Nat} {member : Bool} (h : Keeps κ s₀ s) : Keeps κ s₀ (s.slew theirs member) :=
  .put (.const (.ite (.evEvery (.ite h.put h)) (.ite h.put h)))

theorem Keeps.onTime {p : Packet} (h : Keeps κ s₀ s) : Keeps κ s₀ (s.onTime p) := by
  unfold State.onTime
  split
  · exact .ite h.slew.sendMember h
  · exact h.sendMember
  · exact .ite h.const.slew (.ite h.slew h)
  · exact .ite h.const h
  · exact h

theorem Keeps.tellMembers {payload : List Byte} (h : Keeps κ s₀ s) : Keeps κ s₀ (s.tellMembers payload) :=
  .foldl (fun _ _ h => h.sendMember) h

theorem execLodestarHeartbeatSend_answers (h : Keeps κ s₀ s) : Answers κ s₀ (execLodestarHeartbeatSend s) :=
  ⟨_, rfl, h.whenRunning (.ite h.tellMembers h)⟩

theorem Keeps.setPool {tag : Nat} {x : Option Pool} (h : Keeps κ s₀ s) : Keeps κ s₀ (s.setPool tag x) :=
  h.const

theorem Keeps.poolAnswer {members kind tag param : Nat} {st : Status} (h : Keeps false s₀ s) :
    Keeps false s₀ (s.poolAnswer members kind tag param st) := by
  unfold State.poolAnswer
  dsimp only
  split
  · refine .cmdClose (.const (.ite h.setPool ?_))
    split
    · exact .ite h h.setPool
    · exact h
  · refine .const (.ite h.setPool ?_)
    split
    · exact .ite h h.setPool
    · exact h

theorem Keeps.poolDecide {x : Pool} {st : Status} (h : Keeps false s₀ s) : Keeps false s₀ (s.poolDecide x st) :=
  h.poolAnswer.tellMembers

theorem Keeps.poolRequest {c members kind tag param : Nat} {fits : Bool} (h : Keeps false s₀ s) :
    Keeps false s₀ (s.poolRequest c members kind tag param fits) := by
  unfold State.poolRequest
  split
  · exact .ite (.ite h.poolAnswer h.sendMember)
      (.ite h.setPool (.ite h.setPool.poolDecide (.ite h.setPool.poolDecide h.setPool.poolDecide)))
  · exact h

theorem Keeps.poolPost {c members kind tag param : Nat} {fits : Bool} (h : Keeps false s₀ s) :
    Keeps false s₀ (s.poolPost c members kind tag param fits) := by
  unfold State.poolPost
  split
  · exact h.poolRequest
  · exact .ite (.ite h.poolAnswer h.sendMember) h.setPool.poolRequest

theorem execPool_answers {c : Fin 4096} (h : Keeps false s₀ s) : Answers false s₀ (execPool c s) := by
  unfold execPool
  refine ⟨_, rfl, h.command (fun _ ht _ _ => .ite ht.cmdDone
      (.ite ht.cmdDone (.ite ?_ (.ite ht.cmdDone (.ite ht.cmdDone ?_)))))⟩
  · split
    · exact .ite ht.setPool.tellMembers.cmdDone ht.cmdDone
    · exact ht.cmdDone
  · split
    · exact .ite ht.cmdDone ht.cmdOpen.setPool.poolPost
    · exact .ite ht.cmdOpen.cmdClose (.ite ht.cmdOpen.setPool.poolRequest ht.cmdOpen.setPool.sendMember)

theorem execPoolFormTimeout_answers {tag : Nat} (h : Keeps false s₀ s) :
    Answers false s₀ (execPoolFormTimeout tag s) := by
  unfold execPoolFormTimeout
  refine ⟨_, rfl, h.whenRunning ?_⟩
  split
  · exact .ite h (.ite h.poolDecide h.poolAnswer)
  · exact h

theorem Keeps.sendPools {m : Nat} (h : Keeps κ s₀ s) : Keeps κ s₀ (s.sendPools m) :=
  .ite (.foldl (fun _ _ h => h.sendMember) h) (.foldl (fun _ _ h => h.sendMember) h)

theorem Keeps.arriveAgain {p : Nat} (h : Keeps κ s₀ s) : Keeps κ s₀ (s.arriveAgain p) :=
  .ite h.setBarrier.sendMer h

theorem Keeps.reparent {old port : Nat} (h : Keeps κ s₀ s) : Keeps κ s₀ (s.reparent old port) :=
  .foldl (fun _ _ h => .ite h.put.arriveAgain h) h

theorem Keeps.newLodestar {c takeovers : Nat} {parent : Option Nat} (h : Keeps κ s₀ s) :
    Keeps κ s₀ (s.newLodestar c takeovers parent) := by
  unfold State.newLodestar
  refine .ite ?_ (.sendPools ?_)
  · split
    · exact .reparent (.const (.ite (.ite h.put.put.put.ev h.put.put.put.ev.accuse)
        (.put (.ite h.put.put.put.ev h.put.put.put.ev.accuse))))
    · exact .const (.ite (.ite h.put.put.put.ev h.put.put.put.ev.accuse)
        (.put (.ite h.put.put.put.ev h.put.put.put.ev.accuse)))
  · split
    · exact .reparent (.const (.ite (.ite h.put.put.put.ev h.put.put.put.ev.accuse)
        (.put (.ite h.put.put.put.ev h.put.put.put.ev.accuse))))
    · exact .const (.ite (.ite h.put.put.put.ev h.put.put.put.ev.accuse)
        (.put (.ite h.put.put.put.ev h.put.put.put.ev.accuse)))

theorem Keeps.tryTakeover (h : Keeps κ s₀ s) : Keeps κ s₀ s.tryTakeover :=
  .ite h.newLodestar.tellMembers.tellMembers h

theorem Keeps.inMinority (h : Keeps false s₀ s) : Keeps false s₀ s.inMinority := by
  unfold State.inMinority
  refine .ite h (.ev (.const (.foldl (fun _ _ h => ?_) h.put)))
  split
  · exact h.cmdClose
  · exact h

theorem execHeartbeatLoss_answers {us : Nat} (h : Keeps false s₀ s) : Answers false s₀ (execHeartbeatLoss us s) :=
  ⟨_, rfl, h.whenRunning (.ite h (.ite (.inMinority (.ite h.const h.const.const.tellMembers.tryTakeover))
    (.ite h.const h.const.const.tellMembers.tryTakeover)))⟩

theorem Keeps.onHeartbeat {c members takeovers : Nat} {parent : Option Nat} (h : Keeps κ s₀ s) :
    Keeps κ s₀ (s.onHeartbeat c members takeovers parent) := by
  unfold State.onHeartbeat
  extract_lets minority known quiet rejoin t u
  have hquiet (t) (h : Keeps κ s₀ t) : Keeps κ s₀ (quiet t) := h.const
  have hrejoin (t) (h : Keeps κ s₀ t) : Keeps κ s₀ (rejoin t) := h.put.sendMember
  have hu : Keeps κ s₀ u := h.newLodestar.put
  exact .ite h (.ite (.ite (hquiet _ (hrejoin _ h)) (hquiet _ h))
    (.ite (.ite (hquiet _ (hrejoin _ hu)) (hquiet _ hu)) h))

theorem Keeps.onConst {p : Packet} (h : Keeps false s₀ s) : Keeps false s₀ (s.onConst p) := by
  unfold State.onConst
  refine .ite h ?_
  split
  · exact h.onHeartbeat
  · exact .ite h.put.tellMembers.sendPools (.ite h.put h)
  · exact .ite h.sendMember h
  · exact .ite h.const.tryTakeover h
  · exact .ite h.poolPost h
  · exact .ite h.poolAnswer h
  · exact h.setPool
  · exact h

theorem Keeps.setXreq {x y : XReq} (h : Keeps κ s₀ s) : Keeps κ s₀ (s.setXreq x y) :=
  h.xreqs

theorem Keeps.refusedThere {x : XReq} {st : Status} (h : Keeps κ s₀ s) : Keeps κ s₀ (s.refusedThere x st) :=
  .ite h.inc.fenceIfOver h

theorem Keeps.replEnd {x : XReq} {st : Status} (h : Keeps false s₀ s) : Keeps false s₀ (s.replEnd x st) := by
  unfold State.replEnd
  dsimp only
  split
  · exact h
  · exact .ite (.ite h.replAcked h.request) (.ite h.replAcked h)

theorem Keeps.migAnswer {x : XReq} {k tid : Nat} {st : Status} (h : Keeps false s₀ s) :
    Keeps false s₀ (s.migAnswer x k tid st) := by
  unfold State.migAnswer
  split
  · exact h
  · refine .ite ?_ (.ite h.request h)
    split
    · exact h
    · exact .ite h.mapMig.dropReplicas.migSteps h.mapTable.haloEndAt

theorem Keeps.xEnd {x : XReq} {st : Status} {bytes : List Byte} (h : Keeps false s₀ s) :
    Keeps false s₀ (s.xEnd x st bytes) := by
  unfold State.xEnd
  split
  · exact h.xreqs.refusedThere.moverAnswer
  · exact h.xreqs.refusedThere.moverAnswer
  · exact h.xreqs.fetched.haloRetry
  · exact .ite h.xreqs.haloChecks h.xreqs.haloEndAt.haloChecks
  · exact h.xreqs
  · refine .ite h.xreqs ?_
    split
    · exact h.xreqs
    · split
      · exact h.xreqs.collFail
      · exact .ite h.xreqs h.xreqs.groupEnd
  · exact h.xreqs.replEnd
  · exact h.xreqs.migAnswer

theorem Keeps.xAgain {x : XReq} (h : Keeps κ s₀ s) : Keeps κ s₀ (s.xAgain x) := by
  unfold State.xAgain
  dsimp only
  split
  · exact (h.route ‹_›).setXreq
  · exact h.setXreq

theorem Keeps.xDeferred {x : XReq} {hint : Nat} (h : Keeps false s₀ s) : Keeps false s₀ (s.xDeferred x hint) := by
  unfold State.xDeferred
  dsimp only
  split
  · split
    · exact .deferRec (.haloOps (.ite h.setXreq.flt h.setXreq))
    · exact .ite h.setXreq.flt h.setXreq
  · split
    · exact .deferRec (.haloOps (.ite h.setXreq.flt h.setXreq))
    · exact .ite h.setXreq.flt h.setXreq
  · exact .ite h.setXreq.flt h.setXreq

theorem execDeferredRetry_answers {id : Nat} (h : Keeps κ s₀ s) : Answers κ s₀ (execDeferredRetry id s) := by
  unfold execDeferredRetry
  dsimp only
  refine ⟨_, rfl, h.whenLive ?_⟩
  split
  · exact h
  · split
    · exact h.flt.xAgain
    · exact h.flt

theorem Keeps.loadAnswer {x : XReq} {p : Packet} {t slot tensor fmt block : Nat} (h : Keeps false s₀ s) :
    Keeps false s₀ (s.loadAnswer x p t slot tensor fmt block) := by
  unfold State.loadAnswer
  dsimp only
  refine .ite h.xreqs (.ite ?_ ?_)
  · split
    · exact h.setXreq.xAgain
    · exact h
  · split
    · exact h.checkArrival.accuse.xEnd
    · exact h.checkArrival.setBlock.noteSlots.noteIn.xEnd

theorem Keeps.staleReply {port : Nat} {p : Packet} (h : Keeps κ s₀ s) : Keeps κ s₀ (s.staleReply port p) := by
  unfold State.staleReply
  split
  · exact h.inc.setCtx.evIso
  · exact h.inc

theorem Keeps.ethAck {p : Packet} (h : Keeps κ s₀ s) : Keeps κ s₀ (s.ethAck p) :=
  .foldl (fun _ _ h => .ite h h.setPort) h

theorem Keeps.onAnswer {port : Nat} {p : Packet} (h : Keeps false s₀ s) : Keeps false s₀ (s.onAnswer port p) := by
  unfold State.onAnswer
  dsimp only
  split
  · exact .ite h.ethAck.staleReply h.ethAck
  · refine .ite h.ethAck.staleReply (.ite h.ethAck.seeGen.xAgain
      (.ite h.ethAck.staleReply (.ite h.ethAck.xDeferred ?_)))
    split
    · exact .ite h.ethAck.loadAnswer (.ite h.ethAck h.ethAck.xEnd)
    · exact h.ethAck.xEnd

theorem Keeps.onMemory {p : Packet} (h : Keeps false s₀ s) : Keeps false s₀ (s.onMemory p) := by
  unfold State.onMemory
  dsimp only
  split
  · exact h.evIso.answerStatus
  · split
    · exact h.evIso.answerStatus
    · exact h.answerStatus
    · exact .ite h.answerStatus (.ite h.recallExt.setBlock.sendReply h.recallExt.sendReply)

theorem Keeps.onNotice {p : Packet} (h : Keeps κ s₀ s) : Keeps κ s₀ (s.onNotice p) :=
  .ite (.ite h.accused h.takeAccusation) (.ite (.evEvery (.ite h.emit h)) h)

theorem execAccusationWindowEnd_answers (h : Keeps κ s₀ s) : Answers κ s₀ (execAccusationWindowEnd s) := by
  unfold execAccusationWindowEnd
  exact ⟨_, rfl, h.whenRunning (.foldl (fun _ _ h => .ite h.deliverAccusation h.sendUp) h.flt)⟩

theorem Keeps.onRepl {p : Packet} (h : Keeps false s₀ s) : Keeps false s₀ (s.onRepl p) := by
  unfold State.onRepl
  split
  · exact h.onReplRequest
  · exact h.onReplGrant
  · exact h.onReplGrant
  · exact h.onReplInvalidation
  · exact h.onReplPush
  · exact h.onReplAck
  · exact h.onReplAck
  · exact h.onReplDrop
  · exact h.onReplDrop
  · exact h

theorem Keeps.byType {port : Nat} {p : Packet} (h : Keeps false s₀ s) : Keeps false s₀ (s.byType port p) := by
  unfold State.byType
  split
  · exact h.onMemory
  · exact h.onAnswer
  · exact h.onMemory
  · exact h.onAnswer
  · exact h.onRowReq
  · exact h.onAnswer
  · exact h.onPairs
  · exact h.onColl
  · exact h.onAnswer
  · exact h.onMeridian
  · exact h.onNotice
  · exact h.onTime
  · exact h.onConst
  · exact h.onRepl
  · exact h

theorem Keeps.forward {port : Nat} {p : Packet} (h : Keeps κ s₀ s) : Keeps κ s₀ (s.forward port p) := by
  unfold State.forward
  refine .ite h.notDelivered (.ite h.sendC0 ?_)
  split
  · exact h.route ‹_›
  · exact h.notDelivered

theorem Keeps.remember {p : Packet} (h : Keeps κ s₀ s) : Keeps κ s₀ (s.remember p) :=
  h.delivered

theorem Keeps.onPacket {port : Nat} {p : Packet} (h : Keeps false s₀ s) : Keeps false s₀ (s.onPacket port p) :=
  .ite h.wakeModule.forward (.ite h.wakeModule.answerStatus
    (.ite h.wakeModule.byType (.ite h.wakeModule.answerStatus
    (.ite h.wakeModule.byType h.wakeModule.remember.byType))))

theorem Keeps.handUp {i : Instr} {port : Nat} {p : Packet} (h : Keeps false s₀ s) :
    Keeps false s₀ (s.handUp i port p) :=
  .ite h.ecl h.onPacket

theorem Keeps.receive {i : Instr} {rx : Rx} (h : Keeps false s₀ s) : Keeps false s₀ (s.receive i rx) :=
  .ite h (.ite h.inc.emit.raiseErr (.ite h.emit
    (.ite h.emit (.ite h.setPort.emit.linkAck.inc h.setPort.emit.linkAck.handUp))))

theorem Keeps.packetIn {i : Instr} {rx : Rx} {mine : Packet → Bool} (h : Keeps false s₀ s) :
    Keeps false s₀ (s.packetIn i rx mine) :=
  .ite h.receive h

theorem execReadReq_answers {rx : Rx} (h : Keeps false s₀ s) : Answers false s₀ (execReadReq rx s) :=
  ⟨_, rfl, h.packetIn⟩

theorem execReadRsp_answers {rx : Rx} (h : Keeps false s₀ s) : Answers false s₀ (execReadRsp rx s) :=
  ⟨_, rfl, h.packetIn⟩

theorem execWriteReq_answers {rx : Rx} (h : Keeps false s₀ s) : Answers false s₀ (execWriteReq rx s) :=
  ⟨_, rfl, h.packetIn⟩

theorem execWriteAck_answers {rx : Rx} (h : Keeps false s₀ s) : Answers false s₀ (execWriteAck rx s) :=
  ⟨_, rfl, h.packetIn⟩

theorem execRowReq_answers {rx : Rx} (h : Keeps false s₀ s) : Answers false s₀ (execRowReq rx s) :=
  ⟨_, rfl, h.packetIn⟩

theorem execRowRsp_answers {rx : Rx} (h : Keeps false s₀ s) : Answers false s₀ (execRowRsp rx s) :=
  ⟨_, rfl, h.packetIn⟩

theorem execPairs_answers {rx : Rx} (h : Keeps false s₀ s) : Answers false s₀ (execPairs rx s) :=
  ⟨_, rfl, h.packetIn⟩

theorem execStatusPkt_answers {rx : Rx} (h : Keeps false s₀ s) : Answers false s₀ (execStatusPkt rx s) :=
  ⟨_, rfl, h.packetIn⟩

theorem execTime_answers {rx : Rx} (h : Keeps false s₀ s) : Answers false s₀ (execTime rx s) :=
  ⟨_, rfl, h.packetIn⟩

theorem execConstHeartbeat_answers {rx : Rx} (h : Keeps false s₀ s) : Answers false s₀ (execConstHeartbeat rx s) :=
  ⟨_, rfl, h.packetIn⟩

theorem execConstMembership_answers {rx : Rx} (h : Keeps false s₀ s) : Answers false s₀ (execConstMembership rx s) :=
  ⟨_, rfl, h.packetIn⟩

theorem execTakeoverClaimAck_answers {rx : Rx} (h : Keeps false s₀ s) : Answers false s₀ (execTakeoverClaimAck rx s) :=
  ⟨_, rfl, h.packetIn⟩

theorem execConstPoolGrant_answers {rx : Rx} (h : Keeps false s₀ s) : Answers false s₀ (execConstPoolGrant rx s) :=
  ⟨_, rfl, h.packetIn⟩

theorem execReplRequest_answers {rx : Rx} (h : Keeps false s₀ s) : Answers false s₀ (execReplRequest rx s) :=
  ⟨_, rfl, h.packetIn⟩

theorem execReplGrant_answers {rx : Rx} (h : Keeps false s₀ s) : Answers false s₀ (execReplGrant rx s) :=
  ⟨_, rfl, h.packetIn⟩

theorem execReplInvalidation_answers {rx : Rx} (h : Keeps false s₀ s) : Answers false s₀ (execReplInvalidation rx s) :=
  ⟨_, rfl, h.packetIn⟩

theorem execReplPush_answers {rx : Rx} (h : Keeps false s₀ s) : Answers false s₀ (execReplPush rx s) :=
  ⟨_, rfl, h.packetIn⟩

theorem execReplAcknowledgement_answers {rx : Rx} (h : Keeps false s₀ s) :
    Answers false s₀ (execReplAcknowledgement rx s) :=
  ⟨_, rfl, h.packetIn⟩

theorem execReplDrop_answers {rx : Rx} (h : Keeps false s₀ s) : Answers false s₀ (execReplDrop rx s) :=
  ⟨_, rfl, h.packetIn⟩

theorem execGroupCrcReceive_answers {rx : Rx} (h : Keeps false s₀ s) : Answers false s₀ (execGroupCrcReceive rx s) :=
  ⟨_, rfl, h.packetIn⟩

theorem execGroupAnswer_answers {rx : Rx} (h : Keeps false s₀ s) : Answers false s₀ (execGroupAnswer rx s) :=
  ⟨_, rfl, h.packetIn⟩

theorem execCollContribution_answers {rx : Rx} (h : Keeps false s₀ s) : Answers false s₀ (execCollContribution rx s) :=
  ⟨_, rfl, h.packetIn⟩

theorem execCollResult_answers {rx : Rx} (h : Keeps false s₀ s) : Answers false s₀ (execCollResult rx s) :=
  ⟨_, rfl, h.packetIn⟩

theorem execCollProgress_answers {rx : Rx} (h : Keeps false s₀ s) : Answers false s₀ (execCollProgress rx s) :=
  ⟨_, rfl, h.packetIn⟩

theorem execCollResendRequest_answers {rx : Rx} (h : Keeps false s₀ s) :
    Answers false s₀ (execCollResendRequest rx s) :=
  ⟨_, rfl, h.packetIn⟩

theorem execCollStatus_answers {rx : Rx} (h : Keeps false s₀ s) : Answers false s₀ (execCollStatus rx s) :=
  ⟨_, rfl, h.packetIn⟩

theorem execNoticeAccusation_answers {rx : Rx} (h : Keeps false s₀ s) : Answers false s₀ (execNoticeAccusation rx s) :=
  ⟨_, rfl, h.packetIn⟩

theorem execNoticeMergedAccusation_answers {rx : Rx} (h : Keeps false s₀ s) :
    Answers false s₀ (execNoticeMergedAccusation rx s) :=
  ⟨_, rfl, h.packetIn⟩

theorem execNoticePowerHold_answers {rx : Rx} (h : Keeps false s₀ s) : Answers false s₀ (execNoticePowerHold rx s) :=
  ⟨_, rfl, h.packetIn⟩

theorem execNoticeFreeze_answers {rx : Rx} (h : Keeps false s₀ s) : Answers false s₀ (execNoticeFreeze rx s) :=
  ⟨_, rfl, h.packetIn⟩

theorem execNoticeRelease_answers {rx : Rx} (h : Keeps false s₀ s) : Answers false s₀ (execNoticeRelease rx s) :=
  ⟨_, rfl, h.packetIn⟩

theorem execEthernetFrameReceive_answers {port : Fin 32} {f : Frame} (h : Keeps false s₀ s) :
    Answers false s₀ (execEthernetFrameReceive port f s) :=
  ⟨_, rfl, h.whenOn (.ite h (.ite h.raiseErr (.ite h.evEvery
    (.ite h.evEvery (.ite h.evEvery (.ite h.handUp.answerStatus h.handUp))))))⟩

theorem execXtTimeoutExpire_answers {unit txn : Nat} (h : Keeps false s₀ s) :
    Answers false s₀ (execXtTimeoutExpire unit txn s) := by
  unfold execXtTimeoutExpire
  refine ⟨_, rfl, h.whenLive ?_⟩
  split
  · refine .ite h ?_
    split
    · exact h
    · exact h.accuse.xEnd
  · exact h

theorem execRouteWaitExpire_answers {unit txn : Nat} (h : Keeps false s₀ s) :
    Answers false s₀ (execRouteWaitExpire unit txn s) := by
  unfold execRouteWaitExpire
  refine ⟨_, rfl, h.whenLive ?_⟩
  split
  · exact .ite h.notDelivered.xEnd h
  · exact h

theorem Keeps.portReset {p : Nat} (h : Keeps false s₀ s) : Keeps false s₀ (s.portReset p) :=
  .foldl (fun _ _ h => h.xEnd) h.portDrain

theorem execPortReset_answers {path : Path} {port : Fin 32} (h : Keeps false s₀ s) :
    Answers false s₀ (execPortReset path port s) :=
  ⟨_, rfl, h.ctrl h.portReset⟩

end Sys2Proof.Machine

end


section
/-!
PROOFS. What every step keeps: host copies, orphans and table commands.
-/

namespace Sys2Proof.Machine

open Sys2Proof

variable {κ : Bool} {s₀ s t : State}

theorem Keeps.setCopy {k : Copy} (h : Keeps κ s₀ s) : Keeps κ s₀ (s.setCopy k) :=
  h.copies

theorem Keeps.copyEnd {k : Copy} {st : Status} {r0 r1 : Nat} (h : Keeps false s₀ s) :
    Keeps false s₀ (s.copyEnd k st r0 r1) :=
  .complete (.others h rfl)

theorem Keeps.copyCut {k : Copy} {st : Status} (h : Keeps false s₀ s) : Keeps false s₀ (s.copyCut k st) :=
  h.copyEnd

theorem Keeps.mirrorAppend {k k' : Copy} {addr : Nat} {bs : List Byte} (h : Keeps false s₀ s)
    (e : s.mirrorAppend k addr bs = some (t, k')) : Keeps false s₀ t := by
  unfold State.mirrorAppend at e
  dsimp only at e
  split at e
  · contradiction
  · split at e <;> cases e
    exact h.recallExt.extWrite.setCtx.setCopy

theorem Keeps.copyWrite {k : Copy} {addr : Nat} {bs : List Byte} (h : Keeps false s₀ s) :
    Keeps false s₀ (s.copyWrite k addr bs).1 := by
  unfold State.copyWrite
  refine .iteFst h (.iteFst ?_ h.hostWrite)
  split
  · exact h.mirrorAppend ‹_›
  · exact h.setCopy

theorem Keeps.copyFinish {k : Copy} (h : Keeps false s₀ s) : Keeps false s₀ (s.copyFinish k) := by
  unfold State.copyFinish
  refine .ite h.copyEnd ?_
  split
  · exact h.recallExt.extWrite.copyEnd
  · exact .ite h.copyWrite h.copyWrite.copyEnd

theorem Keeps.copySource {k : Copy} {j : Nat} (h : Keeps false s₀ s) : Keeps false s₀ (s.copySource k j).1 := by
  unfold State.copySource
  split
  · exact h.recallExt
  · exact h

theorem Keeps.copyPut {k : Copy} {j : Nat} {bs : List Byte} {x : Seal} (h : Keeps false s₀ s)
    (e : s.copyPut k j bs x = some t) : Keeps false s₀ t := by
  unfold State.copyPut at e
  dsimp only at e
  split at e
  · split at e
    · exact h.dWrite e
    · cases e
      exact h.recallExt.setBlock
  · cases e
    exact h

theorem Keeps.copyPuts {k : Copy} {j : Nat} {l : List (List Byte × Seal)} (h : Keeps false s₀ s) :
    Keeps false s₀ (s.copyPuts k j l).1 := by
  induction l generalizing s j with
  | nil => exact h
  | cons b l ih =>
    unfold State.copyPuts
    split
    · exact ih (h.copyPut ‹_›)
    · exact h

theorem Keeps.copyNext {n : Nat} {k : Copy} (h : Keeps false s₀ s) : Keeps false s₀ (s.copyNext n k) := by
  induction n generalizing s k with
  | zero => exact h
  | succ n ih =>
    unfold State.copyNext
    have hr {j m : Nat} {l : List (List Byte × Seal)} : Keeps false s₀ ((List.range m).foldl
        (fun (a : State × List (List Byte × Seal)) i =>
          ((a.1.copySource k (j + i)).1, a.2 ++ [(a.1.copySource k (j + i)).2])) (s, l)).1 :=
      .foldlFst (fun _ _ h => h.copySource) h
    refine .ite h (.ite h.copyFinish (.ite (.ite (.ite h.setCopy h.hostRead) (.ite h.setCopy h.hostRead))
      (.ite hr.copyEnd ?_)))
    split
    · exact ih (hr.copyPuts.of_eq ‹_›).setCopy
    · exact (hr.copyPuts.of_eq ‹_›).copyEnd

theorem Keeps.copyArrive {k : Copy} {data : List Byte} (h : Keeps false s₀ s) : Keeps false s₀ (s.copyArrive k data) := by
  unfold State.copyArrive
  refine .ite ?_ (.ite h.copyEnd h.setCopy.hostRead)
  split
  · exact (h.copyPuts.of_eq ‹_›).setCopy.copyNext
  · exact (h.copyPuts.of_eq ‹_›).copyEnd

theorem Keeps.copyPair {k : Copy} {at_ : Nat} {bs : List (List Byte × Seal)} (h : Keeps false s₀ s) :
    Keeps false s₀ (s.copyPair k at_ bs).1 :=
  .iteFst h.copyWrite.copyWrite h.copyWrite

theorem Keeps.copyOut {n p : Nat} {k : Copy} (h : Keeps false s₀ s) : Keeps false s₀ (s.copyOut n k p) := by
  induction n generalizing s k p with
  | zero => exact (show Keeps false s₀ s from h)
  | succ n ih =>
    have hr {j m : Nat} {l : List (List Byte × Seal)} : Keeps false s₀ ((List.range m).foldl
        (fun (a : State × List (List Byte × Seal)) i =>
          ((a.1.copySource k (j + i)).1, a.2 ++ [(a.1.copySource k (j + i)).2])) (s, l)).1 :=
      .foldlFst (fun _ _ h => h.copySource) h
    exact Keeps.ite (.ite h h.hostRead) (.ite hr.copyEnd (.ite hr.copyPair (ih hr.copyPair.setCopy)))

theorem execHostCopy_answers {c : Fin 4096} (h : Keeps false s₀ s) : Answers false s₀ (execHostCopy c s) := by
  unfold execHostCopy
  refine ⟨_, rfl, h.command (fun _ ht _ _ => .ite ht.cmdDone ?_)⟩
  split
  · exact ht.violate.cmdDone
  · exact .ite h (.ite (.copyOut (.others ht rfl)) (.copyNext (.others ht rfl)))

theorem Keeps.copySpoil {k : Copy} (h : Keeps false s₀ s) : Keeps false s₀ (s.copySpoil k) := by
  unfold State.copySpoil
  refine .ite (.foldl (fun _ _ h => ?_) h) h
  split
  · exact h.recallExt.addFree.setBlock
  · exact h

theorem Keeps.windowRefused {r : PcieReq} (h : Keeps κ s₀ s) : Keeps κ s₀ (s.windowRefused r) := by
  unfold State.windowRefused
  split
  · exact h
  · split
    · exact .ite h.setPeer.ev h
    · exact h

theorem Keeps.dropFile {id : Nat} (h : Keeps κ s₀ s) : Keeps κ s₀ (s.dropFile id) :=
  .others h rfl

theorem Keeps.orrFileEnd {q qp index : Nat} {st : Status} (h : Keeps false s₀ s) :
    Keeps false s₀ (s.orrFileEnd q qp index st) := by
  unfold State.orrFileEnd
  split
  · exact h.orrEnd.orrRetry
  · exact h

theorem Keeps.fileStop {f : FileOp} {st : Status} (h : Keeps false s₀ s) : Keeps false s₀ (s.fileStop f st) := by
  unfold State.fileStop
  split
  · exact h.dropFile.orrFileEnd
  · exact h.dropFile.cmdClose
  · exact h.dropFile.cmdClose
  · exact h.dropFile.ckptEnd

theorem Keeps.stopHeld {f : Nat} {st : Status} (h : Keeps false s₀ s) : Keeps false s₀ (s.stopHeld f st) :=
  .foldl (fun _ _ h => h.fileStop) h

theorem Keeps.resumeNow {f : Nat} (h : Keeps false s₀ s) : Keeps false s₀ (s.resumeNow f) :=
  .saveHandover (.fnVector (.ev (.stopHeld (.foldl (fun _ _ h => h.copyCut)
    (.setFn (.put (.put (.foldl (fun _ _ h => .ite h.put h) h))))))))

theorem Keeps.teardownNow {f outcome cause : Nat} (h : Keeps false s₀ s) :
    Keeps false s₀ (s.teardownNow f outcome cause) :=
  .saveHandover (.ev (.stopHeld (.foldl (fun _ _ h => h.copyCut)
    (.setFn (.put (.foldl (fun _ _ h => .ite h.toClosing h) h))))))

theorem Keeps.orphanEnd {f what : Nat} (h : Keeps false s₀ s) : Keeps false s₀ (s.orphanEnd f what) :=
  .ite h (.ite h.setFn (.ite h.resumeNow (.ite h.teardownNow h.teardownNow)))

theorem Keeps.fileEnd {f : FileOp} {st : Status} (h : Keeps false s₀ s) : Keeps false s₀ (s.fileEnd f st) := by
  unfold State.fileEnd
  split
  · exact .ite h.fileStop h.fileStop.orphanEnd
  · exact h.fileStop

theorem execResume_answers {f : Fin 256} (h : Keeps false s₀ s) : Answers false s₀ (execResume f s) :=
  ⟨_, rfl, h.ctrl h.orphanEnd⟩

theorem execTeardown_answers {f : Fin 256} (h : Keeps false s₀ s) : Answers false s₀ (execTeardown f s) :=
  ⟨_, rfl, h.ctrl h.orphanEnd⟩

theorem execOrphanHoldExpire_answers {f : Fin 256} (h : Keeps false s₀ s) :
    Answers false s₀ (execOrphanHoldExpire f s) :=
  ⟨_, rfl, .ite h.orphanEnd h⟩

theorem Keeps.flr {f : Nat} (h : Keeps false s₀ s) : Keeps false s₀ (s.flr f) :=
  .ite h.orphanEnd (.ite h (.setFn (.put (.foldl (fun _ _ h => .ite h.toClosing h) h))))

theorem execFunctionLevelReset_answers {f : Fin 256} (h : Keeps false s₀ s) :
    Answers false s₀ (execFunctionLevelReset f s) :=
  ⟨_, rfl, h.whenOn h.flr⟩

theorem execNumvfsReduction_answers {n : Nat} (h : Keeps false s₀ s) : Answers false s₀ (execNumvfsReduction n s) :=
  ⟨_, rfl, .ite (.numVfs (.foldl (fun _ _ h => h.flr) h)) h⟩

theorem Keeps.readDesc {ring i : Nat} {e : Entry} (h : Keeps false s₀ s) : Keeps false s₀ (s.readDesc ring i e).1 := by
  unfold State.readDesc
  dsimp only
  split
  · exact h.recallExt
  · exact h.violate
  · exact h

theorem Keeps.addTable {ctx k : Nat} {d : Desc} (h : Keeps false s₀ s) : Keeps false s₀ (s.addTable ctx k d) :=
  .put (.foldl (fun _ _ h => h.setSlotRec) (.others h rfl))

theorem execTableCreate_answers {c : Fin 4096} (h : Keeps false s₀ s) : Answers false s₀ (execTableCreate c s) := by
  unfold execTableCreate
  refine ⟨_, rfl, h.command (fun _ ht _ _ => .ite ht.cmdDone ?_)⟩
  split
  · exact (ht.readDesc.of_eq ‹_›).cmdDone
  · exact .ite ((ht.readDesc.of_eq ‹_›).cmdDone)
      (.ite ((ht.readDesc.of_eq ‹_›).cmdDone) ((ht.readDesc.of_eq ‹_›).addTable.cmdDone))

theorem execTableDestroy_answers {c : Fin 4096} (h : Keeps false s₀ s) : Answers false s₀ (execTableDestroy c s) := by
  unfold execTableDestroy
  refine ⟨_, rfl, h.command (fun _ ht _ _ => .ite ht.cmdDone ?_)⟩
  split
  · exact ht.cmdDone
  · exact ht.cmdOpen.dropReplicas.mapTable.tablesLeave

theorem execTableParam_answers {c : Fin 4096} (h : Keeps false s₀ s) : Answers false s₀ (execTableParam c s) := by
  unfold execTableParam
  refine ⟨_, rfl, h.command (fun _ ht _ _ => ?_)⟩
  split
  · exact ht.cmdDone
  · exact .ite ht.cmdDone ht.cmdOpen.mapTable

theorem execTableFlush_answers {c : Fin 4096} (h : Keeps false s₀ s) : Answers false s₀ (execTableFlush c s) := by
  unfold execTableFlush
  refine ⟨_, rfl, h.command (fun _ ht _ _ => ?_)⟩
  split
  · exact ht.cmdDone
  · exact .ite ht.cmdDone (.ite ht.cmdDone ht.cmdOpen.tiers.writeBack)

theorem execTableCheckpoint_answers {c : Fin 4096} (h : Keeps false s₀ s) :
    Answers false s₀ (execTableCheckpoint c s) := by
  unfold execTableCheckpoint
  refine ⟨_, rfl, h.command (fun _ ht _ _ => ?_)⟩
  split
  · exact ht.cmdDone
  · refine .ite h ?_
    split
    · exact ht.cmdDone
    · split
      · exact (ht.fileSend.of_eq ‹_›).cmdDone
      · exact (ht.fileSend.of_eq ‹_›).cmdOpen

theorem execStepRebase_answers {c : Fin 4096} (h : Keeps false s₀ s) : Answers false s₀ (execStepRebase c s) :=
  ⟨_, rfl, h.command (fun _ ht _ _ => .ite ht.cmdDone
    (.cmdDone (.shards (.setCommit (.put (.put (.foldl (fun _ _ h => h.resetStream) ht.put)))))))⟩

theorem Keeps.restoreHome {b : Table} {id cls step addr k tensor fmt : Nat} {put : List Byte → List Byte}
    (h : Keeps κ s₀ s) (e : s.restoreHome b id cls step addr k tensor fmt put = some t) : Keeps κ s₀ t := by
  unfold State.restoreHome at e
  split at e
  · cases e
    exact h
  · exact h.dWrite e

theorem Keeps.restoreBlocks {f : State → Nat → Option State} {l : List Nat}
    (hf : ∀ s t k, Keeps κ s₀ s → f s k = some t → Keeps κ s₀ t) (h : Keeps κ s₀ s)
    (e : s.restoreBlocks f l = some t) : Keeps κ s₀ t := by
  induction l generalizing s with
  | nil =>
    cases e
    exact h
  | cons k l ih =>
    unfold State.restoreBlocks at e
    split at e
    · contradiction
    · exact ih (hf _ _ _ h ‹_›) e

theorem Keeps.restoreD {b : Table} {id cls step : Nat} {rows : List (Row × List Byte × List Byte)}
    (h : Keeps false s₀ s) (e : s.restoreD b id cls step rows = some t) : Keeps false s₀ t := by
  obtain ⟨u, hu, ht⟩ := Option.bind_eq_some_iff.mp e
  have hv := Keeps.restoreBlocks (fun _ _ _ h e => h.restoreHome e) (.foldl (fun _ _ h => h.coldRow) h) hu
  exact .restoreBlocks (fun _ _ _ h e => h.restoreHome e) hv ht

theorem Keeps.restoreH {b : Table} {step : Nat} {rows : List (Row × List Byte × List Byte)} (h : Keeps false s₀ s) :
    Keeps false s₀ (s.restoreH b step rows) :=
  .foldl (fun _ _ h => h.writeRow.writeState) h

theorem Keeps.restoreNow {ring i : Nat} {e : Entry} {bs : List (List Byte × Option Seal)} (h : Keeps false s₀ s) :
    Keeps false s₀ (s.restoreNow ring i e bs) := by
  unfold State.restoreNow
  dsimp only
  split
  · exact h.cmdClose
  · refine .ite h.cmdClose (.ite h.cmdClose ?_)
    split
    · exact h.cmdClose
    · refine .ite h.dropReplicas.mapTable.restoreH.cmdClose ?_
      split
      · exact h.dropReplicas.mapTable.cmdClose
      · exact .ite (h.dropReplicas.mapTable.addFile.restoreD ‹_›)
          ((h.dropReplicas.mapTable.addFile.restoreD ‹_›).fileEnd)

theorem execTableRestore_answers {c : Fin 4096} (h : Keeps false s₀ s) : Answers false s₀ (execTableRestore c s) := by
  unfold execTableRestore
  refine ⟨_, rfl, h.command (fun _ ht _ _ => ?_)⟩
  split
  · exact ht.cmdDone
  · refine .ite ht.cmdDone ?_
    split
    · exact (ht.fileFetch.of_eq ‹_›).cmdDone
    · exact (ht.fileFetch.of_eq ‹_›).cmdOpen
    · exact (ht.fileFetch.of_eq ‹_›).cmdOpen.restoreNow

theorem Keeps.addShard {ctx k : Nat} {d : Desc} {w : List Nat} (h : Keeps false s₀ s) :
    Keeps false s₀ (s.addShard ctx k d w) :=
  h.shards.put.put.put.put.put.put.put.put.put.put.put.writeBank

theorem Keeps.masterNow {ring i : Nat} {e : Entry} {bs : List (List Byte × Option Seal)} (h : Keeps false s₀ s) :
    Keeps false s₀ (s.masterNow ring i e bs) := by
  unfold State.masterNow
  dsimp only
  split
  · exact (h.readDesc.of_eq ‹_›).cmdClose
  · split
    · exact (h.readDesc.of_eq ‹_›).cmdClose
    · exact .ite ((h.readDesc.of_eq ‹_›).cmdClose) ((h.readDesc.of_eq ‹_›).addShard.cmdClose)

theorem execShardCreate_answers {c : Fin 4096} (h : Keeps false s₀ s) : Answers false s₀ (execShardCreate c s) := by
  unfold execShardCreate
  refine ⟨_, rfl, h.command (fun _ ht _ _ => .ite ht.cmdDone ?_)⟩
  split
  · exact (ht.readDesc.of_eq ‹_›).cmdDone
  · split
    · exact (ht.readDesc.of_eq ‹_›).cmdDone
    · refine .ite ((ht.readDesc.of_eq ‹_›).addShard.cmdDone) ?_
      split
      · exact ((ht.readDesc.of_eq ‹_›).fileFetch.of_eq ‹_›).cmdDone
      · exact ((ht.readDesc.of_eq ‹_›).fileFetch.of_eq ‹_›).cmdOpen
      · exact ((ht.readDesc.of_eq ‹_›).fileFetch.of_eq ‹_›).cmdOpen.masterNow

theorem execShardDestroy_answers {c : Fin 4096} (h : Keeps false s₀ s) : Answers false s₀ (execShardDestroy c s) := by
  unfold execShardDestroy
  refine ⟨_, rfl, h.command (fun _ ht _ _ => .ite ht.cmdDone ?_)⟩
  split
  · exact ht.cmdDone
  · exact ht.cmdOpen.setShard.shardsLeave

theorem Keeps.dropReq {id : Nat} (h : Keeps κ s₀ s) : Keeps κ s₀ (s.dropReq id) :=
  h.pcie

theorem Keeps.fileHave {f : FileOp} {bs : List Byte} (h : Keeps false s₀ s) : Keeps false s₀ (s.fileHave f bs) := by
  unfold State.fileHave
  split
  · split
    · exact h.dropFile
    · split
      · exact h.fileEnd
      · exact h.importInto.fileEnd
  · exact h.dropFile.restoreNow
  · exact h.dropFile.masterNow
  · exact h.fileEnd

theorem Keeps.fileBytes {f : FileOp} {data : List Byte} (h : Keeps false s₀ s) : Keeps false s₀ (s.fileBytes f data) := by
  unfold State.fileBytes
  dsimp only
  refine .ite h.fileHave ?_
  split
  · exact .ite h.files h.files.hostRead
  · exact h.violate.fileEnd
  · exact h

theorem execPcieReadCompletion_answers {req : Nat} {data : List Byte} (h : Keeps false s₀ s) :
    Answers false s₀ (execPcieReadCompletion req data s) := by
  unfold execPcieReadCompletion
  refine ⟨_, rfl, .ite h (.ite h.holdCmd ?_)⟩
  split
  · exact h
  · refine .ite h ?_
    split
    · split
      · exact h.dropReq.setCopy.copyNext
      · exact h.dropReq
    · split
      · exact h.dropReq.copyArrive
      · exact h.dropReq
    · split
      · exact h.dropReq.fileBytes
      · exact h.dropReq
    · exact h

theorem execFlushReadComplete_answers {req : Nat} (h : Keeps false s₀ s) :
    Answers false s₀ (execFlushReadComplete req s) := by
  unfold execFlushReadComplete
  refine ⟨_, rfl, .ite h (.ite h.holdCmd ?_)⟩
  split
  · exact h
  · split
    · split
      · exact h.dropReq.copyFinish
      · exact h.dropReq
    · split
      · exact h.dropReq.fileEnd
      · exact h.dropReq
    · exact h

theorem Keeps.reqEnd {r : PcieReq} {st : Status} (h : Keeps false s₀ s) : Keeps false s₀ (s.reqEnd r st) := by
  unfold State.reqEnd
  split
  · exact h.dropReq.copyEnd
  · split
    · split
      · exact h.dropReq.fileEnd
      · exact h.dropReq
    · split
      · exact h.dropReq.fileEnd
      · exact h.dropReq
    · exact h.dropReq

theorem execPTierRefused_answers {req : Nat} (h : Keeps false s₀ s) : Answers false s₀ (execPTierRefused req s) := by
  unfold execPTierRefused
  refine ⟨_, rfl, .ite h (.ite h.holdCmd ?_)⟩
  split
  · exact h
  · refine .reqEnd ?_
    split
    · exact h.violate.windowRefused.copySpoil
    · exact h.violate.windowRefused

theorem execPcieCompletionPoisoned_answers {req : Nat} (h : Keeps false s₀ s) :
    Answers false s₀ (execPcieCompletionPoisoned req s) := by
  unfold execPcieCompletionPoisoned
  refine ⟨_, rfl, .ite h (.ite h.holdCmd ?_)⟩
  split
  · exact h
  · exact h.reqEnd

theorem execPcieCompletionTimeout_answers {req : Nat} (h : Keeps false s₀ s) :
    Answers false s₀ (execPcieCompletionTimeout req s) := by
  unfold execPcieCompletionTimeout
  refine ⟨_, rfl, .ite h (.ite h.holdCmd ?_)⟩
  split
  · exact h
  · exact h.reqEnd

theorem execDWriteAcknowledge_answers {id : Nat} (h : Keeps false s₀ s) :
    Answers false s₀ (execDWriteAcknowledge id s) := by
  unfold execDWriteAcknowledge
  dsimp only
  refine ⟨_, rfl, h.whenLive ?_⟩
  split
  · exact h
  · refine .ite h ?_
    split
    · exact h.dAck.reflush
    · split
      · exact .ite h.dAck.reflush h.dAck.reflush.copyNext
      · exact h.dAck.reflush
    · split
      · exact .ite h.dAck.reflush h.dAck.reflush.fileEnd
      · exact h.dAck.reflush

theorem Keeps.refuseWrite {w : DWrite} (h : Keeps false s₀ s) : Keeps false s₀ (s.refuseWrite w) := by
  unfold State.refuseWrite
  dsimp only
  split
  · exact h.tiers.rowsDirty
  · split
    · exact h.tiers.copyEnd
    · exact h.tiers
  · split
    · exact h.tiers.fileEnd
    · exact h.tiers

theorem execDeferralWaitLimit_answers {point : Nat} (h : Keeps false s₀ s) :
    Answers false s₀ (execDeferralWaitLimit point s) := by
  unfold execDeferralWaitLimit
  refine ⟨_, rfl, h.whenLive (.ite ?_ ?_)⟩
  · split
    · exact .ite h.refuseWrite h
    · exact h
  · split
    · exact h
    · refine .ite ?_ (.ite ?_ h)
      · split
        · exact h.dropDeferral.countRefusal.cmdClose
        · exact h
      · split
        · exact h.dropDeferral.countRefusal.failRow
        · exact h.dropDeferral

end Sys2Proof.Machine

end


section
/-!
PROOFS. What every step keeps: configuration, firmware, repair and power.
-/

namespace Sys2Proof.Machine

open Sys2Proof

variable {κ : Bool} {s₀ s t : State}

theorem Keeps.flashRefused {region addr : Nat} (h : Keeps κ s₀ s) : Keeps κ s₀ (s.flashRefused region addr) :=
  h.useFree.ev

theorem Keeps.cfgCommand {path : Path} {i : Instr} {body : State → State} (h : Keeps κ s₀ s)
    (hbody : ∀ t, Keeps κ s₀ t → Keeps κ s₀ (body t)) :
    Keeps κ s₀ (s.cfgCommand path i body) :=
  .ite h (.ite h.holdCmd (.ite h (.ite h.wakeModule.cfgDone
    (.ite h.wakeModule.cfgDone (.ite h.wakeModule.cfg.cfgDone (hbody _ h.wakeModule))))))

theorem Keeps.inStates {l : List Nat} {t : State} (h : Keeps κ s₀ s) (ht : Keeps κ s₀ t) :
    Keeps κ s₀ (s.inStates l t) :=
  .ite ht h.cfgDone

theorem Keeps.cfgLoadBuffer {path : Path} (h : Keeps κ s₀ s) : Keeps κ s₀ (s.cfgLoadBuffer path) :=
  h.cfgCommand (fun _ ht => ht.inStates ht.loadImage)

theorem Keeps.cfgLoadSlot {path : Path} {k : Nat} (h : Keeps κ s₀ s) : Keeps κ s₀ (s.cfgLoadSlot path k) :=
  h.cfgCommand (fun _ ht => ht.inStates ht.loadImage)

theorem Keeps.startCheck (h : Keeps κ s₀ s) : Keeps κ s₀ s.startCheck :=
  h.cfg.put.put.put.put.wr

theorem Keeps.cfgCheck {path : Path} (h : Keeps κ s₀ s) : Keeps κ s₀ (s.cfgCheck path) :=
  h.cfgCommand (fun _ ht => ht.inStates ht.startCheck)

theorem Keeps.armSet {jobScope : Bool} {domain trial tag : Nat} (h : Keeps κ s₀ s) :
    Keeps κ s₀ (s.armSet jobScope domain trial tag) :=
  .put (.foldl (fun _ _ h => .ite h.put h) h.cfg)

theorem Keeps.cfgArm {path : Path} {w : Word} (h : Keeps κ s₀ s) : Keeps κ s₀ (s.cfgArm path w) :=
  h.cfgCommand (fun _ ht => ht.inStates (.ite ht.cfg.cfgDone ht.armSet))

theorem Keeps.cfgDiscard {path : Path} (h : Keeps κ s₀ s) : Keeps κ s₀ (s.cfgDiscard path) :=
  h.cfgCommand (fun _ ht => ht.inStates ht.closeSession.cfgDone.releaseHeld)

theorem Keeps.ifFree {k : Nat} {t : State} (h : Keeps κ s₀ s) (ht : Keeps κ s₀ t) : Keeps κ s₀ (s.ifFree k t) :=
  .ite h.flashRefused.cfgDone (.ite h.cfgDone ht)

theorem Keeps.cfgStoreTo {path : Path} {k : Nat} (h : Keeps κ s₀ s) : Keeps κ s₀ (s.cfgStoreTo path k) :=
  h.cfgCommand (fun _ ht => ht.inStates (.ite ht.cfgDone (ht.ifFree ht.cfg.setSlot.put)))

theorem Keeps.cfgErase {path : Path} {k : Nat} (h : Keeps κ s₀ s) : Keeps κ s₀ (s.cfgErase path k) :=
  h.cfgCommand (fun _ ht => ht.inStates (ht.ifFree ht.cfg.setSlot.put))

theorem Keeps.cfgRevert {path : Path} (h : Keeps κ s₀ s) : Keeps κ s₀ (s.cfgRevert path) :=
  h.cfgCommand (fun _ ht => ht.inStates (.ite ht.cfgDone (.ite ht.cfgDone ht.loadImage)))

theorem Keeps.cfgConfirmNow {path : Path} (h : Keeps κ s₀ s) : Keeps κ s₀ (s.cfgConfirmNow path) := by
  unfold State.cfgConfirmNow
  refine h.cfgCommand (fun _ ht => .ite ht.cfgDone (.cfgDone (.setVolatile (.put (.cfg ?_)))))
  split
  · exact .ite ht ht.nameActive
  · exact ht

theorem Keeps.cfgRaise {path : Path} (h : Keeps κ s₀ s) : Keeps κ s₀ (s.cfgRaise path) :=
  h.cfgCommand (fun _ ht => ht.inStates ht.cfg.cfgDone)

theorem Keeps.cfgRun {i : Instr} (h : Keeps κ s₀ s) : Keeps κ s₀ (s.cfgRun i) := by
  unfold State.cfgRun
  split
  · exact h.cfgLoadBuffer
  · exact h.cfgLoadSlot
  · exact h.cfgCheck
  · exact h.cfgArm
  · exact h.cfgDiscard
  · exact h.cfgStoreTo
  · exact h.cfgErase
  · exact h.cfgRevert
  · exact h.cfgConfirmNow
  · exact h.cfgRaise
  · exact h

theorem Keeps.cfgResume (h : Keeps κ s₀ s) : Keeps κ s₀ s.cfgResume :=
  .ite h (.foldl (fun _ _ h => h.cfgRun) h.cfg)

theorem execLoadBuffer_answers {path : Path} (h : Keeps κ s₀ s) : Answers κ s₀ (execLoadBuffer path s) :=
  ⟨_, rfl, h.cfgLoadBuffer⟩

theorem execLoadSlot_answers {path : Path} {slot : Fin 8} (h : Keeps κ s₀ s) :
    Answers κ s₀ (execLoadSlot path slot s) :=
  ⟨_, rfl, h.cfgLoadSlot⟩

theorem execCheck_answers {path : Path} (h : Keeps κ s₀ s) : Answers κ s₀ (execCheck path s) :=
  ⟨_, rfl, h.cfgCheck⟩

theorem execArm_answers {path : Path} {w : Word} (h : Keeps κ s₀ s) : Answers κ s₀ (execArm path w s) :=
  ⟨_, rfl, h.cfgArm⟩

theorem execCfgStore_answers {path : Path} {slot : Fin 8} (h : Keeps κ s₀ s) :
    Answers κ s₀ (execCfgStore path slot s) :=
  ⟨_, rfl, h.cfgStoreTo⟩

theorem execEraseSlot_answers {path : Path} {slot : Fin 8} (h : Keeps κ s₀ s) :
    Answers κ s₀ (execEraseSlot path slot s) :=
  ⟨_, rfl, h.cfgErase⟩

theorem execRevert_answers {path : Path} (h : Keeps κ s₀ s) : Answers κ s₀ (execRevert path s) :=
  ⟨_, rfl, h.cfgRevert⟩

theorem execCfgConfirm_answers {path : Path} (h : Keeps κ s₀ s) : Answers κ s₀ (execCfgConfirm path s) :=
  ⟨_, rfl, h.cfgConfirmNow⟩

theorem execCfgRaiseSvnFloor_answers {path : Path} (h : Keeps κ s₀ s) : Answers κ s₀ (execCfgRaiseSvnFloor path s) :=
  ⟨_, rfl, h.cfgRaise⟩

theorem execCfgOpUnassigned_answers {path : Path} {op : Nat} (h : Keeps κ s₀ s) :
    Answers κ s₀ (execCfgOpUnassigned path op s) :=
  ⟨_, rfl, .ite (h.cfgCommand (fun _ ht => ht.cfgDone)) h⟩

theorem Keeps.endCheck (h : Keeps κ s₀ s) : Keeps κ s₀ s.endCheck := by
  unfold State.endCheck
  dsimp only
  split
  · exact h.cfg.put.put.put.cfgDone
  · exact h.cfg.put.put.put.put.put.put.cfgDone.ev

theorem execCheckComplete_answers (h : Keeps κ s₀ s) : Answers κ s₀ (execCheckComplete s) :=
  ⟨_, rfl, .ite (.cfgResume (.put (.ite h.endCheck h))) h⟩

theorem execAlmanacProgramComplete_answers {ok : Bool} (h : Keeps κ s₀ s) :
    Answers κ s₀ (execAlmanacProgramComplete ok s) := by
  unfold execAlmanacProgramComplete
  refine ⟨_, rfl, .ite h ?_⟩
  split
  · exact h
  · exact .cfgResume (.ite (.ite h.cfg.put.setSlot.cfgDone.cfg h.cfg.put.setSlot.cfgDone) h.cfg.put.cfgDone)

theorem execDirectoryWriteComplete_answers (h : Keeps κ s₀ s) : Answers κ s₀ (execDirectoryWriteComplete s) :=
  ⟨_, rfl, .ite h.put.cfg h⟩

theorem Keeps.switchStart (h : Keeps κ s₀ s) : Keeps κ s₀ s.switchStart :=
  .ite h.put.fw h

theorem Keeps.commitAt (h : Keeps false s₀ s) : Keeps false s₀ s.commitAt := by
  unfold State.commitAt
  split
  · exact .ite h (.ite h.abandonFor h.applyCommit)
  · exact h

theorem Keeps.moduleMeridian (h : Keeps false s₀ s) : Keeps false s₀ s.moduleMeridian :=
  h.commitAt.routeFlipAt.haloFlips.deepFlip.switchStart

theorem Keeps.drainEnd (h : Keeps false s₀ s) : Keeps false s₀ s.drainEnd := by
  unfold State.drainEnd
  split
  · exact h
  · exact .ite h (.ite h.abandonFor (.ite h.cfg.arrive h.cfg.moduleMeridian))

theorem Keeps.drainLimit (h : Keeps κ s₀ s) : Keeps κ s₀ s.drainLimit := by
  unfold State.drainLimit
  split
  · exact .ite h.abandonFor h
  · exact h

theorem Keeps.armTimeout (h : Keeps κ s₀ s) : Keeps κ s₀ s.armTimeout := by
  unfold State.armTimeout
  split
  · exact .ite h.abandonFor h
  · exact h

theorem Keeps.trialReturn (h : Keeps κ s₀ s) : Keeps κ s₀ s.trialReturn :=
  .ev (.ite (.armSet (.endCheck (.cfg (.put (.startCheck
    (.loadImage (.closeSession (.ite h.cfg.releaseHeld.cfgDone h))))))))
    (.cfg (.closeSession (.endCheck (.cfg (.put
    (.startCheck (.loadImage (.closeSession (.ite h.cfg.releaseHeld.cfgDone h))))))))))

theorem execTrialExpire_answers (h : Keeps κ s₀ s) : Answers κ s₀ (execTrialExpire s) :=
  ⟨_, rfl, .ite h.trialReturn h⟩

theorem Keeps.logEntry {tp core level args : Nat} (h : Keeps κ s₀ s) : Keeps κ s₀ (s.logEntry tp core level args) :=
  h.fw.put.put

theorem Keeps.trace {range core level : Nat} (h : Keeps κ s₀ s) : Keeps κ s₀ (s.trace range core level) :=
  .ite h.useFree.useFree.logEntry h.useFree.useFree

theorem Keeps.fwDone {op : Nat} {st : Status} {reason : Nat} (h : Keeps κ s₀ s) : Keeps κ s₀ (s.fwDone op st reason) :=
  .ite h.put.put.trace h.put.put.trace.ev

theorem Keeps.fwCommand {path : Path} {op : Nat} {i : Instr} {states : List Nat} {body : State → State}
    (h : Keeps κ s₀ s) (hbody : ∀ t, Keeps κ s₀ t → Keeps κ s₀ (body t)) :
    Keeps κ s₀ (s.fwCommand path op i states body) :=
  .ite h (.ite h.holdCmd (.ite h (.ite h.wakeModule.fwDone
    (.ite h.wakeModule.fw.fwDone (.ite (hbody _ h.wakeModule) h.wakeModule.fwDone)))))

theorem Keeps.programSlot {k : Nat} {im : List Byte} (h : Keeps κ s₀ s) : Keeps κ s₀ (s.programSlot k im) :=
  h.fw

theorem Keeps.fwStage {path : Path} {w : Word} (h : Keeps κ s₀ s) : Keeps κ s₀ (s.fwStage path w) := by
  unfold State.fwStage
  refine h.fwCommand (fun _ ht => .ite ht.put.fwDone ?_)
  split
  · exact ht.put.fwDone
  · exact ht.programSlot.put

theorem Keeps.stagingEnd {readBack : Bool} (h : Keeps κ s₀ s) : Keeps κ s₀ (s.stagingEnd readBack) :=
  .ite h.fw.put.fwDone (.ite h.programSlot.put.fwDone h.put.fwDone)

theorem Keeps.fwActivate {path : Path} {w : Word} (h : Keeps κ s₀ s) : Keeps κ s₀ (s.fwActivate path w) :=
  h.fwCommand (fun _ ht => .ite ht.fw (.ite ht.fwDone ht.fw.put))

theorem Keeps.trialCommit (h : Keeps κ s₀ s) : Keeps κ s₀ s.trialCommit :=
  h.fw.put.put.ev

theorem Keeps.rollbackStart {cause : Nat} (h : Keeps κ s₀ s) : Keeps κ s₀ (s.rollbackStart cause) :=
  h.fw.put.ev

theorem Keeps.fwConfirmNow {path : Path} (h : Keeps κ s₀ s) : Keeps κ s₀ (s.fwConfirmNow path) :=
  h.fwCommand (fun _ ht => ht.trialCommit.fwDone)

theorem Keeps.fwRollback {path : Path} (h : Keeps κ s₀ s) : Keeps κ s₀ (s.fwRollback path) :=
  h.fwCommand (fun _ ht => ht.rollbackStart)

theorem Keeps.fwRaise {path : Path} (h : Keeps κ s₀ s) : Keeps κ s₀ (s.fwRaise path) :=
  h.fwCommand (fun _ ht => ht.put.fwDone)

theorem Keeps.fwRun {i : Instr} (h : Keeps κ s₀ s) : Keeps κ s₀ (s.fwRun i) := by
  unfold State.fwRun
  split
  · exact h.fwStage
  · exact h.fwActivate
  · exact h.fwConfirmNow
  · exact h.fwRollback
  · exact h.fwRaise
  · exact h

theorem Keeps.fwResume (h : Keeps κ s₀ s) : Keeps κ s₀ s.fwResume :=
  .foldl (fun _ _ h => h.fwRun) h.fw

theorem execStage_answers {path : Path} {w : Word} (h : Keeps κ s₀ s) : Answers κ s₀ (execStage path w s) :=
  ⟨_, rfl, h.fwStage⟩

theorem execStagingComplete_answers {reason : Nat} (h : Keeps κ s₀ s) : Answers κ s₀ (execStagingComplete reason s) :=
  ⟨_, rfl, .ite h.stagingEnd.fwResume h⟩

theorem execActivate_answers {path : Path} {w : Word} (h : Keeps κ s₀ s) : Answers κ s₀ (execActivate path w s) :=
  ⟨_, rfl, h.fwActivate⟩

theorem execFwConfirm_answers {path : Path} (h : Keeps κ s₀ s) : Answers κ s₀ (execFwConfirm path s) :=
  ⟨_, rfl, h.fwConfirmNow⟩

theorem execRollback_answers {path : Path} (h : Keeps κ s₀ s) : Answers κ s₀ (execRollback path s) :=
  ⟨_, rfl, h.fwRollback⟩

theorem execFwRaiseSvnFloor_answers {path : Path} (h : Keeps κ s₀ s) : Answers κ s₀ (execFwRaiseSvnFloor path s) :=
  ⟨_, rfl, h.fwRaise⟩

theorem Keeps.rejournal (h : Keeps κ s₀ s) : Keeps κ s₀ s.rejournal :=
  h.fw

theorem Keeps.switchTo {k upd : Nat} (h : Keeps κ s₀ s) : Keeps κ s₀ (s.switchTo k upd) := by
  unfold State.switchTo
  extract_lets t₁ t₂ t₃
  have h₂ : Keeps κ s₀ t₂ := h.put.next.put.put.put
  clear_value t₂
  exact .rejournal (h₂.others rfl)

theorem Keeps.switchEnd {selfCheckOk : Bool} (h : Keeps κ s₀ s) : Keeps κ s₀ (s.switchEnd selfCheckOk) :=
  .ite (.cfgResume (.fwResume (.ite h.switchTo.fw.ev.fwDone h.switchTo.fw.ev.fwDone.rollbackStart))) h

theorem Keeps.rollbackEnd (h : Keeps κ s₀ s) : Keeps κ s₀ s.rollbackEnd :=
  .ite h.switchTo.fw.fwDone.fwResume.cfgResume h

theorem execFwTrialWindowExpire_answers {checksPassed : Bool} (h : Keeps κ s₀ s) :
    Answers κ s₀ (execFwTrialWindowExpire checksPassed s) :=
  ⟨_, rfl, .ite (.ite h.rollbackStart (.ite h.rollbackStart h.trialCommit)) h⟩

theorem Keeps.fwWatchdog {core : Nat} (h : Keeps κ s₀ s) : Keeps κ s₀ (s.fwWatchdog core) :=
  .ite h (.ite (.cfgResume (.fwResume (.ite (.emit
    (.put (.trace (.ev (.ite h.fw.rollbackStart (.ite h.fw (.ite h.fw.fw.switchTo.fwDone h.fw.switchTo)))))))
    (.trace (.ev (.ite h.fw.rollbackStart (.ite h.fw (.ite h.fw.fw.switchTo.fwDone h.fw.switchTo))))))))
    (.ite (.emit (.put (.trace (.ev (.ite h.fw.rollbackStart
    (.ite h.fw (.ite h.fw.fw.switchTo.fwDone h.fw.switchTo)))))))
    (.trace (.ev (.ite h.fw.rollbackStart (.ite h.fw (.ite h.fw.fw.switchTo.fwDone h.fw.switchTo)))))))

theorem Keeps.pldmAnswer {cmd code : Nat} (h : Keeps κ s₀ s) : Keeps κ s₀ (s.pldmAnswer cmd code) :=
  h.emit

theorem Keeps.pldm {cmd state : Nat} {body : State} (h : Keeps κ s₀ s) (hbody : Keeps κ s₀ body) :
    Keeps κ s₀ (s.pldm cmd state body) :=
  .ite h (.ite h.pldmAnswer (.ite h.pldmAnswer hbody))

theorem Keeps.pldmGo {cmd next : Nat} (h : Keeps κ s₀ s) : Keeps κ s₀ (s.pldmGo cmd next) :=
  h.fw.pldmAnswer

theorem execRequestUpdate_answers {maxTransfer : Nat} (h : Keeps κ s₀ s) :
    Answers κ s₀ (execRequestUpdate maxTransfer s) :=
  ⟨_, rfl, h.pldm (.ite h.pldmAnswer (.ite h.fw.pldmGo h.pldmAnswer))⟩

theorem execPassComponentTable_answers {components : Nat} (h : Keeps κ s₀ s) :
    Answers κ s₀ (execPassComponentTable components s) :=
  ⟨_, rfl, h.pldm (.ite h.pldmGo h.pldmAnswer)⟩

theorem execUpdateComponent_answers {size : Nat} (h : Keeps κ s₀ s) : Answers κ s₀ (execUpdateComponent size s) :=
  ⟨_, rfl, h.pldm (.ite h.fw.pldmGo h.pldmAnswer)⟩

theorem execRequestFirmwareData_answers {off : Nat} {data : List Byte} (h : Keeps κ s₀ s) :
    Answers κ s₀ (execRequestFirmwareData off data s) :=
  ⟨_, rfl, h.pldm (.ite h.pldmAnswer h.fw.pldmAnswer)⟩

theorem execTransferComplete_answers {result : Nat} (h : Keeps κ s₀ s) :
    Answers κ s₀ (execTransferComplete result s) :=
  ⟨_, rfl, h.pldm (.ite h.fw.pldmGo (.pldmGo (.fw (.ite h.programSlot h.programSlot.put))))⟩

theorem execVerifyComplete_answers {result : Nat} (h : Keeps κ s₀ s) : Answers κ s₀ (execVerifyComplete result s) :=
  ⟨_, rfl, h.pldm (.ite (.ite h.pldmGo (.pldmGo (.fw (.ite h h.programSlot))))
    (.ite h.stagingEnd.pldmGo h.stagingEnd.fw.pldmGo))⟩

theorem execApplyComplete_answers {result : Nat} (h : Keeps κ s₀ s) : Answers κ s₀ (execApplyComplete result s) :=
  ⟨_, rfl, h.pldm (.ite h.fw.pldmGo h.fw.pldmGo)⟩

theorem execIfSelWrite_answers {path : Path} {f : Fin 256} {v : Nat} (h : Keeps κ s₀ s) :
    Answers κ s₀ (execIfSelWrite path f v s) :=
  ⟨_, rfl, h.ctrl (.ite h.put h.evLim3)⟩

theorem Keeps.resetEvent {cls idx old lost : Nat} (h : Keeps κ s₀ s) : Keeps κ s₀ (s.resetEvent cls idx old lost) :=
  h.ev

theorem Keeps.drainUnit {cls idx : Nat} (h : Keeps false s₀ s) : Keeps false s₀ (s.drainUnit cls idx) := by
  unfold State.drainUnit
  refine .ite h (.ite h.portReset.resetEvent ?_)
  split
  · exact h.flt.put
  · exact h.flt.put
  · exact h.flt.put
  · exact h.flt.put
  · exact h.flt.deepDrain
  · exact h.flt.put

theorem Keeps.tileReset {t : Nat} (h : Keeps false s₀ s) : Keeps false s₀ (s.tileReset t) := by
  unfold State.tileReset
  dsimp only
  split
  · exact h.xreqs.setTile.next.replayEntry
  · exact h.xreqs.setTile.next.put

theorem Keeps.unitReset {cls idx : Nat} (h : Keeps false s₀ s) : Keeps false s₀ (s.unitReset cls idx) := by
  unfold State.unitReset
  split
  · exact .ite h.flt h.flt.resetEvent.tileReset
  · exact h.flt.resetEvent.haloReset
  · exact h.flt.resetEvent.collReset
  · exact h.flt.resetEvent.orrReset
  · exact h.flt.deepReset.resetEvent
  · exact h.flt.put.next.resetEvent

theorem execUnitDrainComplete_answers {cls idx : Nat} (h : Keeps false s₀ s) :
    Answers false s₀ (execUnitDrainComplete cls idx s) :=
  ⟨_, rfl, .ite (.ite h.portDrained (.ite h h.unitReset)) h⟩

theorem Keeps.unitRefused (h : Keeps κ s₀ s) : Keeps κ s₀ s.unitRefused :=
  h.ev

theorem Keeps.unitRequest {path : Path} {i : Instr} {cls idx : Nat} {t : State} (h : Keeps κ s₀ s)
    (ht : Keeps κ s₀ t) :
    Keeps κ s₀ (s.unitRequest path i cls idx t) :=
  h.ctrl (.ite h.unitRefused (.ite h (.ite h.unitRefused ht)))

theorem execUnitResetRequest_answers {path : Path} {cls idx : Nat} (h : Keeps false s₀ s) :
    Answers false s₀ (execUnitResetRequest path cls idx s) :=
  ⟨_, rfl, h.unitRequest (.ite h h.drainUnit)⟩

theorem Keeps.retireChannelNow {k c : Nat} (h : Keeps κ s₀ s) : Keeps κ s₀ (s.retireChannelNow k c) :=
  .ite h.retireChannel (.ite h.channelRetired h)

theorem execUnitRetireRequest_answers {path : Path} {cls idx : Nat} (h : Keeps false s₀ s) :
    Answers false s₀ (execUnitRetireRequest path cls idx s) := by
  unfold execUnitRetireRequest
  refine ⟨_, rfl, h.unitRequest ?_⟩
  split
  · exact h.retireTile
  · exact h.retireChannelNow
  · exact h.retireSlice
  · exact h

theorem execClearHistory_answers {path : Path} {cls idx : Nat} (h : Keeps κ s₀ s) :
    Answers κ s₀ (execClearHistory path cls idx s) :=
  ⟨_, rfl, h.unitRequest h.flt⟩

theorem execTilePollTimeout_answers {t : Fin 272} {moverAnswers : Bool} (h : Keeps false s₀ s) :
    Answers false s₀ (execTilePollTimeout t moverAnswers s) :=
  ⟨_, rfl, .ite h.countFault.retireTile h⟩

theorem execUnitStopsAnswering_answers {cls idx : Nat} (h : Keeps false s₀ s) :
    Answers false s₀ (execUnitStopsAnswering cls idx s) :=
  ⟨_, rfl, .ite (.ite (.unitOut (.ite h.countFault.drainUnit.put h.countFault.drainUnit)) h.countFault.drainUnit) h⟩

theorem execStarChartWriteComplete_answers (h : Keeps κ s₀ s) : Answers κ s₀ (execStarChartWriteComplete s) :=
  ⟨_, rfl, .ite h.put.put.flt.ev h⟩

theorem execPollForPlatformEventMessage_answers {acked : List Nat} (h : Keeps κ s₀ s) :
    Answers κ s₀ (execPollForPlatformEventMessage acked s) :=
  ⟨_, rfl, .ite h.flt.emits h⟩

theorem Keeps.choiceEvent {scope st idle : Nat} (h : Keeps κ s₀ s) : Keeps κ s₀ (s.choiceEvent scope st idle) :=
  h.evLim3

theorem Keeps.choosePart {p ns : Nat} (h : Keeps κ s₀ s) : Keeps κ s₀ (s.choosePart p ns) :=
  .ite (.ite h h.wakePart) (.ite h.put.choiceEvent.showPower h)

theorem Keeps.selfRefresh (h : Keeps κ s₀ s) : Keeps κ s₀ s.selfRefresh :=
  .foldl (fun _ _ h => h.put) h

theorem Keeps.moduleState {st : Nat} (h : Keeps κ s₀ s) : Keeps κ s₀ (s.moduleState st) :=
  .foldl (fun _ _ h => h.put) h.put

theorem Keeps.chooseModule {ready : Bool} (h : Keeps κ s₀ s) : Keeps κ s₀ (s.chooseModule ready) :=
  .ite h.moduleState.selfRefresh.choiceEvent h

theorem execPowerStateTick_answers {idle : List (Nat × Nat)} (h : Keeps κ s₀ s) :
    Answers κ s₀ (execPowerStateTick idle s) :=
  ⟨_, rfl, .ite (.chooseModule (.foldl (fun _ _ h => h.choosePart) h)) h⟩

theorem execPlannedWake_answers {p : Option (Fin 128)} (h : Keeps κ s₀ s) : Answers κ s₀ (execPlannedWake p s) := by
  unfold execPlannedWake
  refine ⟨_, rfl, .ite ?_ h⟩
  split
  · exact .ite h.put.showPower h
  · exact .ite (.showPower (.foldl (fun _ _ h => .ite h.put h) h.leaveDusk)) h

theorem Keeps.addEnergy {vin : Nat} {use : List (Nat × Nat × Nat)} {rails : List Nat} (h : Keeps κ s₀ s) :
    Keeps κ s₀ (s.addEnergy vin use rails) :=
  .put (.foldlFst (fun _ _ h => h.put) (.put (.foldl (fun _ _ h => h.put) h)))

theorem Keeps.lowerCap {cap : Nat} (h : Keeps κ s₀ s) : Keeps κ s₀ (s.lowerCap cap) :=
  h.pwr

theorem Keeps.fastGuard (h : Keeps κ s₀ s) : Keeps κ s₀ s.fastGuard :=
  .ite h.lowerCap.evLim h

theorem execPowerSample_answers {vinMv iMa : Nat} {railsMv railsUj : List Nat} {use : List (Nat × Nat × Nat)}
    (h : Keeps κ s₀ s) :
    Answers κ s₀ (execPowerSample vinMv iMa railsMv railsUj use s) :=
  ⟨_, rfl, h.whenOn h.put.pwr.addEnergy.fastGuard⟩

theorem Keeps.dutyHold (h : Keeps κ s₀ s) : Keeps κ s₀ s.dutyHold :=
  .ite h (.inc (.put (.others h rfl)))

theorem Keeps.limitRule {b p avgW : Nat} (h : Keeps κ s₀ s) : Keeps κ s₀ (s.limitRule b p avgW) :=
  .ite (.ite (.ite h.pwr.evLim3 h.pwr) (.ite h.lowerCap h.lowerCap.evLim3))
    (.ite (.ite h.pwr (.ite (.ite h.pwr.evLim3 h.pwr) h)) h)

theorem Keeps.stretchCheck (h : Keeps κ s₀ s) : Keeps κ s₀ s.stretchCheck :=
  .ite h.pwr (.ite h.pwr.pwr.ev h.pwr.pwr)

theorem execPowerLimitTick_answers {avgW : Nat} (h : Keeps κ s₀ s) : Answers κ s₀ (execPowerLimitTick avgW s) :=
  ⟨_, rfl, h.whenOn h.put.put.limitRule.dutyHold.stretchCheck⟩

theorem execDroopDetectorMask_answers {detector : Fin 1088} (h : Keeps false s₀ s) :
    Answers false s₀ (execDroopDetectorMask detector s) :=
  ⟨_, rfl, .ite (.ite h.pwr.put.ev.retireTile h.pwr.put.ev) h⟩

theorem Keeps.enterNadir {cause : Nat} (h : Keeps κ s₀ s) : Keeps κ s₀ (s.enterNadir cause) :=
  .ite h h.put.put.pwr.notice.pins.emit.moduleState.selfRefresh.ev

theorem execRegulatorAlert_answers {cause : Nat} (h : Keeps κ s₀ s) : Answers κ s₀ (execRegulatorAlert cause s) :=
  ⟨_, rfl, .ite h.enterNadir h⟩

theorem Keeps.nadirEnd (h : Keeps κ s₀ s) : Keeps κ s₀ s.nadirEnd :=
  .ite h.put.put.moduleState.leaveDusk.pins.emit.notice.ev h

theorem Keeps.setTrip {new : Nat} (h : Keeps κ s₀ s) : Keeps κ s₀ (s.setTrip new) :=
  .ite h h.put.evS

theorem Keeps.tripTwo (h : Keeps κ s₀ s) : Keeps κ s₀ s.tripTwo :=
  h.pwr.setEff.lowerCap

theorem execJunctionSample_answers {hub deep : Nat} {quads : List Nat} {inlet outlet : Nat} (h : Keeps κ s₀ s) :
    Answers κ s₀ (execJunctionSample hub deep quads inlet outlet s) :=
  ⟨_, rfl, h.whenOn (.ite h.pwr.put.put.put.put.setTrip.pwr.enterNadir
    (.ite h.pwr.put.put.put.put.setTrip.tripTwo h.pwr.put.put.put.put.setTrip))⟩

theorem execEffLimitStep_answers (h : Keeps κ s₀ s) : Answers κ s₀ (execEffLimitStep s) :=
  ⟨_, rfl, h.whenOn (.ite h.pwr.setEff h.pwr.setEff)⟩

theorem execJ3ClearTimer_answers (h : Keeps κ s₀ s) : Answers κ s₀ (execJ3ClearTimer s) :=
  ⟨_, rfl, .ite h.setTrip.pwr h⟩

theorem execCoolantCheckExpire_answers {flow : Bool} (h : Keeps κ s₀ s) :
    Answers κ s₀ (execCoolantCheckExpire flow s) :=
  ⟨_, rfl, .ite h.ev h⟩

end Sys2Proof.Machine

end


section
/-!
PROOFS. What every step keeps: the recorder, freezes, resets and what goes on after them.
-/

namespace Sys2Proof.Machine

open Sys2Proof

variable {κ : Bool} {s₀ s t : State}

theorem Keeps.badSector {sec kind : Nat} (h : Keeps κ s₀ s) : Keeps κ s₀ (s.badSector sec kind) :=
  .ite h h.eph.inc.ev

theorem Keeps.genBad (h : Keeps κ s₀ s) : Keeps κ s₀ s.genBad :=
  .eph (.ite h.badSector.put.next h.badSector.put)

theorem Keeps.keepBad (h : Keeps κ s₀ s) : Keeps κ s₀ s.keepBad :=
  .keepEnter (.ite h.badSector.put.next h.badSector.put)

theorem Keeps.dropEvent (h : Keeps κ s₀ s) : Keeps κ s₀ s.dropEvent :=
  .ite h h.eph.ev

theorem Keeps.programOldest {n : Nat} (h : Keeps κ s₀ s) : Keeps κ s₀ (s.programOldest n) :=
  .foldl (fun _ _ h => h.programRec) h.setStaged.put

theorem execRecordProgramComplete_answers {n genFails keepFails : Nat} (h : Keeps κ s₀ s) :
    Answers κ s₀ (execRecordProgramComplete n genFails keepFails s) :=
  ⟨_, rfl, .ite (.dropEvent (.programOldest (.ite (.keepBad (.ite h.genBad h)) (.ite h.genBad h)))) h⟩

theorem execSectorEraseComplete_answers {keep : Bool} {fails : Nat} (h : Keeps κ s₀ s) :
    Answers κ s₀ (execSectorEraseComplete keep fails s) := by
  unfold execSectorEraseComplete
  refine ⟨_, rfl, .ite h (.ite ?_ ?_)⟩
  · split
    · exact h
    · exact .ite h.badSector.keepEnter h.eph
  · split
    · exact h
    · exact .ite h.badSector.eph h.eph

theorem Keeps.saveTime (h : Keeps κ s₀ s) : Keeps κ s₀ s.saveTime :=
  h.eph

theorem execOpTimeSave_answers (h : Keeps κ s₀ s) : Answers κ s₀ (execOpTimeSave s) :=
  ⟨_, rfl, h.whenOn h.saveTime⟩

theorem Keeps.shiftTimers {d : Nat} (h : Keeps κ s₀ s) : Keeps κ s₀ (s.shiftTimers d) :=
  .foldl (fun _ _ h => h.setFn) (.foldl (fun _ _ h => h.setCommit) (.others h rfl))

theorem Keeps.endFreeze (h : Keeps false s₀ s) : Keeps false s₀ s.endFreeze :=
  .ev (.notice (.ite h.put.put.shiftTimers.dropCore.ecl.pins.emit h.put.put.shiftTimers.dropCore.ecl))

theorem Keeps.putJournal {q off : Nat} {b : Byte} (h : Keeps κ s₀ s) : Keeps κ s₀ (s.putJournal q off b) :=
  h.journal

theorem Keeps.putArray {cls idx off : Nat} {b : Byte} (h : Keeps false s₀ s) :
    Keeps false s₀ (s.putArray cls idx off b) := by
  unfold State.putArray
  dsimp only
  refine .ite h ?_
  split
  · exact h.setBytes
  · exact h.setSeal
  · split
    · exact h
    · exact .ite h.setBytes h.setSeal
  · exact h.putJournal
  · exact .ite h.setBytes h.setSeal
  · exact h.ecl
  · exact h.setBytes

theorem Keeps.deposit {addr v : Nat} (h : Keeps false s₀ s) : Keeps false s₀ (s.deposit addr v) :=
  .ite h (.ite (.put (.foldl (fun _ _ h => h.putArray) h)) (.ev (.ecl (.put (.foldl (fun _ _ h => h.putArray) h)))))

theorem execDebugWindowRead_answers {path : Path} {off : Nat} (h : Keeps κ s₀ s) :
    Answers κ s₀ (execDebugWindowRead path off s) :=
  ⟨_, rfl, .ite h.emit h⟩

theorem execDebugWindowWrite_answers {path : Path} {off : Nat} {v : Word} (h : Keeps false s₀ s) :
    Answers false s₀ (execDebugWindowWrite path off v s) :=
  ⟨_, rfl, .ite h.deposit h⟩

theorem execEclFreeze_answers {path : Path} (h : Keeps κ s₀ s) : Answers κ s₀ (execEclFreeze path s) :=
  ⟨_, rfl, .ite h.freezeFrom h⟩

theorem execFreezeNAssert_answers (h : Keeps κ s₀ s) : Answers κ s₀ (execFreezeNAssert s) :=
  ⟨_, rfl, .ite h.pins.freezeFrom h.pins⟩

theorem execFreezeAtReached_answers (h : Keeps κ s₀ s) : Answers κ s₀ (execFreezeAtReached s) :=
  ⟨_, rfl, .ite h.freezeFrom h⟩

theorem Keeps.jtagOut {ir v bits : Nat} (h : Keeps κ s₀ s) : Keeps κ s₀ (s.jtagOut ir v bits) :=
  h.jtag.emit

theorem execBypass_answers {tdi : Bool} (h : Keeps κ s₀ s) : Answers κ s₀ (execBypass tdi s) :=
  ⟨_, rfl, .ite h.jtagOut.jtag h⟩

theorem execIdcode_answers (h : Keeps κ s₀ s) : Answers κ s₀ (execIdcode s) :=
  ⟨_, rfl, .ite h.jtagOut h⟩

theorem execSamplePreload_answers {preload : Nat} (h : Keeps κ s₀ s) : Answers κ s₀ (execSamplePreload preload s) :=
  ⟨_, rfl, .ite h.useFree.jtag.jtagOut h⟩

theorem execExtest_answers (h : Keeps κ s₀ s) : Answers κ s₀ (execExtest s) :=
  ⟨_, rfl, .ite h (.ite h.useFree.jtagOut h.jtagOut)⟩

theorem execJtagEclAddr_answers {v : Word} (h : Keeps κ s₀ s) : Answers κ s₀ (execJtagEclAddr v s) :=
  ⟨_, rfl, .ite h.jtagOut.put h⟩

theorem execJtagEclData_answers {write : Option Word} (h : Keeps false s₀ s) :
    Answers false s₀ (execJtagEclData write s) := by
  unfold execJtagEclData
  refine ⟨_, rfl, .ite (.put ?_) h⟩
  split
  · exact h.jtagOut
  · exact h.jtag.deposit

theorem Keeps.loseWrite {w : DWrite} (h : Keeps false s₀ s) : Keeps false s₀ (s.loseWrite w) :=
  .useFree (.ite h.setBlock h)

theorem Keeps.loseWrites (h : Keeps false s₀ s) : Keeps false s₀ s.loseWrites :=
  .foldl (fun _ _ h => h.loseWrite) h

theorem Keeps.bootRegs {keep : Bool} {b : State} (h : Keeps κ s₀ b) : Keeps κ s₀ (s.bootRegs keep b) := by
  unfold State.bootRegs
  exact .put (.put (.put (.put (.put (.put (.put (.put (.ite h.wr.wr.put.put.put h.wr.wr.put))))))))

theorem Keeps.coldBase {keep : Bool} (h : Keeps false s₀ s) : Keeps false s₀ (s.coldBase keep) := by
  refine Keeps.bootRegs ⟨fun c => ?_, h.pending, h.out, h.free, nofun⟩
  have w := h.canon c
  simp only [State.canon, Bool.and_eq_true] at w ⊢
  obtain ⟨⟨⟨-, hm⟩, hx⟩, -⟩ := w
  exact ⟨⟨⟨rfl, smWf_filter _ _ hm⟩, smWf_filter _ _ hx⟩, rfl⟩

theorem Keeps.orderTiles (h : Keeps κ s₀ s) : Keeps κ s₀ s.orderTiles :=
  .ite h h.flt

theorem Keeps.bootTiles (h : Keeps κ s₀ s) : Keeps κ s₀ s.bootTiles :=
  .foldl (fun _ _ h => .ite h h.put.put.put) (.foldl (fun _ _ h => h.put) h.orderTiles)

theorem Keeps.trainChannel {k c : Nat} (h : Keeps κ s₀ s) : Keeps κ s₀ (s.trainChannel k c) := by
  unfold State.trainChannel
  split
  · exact h
  · refine .ite h (.ite h.evLim3 (.ite h.channelRetired ?_))
    split
    · exact h.put.setChannel.channelRetired
    · exact .ite h.stackOut h.put.put.setStk.channelRetired.ev

theorem Keeps.bootStack {k : Nat} (h : Keeps κ s₀ s) : Keeps κ s₀ (s.bootStack k) :=
  .foldl (fun _ _ h => h.trainChannel) (.setStk
    (.ite (.put (.put (.put (.put (.countChannels (.foldl (fun _ _ h => h.put.put) h))))))
    (.put (.put (.countChannels (.foldl (fun _ _ h => h.put.put) h))))))

theorem Keeps.bootSlices (h : Keeps κ s₀ s) : Keeps κ s₀ s.bootSlices :=
  .foldl (fun _ _ h => .ite h.put.put (.ite h.put (.ite h.put h.put))) h

theorem Keeps.bootStar (h : Keeps κ s₀ s) : Keeps κ s₀ s.bootStar :=
  h.put.put.put.put.put

theorem Keeps.bootDeep (h : Keeps κ s₀ s) : Keeps κ s₀ s.bootDeep :=
  h.put.setCredit.wear.limited

theorem Keeps.bootUnits (h : Keeps κ s₀ s) : Keeps κ s₀ s.bootUnits :=
  .bootDeep (.foldl (fun _ _ h => h.applyRole)
    (.bootStar (.bootSlices (.foldl (fun _ _ h => h.bootStack) (.bootTiles (.ite h h.ev))))))

theorem Keeps.bootImage {k : Nat} (h : Keeps false s₀ s) : Keeps false s₀ (s.bootImage k).1 := by
  unfold State.bootImage
  dsimp only
  split
  · exact h.loadImage.closeSession.setSlot.ev
  · exact h.loadImage.activate.cfg.next.setVolatile.closeSession.ev

theorem Keeps.bootAlmanac (h : Keeps false s₀ s) : Keeps false s₀ s.bootAlmanac :=
  .ite (.iteFst h.bootImage h) (.ite (.setVolatile
    (.nameActive (.iteFst (.bootImage (.iteFst h.bootImage h)) (.iteFst h.bootImage h))))
    (.ev (.setVolatile (.iteFst (.bootImage (.iteFst h.bootImage h)) (.iteFst h.bootImage h)))))

theorem Keeps.running {k : Nat} (h : Keeps κ s₀ s) : Keeps κ s₀ (s.running k) :=
  h.put.put.put.put.useFree.trace.ev

theorem Keeps.bootRom {start : State → State} (h : Keeps κ s₀ s) (hstart : ∀ t, Keeps κ s₀ t → Keeps κ s₀ (start t)) :
    Keeps κ s₀ (s.bootRom start) :=
  .ite ((hstart _ h).running) (.ite ((hstart _ h.ev).running) h.ev.ev.put)

theorem Keeps.reboot (h : Keeps false s₀ s) : Keeps false s₀ s.reboot :=
  h.bootRom (fun _ ht => .ite ht.bootAlmanac ht)

theorem execActivateFirmware_answers (h : Keeps false s₀ s) : Answers false s₀ (execActivateFirmware s) :=
  ⟨_, rfl, h.pldm (.ite h.fw.pldmGo.ev.reboot h.fw.pldmGo.fwActivate)⟩

theorem Keeps.sampleStraps {last : Nat} (h : Keeps κ s₀ s) : Keeps κ s₀ (s.sampleStraps last) :=
  h.put.put.put.put.put

theorem Keeps.bootOn (h : Keeps false s₀ s) : Keeps false s₀ s.bootOn :=
  .bootRom (.bootUnits (.ite (.ev (.useFree (.pwr (.emit (.others h rfl))))) (.emit (.others h rfl))))
    (fun _ ht => ht.bootAlmanac)

theorem Keeps.powerUp (h : Keeps false s₀ s) : Keeps false s₀ s.powerUp :=
  .ite h.put.sampleStraps.bootOn h.put.sampleStraps.phase

theorem Keeps.tryStart (h : Keeps false s₀ s) : Keeps false s₀ s.tryStart :=
  .ite h.powerUp h

theorem execPwrEnRise_answers (h : Keeps false s₀ s) : Answers false s₀ (execPwrEnRise s) :=
  ⟨_, rfl, h.pins.tryStart⟩

theorem execJtagHoldRelease_answers (h : Keeps false s₀ s) : Answers false s₀ (execJtagHoldRelease s) :=
  ⟨_, rfl, .ite h.pins.bootOn h.pins⟩

theorem Keeps.powerOff (h : Keeps false s₀ s) : Keeps false s₀ s.powerOff :=
  .ite h.loseWrites.coldBase.emit h.loseWrites.coldBase

theorem execPwrEnFall_answers (h : Keeps false s₀ s) : Answers false s₀ (execPwrEnFall s) := by
  unfold execPwrEnFall
  refine ⟨_, rfl, ?_⟩
  split
  · exact .phase (.ite h.pins.put h.pins.enterNadir)
  · exact h.pins.powerOff
  · exact h.pins

theorem Keeps.saveDeep (h : Keeps κ s₀ s) : Keeps κ s₀ s.saveDeep :=
  h.tiers

theorem execPowerDownComplete_answers (h : Keeps false s₀ s) : Answers false s₀ (execPowerDownComplete s) :=
  ⟨_, rfl, .ite h.programOldest.saveTime.saveDeep.powerOff.tryStart h⟩

theorem Keeps.inputLost (h : Keeps false s₀ s) : Keeps false s₀ s.inputLost :=
  .pins (.ite h h.powerOff)

theorem execPowerLoss_answers (h : Keeps false s₀ s) : Answers false s₀ (execPowerLoss s) :=
  ⟨_, rfl, h.inputLost⟩

theorem execHardwareThermalTrip_answers (h : Keeps false s₀ s) : Answers false s₀ (execHardwareThermalTrip s) :=
  ⟨_, rfl, .ite h (.emit (.others h.powerOff rfl))⟩

theorem execModuleInsertion_answers (h : Keeps false s₀ s) : Answers false s₀ (execModuleInsertion s) :=
  ⟨_, rfl, h.pins.tryStart⟩

theorem execModuleRemoval_answers (h : Keeps false s₀ s) : Answers false s₀ (execModuleRemoval s) :=
  ⟨_, rfl, h.inputLost.pins⟩

theorem execPaceRefLoss_answers (h : Keeps κ s₀ s) : Answers κ s₀ (execPaceRefLoss s) :=
  ⟨_, rfl, h.pace⟩

theorem execPaceRefResume_answers (h : Keeps false s₀ s) : Answers false s₀ (execPaceRefResume s) :=
  ⟨_, rfl, .ite h (.ite h.pace.inc.stretchEvent h.pace.tryStart)⟩

theorem execMctpControlMessage_answers {eid cmd : Nat} {data : List Byte} (h : Keeps κ s₀ s) :
    Answers κ s₀ (execMctpControlMessage eid cmd data s) :=
  ⟨_, rfl, .ite h.emit h⟩

theorem Keeps.coldReset {last : Nat} (h : Keeps false s₀ s) : Keeps false s₀ (s.coldReset last) :=
  .bootOn (.sampleStraps (.emit (.coldBase (.loseWrites (.ite h.endFreeze h)))))

theorem execColdResetN_answers (h : Keeps false s₀ s) : Answers false s₀ (execColdResetN s) :=
  ⟨_, rfl, .ite h.coldReset h⟩

theorem execHubResetCold_answers {path : Path} (h : Keeps false s₀ s) : Answers false s₀ (execHubResetCold path s) :=
  ⟨_, rfl, .ite h.coldReset h⟩

theorem Keeps.warmUnit {cls idx : Nat} (h : Keeps false s₀ s) : Keeps false s₀ (s.warmUnit cls idx) :=
  .ite h h.drainUnit.unitReset

theorem Keeps.warmStacks (h : Keeps κ s₀ s) : Keeps κ s₀ s.warmStacks :=
  .foldl (fun _ _ h => h.next.setStk) h

theorem Keeps.warmFw (h : Keeps κ s₀ s) : Keeps κ s₀ s.warmFw :=
  h.wr.wr.wr.wr.fw

theorem Keeps.warmReset {last : Nat} (h : Keeps false s₀ s) : Keeps false s₀ (s.warmReset last) :=
  .rejournal (.bootRom (.cfg (.warmFw (.put (.put
    (.foldl (fun _ _ h => h.setTile) (.warmStacks
    (.foldl (fun _ _ h => h.warmUnit) (.linkReset (.put (.ite h.endFreeze h)))))))))) (fun _ ht => ht))

theorem Keeps.partTilesReset {p : Nat} (h : Keeps κ s₀ s) : Keeps κ s₀ (s.partTilesReset p) :=
  .foldl (fun _ _ h => .ite h h.xreqs.setTile.next.put.resetEvent) h

theorem Keeps.partCancel {p : Nat} (h : Keeps false s₀ s) : Keeps false s₀ (s.partCancel p) := by
  unfold State.partCancel
  refine .foldl (fun _ _ h => ?_) (.foldl (fun _ _ h => h.orrEnd)
      (.foldl (fun _ _ h => h.haloEnd) (.foldl (fun _ _ h => .foldl (fun _ _ h => h.completeEntry) h) h)))
  split
  · exact h.collFail
  · exact h

theorem Keeps.partFlush {p : Nat} (h : Keeps false s₀ s) : Keeps false s₀ (s.partFlush p) :=
  .foldl (fun _ _ h => .foldl (fun _ _ h => h.lineOp) h) h

theorem Keeps.partSkip {p c : Nat} {isOpen : Bool} (h : Keeps false s₀ s) : Keeps false s₀ (s.partSkip p c isOpen) :=
  .ite h.resolveStep h

theorem Keeps.partReset {p : Nat} (h : Keeps false s₀ s) : Keeps false s₀ (s.partReset p) := by
  unfold State.partReset
  extract_lets c isOpen t₁ t₂ t₃ t₄ t₅ t₆ t₇ t₈
  have h₁ : Keeps false s₀ t₁ := .foldl (fun _ _ h => .ite h.put h) h
  have h₂ : Keeps false s₀ t₂ := .foldl (fun _ _ h => .ite h h.abandon) h₁
  have h₄ : Keeps false s₀ t₄ := h₂.partSkip.partTilesReset.freeRecs
  clear_value t₄
  have h₅ : Keeps false s₀ t₅ := h₄.others rfl
  have h₆ : Keeps false s₀ t₆ := .foldl (fun _ _ h => h.resetStream) h₅
  have h₇ : Keeps false s₀ t₇ := h₆.partCancel.partFlush.put
  have h₈ : Keeps false s₀ t₈ := .foldl (fun _ _ h => .ite h.put h) h₇
  exact .foldl (fun _ _ h => h.put.put) h₈

theorem Keeps.mirrorAt {path : Path} {off : Nat} {half : Half} {v : Nat} (h : Keeps κ s₀ s) :
    Keeps κ s₀ (s.mirrorAt path off half v) := by
  unfold State.mirrorAt
  split
  · exact h
  · exact h.ctrl h.mirrorWrite

theorem Keeps.regWrite {path : Path} {a : RegAddr} {half : Half} {v : Word} (h : Keeps κ s₀ s) :
    Keeps κ s₀ (s.regWrite path a half v) :=
  .ite (h.fwCommand (fun _ ht => ht)) h.registerWrite

theorem heldRun_answers {i : Instr} (h : Keeps false s₀ s) : Answers false s₀ (heldRun i s) := by
  unfold heldRun
  split
  · exact execQueueEnWrite_answers h
  · exact execQueueRestart_answers h
  · exact execQueueTailWrite_answers h
  · exact execCompletionRingRoom_answers h
  · exact execDoorbell_answers h
  · exact execHeartbeat_answers h
  · exact execLoadBuffer_answers h
  · exact execLoadSlot_answers h
  · exact execCheck_answers h
  · exact execArm_answers h
  · exact ⟨_, rfl, h.cfgDiscard⟩
  · exact execCfgStore_answers h
  · exact execEraseSlot_answers h
  · exact execRevert_answers h
  · exact execCfgConfirm_answers h
  · exact execCfgRaiseSvnFloor_answers h
  · exact execCfgOpUnassigned_answers h
  · exact execStage_answers h
  · exact execActivate_answers h
  · exact execFwConfirm_answers h
  · exact execRollback_answers h
  · exact execFwRaiseSvnFloor_answers h
  · exact execIfSelWrite_answers h
  · exact execResume_answers h
  · exact execTeardown_answers h
  · exact execPortReset_answers h
  · exact execPortRetrain_answers h
  · exact execPortClear_answers h
  · exact execPortCalibrate_answers h
  · exact execRouteFlip_answers h
  · exact ⟨_, rfl, h.regWrite⟩
  · exact ⟨_, rfl, h.windowAccess⟩
  · exact execBar2Write_answers h
  · exact execUnitResetRequest_answers h
  · exact execUnitRetireRequest_answers h
  · exact execClearHistory_answers h
  · exact execOffline_answers h
  · exact execOnline_answers h
  · exact execExerciserStart_answers h
  · exact execExerciserAbort_answers h
  · exact execLlmFlush_answers h
  · exact execLlmInvalidate_answers h
  · exact execLlmFlushInvalidate_answers h
  · exact execPcieReadCompletion_answers h
  · exact execFlushReadComplete_answers h
  · exact execPTierRefused_answers h
  · exact execPcieCompletionPoisoned_answers h
  · exact execPcieCompletionTimeout_answers h
  · exact execQsatCtlWrite_answers h
  · exact execPaceSetWrite_answers h
  · exact ⟨_, rfl, h.mirrorAt⟩
  · exact ⟨_, rfl, h⟩

theorem Keeps.afterRun {o : Host.Outcome State Fault Refusal} (h : Answers κ s₀ o) : Keeps κ s₀ (afterRun s o) := by
  obtain ⟨t, rfl, ht⟩ := h
  exact ht

theorem Keeps.runOne {i : Instr} (h : Keeps false s₀ s) : Keeps false s₀ (s.runOne i) := by
  unfold State.runOne
  split
  · exact h.handUp
  · exact .afterRun (heldRun_answers h)

theorem Keeps.runHeld (h : Keeps false s₀ s) : Keeps false s₀ s.runHeld :=
  .foldl (fun _ _ h => h.runOne) h.ecl

theorem Keeps.keepReset {i : Instr} (h : Keeps κ s₀ s) : Keeps κ s₀ (s.keepReset i) :=
  h.cfg

theorem Keeps.warmRun {last : Nat} (h : Keeps false s₀ s) : Keeps false s₀ (s.warmRun last) :=
  .ite h.warmReset.runHeld h.warmReset

theorem Keeps.tryReset {i : Instr} (h : Keeps false s₀ s) : Keeps false s₀ (s.tryReset i) := by
  unfold State.tryReset
  split
  · exact .ite h.keepReset h.warmRun
  · exact .ite h.keepReset h.warmRun
  · exact .ite h.keepReset (.ite h.partReset h)
  · exact h

theorem Keeps.runResets (h : Keeps false s₀ s) : Keeps false s₀ s.runResets :=
  .foldl (fun _ _ h => h.tryReset) h.cfg

theorem Keeps.settle (h : Keeps false s₀ s) : Keeps false s₀ s.settle :=
  .ite (.ite h h.runResets) (.fwResume (.ite h h.runResets))

theorem execWarmResetN_answers (h : Keeps false s₀ s) : Answers false s₀ (execWarmResetN s) :=
  ⟨_, rfl, .ite h.tryReset h⟩

theorem execHubResetWarm_answers {path : Path} (h : Keeps false s₀ s) : Answers false s₀ (execHubResetWarm path s) :=
  ⟨_, rfl, .ite h.tryReset h⟩

theorem execHubResetPartition_answers {path : Path} {p : Fin 128} (h : Keeps false s₀ s) :
    Answers false s₀ (execHubResetPartition path p s) :=
  ⟨_, rfl, .ite h.tryReset h⟩

theorem Keeps.tryThaw (h : Keeps false s₀ s) : Keeps false s₀ s.tryThaw :=
  .ite h.endFreeze.runHeld.settle h

theorem Keeps.eclResume (h : Keeps false s₀ s) : Keeps false s₀ s.eclResume :=
  h.ecl.tryThaw

theorem execEclResume_answers {path : Path} (h : Keeps false s₀ s) : Answers false s₀ (execEclResume path s) :=
  ⟨_, rfl, .ite h.eclResume h⟩

theorem execFreezeNRelease_answers (h : Keeps false s₀ s) : Answers false s₀ (execFreezeNRelease s) :=
  ⟨_, rfl, .ite h.pins.tryThaw h.pins⟩

theorem execJtagEclCtl_answers {freeze resume : Bool} (h : Keeps false s₀ s) :
    Answers false s₀ (execJtagEclCtl freeze resume s) :=
  ⟨_, rfl, .ite (.ite (.eclResume (.ite h.jtagOut.freezeFrom h.jtagOut)) (.ite h.jtagOut.freezeFrom h.jtagOut)) h⟩

theorem execRegisterWrite_answers {path : Path} {a : RegAddr} {half : Half} {v : Word} (h : Keeps false s₀ s) :
    Answers false s₀ (execRegisterWrite path a half v s) :=
  ⟨_, rfl, h.regWrite.tryThaw.settle⟩

theorem execBar0WindowAccess_answers {off : Nat} {half : Half} {write : Option Word} (h : Keeps false s₀ s) :
    Answers false s₀ (execBar0WindowAccess off half write s) :=
  ⟨_, rfl, h.windowAccess.tryThaw.settle⟩

theorem execMirrorWrite_answers {path : Path} {off : Nat} {half : Half} {v : Word} (h : Keeps false s₀ s) :
    Answers false s₀ (execMirrorWrite path off half v s) :=
  ⟨_, rfl, h.mirrorAt.settle⟩

theorem execDiscard_answers {path : Path} (h : Keeps false s₀ s) : Answers false s₀ (execDiscard path s) :=
  ⟨_, rfl, h.cfgDiscard.settle⟩

theorem execDrainEnd_answers (h : Keeps false s₀ s) : Answers false s₀ (execDrainEnd s) :=
  ⟨_, rfl, h.drainEnd.settle⟩

theorem execDrainLimitExpire_answers (h : Keeps false s₀ s) : Answers false s₀ (execDrainLimitExpire s) :=
  ⟨_, rfl, h.drainLimit.settle⟩

theorem execArmTimeoutExpire_answers (h : Keeps false s₀ s) : Answers false s₀ (execArmTimeoutExpire s) :=
  ⟨_, rfl, h.armTimeout.settle⟩

theorem execModuleMeridianRaise_answers (h : Keeps false s₀ s) : Answers false s₀ (execModuleMeridianRaise s) :=
  ⟨_, rfl, .ite h.moduleMeridian.settle h⟩

theorem execJobReleaseInstant_answers {p : Fin 128} (h : Keeps false s₀ s) :
    Answers false s₀ (execJobReleaseInstant p s) :=
  ⟨_, rfl, .ite h.jobRelease.settle h⟩

theorem execMeridianPacket_answers {rx : Rx} (h : Keeps false s₀ s) : Answers false s₀ (execMeridianPacket rx s) :=
  ⟨_, rfl, h.packetIn.settle⟩

theorem execFwSwitchComplete_answers {selfCheckOk : Bool} (h : Keeps false s₀ s) :
    Answers false s₀ (execFwSwitchComplete selfCheckOk s) :=
  ⟨_, rfl, h.switchEnd.settle⟩

theorem execRollbackComplete_answers (h : Keeps false s₀ s) : Answers false s₀ (execRollbackComplete s) :=
  ⟨_, rfl, h.rollbackEnd.settle⟩

theorem execFwWatchdogExpire_answers {core : Fin 6} (h : Keeps false s₀ s) :
    Answers false s₀ (execFwWatchdogExpire core s) :=
  ⟨_, rfl, h.fwWatchdog.settle⟩

theorem execForcedNadirEnd_answers (h : Keeps false s₀ s) : Answers false s₀ (execForcedNadirEnd s) :=
  ⟨_, rfl, h.nadirEnd.settle⟩

end Sys2Proof.Machine

end


section
/-!
PROOFS. What every step keeps: every command of the table, and one step.
-/

namespace Sys2Proof.Machine

open Sys2Proof

/-- Every command answers a next state, and keeps what `Keeps` names. -/
theorem exec_answers (c : Instr) (s : State) : Answers false s (exec c s) := by
  cases c with
  | accessUnsupportedSize => exact execAccessUnsupportedSize_answers .refl
  | accessOutsideBlocks => exact execAccessOutsideBlocks_answers .refl
  | registerWrite => exact execRegisterWrite_answers .refl
  | rcFieldRead => exact execRcFieldRead_answers .refl
  | extentChangeTakesEffect => exact execExtentChangeTakesEffect_answers .refl
  | bar0WindowAccess => exact execBar0WindowAccess_answers .refl
  | bar2Read => exact execBar2Read_answers .refl
  | bar2Write => exact execBar2Write_answers .refl
  | pTierRefused => exact execPTierRefused_answers .refl
  | pcieCompletionPoisoned => exact execPcieCompletionPoisoned_answers .refl
  | pcieCompletionTimeout => exact execPcieCompletionTimeout_answers .refl
  | contextFree => exact execContextFree_answers .refl
  | loadBuffer => exact execLoadBuffer_answers .refl
  | loadSlot => exact execLoadSlot_answers .refl
  | check => exact execCheck_answers .refl
  | checkComplete => exact execCheckComplete_answers .refl
  | arm => exact execArm_answers .refl
  | discard => exact execDiscard_answers .refl
  | cfgStore => exact execCfgStore_answers .refl
  | revert => exact execRevert_answers .refl
  | cfgConfirm => exact execCfgConfirm_answers .refl
  | eraseSlot => exact execEraseSlot_answers .refl
  | cfgRaiseSvnFloor => exact execCfgRaiseSvnFloor_answers .refl
  | cfgOpUnassigned => exact execCfgOpUnassigned_answers .refl
  | mirrorWrite => exact execMirrorWrite_answers .refl
  | drainEnd => exact execDrainEnd_answers .refl
  | drainLimitExpire => exact execDrainLimitExpire_answers .refl
  | armTimeoutExpire => exact execArmTimeoutExpire_answers .refl
  | trialExpire => exact execTrialExpire_answers .refl
  | directoryWriteComplete => exact execDirectoryWriteComplete_answers .refl
  | qsatCtlWrite => exact execQsatCtlWrite_answers .refl
  | nop => exact execNop_answers .refl
  | endOp => exact execEndOp_answers .refl
  | fence => exact execFence_answers .refl
  | wait => exact execWait_answers .refl
  | waitTimeout => exact execWaitTimeout_answers .refl
  | signal => exact execSignal_answers .refl
  | barrier => exact execBarrier_answers .refl
  | loop => exact execLoop_answers .refl
  | load => exact execLoad_answers .refl
  | gather => exact execGather_answers .refl
  | store => exact execStore_answers .refl
  | scatter => exact execScatter_answers .refl
  | copy => exact execCopy_answers .refl
  | send => exact execSend_answers .refl
  | prefetch => exact execPrefetch_answers .refl
  | mm => exact execMm_answers .refl
  | mmta => exact execMmta_answers .refl
  | vadd => exact execVadd_answers .refl
  | vsub => exact execVsub_answers .refl
  | vmul => exact execVmul_answers .refl
  | vfma => exact execVfma_answers .refl
  | vmax => exact execVmax_answers .refl
  | vmin => exact execVmin_answers .refl
  | vact => exact execVact_answers .refl
  | vcmp => exact execVcmp_answers .refl
  | vsel => exact execVsel_answers .refl
  | vrsum => exact execVrsum_answers .refl
  | vrmax => exact execVrmax_answers .refl
  | vtopk => exact execVtopk_answers .refl
  | vcvt => exact execVcvt_answers .refl
  | quant => exact execQuant_answers .refl
  | dequant => exact execDequant_answers .refl
  | vtrans => exact execVtrans_answers .refl
  | vfill => exact execVfill_answers .refl
  | vrand => exact execVrand_answers .refl
  | vidx => exact execVidx_answers .refl
  | xadd => exact execXadd_answers .refl
  | xmerge => exact execXmerge_answers .refl
  | xround => exact execXround_answers .refl
  | xzero => exact execXzero_answers .refl
  | sealchk => exact execSealchk_answers .refl
  | macroOpComplete => exact execMacroOpComplete_answers .refl
  | queueEnWrite => exact execQueueEnWrite_answers .refl
  | queueRestart => exact execQueueRestart_answers .refl
  | queueTailWrite => exact execQueueTailWrite_answers .refl
  | completionRingRoom => exact execCompletionRingRoom_answers .refl
  | run => exact execRun_answers .refl
  | meridian => exact execMeridian_answers .refl
  | notify => exact execNotify_answers .refl
  | entryComplete => exact execEntryComplete_answers .refl
  | feedStart => exact execFeedStart_answers .refl
  | streamAccessResume => exact execStreamAccessResume_answers .refl
  | streamWatchdogExpire => exact execStreamWatchdogExpire_answers .refl
  | moduleMeridianRaise => exact execModuleMeridianRaise_answers .refl
  | jobReleaseInstant => exact execJobReleaseInstant_answers .refl
  | meridianTimeout => exact execMeridianTimeout_answers .refl
  | dimTokenSend => exact execDimTokenSend_answers .refl
  | paceSetWrite => exact execPaceSetWrite_answers .refl
  | paceGroupBoundary => exact execPaceGroupBoundary_answers .refl
  | droopTrip => exact execDroopTrip_answers .refl
  | droopClear => exact execDroopClear_answers .refl
  | paceEpoch => exact execPaceEpoch_answers .refl
  | offline => exact execOffline_answers .refl
  | online => exact execOnline_answers .refl
  | sparingCopyComplete => exact execSparingCopyComplete_answers .refl
  | channelUnreadable => exact execChannelUnreadable_answers .refl
  | foldComplete => exact execFoldComplete_answers .refl
  | refresh k pc _ => exact execRefresh_answers (k := k) (pc := pc) .refl
  | stackTempSample => exact execStackTempSample_answers .refl
  | t3HoldExpire => exact execT3HoldExpire_answers .refl
  | exerciserStart => exact execExerciserStart_answers .refl
  | exerciserAbort => exact execExerciserAbort_answers .refl
  | exerciserRunComplete => exact execExerciserRunComplete_answers .refl
  | llmFlush => exact execLlmFlush_answers .refl
  | llmInvalidate => exact execLlmInvalidate_answers .refl
  | llmFlushInvalidate => exact execLlmFlushInvalidate_answers .refl
  | llmOpComplete => exact execLlmOpComplete_answers .refl
  | llmSliceCopyComplete => exact execLlmSliceCopyComplete_answers .refl
  | deferralHeadReadmit => exact execDeferralHeadReadmit_answers .refl
  | deferralWaitLimit => exact execDeferralWaitLimit_answers .refl
  | promotionComplete => exact execPromotionComplete_answers .refl
  | writeBackAck => exact execWriteBackAck_answers .refl
  | dWriteAcknowledge => exact execDWriteAcknowledge_answers .refl
  | garbageCollection => exact execGarbageCollection_answers .refl
  | staticWearLevelling => exact execStaticWearLevelling_answers .refl
  | readDisturbRefresh block _ => exact execReadDisturbRefresh_answers (block := block) .refl
  | retentionRefresh => exact execRetentionRefresh_answers .refl
  | badBlockRetirement => exact execBadBlockRetirement_answers .refl
  | deepRestoreComplete => exact execDeepRestoreComplete_answers .refl
  | governorCreditSave => exact execGovernorCreditSave_answers .refl
  | translationRebuildComplete => exact execTranslationRebuildComplete_answers .refl
  | haloGather => exact execHaloGather_answers .refl
  | update => exact execUpdate_answers .refl
  | haloStepEnd => exact execHaloStepEnd_answers .refl
  | lookahead => exact execLookahead_answers .refl
  | migrate => exact execMigrate_answers .refl
  | swap => exact execSwap_answers .refl
  | loadStats => exact execLoadStats_answers .refl
  | override => exact execOverride_answers .refl
  | replPushTimeout => exact execReplPushTimeout_answers .refl
  | loadWindowEnd => exact execLoadWindowEnd_answers .refl
  | migrationCopyComplete => exact execMigrationCopyComplete_answers .refl
  | rowMapRebuildComplete => exact execRowMapRebuildComplete_answers .refl
  | grad => exact execGrad_answers .refl
  | orrStepEnd => exact execOrrStepEnd_answers .refl
  | setHyper => exact execSetHyper_answers .refl
  | exportOp => exact execExportOp_answers .refl
  | importOp => exact execImportOp_answers .refl
  | skip => exact execSkip_answers .refl
  | rootComputeComplete => exact execRootComputeComplete_answers .refl
  | checkBarrierRelease => exact execCheckBarrierRelease_answers .refl
  | verdictRelease => exact execVerdictRelease_answers .refl
  | parallaxWindowExpire => exact execParallaxWindowExpire_answers .refl
  | signalDetect => exact execSignalDetect_answers .refl
  | trainingStepDone => exact execTrainingStepDone_answers .refl
  | trainingStepTimeout => exact execTrainingStepTimeout_answers .refl
  | signalLost => exact execSignalLost_answers .refl
  | calibrationDue => exact execCalibrationDue_answers .refl
  | calibrationDone => exact execCalibrationDone_answers .refl
  | retrainDone => exact execRetrainDone_answers .refl
  | train => exact execTrain_answers .refl
  | linkAck => exact execLinkAck_answers .refl
  | linkNak => exact execLinkNak_answers .refl
  | replayTimerExpire => exact execReplayTimerExpire_answers .refl
  | errCounterDecay => exact execErrCounterDecay_answers .refl
  | c0MoveComplete => exact execC0MoveComplete_answers .refl
  | portRetrain => exact execPortRetrain_answers .refl
  | portClear => exact execPortClear_answers .refl
  | portCalibrate => exact execPortCalibrate_answers .refl
  | portReset => exact execPortReset_answers .refl
  | portDrainComplete => exact execPortDrainComplete_answers .refl
  | routeFlip => exact execRouteFlip_answers .refl
  | xtTimeoutExpire => exact execXtTimeoutExpire_answers .refl
  | routeWaitExpire => exact execRouteWaitExpire_answers .refl
  | portQueueWaitExpire => exact execPortQueueWaitExpire_answers .refl
  | ethernetFrameReceive => exact execEthernetFrameReceive_answers .refl
  | ethernetResendTimer => exact execEthernetResendTimer_answers .refl
  | readReq => exact execReadReq_answers .refl
  | readRsp => exact execReadRsp_answers .refl
  | writeReq => exact execWriteReq_answers .refl
  | writeAck => exact execWriteAck_answers .refl
  | rowReq => exact execRowReq_answers .refl
  | rowRsp => exact execRowRsp_answers .refl
  | pairs => exact execPairs_answers .refl
  | statusPkt => exact execStatusPkt_answers .refl
  | meridianPacket => exact execMeridianPacket_answers .refl
  | time => exact execTime_answers .refl
  | lodestarTimeSend => exact execLodestarTimeSend_answers .refl
  | lodestarHeartbeatSend => exact execLodestarHeartbeatSend_answers .refl
  | constHeartbeat => exact execConstHeartbeat_answers .refl
  | heartbeatLoss => exact execHeartbeatLoss_answers .refl
  | takeoverClaimAck => exact execTakeoverClaimAck_answers .refl
  | constMembership => exact execConstMembership_answers .refl
  | constPoolGrant => exact execConstPoolGrant_answers .refl
  | poolFormTimeout => exact execPoolFormTimeout_answers .refl
  | replRequest => exact execReplRequest_answers .refl
  | replGrant => exact execReplGrant_answers .refl
  | replInvalidation => exact execReplInvalidation_answers .refl
  | replPush => exact execReplPush_answers .refl
  | allReduce => exact execAllReduce_answers .refl
  | reduceScatter => exact execReduceScatter_answers .refl
  | allGather => exact execAllGather_answers .refl
  | allToAll => exact execAllToAll_answers .refl
  | broadcast => exact execBroadcast_answers .refl
  | anyToHome => exact execAnyToHome_answers .refl
  | tokenRoute => exact execTokenRoute_answers .refl
  | groupCreate => exact execGroupCreate_answers .refl
  | groupDestroy => exact execGroupDestroy_answers .refl
  | groupCrcReceive => exact execGroupCrcReceive_answers .refl
  | groupAnswer => exact execGroupAnswer_answers .refl
  | groupTimeoutExpire => exact execGroupTimeoutExpire_answers .refl
  | fusionWatchdogExpire => exact execFusionWatchdogExpire_answers .refl
  | collContribution => exact execCollContribution_answers .refl
  | collResult => exact execCollResult_answers .refl
  | collProgress => exact execCollProgress_answers .refl
  | collResendRequest => exact execCollResendRequest_answers .refl
  | collStatus => exact execCollStatus_answers .refl
  | collTimeoutExpire => exact execCollTimeoutExpire_answers .refl
  | collDimProgressSend => exact execCollDimProgressSend_answers .refl
  | pcieLinkReset => exact execPcieLinkReset_answers .refl
  | functionLevelReset => exact execFunctionLevelReset_answers .refl
  | numvfsReduction => exact execNumvfsReduction_answers .refl
  | doorbell => exact execDoorbell_answers .refl
  | heartbeat => exact execHeartbeat_answers .refl
  | hbTimeoutExpire => exact execHbTimeoutExpire_answers .refl
  | resume => exact execResume_answers .refl
  | teardown => exact execTeardown_answers .refl
  | orphanHoldExpire => exact execOrphanHoldExpire_answers .refl
  | hostCopy => exact execHostCopy_answers .refl
  | flushReadComplete => exact execFlushReadComplete_answers .refl
  | ctxCreate => exact execCtxCreate_answers .refl
  | ctxDestroy => exact execCtxDestroy_answers .refl
  | ctxFence => exact execCtxFence_answers .refl
  | ctxUnfence => exact execCtxUnfence_answers .refl
  | extentSet => exact execExtentSet_answers .refl
  | peerWindow => exact execPeerWindow_answers .refl
  | tableCreate => exact execTableCreate_answers .refl
  | tableDestroy => exact execTableDestroy_answers .refl
  | tableParam => exact execTableParam_answers .refl
  | tableFlush => exact execTableFlush_answers .refl
  | tableCheckpoint => exact execTableCheckpoint_answers .refl
  | tableRestore => exact execTableRestore_answers .refl
  | shardCreate => exact execShardCreate_answers .refl
  | shardDestroy => exact execShardDestroy_answers .refl
  | llmRange => exact execLlmRange_answers .refl
  | pool => exact execPool_answers .refl
  | stepRebase => exact execStepRebase_answers .refl
  | stage => exact execStage_answers .refl
  | stagingComplete => exact execStagingComplete_answers .refl
  | activate => exact execActivate_answers .refl
  | fwSwitchComplete => exact execFwSwitchComplete_answers .refl
  | fwConfirm => exact execFwConfirm_answers .refl
  | rollback => exact execRollback_answers .refl
  | rollbackComplete => exact execRollbackComplete_answers .refl
  | fwTrialWindowExpire => exact execFwTrialWindowExpire_answers .refl
  | fwRaiseSvnFloor => exact execFwRaiseSvnFloor_answers .refl
  | fwWatchdogExpire => exact execFwWatchdogExpire_answers .refl
  | requestUpdate => exact execRequestUpdate_answers .refl
  | passComponentTable => exact execPassComponentTable_answers .refl
  | updateComponent => exact execUpdateComponent_answers .refl
  | requestFirmwareData => exact execRequestFirmwareData_answers .refl
  | transferComplete => exact execTransferComplete_answers .refl
  | verifyComplete => exact execVerifyComplete_answers .refl
  | applyComplete => exact execApplyComplete_answers .refl
  | activateFirmware => exact execActivateFirmware_answers .refl
  | ifSelWrite => exact execIfSelWrite_answers .refl
  | tilePollTimeout _ answers => exact execTilePollTimeout_answers (moverAnswers := answers) .refl
  | unitResetRequest => exact execUnitResetRequest_answers .refl
  | unitRetireRequest => exact execUnitRetireRequest_answers .refl
  | clearHistory => exact execClearHistory_answers .refl
  | unitDrainComplete => exact execUnitDrainComplete_answers .refl
  | starChartWriteComplete => exact execStarChartWriteComplete_answers .refl
  | deferredRetry => exact execDeferredRetry_answers .refl
  | parallaxReplayComplete => exact execParallaxReplayComplete_answers .refl
  | accusationWindowEnd => exact execAccusationWindowEnd_answers .refl
  | noticeAccusation => exact execNoticeAccusation_answers .refl
  | noticeMergedAccusation => exact execNoticeMergedAccusation_answers .refl
  | noticePowerHold => exact execNoticePowerHold_answers .refl
  | noticeFreeze => exact execNoticeFreeze_answers .refl
  | noticeRelease => exact execNoticeRelease_answers .refl
  | pollForPlatformEventMessage => exact execPollForPlatformEventMessage_answers .refl
  | powerStateTick => exact execPowerStateTick_answers .refl
  | plannedWake => exact execPlannedWake_answers .refl
  | powerSample => exact execPowerSample_answers .refl
  | powerLimitTick => exact execPowerLimitTick_answers .refl
  | regulatorAlert => exact execRegulatorAlert_answers .refl
  | forcedNadirEnd => exact execForcedNadirEnd_answers .refl
  | powerLoss => exact execPowerLoss_answers .refl
  | droopDetectorMask => exact execDroopDetectorMask_answers .refl
  | junctionSample => exact execJunctionSample_answers .refl
  | effLimitStep => exact execEffLimitStep_answers .refl
  | j3ClearTimer => exact execJ3ClearTimer_answers .refl
  | hardwareThermalTrip => exact execHardwareThermalTrip_answers .refl
  | coolantCheckExpire => exact execCoolantCheckExpire_answers .refl
  | recordProgramComplete => exact execRecordProgramComplete_answers .refl
  | sectorEraseComplete => exact execSectorEraseComplete_answers .refl
  | opTimeSave => exact execOpTimeSave_answers .refl
  | eclFreeze => exact execEclFreeze_answers .refl
  | eclResume => exact execEclResume_answers .refl
  | freezeNAssert => exact execFreezeNAssert_answers .refl
  | freezeNRelease => exact execFreezeNRelease_answers .refl
  | freezeAtReached => exact execFreezeAtReached_answers .refl
  | debugWindowRead => exact execDebugWindowRead_answers .refl
  | debugWindowWrite => exact execDebugWindowWrite_answers .refl
  | bypass => exact execBypass_answers .refl
  | idcode => exact execIdcode_answers .refl
  | samplePreload => exact execSamplePreload_answers .refl
  | extest => exact execExtest_answers .refl
  | jtagEclAddr => exact execJtagEclAddr_answers .refl
  | jtagEclData => exact execJtagEclData_answers .refl
  | jtagEclCtl => exact execJtagEclCtl_answers .refl
  | pwrEnRise => exact execPwrEnRise_answers .refl
  | jtagHoldRelease => exact execJtagHoldRelease_answers .refl
  | pwrEnFall => exact execPwrEnFall_answers .refl
  | powerDownComplete => exact execPowerDownComplete_answers .refl
  | coldResetN => exact execColdResetN_answers .refl
  | warmResetN => exact execWarmResetN_answers .refl
  | hubResetWarm => exact execHubResetWarm_answers .refl
  | hubResetPartition => exact execHubResetPartition_answers .refl
  | hubResetCold => exact execHubResetCold_answers .refl
  | paceRefLoss => exact execPaceRefLoss_answers .refl
  | paceRefResume => exact execPaceRefResume_answers .refl
  | moduleInsertion => exact execModuleInsertion_answers .refl
  | moduleRemoval => exact execModuleRemoval_answers .refl
  | configurationRequest => exact execConfigurationRequest_answers .refl
  | perstRelease => exact execPerstRelease_answers .refl
  | mctpControlMessage eid _ data => exact execMctpControlMessage_answers (eid := eid) (data := data) .refl
  | interruptDelayExpire => exact execInterruptDelayExpire_answers .refl
  | replAcknowledgement => exact execReplAcknowledgement_answers .refl
  | replDrop => exact execReplDrop_answers .refl
  | laneSignalLost => exact execLaneSignalLost_answers .refl
  | priorityFlowControlFrame => exact execPriorityFlowControlFrame_answers .refl
  | unitStopsAnswering => exact execUnitStopsAnswering_answers .refl
  | creditAccrual => exact execCreditAccrual_answers .refl
  | almanacProgramComplete => exact execAlmanacProgramComplete_answers .refl
  | pcieReadCompletion => exact execPcieReadCompletion_answers .refl

/-- The commands of registers alone keep memory and seals too. -/
theorem exec_registersOnly_answers (c : Instr) (s : State) (h : Instr_registersOnly c = true) :
    Answers true s (exec c s) := by
  cases c
  case rcFieldRead => exact execRcFieldRead_answers .refl
  case contextFree => exact execContextFree_answers .refl
  case loadBuffer => exact execLoadBuffer_answers .refl
  case loadSlot => exact execLoadSlot_answers .refl
  case check => exact execCheck_answers .refl
  case arm => exact execArm_answers .refl
  case revert => exact execRevert_answers .refl
  case cfgConfirm => exact execCfgConfirm_answers .refl
  case cfgRaiseSvnFloor => exact execCfgRaiseSvnFloor_answers .refl
  case cfgOpUnassigned => exact execCfgOpUnassigned_answers .refl
  case nop => exact execNop_answers .refl
  case fence => exact execFence_answers .refl
  case wait => exact execWait_answers .refl
  case waitTimeout => exact execWaitTimeout_answers .refl
  case loop => exact execLoop_answers .refl
  case queueEnWrite => exact execQueueEnWrite_answers .refl
  case paceSetWrite => exact execPaceSetWrite_answers .refl
  case paceGroupBoundary => exact execPaceGroupBoundary_answers .refl
  case droopTrip => exact execDroopTrip_answers .refl
  case droopClear => exact execDroopClear_answers .refl
  case paceEpoch => exact execPaceEpoch_answers .refl
  case offline => exact execOffline_answers .refl
  case online => exact execOnline_answers .refl
  case refresh k pc _ => exact execRefresh_answers (k := k) (pc := pc) .refl
  case t3HoldExpire => exact execT3HoldExpire_answers .refl
  case exerciserStart => exact execExerciserStart_answers .refl
  case exerciserAbort => exact execExerciserAbort_answers .refl
  case exerciserRunComplete => exact execExerciserRunComplete_answers .refl
  case llmFlush => exact execLlmFlush_answers .refl
  case llmInvalidate => exact execLlmInvalidate_answers .refl
  case llmFlushInvalidate => exact execLlmFlushInvalidate_answers .refl
  case governorCreditSave => exact execGovernorCreditSave_answers .refl
  case replPushTimeout => exact execReplPushTimeout_answers .refl
  case loadWindowEnd => exact execLoadWindowEnd_answers .refl
  case rowMapRebuildComplete => exact execRowMapRebuildComplete_answers .refl
  case signalDetect => exact execSignalDetect_answers .refl
  case calibrationDone => exact execCalibrationDone_answers .refl
  case errCounterDecay => exact execErrCounterDecay_answers .refl
  case portDrainComplete => exact execPortDrainComplete_answers .refl
  case routeFlip => exact execRouteFlip_answers .refl
  case collDimProgressSend => exact execCollDimProgressSend_answers .refl
  case heartbeat => exact execHeartbeat_answers .refl
  case requestUpdate => exact execRequestUpdate_answers .refl
  case passComponentTable => exact execPassComponentTable_answers .refl
  case updateComponent => exact execUpdateComponent_answers .refl
  case requestFirmwareData => exact execRequestFirmwareData_answers .refl
  case transferComplete => exact execTransferComplete_answers .refl
  case starChartWriteComplete => exact execStarChartWriteComplete_answers .refl
  case deferredRetry => exact execDeferredRetry_answers .refl
  case plannedWake => exact execPlannedWake_answers .refl
  case powerSample => exact execPowerSample_answers .refl
  case regulatorAlert => exact execRegulatorAlert_answers .refl
  case junctionSample => exact execJunctionSample_answers .refl
  case effLimitStep => exact execEffLimitStep_answers .refl
  case j3ClearTimer => exact execJ3ClearTimer_answers .refl
  case coolantCheckExpire => exact execCoolantCheckExpire_answers .refl
  case sectorEraseComplete => exact execSectorEraseComplete_answers .refl
  case opTimeSave => exact execOpTimeSave_answers .refl
  case eclFreeze => exact execEclFreeze_answers .refl
  case freezeNAssert => exact execFreezeNAssert_answers .refl
  case freezeAtReached => exact execFreezeAtReached_answers .refl
  case debugWindowRead => exact execDebugWindowRead_answers .refl
  case bypass => exact execBypass_answers .refl
  case idcode => exact execIdcode_answers .refl
  case samplePreload => exact execSamplePreload_answers .refl
  case extest => exact execExtest_answers .refl
  case jtagEclAddr => exact execJtagEclAddr_answers .refl
  case paceRefLoss => exact execPaceRefLoss_answers .refl
  case configurationRequest => exact execConfigurationRequest_answers .refl
  case perstRelease => exact execPerstRelease_answers .refl
  case interruptDelayExpire => exact execInterruptDelayExpire_answers .refl
  case priorityFlowControlFrame => exact execPriorityFlowControlFrame_answers .refl
  case creditAccrual => exact execCreditAccrual_answers .refl
  all_goals cases h

theorem step_of_pending_eq_nil {s : State} (h : s.pending = []) : step s = .next s := by
  unfold step
  rw [h]

theorem step_of_pending_eq_cons {s : State} {c : Instr} {rest : List Instr} (h : s.pending = c :: rest) :
    step s = exec c { s with pending := rest } := by
  unfold step
  rw [h]

/-- A step that runs a command keeps what `Keeps` names of the state with the queue's rest. -/
theorem keeps_of_step_eq_next {s t : State} (h : step s = .next t) : Keeps false { s with pending := s.pending.tail } t := by
  cases hp : s.pending with
  | nil =>
    cases (step_of_pending_eq_nil hp).symm.trans h
    exact ⟨id, by simp [hp], List.prefix_rfl, le_rfl, fun _ => ⟨rfl, rfl⟩⟩
  | cons c rest =>
    rw [step_of_pending_eq_cons hp] at h
    obtain ⟨u, hu, k⟩ := exec_answers c { s with pending := rest }
    cases hu.symm.trans h
    exact k

end Sys2Proof.Machine

/-! ## The obligations -/

open Sys2Proof Sys2Proof.Machine

/-- Settles O1: the two branches of `step`, on the front command and on an empty queue. -/
theorem stepRunsFrontCommand : Obligations.StepRunsFrontCommand :=
  ⟨fun c s => step_of_pending_eq_cons (s := { s with pending := c :: s.pending }) rfl, fun _ => step_of_pending_eq_nil⟩

/-- Settles O2. -/
theorem everyCommandAnswersNext : Obligations.EveryCommandAnswersNext := by
  intro c s
  obtain ⟨t, ht, -⟩ := exec_answers c s
  exact ⟨t, ht⟩

/-- Settles O4: the queue is no part of the canonical form, and the front command's effect keeps it. -/
theorem stepKeepsCanonicalForm : Obligations.StepKeepsCanonicalForm :=
  fun _ _ hcanon h => (keeps_of_step_eq_next h).canon hcanon

/-- Settles O5. -/
theorem stepTakesOneCommand : Obligations.StepTakesOneCommand := fun _ _ h => (keeps_of_step_eq_next h).pending

/-- Settles O6. -/
theorem stepOnlyAppends : Obligations.StepOnlyAppends :=
  fun _ _ h => ⟨(keeps_of_step_eq_next h).out, (keeps_of_step_eq_next h).free⟩

/-- Settles O59: commands of registers alone leave the two maps that hold bytes and seals as they were. -/
theorem registerCommandsKeepMemory : Obligations.RegisterCommandsKeepMemory := by
  intro s t c hc h sp a
  obtain ⟨u, hu, k⟩ := exec_registersOnly_answers c s hc
  cases hu.symm.trans h
  obtain ⟨hmem, hseals⟩ := k.memory rfl
  simp only [State.byte, State.sealOf, hmem, hseals, and_self]

end

section
/-!
PROOFS. The staging ring when it is full (R419), and the severity of a CPER record (R390, log 93).
-/

namespace Sys2Proof.Machine

open Sys2Proof

/-! ## What a full ring gives up -/

/-- The severity that gives way: the least one staged, below the arrival's and below Fatal. -/
theorem victimSev_eq_some {sev v : Nat} {l : List EphRec} :
    victimSev sev l = some v ↔
      (v < sev ∧ ∃ x ∈ l, x.sev = v) ∧ v < 3 ∧ ∀ u < v, sev ≤ u ∨ ∀ x ∈ l, x.sev ≠ u := by
  simp [victimSev, List.find?_filter, List.find?_range_eq_some]

theorem victimSev_eq_none {sev : Nat} {l : List EphRec} :
    victimSev sev l = none ↔ ∀ u < 3, u < sev → ∀ x ∈ l, x.sev ≠ u := by
  simp [victimSev, List.find?_filter]

theorem length_dropFirstSev {v : Nat} {l : List EphRec} (h : ∃ x ∈ l, x.sev = v) :
    (dropFirstSev v l).length + 1 = l.length := by
  induction l with
  | nil => simp at h
  | cons r rs ih =>
    by_cases hr : r.sev = v
    · simp [dropFirstSev, hr]
    · have hrs : ∃ x ∈ rs, x.sev = v := by simpa [hr] using h
      simp [dropFirstSev, hr, ih hrs]

/-- A record of another severity is there as often as before. -/
theorem count_dropFirstSev {v : Nat} {x : EphRec} (l : List EphRec) (h : x.sev ≠ v) :
    (dropFirstSev v l).count x = l.count x := by
  induction l with
  | nil => rfl
  | cons r rs ih =>
    by_cases hr : r.sev = v
    · have hne : r ≠ x := fun e => h (e ▸ hr)
      simp [dropFirstSev, hr, List.count_cons_of_ne hne]
    · simp [dropFirstSev, hr, List.count_cons, ih]

/-! ## An arrival at a full ring -/

section
variable {s : State} {r : EphRec} (hfull : s.eph.staged.length = 4096)
include hfull

theorem State.stage_of_victim {v : Nat} (h : victimSev r.sev s.eph.staged = some v) :
    s.stage r = (s.countDrop v).setStaged (dropFirstSev v s.eph.staged ++ [r]) := by
  rw [State.stage, State.stageWith]
  dsimp only
  rw [if_neg (by omega), h]

theorem State.stage_of_no_victim (h : victimSev r.sev s.eph.staged = none) (hr : r.sev ≠ 3) :
    s.stage r = s.countDrop r.sev := by
  rw [State.stage, State.stageWith]
  dsimp only
  rw [if_neg (by omega), h]
  exact if_neg hr

/-- A Fatal arrival at a ring of Fatals takes the place of the oldest. -/
theorem State.stage_staged_of_fatal (h : victimSev r.sev s.eph.staged = none) (hr : r.sev = 3) :
    (s.stage r).eph.staged = s.eph.staged.tail ++ [r] := by
  rw [State.stage, State.stageWith]
  dsimp only
  rw [if_neg (by omega), h]
  dsimp only
  rw [if_pos hr]
  cases s.eph.staged with
  | nil => rfl
  | cons o rest => exact State.setStaged_staged _ _

end

theorem State.countDrop_staged (s : State) (v : Nat) : (s.countDrop v).eph.staged = s.eph.staged := rfl

theorem dropFld_cases (v : Nat) :
    dropFld v = EPH_DROPPED_NOTE ∨ dropFld v = EPH_DROPPED_WARNING ∨ dropFld v = EPH_DROPPED_FAULT := by
  unfold dropFld
  split_ifs <;> simp

/-- A drop counter saturates. -/
theorem State.countDrop_get (s : State) (v : Nat) :
    (s.countDrop v).get (dropFld v) = min 0xFFFF (s.get (dropFld v) + 1) := by
  have hw : (dropFld v).lo ≤ (dropFld v).hi ∧ (dropFld v).hi < 64 ∧ fldMax (dropFld v) = 0xFFFF := by
    obtain h | h | h := dropFld_cases v <;> rw [h] <;> decide
  obtain ⟨hlo, h64, hmax⟩ := hw
  have hsat : satAdd 0xFFFF (s.get (dropFld v)) 1 = min 0xFFFF (s.get (dropFld v) + 1) := by
    unfold satAdd
    split_ifs <;> omega
  rw [State.countDrop, State.inc, hmax]
  refine (State.put_get_eq _ hlo h64 ?_).trans hsat
  have hwidth : 2 ^ ((dropFld v).hi + 1 - (dropFld v).lo) = 2 ^ 16 := by
    obtain h | h | h := dropFld_cases v <;> rw [h] <;> rfl
  rw [hwidth]
  exact hsat ▸ (min_le_left _ _).trans_lt (by decide)

theorem State.setStaged_get_dropFld (s : State) (l : List EphRec) (v : Nat) :
    (s.setStaged l).get (dropFld v) = s.get (dropFld v) := by
  obtain h | h | h := dropFld_cases v <;> rw [h] <;> exact State.setStaged_get_other _ _ (by decide) (by decide)

theorem State.setStaged_countDrop_get (s : State) (l : List EphRec) (v : Nat) :
    ((s.countDrop v).setStaged l).get (dropFld v) = min 0xFFFF (s.get (dropFld v) + 1) := by
  rw [State.setStaged_get_dropFld, State.countDrop_get]

/-- The ring never grows beyond its size. -/
theorem State.stage_staged_length_le {s : State} (r : EphRec) (h : s.eph.staged.length ≤ 4096) :
    (s.stage r).eph.staged.length ≤ 4096 := by
  rcases h.lt_or_eq with hroom | hfull
  · rw [State.stage_of_room r hroom, State.setStaged_staged, List.length_append]
    exact hroom
  · cases hv : victimSev r.sev s.eph.staged with
    | some v =>
      have hl := length_dropFirstSev (victimSev_eq_some.mp hv).1.2
      rw [State.stage_of_victim hfull hv, State.setStaged_staged, List.length_append, List.length_singleton, hl, hfull]
    | none =>
      by_cases hr : r.sev = 3
      · rw [State.stage_staged_of_fatal hfull hv hr]
        simp [hfull]
      · rw [State.stage_of_no_victim hfull hv hr, State.countDrop_staged, hfull]

/-- An arrival below Fatal displaces no record at least as severe as itself. -/
theorem State.count_le_count_stage {s : State} {r x : EphRec} (h : s.eph.staged.length ≤ 4096) (hr : r.sev ≤ 2)
    (hx : r.sev ≤ x.sev) : s.eph.staged.count x ≤ (s.stage r).eph.staged.count x := by
  rcases h.lt_or_eq with hroom | hfull
  · rw [State.stage_of_room r hroom, State.setStaged_staged, List.count_append]
    exact Nat.le_add_right _ _
  · cases hv : victimSev r.sev s.eph.staged with
    | some v =>
      have hne : x.sev ≠ v := by
        obtain ⟨⟨hlt, -⟩, -⟩ := victimSev_eq_some.mp hv
        omega
      rw [State.stage_of_victim hfull hv, State.setStaged_staged, List.count_append, count_dropFirstSev _ hne]
      exact Nat.le_add_right _ _
    | none => rw [State.stage_of_no_victim hfull hv (by omega), State.countDrop_staged]

end Sys2Proof.Machine

/-! ## The obligations -/

open Sys2Proof Sys2Proof.Machine

/-- Settles O52: the chain of conditions on the action, the code and the severity. -/
theorem cperSeverityFollowsAction : Obligations.CperSeverityFollowsAction := by
  intro c
  unfold cperSeverity
  refine ⟨?corrected, ?recoverable, ?fatal, ?other⟩
  case corrected => exact fun h => if_pos h
  case recoverable => rintro (h | h) <;> simp [h]
  case fatal => rintro (h | h) <;> simp [h]
  case other =>
    intro h
    rw [if_neg (by omega), if_neg (by omega)]
    refine ⟨?parallax, ?severe, ?rest⟩
    case parallax => exact fun hc => if_pos (.inr (.inr hc))
    case severe => exact fun hc hs => by rw [if_neg (by omega), if_pos hs]
    case rest => exact fun hc hs => by rw [if_neg (by omega), if_neg hs]

/-- Settles O56: a ring with room, then a full one with and without a less severe record. -/
theorem stagingRingKeepsSevere : Obligations.StagingRingKeepsSevere := by
  refine ⟨?size, ?room, ?victim, ?dropped, ?kept⟩
  case size => exact fun s r => State.stage_staged_length_le r
  case room =>
    intro s r h
    rw [State.stage_of_room r h, State.setStaged_staged]
  case victim =>
    intro s r v hfull hr hv hmem hleast
    have hvictim : victimSev r.sev s.eph.staged = some v :=
      victimSev_eq_some.mpr ⟨⟨hv, hmem⟩, by omega, fun u hu => .inr fun x hx => by have := hleast x hx; omega⟩
    rw [State.stage_of_victim hfull hvictim]
    exact ⟨State.setStaged_staged _ _, State.setStaged_countDrop_get _ _ _⟩
  case dropped =>
    intro s r hfull hr hleast
    have hnone : victimSev r.sev s.eph.staged = none :=
      victimSev_eq_none.mpr fun u _ hu x hx => by have := hleast x hx; omega
    rw [State.stage_of_no_victim hfull hnone (by omega)]
    exact ⟨State.countDrop_staged _ _, State.countDrop_get _ _⟩
  case kept => exact fun s r x => State.count_le_count_stage

end

section
/-!
PROOFS. Collectives (12_collectives_and_reproducibility.md R288 to R299, R307): what takes the descriptor at a channel's head,
and the time limits of groups, of fused sets and of operations.
-/

namespace Sys2Proof.Machine

open Sys2Proof

/-! ## The head of a channel -/

/-- What the premise of a channel's head says, in the order in which the head is checked. -/
theorem State.collHeadReady_iff {s : State} {q c op : Nat} {e : Entry} :
    s.collHeadReady q c op e = true ↔
      s.ringHas (.collCh q c) = true ∧ s.ringEntry (.collCh q c) = some e ∧
      s.pairRuns (.collCh q c) (s.get (COLL_CH_CFG_PARTITION q c)) (Entry_bits e 1 63 32) = true ∧
      s.collBad q c e = false ∧ ceOp e = op := by
  simp [State.collHeadReady, and_assoc]

section
variable {s : State} {q c op : Nat} {e : Entry} {g : Group}

/-- A GROUP_CREATE at the head is taken after the open fused set has closed. -/
theorem State.collHead_groupCreate (h : s.collHeadReady q c 0x10 e = true) :
    s.collHead q c 0x10 = (((s.closeUnfit q c false e).advance (.collCh q c) 1).groupCreate q c
      ((s.closeUnfit q c false e).get (qHead (.collCh q c))) e) := by
  obtain ⟨hhas, hentry, hruns, hgood, hop⟩ := State.collHeadReady_iff.mp h
  unfold State.collHead
  dsimp only [State.take]
  rw [if_neg (by simp [hhas]), hentry]
  dsimp only
  rw [if_neg (by simp [hruns]), if_neg (by simp [hgood]), if_neg (not_not_intro hop), if_pos rfl]

variable (hg : s.groupAt q c (Entry_bits e 0 47 32) = some g) (hformed : g.formed = true)
include hg hformed

/-- A GROUP_DESTROY of a formed group is taken after the open fused set has closed. -/
theorem State.collHead_groupDestroy (h : s.collHeadReady q c 0x11 e = true) :
    s.collHead q c 0x11 = (((s.closeUnfit q c false e).advance (.collCh q c) 1).groupDestroy q c
      ((s.closeUnfit q c false e).get (qHead (.collCh q c))) g.gid) := by
  obtain ⟨hhas, hentry, hruns, hgood, hop⟩ := State.collHeadReady_iff.mp h
  unfold State.collHead
  dsimp only [State.take]
  rw [if_neg (by simp [hhas]), hentry]
  dsimp only
  rw [if_neg (by simp [hruns]), if_neg (by simp [hgood]), if_neg (not_not_intro hop), if_neg (by decide), hg]
  dsimp only
  rw [if_neg (by simp [hformed]), if_pos rfl]

/-- A data operation of a formed group whose gate is open and whose ranges pass is taken and posted. -/
theorem State.collHead_posted {u : State} (h : s.collHeadReady q c op e = true) (hdata : op < 8)
    (hgate : gate (s.committed (s.get (COLL_CH_CFG_PARTITION q c))) (Entry_bits e 1 63 32) (Entry_bits e 0 49 49 == 1) =
      some false)
    (hranges : ((s.advance (.collCh q c) 1).closeUnfit q c true e).collRanges g (s.get (qHead (.collCh q c))) e =
      (u, true)) :
    s.collHead q c op = u.collPost q c (s.get (qHead (.collCh q c))) e := by
  obtain ⟨hhas, hentry, hruns, hgood, hop⟩ := State.collHeadReady_iff.mp h
  unfold State.collHead
  dsimp only [State.take]
  rw [if_neg (by simp [hhas]), hentry]
  dsimp only
  rw [if_neg (by simp [hruns]), if_neg (by simp [hgood]), if_neg (not_not_intro hop), if_neg (by omega), hg]
  dsimp only
  rw [if_neg (by simp [hformed]), if_neg (by omega), hgate]
  dsimp only
  rw [hranges]

end

/-! ## Time limits -/

section
variable {q : Fin 4} {c : Fin 16} {gid seq : Nat} {s : State} {g : Group} {o : CollOp} (hlive : s.live = true)
include hlive

theorem exec_groupTimeoutExpire_forming (hg : s.groupAt q.val c.val gid = some g) (hforming : g.formed = false) :
    exec (.groupTimeoutExpire q c gid) s =
      .next (if g.rank = 0 then s.groupAnswer g .timeout else s.groupEnd g .timeout) := by
  change Host.Outcome.next (whenLive s _) = _
  rw [whenLive_of_live _ hlive, hg]
  dsimp only
  rw [if_neg (by simp [hforming])]

theorem exec_fusionWatchdogExpire_open {f : Nat × Nat × List Entry × List Nat}
    (hf : (s.coll.fused.find? fun f => f.1 == q.val && f.2.1 == c.val) = some f) :
    exec (.fusionWatchdogExpire q c) s = .next (f.2.2.2.foldl (fun (t : State) i =>
      t.complete (.collCh q.val c.val) i (Entry_bits (f.2.2.1.headD 0) 1 63 32) .timeout 0 0)
      { s with coll := { s.coll with fused := s.coll.fused.erase f } }) := by
  change Host.Outcome.next (whenLive s _) = _
  rw [whenLive_of_live _ hlive, hf]

variable (hg : s.groupAt q.val c.val gid = some g) (ho : s.collAt g seq = some o)
include hg ho

theorem exec_collTimeoutExpire_running (hrun : o.waiting = false) :
    exec (.collTimeoutExpire q c gid seq) s =
      .next (((s.collFail g o .timeout).ev 0xD103 (1 + q.val) 0 gid seq (waitedRank g o)).accuse 2
        (g.ranks.getD (waitedRank g o) 0 % 2 ^ 24 + (0x40 + q.val) * 2 ^ 24) g.part) := by
  change Host.Outcome.next (whenLive s _) = _
  rw [whenLive_of_live _ hlive, hg]
  dsimp only
  rw [ho]
  dsimp only
  rw [if_neg (by simp [hrun])]

/-- A rank with a stack at T2 tells the others that it is slow. -/
theorem exec_collDimProgressSend_slow {k : Nat} (hk : k < 12) (hlevel : s.get (HBM_STACK_STATUS_LEVEL k) = 2) :
    exec (.collDimProgressSend q c gid seq) s = .next (s.opCast g o 2 true 0) := by
  have hslow : ((List.range 12).any fun k => s.get (HBM_STACK_STATUS_LEVEL k) == 2) = true :=
    List.any_eq_true.mpr ⟨k, List.mem_range.mpr hk, by simp [hlevel]⟩
  change Host.Outcome.next (whenLive s _) = _
  rw [whenLive_of_live _ hlive, hg]
  dsimp only
  rw [ho]
  dsimp only
  rw [hslow, Bool.true_or, if_pos rfl]

end

end Sys2Proof.Machine

/-! ## The obligation -/

open Sys2Proof Sys2Proof.Machine

/-- Settles O37: descriptors at the head of a channel, then the four timers. -/
theorem collectivesComplete : Obligations.CollectivesComplete := by
  refine ⟨?data, ?create, ?destroy, ?groupTimeout, ?fusion, ?collTimeout, ?progress⟩
  case data =>
    intro q c s e g op u h hdata hg hformed hgate i t hranges
    have hpost : s.collHead q.val c.val op = u.collPost q.val c.val i e :=
      State.collHead_posted hg hformed h hdata hgate hranges
    refine ⟨?_, ?_, ?_, ?_, ?_, ?_, ?_⟩ <;> rintro rfl <;> exact congrArg Host.Outcome.next hpost
  case create => exact fun q c s e h => congrArg Host.Outcome.next (State.collHead_groupCreate h)
  case destroy => exact fun q c s e g h hg hf => congrArg Host.Outcome.next (State.collHead_groupDestroy hg hf h)
  case groupTimeout =>
    intro q c gid s g hlive hg hforming
    rw [exec_groupTimeoutExpire_forming hlive hg hforming]
    exact ⟨fun hr => by rw [if_pos hr], fun hr => by rw [if_neg hr]⟩
  case fusion => exact fun q c s f hlive => exec_fusionWatchdogExpire_open hlive
  case collTimeout => exact fun q c gid seq s g o hlive hg ho => exec_collTimeoutExpire_running hlive hg ho
  case progress => exact fun q c gid seq s g o k hlive hg ho => exec_collDimProgressSend_slow hlive hg ho

end

section
/-!
PROOFS. Firmware (15_firmware.md R349, R351 to R355; 19_module_connectors_and_power_up.md R433): update commands that are
served at once, the ends of a staging, of a switch and of a trial, and the update protocol of the sideband with the model's
codes (log 78, log 85).  What a rollback records is log 94.
-/

namespace Sys2Proof.Machine

open Sys2Proof

/-! ## Update commands (R351, R352) -/

section
variable {path : Path} {w : Word} {s : State} (h : s.fwReady path = true)
include h

/-- An image of a legal length that its source holds is programmed into the other slot. -/
theorem exec_stage_programs {im : List Byte} (hupd : s.get FW_STATUS_UPD = 0) (hlo : 4224 ≤ bitsOf 63 32 w.toNat)
    (hhi : bitsOf 63 32 w.toNat ≤ 16777216) (hsrc : s.stageSource (bitsOf 63 32 w.toNat) = some im) :
    exec (.stage path w) s = .next ((s.programSlot s.otherSlot im).put FW_STATUS_UPD 1) := by
  change Host.Outcome.next (s.fwStage path w) = _
  rw [State.fwStage, State.fwCommand_ready _ _ _ h (by simp [hupd]) (by simp [hupd])]
  dsimp only
  rw [if_neg (by omega), hsrc]

/-- A staged slot that verifies waits for the switch. -/
theorem exec_activate_verified (hupd : s.get FW_STATUS_UPD = 2) (hstg : s.stg ≠ 4)
    (hver : s.verifyUpdate (s.fwImage s.otherSlot) = 0) :
    exec (.activate path w) s = .next (({ s with fw := { s.fw with
      selfCheck := if bitsOf 31 20 w.toNat = 0 then 600 else bitsOf 31 20 w.toNat
      confirmReq := bitsOf 19 19 w.toNat == 1, switchPending := true } } : State).put FW_STATUS_UPD 3) := by
  change Host.Outcome.next (s.fwActivate path w) = _
  rw [State.fwActivate, State.fwCommand_ready _ _ _ h (by simp [hupd]) (by simp [hupd])]
  dsimp only
  rw [if_neg hstg, if_neg (not_not_intro hver)]

theorem exec_fwConfirm_trial (hupd : s.get FW_STATUS_UPD = 4) :
    exec (.fwConfirm path) s = .next (s.trialCommit.fwDone 3 .done 0) :=
  congrArg Host.Outcome.next (State.fwCommand_ready _ _ _ h (by simp [hupd]) (by simp [hupd]))

theorem exec_rollback_trial (hupd : s.get FW_STATUS_UPD = 4) : exec (.rollback path) s = .next (s.rollbackStart 3) :=
  congrArg Host.Outcome.next (State.fwCommand_ready _ _ _ h (by simp [hupd]) (by simp [hupd]))

theorem exec_fwRaiseSvnFloor_idle (hupd : s.get FW_STATUS_UPD = 0) :
    exec (.fwRaiseSvnFloor path) s = .next ((s.put FW_STATUS_SVN_FLOOR (max (s.get FW_STATUS_SVN_FLOOR)
      (s.get FW_STATUS_SVN))).fwDone 5 .done 0) :=
  congrArg Host.Outcome.next (State.fwCommand_ready _ _ _ h (by simp [hupd]) (by simp [hupd]))

end

/-! ## What ends by itself (R351 to R354) -/

section
variable {s : State} (hlive : s.live = true)
include hlive

theorem exec_stagingComplete_staging (reason : Nat) (hupd : s.get FW_STATUS_UPD = 1) :
    exec (.stagingComplete reason) s = .next ((s.stagingEnd (reason != 8)).fwResume) :=
  congrArg Host.Outcome.next (if_pos (by simp [hlive, hupd]))

/-- The end of a trial's window: a failed check and a CONFIRM that never came both start a rollback. -/
theorem exec_fwTrialWindowExpire_due (checksPassed : Bool) (hupd : s.get FW_STATUS_UPD = 4)
    (hdue : s.fw.trialStart + s.fw.selfCheck * 1000000000 ≤ s.now) :
    exec (.fwTrialWindowExpire checksPassed) s = .next (if !checksPassed then s.rollbackStart 2
      else if s.fw.confirmReq then s.rollbackStart 4 else s.trialCommit) :=
  congrArg Host.Outcome.next (if_pos (by simp [hlive, hupd, hdue]))

/-- A switch whose self-check does not fail at once leaves the update in its trial. -/
theorem exec_fwSwitchComplete_checked (hupd : s.get FW_STATUS_UPD = 3) (hdrain : s.get FW_STATUS_DRAINING = 1) :
    let t := s.switchTo s.otherSlot 4
    let t : State := { t with fw := { t.fw with bootTrial := true, trialStart := s.now } }
    let t := t.ev 0xF105 0 0 (s.get FW_STATUS_GENERATION) s.otherSlot ((s.now - s.fw.heldSince) / 1000)
    exec (.fwSwitchComplete true) s = .next (((t.fwDone 2 .done 0).fwResume.cfgResume).settle) := by
  change Host.Outcome.next (s.switchEnd true).settle = _
  rw [State.switchEnd, if_pos (by simp [hlive, hupd, hdrain])]
  dsimp only
  rw [if_pos rfl]

theorem exec_rollbackComplete_drained (hupd : s.get FW_STATUS_UPD = 5) (hdrain : s.get FW_STATUS_DRAINING = 1) :
    let t := s.switchTo (s.get FW_STATUS_BOOT_SLOT) 0
    let t : State := { t with fw := { t.fw with bootTrial := false } }
    exec .rollbackComplete s = .next (((t.fwDone 4 .done 0).fwResume.cfgResume).settle) := by
  change Host.Outcome.next s.rollbackEnd.settle = _
  rw [State.rollbackEnd, if_pos (by simp [hlive, hupd, hdrain])]

end

theorem exec_fwWatchdogExpire (core : Fin 6) (s : State) :
    exec (.fwWatchdogExpire core) s = .next (s.fwWatchdog core.val).settle := rfl

/-! ## Interface selection (R355) -/

/-- A version that a function may select is selected. -/
theorem exec_ifSelWrite_selected {f v : Nat} {s : State} (hw : s.takesWrites = true) (hf : f < 256) (hmin : s.ifMin ≤ v)
    (hmax : v ≤ s.ifMax) (hmajor : v / 256 = s.ifMax / 256) :
    exec (.ifSelWrite (.vf f) (Fin.ofNat 256 f) v) s = .next (s.put (FW_IF_IF_SEL f) v) := by
  have hval : (Fin.ofNat 256 f).val = f := Nat.mod_eq_of_lt hf
  have hown : (f == (Fin.ofNat 256 f).val) = true := beq_iff_eq.mpr hval.symm
  change Host.Outcome.next (s.ctrl _ (f == (Fin.ofNat 256 f).val) (if s.ifMin ≤ v ∧ v ≤ s.ifMax ∧ v / 256 = s.ifMax / 256 then
    s.put (FW_IF_IF_SEL (Fin.ofNat 256 f).val) v else _)) = _
  rw [State.ctrl_takesWrites _ _ hw hown, if_pos ⟨hmin, hmax, hmajor⟩, hval]

/-- A version above the highest is refused with an event. -/
theorem exec_ifSelWrite_refused {v : Nat} {s : State} (hw : s.takesWrites = true) (hmax : s.ifMax < v) :
    exec (.ifSelWrite .pf0 0 v) s = .next (s.evLim3 0xF10A 0 0 0 0 v s.ifMax) := by
  change Host.Outcome.next (s.ctrl _ true (if s.ifMin ≤ v ∧ v ≤ s.ifMax ∧ v / 256 = s.ifMax / 256 then _
    else s.evLim3 0xF10A 0 0 0 0 v s.ifMax)) = _
  rw [State.ctrl_takesWrites _ _ hw rfl, if_neg (by omega)]

/-! ## The update protocol of the sideband (R349) -/

/-- A request of the protocol in the state that it belongs to has its own effect. -/
theorem State.pldm_in_state {s : State} {cmd state : Nat} (body : State) (hon : s.pldmOn = true)
    (hstate : s.fw.pldm = state) : s.pldm cmd state body = body := by
  rw [State.pldm, if_neg (by simp [hon]), if_neg fun hclosed => hclosed.2 (hstate ▸ hclosed.1), if_neg (not_not_intro hstate)]

section
variable {s : State} (hon : s.pldmOn = true)
include hon

theorem exec_requestUpdate_opens {n : Nat} (hpldm : s.fw.pldm = 0) (hn : 32 ≤ n) (hupd : s.get FW_STATUS_UPD = 0) :
    exec (.requestUpdate n) s = .next (({ s with fw := { s.fw with
      fromSideband := true, staging := [], pldmGot := 0, pldmSize := 0 } } : State).pldmGo 0x10 1) := by
  change Host.Outcome.next (s.pldm 0x10 0 _) = _
  rw [State.pldm_in_state _ hon hpldm, if_neg (Nat.not_lt.mpr hn), if_pos (.inl hupd)]

theorem exec_passComponentTable_one (hpldm : s.fw.pldm = 1) :
    exec (.passComponentTable 1) s = .next (s.pldmGo 0x13 2) :=
  congrArg Host.Outcome.next (State.pldm_in_state _ hon hpldm)

theorem exec_updateComponent_legal {size : Nat} (hpldm : s.fw.pldm = 2) (hlo : 4224 ≤ size) (hhi : size ≤ 16777216) :
    exec (.updateComponent size) s =
      .next (({ s with fw := { s.fw with pldmSize := size } } : State).pldmGo 0x14 3) := by
  change Host.Outcome.next (s.pldm 0x14 2 _) = _
  rw [State.pldm_in_state _ hon hpldm, if_pos ⟨hlo, hhi⟩]

/-- The next part of the image, within its size, is kept. -/
theorem exec_requestFirmwareData_next {data : List Byte} (hpldm : s.fw.pldm = 3)
    (hfits : s.fw.pldmGot + data.length ≤ s.fw.pldmSize) :
    exec (.requestFirmwareData s.fw.pldmGot data) s = .next (({ s with fw := { s.fw with
      staging := s.fw.staging ++ data, pldmGot := s.fw.pldmGot + data.length } } : State).pldmAnswer 0x15 0) := by
  change Host.Outcome.next (s.pldm 0x15 3 _) = _
  rw [State.pldm_in_state _ hon hpldm, if_neg (by omega)]

/-- A whole image is programmed as by STAGE. -/
theorem exec_transferComplete_whole (hpldm : s.fw.pldm = 3) (hgot : s.fw.pldmGot = s.fw.pldmSize)
    (hrun : s.get FW_STATUS_STATE = 2) :
    let t := (s.programSlot s.pldmSlot s.fw.staging).put FW_STATUS_UPD 1
    exec (.transferComplete 0) s = .next (({ t with fw := { t.fw with staging := [] } } : State).pldmGo 0x16 4) := by
  change Host.Outcome.next (s.pldm 0x16 3 _) = _
  rw [State.pldm_in_state _ hon hpldm, if_neg (by omega)]
  dsimp only
  rw [if_neg (by omega)]

theorem exec_verifyComplete_verified (hpldm : s.fw.pldm = 4) (hrun : s.get FW_STATUS_STATE = 2)
    (hstaged : (s.stagingEnd true).get FW_STATUS_UPD = 2) :
    exec (.verifyComplete 0) s = .next ((s.stagingEnd true).pldmGo 0x17 5) := by
  change Host.Outcome.next (s.pldm 0x17 4 _) = _
  rw [State.pldm_in_state _ hon hpldm, if_neg (by omega)]
  exact congrArg Host.Outcome.next (if_pos hstaged)

theorem exec_applyComplete_applied (hpldm : s.fw.pldm = 5) :
    exec (.applyComplete 0) s = .next (({ s with fw := { s.fw with
      slotGood := smSet (fun k => k == 0) s.fw.slotGood s.pldmSlot true } } : State).pldmGo 0x18 6) :=
  congrArg Host.Outcome.next (State.pldm_in_state _ hon hpldm)

/-- While the firmware runs the protocol's last request drives ACTIVATE. -/
theorem exec_activateFirmware_running (hpldm : s.fw.pldm = 6) (hrun : s.get FW_STATUS_STATE = 2) :
    exec .activateFirmware s = .next (((({ s with fw := { s.fw with fromSideband := false } } : State).pldmGo 0x1A 0)).fwActivate
      .sideband 2) := by
  change Host.Outcome.next (s.pldm 0x1A 6 _) = _
  rw [State.pldm_in_state _ hon hpldm, if_neg (by omega)]

end

/-- MCTP control messages are answered from power-up on (R433). -/
theorem exec_mctpControlMessage_on (eid cmd : Nat) (data : List Byte) {s : State} (hphase : s.phase ≠ .off) :
    exec (.mctpControlMessage eid cmd data) s =
      .next (s.emit (.mctp 0 (bytesLE 1 cmd ++ bytesLE 1 (if 1 ≤ cmd ∧ cmd ≤ 0x0A then 0 else 5)))) :=
  congrArg Host.Outcome.next (if_pos hphase)

end Sys2Proof.Machine

/-! ## The obligations -/

open Sys2Proof Sys2Proof.Machine

/-- Settles O42: the update commands, what ends by itself, and the selection of an interface version. -/
theorem firmwareCompletes : Obligations.FirmwareCompletes := by
  refine ⟨?stage, ?staged, ?activate, ?settled, ?floor, ?window, ?switch, ?rollback, ?watchdog, ?select, ?refuse⟩
  case stage => exact fun path w s im h => exec_stage_programs h
  case staged => exact fun reason s h => exec_stagingComplete_staging h reason
  case activate => exact fun path w s h => exec_activate_verified h
  case settled => exact fun path s h hupd => ⟨exec_fwConfirm_trial h hupd, exec_rollback_trial h hupd⟩
  case floor => exact fun path s h => exec_fwRaiseSvnFloor_idle h
  case window =>
    intro s h hupd hdue
    have hend := fun ok => exec_fwTrialWindowExpire_due h ok hupd hdue
    refine ⟨?_, fun hfree => ?_, fun hasked => ?_⟩
    · rw [hend, if_pos (by decide)]
    · rw [hend, if_neg (by decide), if_neg (by simp [hfree])]
    · rw [hend, if_neg (by decide), if_pos hasked]
  case switch => exact fun s h => exec_fwSwitchComplete_checked h
  case rollback => exact fun s h => exec_rollbackComplete_drained h
  case watchdog => exact fun core s _ _ => exec_fwWatchdogExpire core s
  case select => exact fun f v s => exec_ifSelWrite_selected
  case refuse => exact fun v s => exec_ifSelWrite_refused

/-- Settles O43: each request in its own state, then the control messages. -/
theorem sidebandUpdateCompletes : Obligations.SidebandUpdateCompletes := by
  refine ⟨?request, ?table, ?component, ?data, ?transfer, ?verify, ?apply, ?activate, ?control⟩
  case request => exact fun n s hon => exec_requestUpdate_opens hon
  case table => exact fun s => exec_passComponentTable_one
  case component => exact fun size s hon => exec_updateComponent_legal hon
  case data => exact fun data s hon => exec_requestFirmwareData_next hon
  case transfer => exact fun s => exec_transferComplete_whole
  case verify => exact fun s => exec_verifyComplete_verified
  case apply => exact fun s => exec_applyComplete_applied
  case activate => exact fun s => exec_activateFirmware_running
  case control => exact fun eid cmd data s => exec_mctpControlMessage_on eid cmd data

end

section
/-!
PROOFS. Repair (16_faults_repair_and_parallax.md R362, R366, R368, R378, R391): requests for a unit by a control path, units
that do not answer, the end of a drain, the Star chart's write, and error records sent again.
-/

namespace Sys2Proof.Machine

open Sys2Proof

/-! ## Requests for a unit (R366, R378) -/

/-- A request by a control path for a unit that exists has its own effect. -/
theorem State.unitRequest_accepted {s : State} {path : Path} {cls idx : Nat} (i : Instr) (t : State)
    (hw : s.takesWrites = true) (hpath : ctrlPath path = true) (hlo : 1 ≤ cls) (hhi : cls ≤ 10)
    (hunit : unitExists cls idx = true) : s.unitRequest path i cls idx t = t := by
  rw [State.unitRequest, State.ctrl_takesWrites _ _ hw rfl, if_neg (by simp [hpath]), if_neg (by omega),
    if_neg (by simp [hunit])]

section
variable {path : Path} {cls idx : Nat} {s : State} (hw : s.takesWrites = true) (hpath : ctrlPath path = true)
include hw hpath

theorem exec_unitResetRequest_accepted (hlo : 1 ≤ cls) (hhi : cls ≤ 10) (hunit : unitExists cls idx = true)
    (hcls : cls = 1 ∨ 5 ≤ cls) : exec (.unitResetRequest path cls idx) s = .next (s.drainUnit cls idx) := by
  change Host.Outcome.next (s.unitRequest path _ cls idx _) = _
  rw [State.unitRequest_accepted _ _ hw hpath hlo hhi hunit, if_neg (by omega)]

theorem exec_unitRetireRequest_tile (hunit : unitExists 1 idx = true) :
    exec (.unitRetireRequest path 1 idx) s = .next (s.retireTile idx) :=
  congrArg Host.Outcome.next
    (State.unitRequest_accepted _ (s.retireTile idx) hw hpath (by decide) (by decide) hunit)

theorem exec_clearHistory_accepted (hlo : 1 ≤ cls) (hhi : cls ≤ 10) (hunit : unitExists cls idx = true) :
    exec (.clearHistory path cls idx) s = .next { s with flt := { s.flt with
      history := s.flt.history.filter fun (h : FaultHist) => !(h.cls == cls && h.idx == idx) } } :=
  congrArg Host.Outcome.next (State.unitRequest_accepted _ _ hw hpath hlo hhi hunit)

end

/-! ## Units that drain or do not answer (R362, R378) -/

section
variable {cls idx : Nat} {s : State} (hlive : s.live = true)
include hlive

theorem exec_unitDrainComplete_reset (hdrain : s.isDraining cls idx = true) (hin : s.isOut cls idx = false)
    (hport : cls ≠ 9) (hslice : cls ≠ 3) : exec (.unitDrainComplete cls idx) s = .next (s.unitReset cls idx) := by
  change Host.Outcome.next (if _ then _ else _) = _
  rw [if_pos (by simp [hlive, hdrain, hin]), if_neg hport, if_neg hslice]

theorem exec_tilePollTimeout_retires {t : Fin 272} (moverAnswers : Bool) (hst : s.get (TILE_STATUS_STATE t.val) ≠ 4) :
    exec (.tilePollTimeout t moverAnswers) s = .next (((s.countFault 1 t.val 2).1).retireTile t.val) := by
  change Host.Outcome.next (if _ then _ else _) = _
  rw [if_pos (by simp [hlive, hst])]

/-- A unit that has stopped answering too few times to be out of service is drained. -/
theorem exec_unitStopsAnswering_drains (hcls : 5 ≤ cls) (hunit : unitExists cls idx = true)
    (hcan : s.canDrain cls idx = true) (hfew : (s.countFault cls idx 3).2 < faultLimit cls 3) :
    exec (.unitStopsAnswering cls idx) s = .next ((s.countFault cls idx 3).1.drainUnit cls idx) := by
  obtain ⟨x, hx⟩ : ∃ x, s.countFault cls idx 3 = x := ⟨_, rfl⟩
  change Host.Outcome.next (if _ then _ else _) = _
  rw [if_pos (by simp [hlive, hcls, hunit, hcan])]
  rw [hx] at hfew ⊢
  dsimp only
  rw [if_neg (Nat.not_le.mpr hfew)]

end

/-! ## The Star chart and the error records (R368, R391) -/

section
variable {s : State} (hon : s.on = true)
include hon

theorem exec_starChartWriteComplete_pending (hpending : s.get HUB_STAR_STATUS_WRITE_PENDING = 1) :
    let n := s.get HUB_STAR_STATUS_SEQ + 1
    let t := (s.put HUB_STAR_STATUS_SEQ n).put HUB_STAR_STATUS_WRITE_PENDING (if 0 < s.flt.writeQueued then 1 else 0)
    exec .starChartWriteComplete s = .next (({ t with flt := { s.flt with
      chart := s.makeChart, starInForce := true, writeQueued := 0, starPendingSince := s.flt.queuedSince
      starPendingCount := s.flt.writeQueued } } : State).ev 0x1109 0 0 n s.flt.starPendingCount
        ((s.now - s.flt.starPendingSince) / 1000000)) := by
  change Host.Outcome.next (if _ then _ else _) = _
  rw [if_pos (by simp [hon, hpending])]

theorem exec_pollForPlatformEventMessage_on (acked : List Nat) :
    exec (.pollForPlatformEventMessage acked) s = .next (({ s with flt := { s.flt with
      undelivered := s.flt.undelivered.filter fun (n : Nat) => !acked.contains n } } : State).emits
        ((s.flt.undelivered.filter fun (n : Nat) => !acked.contains n).map fun n => Output.cper n)) := by
  change Host.Outcome.next (if _ then _ else _) = _
  rw [if_pos hon]

end

end Sys2Proof.Machine

/-! ## The obligation -/

open Sys2Proof Sys2Proof.Machine

/-- Settles O44: requests for units, then what ends or fails by itself, then the two kinds of record. -/
theorem repairCompletes : Obligations.RepairCompletes := by
  refine ⟨?reset, ?retire, ?history, ?drained, ?poll, ?silent, ?chart, ?records⟩
  case reset => exact fun path cls idx s => exec_unitResetRequest_accepted
  case retire => exact fun path idx s => exec_unitRetireRequest_tile
  case history => exact fun path cls idx s => exec_clearHistory_accepted
  case drained => exact fun cls idx s => exec_unitDrainComplete_reset
  case poll => exact fun t m s hlive => exec_tilePollTimeout_retires hlive m
  case silent => exact fun cls idx s => exec_unitStopsAnswering_drains
  case chart => exact fun s => exec_starChartWriteComplete_pending
  case records => exact fun acked s hon => exec_pollForPlatformEventMessage_on hon acked

end

section
/-!
PROOFS. Power and cooling (17_power_pace_and_cooling.md R396, R398, R403 to R405, R407, R409, R410): the choice of power
states, samples and limit ticks, forced Nadir, thermal trips, the coolant checks, and the masking of a droop detector, whose
beat slots are the model's (log 82).
-/

namespace Sys2Proof.Machine

open Sys2Proof

/-! ## Events leave the power controller as it is -/

section
variable {s t : State} {x : Power}

theorem State.ite_pwr {c : Prop} [Decidable c] (hs : s.pwr = x) (ht : t.pwr = x) : (if c then s else t).pwr = x := by
  split
  · exact hs
  · exact ht

theorem State.put_pwr_of {f : Fld} {v : Nat} (h : s.pwr = x) : (s.put f v).pwr = x := (s.put_pwr f v).trans h

theorem State.sendKept_pwr {p : Nat} {k : Kept} (h : s.pwr = x) : (s.sendKept p k).pwr = x :=
  State.ite_pwr h h

theorem State.pumpN_pwr {p n : Nat} (h : s.pwr = x) : (State.pumpN p n s).pwr = x := by
  induction n generalizing s with
  | zero => exact h
  | succ n ih =>
    unfold State.pumpN
    dsimp only
    split
    · exact ih (State.sendKept_pwr h)
    · exact h

theorem State.sendOn_pwr {p part : Nat} {pkt : Packet} (h : s.pwr = x) : (s.sendOn p part pkt).pwr = x :=
  State.ite_pwr (State.pumpN_pwr h) (State.pumpN_pwr h)

theorem State.notice_pwr {payload : List Byte} (h : s.pwr = x) : (s.notice payload).pwr = x :=
  List.foldlRecOn (motive := fun t : State => t.pwr = x) _ _ h fun _ ht _ _ => State.sendOn_pwr ht

theorem State.setStaged_pwr {l : List EphRec} (h : s.pwr = x) : (s.setStaged l).pwr = x := State.put_pwr_of h

theorem State.countDrop_pwr {sev : Nat} (h : s.pwr = x) : (s.countDrop sev).pwr = x := State.put_pwr_of h

theorem State.genWrite_pwr {r : EphRec} (h : s.pwr = x) : (s.genWrite r).pwr = x :=
  State.ite_pwr (State.put_pwr_of (State.put_pwr_of h)) (State.put_pwr_of h)

theorem State.keepPut_pwr {r : EphRec} (h : s.pwr = x) : (s.keepPut r).1.pwr = x :=
  State.ite_pwr (State.put_pwr_of (State.put_pwr_of h)) (State.put_pwr_of h)

theorem State.stageWith_pwr {program : State → EphRec → State} {r : EphRec} (h : s.pwr = x)
    (hprogram : ∀ r, (program s r).pwr = x) : (s.stageWith program r).pwr = x := by
  unfold State.stageWith
  refine State.ite_pwr (State.setStaged_pwr h) ?_
  split
  · exact State.setStaged_pwr (State.countDrop_pwr h)
  · refine State.ite_pwr ?_ (State.countDrop_pwr h)
    split
    · exact State.setStaged_pwr h
    · exact State.setStaged_pwr (State.put_pwr_of (hprogram _))

theorem State.keepCopies_pwr {rs : List EphRec} {total lost : Nat} (h : s.pwr = x) :
    (s.keepCopies rs total lost).1.pwr = x := by
  induction rs generalizing s total lost with
  | nil => exact h
  | cons r rs ih =>
    unfold State.keepCopies
    split
    · exact ih (State.put_pwr_of h)
    · exact ih (State.keepPut_pwr h)

theorem State.keepEnter_pwr (h : s.pwr = x) : s.keepEnter.pwr = x :=
  State.ite_pwr (State.keepCopies_pwr h)
    (State.stageWith_pwr (State.keepCopies_pwr h) fun _ => State.keepCopies_pwr h)

theorem State.keepWrite_pwr {r : EphRec} (h : s.pwr = x) : (s.keepWrite r).pwr = x :=
  State.ite_pwr (State.keepEnter_pwr (State.keepPut_pwr h)) (State.keepPut_pwr h)

theorem State.programRec_pwr {r : EphRec} (h : s.pwr = x) : (s.programRec r).pwr = x :=
  State.ite_pwr (State.keepWrite_pwr (State.genWrite_pwr h)) (State.genWrite_pwr h)

theorem State.stage_pwr {r : EphRec} (h : s.pwr = x) : (s.stage r).pwr = x :=
  State.stageWith_pwr h fun _ => State.programRec_pwr h

theorem State.freezeFrom_pwr {src : Nat} (h : s.pwr = x) : (s.freezeFrom src).pwr = x := by
  unfold State.freezeFrom
  extract_lets t₁ ecl t₂ t₃
  have h₁ : t₁.pwr = x :=
    State.put_pwr_of ((State.inc_pwr _ _ _).trans (State.put_pwr_of (State.put_pwr_of h)))
  have h₂ : t₂.pwr = x := h₁
  exact State.ite_pwr h (State.stage_pwr (State.notice_pwr (State.ite_pwr h₂ h₂)))

theorem State.cper_pwr {code sev cls idx action spares p0 p1 p2 : Nat} (h : s.pwr = x) :
    (s.cper code sev cls idx action spares p0 p1 p2).pwr = x := by
  unfold State.cper
  exact (State.emit_pwr _ _).trans (State.put_pwr_of (State.put_pwr_of h))

theorem State.trigger_pwr {code sev : Nat} (h : s.pwr = x) : (s.trigger code sev).pwr = x :=
  State.ite_pwr (State.freezeFrom_pwr h) h

theorem State.ev_pwr {code unit op p0 p1 p2 : Nat} (h : s.pwr = x) : (s.ev code unit op p0 p1 p2).pwr = x :=
  State.trigger_pwr (State.ite_pwr (State.cper_pwr (State.stage_pwr h)) (State.stage_pwr h))

end

/-! ## Power states (R396) -/

section
variable {s : State} (hon : s.on = true) (hforced : s.get PWR_STATUS_FORCED = 0)
include hon hforced

theorem exec_powerStateTick_no_partitions (hparts : s.validParts = []) :
    exec (.powerStateTick []) s = .next (s.chooseModule false) := by
  change Host.Outcome.next (if _ then _ else _) = _
  rw [if_pos (by simp [hon, hforced]), hparts]
  rfl

/-- A single partition that is not yet in A2 leaves the module where it is. -/
theorem exec_powerStateTick_one_partition {p : Nat} (hparts : s.validParts = [p])
    (hst : s.get (PWR_PART_CFG_STATE p) < 2) :
    exec (.powerStateTick []) s = .next ((s.choosePart p 0).chooseModule false) := by
  change Host.Outcome.next (if _ then _ else _) = _
  rw [if_pos (by simp [hon, hforced]), hparts]
  simp [Nat.not_le.mpr hst]

theorem exec_plannedWake_partition {q : Fin 128} (hevents : s.partEvents q.val ≠ [])
    (htime : s.timeTo (s.partEvents q.val) ≤ wakeNs (s.get (PWR_PART_CFG_STATE q.val)))
    (hlo : 1 ≤ s.get (PWR_PART_CFG_STATE q.val)) (hhi : s.get (PWR_PART_CFG_STATE q.val) ≤ 2) :
    exec (.plannedWake (some q)) s = .next ((s.put (PWR_PART_CFG_STATE q.val) 0).showPower) := by
  change Host.Outcome.next (if _ then _ else _) = _
  rw [if_pos (by simp [hon, hforced])]
  dsimp only
  rw [if_pos ⟨hevents, htime, by omega, hhi⟩]

end

/-- Below every limit nothing trips. -/
theorem tripAfter_cool {hub inlet : Nat} (hhub : hub < 380) (hinlet : inlet < 220) : tripAfter 0 hub inlet = 0 := by
  unfold tripAfter
  dsimp only
  rw [if_neg (by omega), if_neg (by omega), if_neg (by omega)]
  rfl

/-- What a sample shows of temperatures and flow does not change the trip in force. -/
theorem State.get_trip_put_therm (t : State) (a b c d : Nat) :
    ((((t.put PWR_THERM_INLET a).put PWR_THERM_OUTLET b).put PWR_THERM_HOTTEST c).put PWR_THERM_FLOW_DL d).get
      PWR_STATUS_TRIP = t.get PWR_STATUS_TRIP := by
  rw [State.put_get_other (f := PWR_THERM_FLOW_DL), State.put_get_other (f := PWR_THERM_HOTTEST),
    State.put_get_other (f := PWR_THERM_OUTLET), State.put_get_other (f := PWR_THERM_INLET)] <;> decide

theorem State.setTrip_same {s : State} {n : Nat} (h : s.get PWR_STATUS_TRIP = n) : s.setTrip n = s := if_pos h.symm

section
variable {s : State} (hon : s.on = true)
include hon

/-! ## Samples and ticks (R398, R407) -/

/-- A sample of the input alone: its power, its energy, and the fast guard. -/
theorem exec_powerSample_input (vin i : Nat) (use : List (Nat × Nat × Nat)) :
    let e := s.pwr.energyFrac + vin * i
    let t := s.put PWR_STATUS_VIN_QV (min 255 (vin / 250))
    exec (.powerSample vin i [] [] use) s = .next ((({ t with pwr := { t.pwr with
      energyFrac := e % 100000, volts := smSet (fun _ => 0) t.pwr.volts 0 vin
      recent := ((vin * i / 1000) :: t.pwr.recent).take 100, samples := t.pwr.samples + 1 } } : State).addEnergy
        (e / 100000) use []).fastGuard) :=
  congrArg Host.Outcome.next (whenOn_of_on _ hon)

theorem exec_powerLimitTick_on (avg : Nat) :
    let eff := s.get PWR_LIMIT_CFG_EFF_LIMIT_W
    let p := s.meanPower 100
    exec (.powerLimitTick avg) s = .next ((((s.put PWR_STATUS_AVG_W avg).put PWR_STATUS_POWER_W (min 65535
      (p / 1000))).limitRule (clampTo (9 * eff) 33000 (20 * eff - 10 * avg)) p avg).dutyHold.stretchCheck) :=
  congrArg Host.Outcome.next (whenOn_of_on _ hon)

/-! ## Forced Nadir (R404, R405) -/

theorem exec_regulatorAlert_on {cause : Nat} (hlo : 1 ≤ cause) (hhi : cause ≤ 5) :
    exec (.regulatorAlert cause) s = .next (s.enterNadir cause) := by
  change Host.Outcome.next (if _ then _ else _) = _
  rw [if_pos (by simp [hon, hlo, hhi])]

/-! ## Thermal trips and coolant (R409, R410) -/

/-- A sample below every limit is shown, with the flow that follows from it, and trips nothing. -/
theorem exec_junctionSample_cool {hub inlet : Nat} (deep outlet : Nat) (hhub : hub < 380) (hinlet : inlet < 220)
    (htrip : s.get PWR_STATUS_TRIP = 0) :
    let t : State := { s with pwr := { s.pwr with tempHub := some (hub / 4), tempDeep := some (deep / 4) } }
    exec (.junctionSample hub deep [] inlet outlet) s = .next ((((t.put PWR_THERM_INLET (min 1023 inlet)).put
      PWR_THERM_OUTLET (min 1023 outlet)).put PWR_THERM_HOTTEST (min 1023 hub)).put PWR_THERM_FLOW_DL
        (flowDl (s.get PWR_STATUS_POWER_W) inlet outlet)) := by
  intro t
  refine congrArg Host.Outcome.next ((whenOn_of_on _ hon).trans ?_)
  extract_lets hot pwr t₁ t₂ t₃ old new t₄
  have hnew : new = 0 := (congrArg (tripAfter · hub inlet) htrip).trans (tripAfter_cool hhub hinlet)
  have hkept : t₃.setTrip new = t₃ :=
    State.setTrip_same (((State.get_trip_put_therm _ _ _ _ _).trans htrip).trans hnew.symm)
  rw [if_neg (by omega), if_neg (by omega)]
  exact hkept

/-- While a trip lasts the limit falls by 100 W a step. -/
theorem exec_effLimitStep_tripped (htrip : s.get PWR_STATUS_TRIP ≠ 0) :
    exec .effLimitStep s = .next (({ s with pwr := { s.pwr with
      lowered := min (s.get PWR_LIMIT_CFG_LIMIT_W - 1000) (s.pwr.lowered + 100) } } : State).setEff) := by
  change Host.Outcome.next (whenOn s _) = _
  rw [whenOn_of_on _ hon]
  dsimp only
  rw [if_neg htrip]

theorem exec_j3ClearTimer_cool (htrip : s.get PWR_STATUS_TRIP = 3) (hhot : s.get PWR_THERM_HOTTEST < 368)
    (hinlet : s.get PWR_THERM_INLET < 200) :
    exec .j3ClearTimer s = .next { s.setTrip 0 with pwr := { s.pwr with j3 := false } } := by
  change Host.Outcome.next (if _ then _ else _) = _
  rw [if_pos (by simp [hon, htrip, hinlet, hhot.trans (by decide : 368 < 400)]), if_neg (Nat.not_le.mpr hhot)]

theorem exec_coolantCheckExpire_inlet (hinlet : 180 < s.get PWR_THERM_INLET) :
    exec (.coolantCheckExpire false) s =
      .next (s.ev 0x1708 0 0 1 (s.get PWR_THERM_INLET) (s.get PWR_THERM_FLOW_DL)) := by
  change Host.Outcome.next (if _ then _ else _) = _
  rw [if_pos (by simp [hon, hinlet]), if_neg Bool.false_ne_true]

theorem exec_coolantCheckExpire_flow (hpower : 500 < s.get PWR_STATUS_POWER_W) (hflow : s.get PWR_THERM_FLOW_DL < 18) :
    exec (.coolantCheckExpire true) s =
      .next (s.ev 0x1708 0 0 2 (s.get PWR_THERM_INLET) (s.get PWR_THERM_FLOW_DL)) := by
  change Host.Outcome.next (if _ then _ else _) = _
  rw [if_pos (by simp [hon, hpower, hflow]), if_pos rfl]

/-! ## Droop detectors (R403) -/

/-- The first detector that is masked leaves its tile three others. -/
theorem exec_droopDetectorMask_first {d : Fin 1088} (htripped : s.pwr.tripped.contains d.val = true)
    (hmasked : s.pwr.masked = []) :
    let t : State := { s with pwr := { s.pwr with
      masked := [d.val], tripped := s.pwr.tripped.filter (· != d.val) } }
    exec (.droopDetectorMask d) s = .next ((t.put PWR_DROOP_CFG_MASKED 1).ev 0x1706 (0x200 + d.val / 4) 0 (d.val % 4)
      (s.slotsPerMs / 100) 1) := by
  have hothers : ¬ ((List.range 4).all fun i => [d.val].contains (d.val / 4 * 4 + i)) = true := by
    intro hall
    have h0 := List.all_eq_true.mp hall 0 (by simp)
    have h1 := List.all_eq_true.mp hall 1 (by simp)
    simp only [List.contains_cons, List.contains_nil, Bool.or_false, beq_iff_eq] at h0 h1
    omega
  intro t
  refine congrArg Host.Outcome.next ((if_pos (by simpa [hon, hmasked] using htripped)).trans ?_)
  extract_lets pwr t₁ n t₂
  have ht₁ : t₁ = t := by
    dsimp only [t₁, t, pwr]
    rw [hmasked]
  have hn : n = 1 := congrArg (fun u : State => u.pwr.masked.length) ht₁
  have ht₂ : t₂ = (t.put PWR_DROOP_CFG_MASKED 1).ev 0x1706 (0x200 + d.val / 4) 0 (d.val % 4) (s.slotsPerMs / 100) 1 := by
    dsimp only [t₂]
    rw [ht₁, hn]
  have hpwr : t₂.pwr = t.pwr := (congrArg State.pwr ht₂).trans (State.ev_pwr (State.put_pwr _ _ _))
  rw [hpwr, if_neg hothers, ht₂]

end

/-- What the end of forced Nadir does is the wake from it, and then what waited goes on. -/
theorem exec_forcedNadirEnd (s : State) : exec .forcedNadirEnd s = .next s.nadirEnd.settle := rfl

end Sys2Proof.Machine

/-! ## The obligation -/

open Sys2Proof Sys2Proof.Machine

/-- Settles O45: the choice of states, samples and ticks, forced Nadir, trips and coolant, and a masked detector. -/
theorem powerCompletes : Obligations.PowerCompletes := by
  refine ⟨?none, ?one, ?wake, ?sample, ?tick, ?alert, ?nadirEnd, ?junction, ?step, ?clear, ?inlet, ?flow, ?mask⟩
  case none => exact fun s => exec_powerStateTick_no_partitions
  case one => exact fun p s hon hforced => exec_powerStateTick_one_partition hon hforced
  case wake => exact fun q s hon hforced => exec_plannedWake_partition hon hforced
  case sample => exact fun vin i use s hon => exec_powerSample_input hon vin i use
  case tick => exact fun avg s hon => exec_powerLimitTick_on hon avg
  case alert => exact fun cause s hon => exec_regulatorAlert_on hon
  case nadirEnd => exact fun s _ _ _ _ => exec_forcedNadirEnd s
  case junction => exact fun hub deep inlet outlet s hon => exec_junctionSample_cool hon deep outlet
  case step => exact fun s => exec_effLimitStep_tripped
  case clear => exact fun s => exec_j3ClearTimer_cool
  case inlet => exact fun s => exec_coolantCheckExpire_inlet
  case flow => exact fun s => exec_coolantCheckExpire_flow
  case mask => exact fun d s hon => exec_droopDetectorMask_first hon

end

section
/-!
PROOFS. The recorder's flash, freezes, the debug window and JTAG (18_ephemeris_and_eclipse.md R416, R417, R422, R424 to R427).
The pins that JTAG samples are free values (log 7, log 87).
-/

namespace Sys2Proof.Machine

open Sys2Proof

section
variable {s : State} (hon : s.on = true)
include hon

/-! ## The recorder's flash (R416, R417) -/

theorem exec_recordProgramComplete_good {n : Nat} (hstaged : s.eph.staged ≠ []) (hn : n ≠ 0) :
    exec (.recordProgramComplete n 0 0) s = .next ((s.programOldest n).dropEvent) := by
  change Host.Outcome.next (if _ then _ else _) = _
  rw [if_pos (by simp [hon, hstaged, hn])]
  dsimp only
  rw [if_neg (by simp), if_neg (by simp)]

theorem exec_sectorEraseComplete_keep {k : Nat} (herase : s.eph.keepErase = some k) :
    exec (.sectorEraseComplete true 0) s =
      .next { s with eph := { s.eph with keepErase := none, keep := emptySector s.eph.keep k } } := by
  change Host.Outcome.next (if _ then _ else _) = _
  rw [if_neg (by simp [hon]), if_pos rfl, herase]
  dsimp only
  rw [if_neg (by decide)]

theorem exec_sectorEraseComplete_general {k : Nat} (herase : s.eph.genErase = some k) :
    exec (.sectorEraseComplete false 0) s =
      .next { s with eph := { s.eph with genErase := none, general := emptySector s.eph.general k } } := by
  change Host.Outcome.next (if _ then _ else _) = _
  rw [if_neg (by simp [hon]), if_neg Bool.false_ne_true, herase]
  dsimp only
  rw [if_neg (by decide)]

theorem exec_opTimeSave_on : exec .opTimeSave s = .next { s with eph := { s.eph with
    savedOpTime := s.get EPH_TIME_OP_TIME, savedCycles := s.get EPH_CYCLES_POWER_CYCLES } } :=
  congrArg Host.Outcome.next (whenOn_of_on s.saveTime hon)

/-! ## Freezes (R422, R424) -/

theorem exec_eclFreeze_on {path : Path} (hpath : eclPath path = true) :
    exec (.eclFreeze path) s = .next (s.freezeFrom 2) :=
  congrArg Host.Outcome.next (if_pos (by simp [hon, hpath]))

theorem exec_freezeNAssert_enabled (hpin : s.get ECL_CFG_PIN_EN = 1) :
    exec .freezeNAssert s = .next (({ s with pins := { s.pins with freezeN := false } } : State).freezeFrom 1) :=
  congrArg Host.Outcome.next (if_pos (by simp [hon, hpin]))

/-- The planned time starts a freeze once. -/
theorem exec_freezeAtReached_due (hset : s.get ECL_FREEZE_AT_AT ≠ 0) (hdue : s.get ECL_FREEZE_AT_AT ≤ s.now)
    (hfirst : s.ecl.frozenAt < s.get ECL_FREEZE_AT_AT) : exec .freezeAtReached s = .next (s.freezeFrom 4) :=
  congrArg Host.Outcome.next (if_pos (by simp [hon, hset, hdue, hfirst]))

theorem exec_eclResume_on {path : Path} (hpath : eclPath path = true) :
    exec (.eclResume path) s = .next (({ s with ecl := { s.ecl with waitsResume := false } } : State).tryThaw) :=
  congrArg Host.Outcome.next (if_pos (by simp [hon, hpath]))

theorem exec_freezeNRelease_on :
    exec .freezeNRelease s = .next (({ s with pins := { s.pins with freezeN := true } } : State).tryThaw) :=
  congrArg Host.Outcome.next (if_pos hon)

/-! ## The debug window (R425, R427) -/

section
variable {path : Path} {off : Nat} (hpath : ctrlPath path = true) (hoff : off < 65536)
include hpath hoff

theorem exec_debugWindowRead_inside :
    exec (.debugWindowRead path off) s = .next (s.emit (.readData (s.arrayWord (s.windowAddr off)))) :=
  congrArg Host.Outcome.next (if_pos (by simp [hon, hpath, hoff]))

theorem exec_debugWindowWrite_inside (v : Word) :
    exec (.debugWindowWrite path off v) s = .next (s.deposit (s.windowAddr off) v.toNat) :=
  congrArg Host.Outcome.next (if_pos (by simp [hon, hpath, hoff]))

end

/-! ## The JTAG instructions of the freeze controller (R426, R427) -/

theorem exec_jtagEclAddr_on (v : Word) :
    exec (.jtagEclAddr v) s = .next ((s.jtagOut 4 (s.get ECL_ADDR_ADDR) 64).put ECL_ADDR_ADDR v.toNat) :=
  congrArg Host.Outcome.next (if_pos hon)

theorem exec_jtagEclData_read :
    exec (.jtagEclData none) s = .next ((s.jtagOut 5 (s.arrayWord (s.get ECL_ADDR_ADDR)) 64).put
      ECL_ADDR_ADDR (s.windowAddr 8)) :=
  congrArg Host.Outcome.next (if_pos hon)

theorem exec_jtagEclCtl_freeze : exec (.jtagEclCtl true false) s = .next ((s.jtagOut 6 0 2).freezeFrom 2) :=
  congrArg Host.Outcome.next (if_pos hon)

end

/-- Outside a freeze, and where deposits are not enabled, nothing is deposited. -/
theorem State.deposit_disabled {s : State} (addr v : Nat) (h : s.frozen = false ∨ s.get ECL_CFG_DEPOSIT_EN = 0) :
    s.deposit addr v = s :=
  if_pos (h.elim (fun hf => .inl (by simp [hf])) fun hd => .inr (.inl hd))

/-! ## The JTAG instructions of the boundary scan (R426) -/

section
variable {s : State} (hphase : s.phase ≠ .off)
include hphase

theorem State.jtagOn_of_phase : s.jtagOn = true := decide_eq_true hphase

theorem exec_idcode_on : exec .idcode s =
    .next (({ s with jtag := { s.jtag with ir := 1 } } : State).emit (.jtag 0x2720024B 32)) :=
  congrArg Host.Outcome.next (if_pos (State.jtagOn_of_phase hphase))

theorem exec_bypass_on (tdi : Bool) : exec (.bypass tdi) s =
    .next { s.jtagOut 3 (if s.jtag.ir = 3 then s.jtag.tdo else 0) 1 with
      jtag := { s.jtag with ir := 3, tdo := if tdi then 1 else 0 } } :=
  congrArg Host.Outcome.next (if_pos (State.jtagOn_of_phase hphase))

theorem exec_samplePreload_on (v : Nat) : exec (.samplePreload v) s = .next (({ s.useFree with jtag := { s.jtag with
    boundary := v } } : State).jtagOut 2 (Config.freeValue s.free).toNat 32) :=
  congrArg Host.Outcome.next (if_pos (State.jtagOn_of_phase hphase))

theorem exec_extest_on : exec .extest s = .next (if s.phase = .jtagHold then
    s.useFree.jtagOut 0 (Config.freeValue s.free).toNat 32
    else s.jtagOut 3 (if s.jtag.ir = 3 then s.jtag.tdo else 0) 1) :=
  congrArg Host.Outcome.next (if_neg (by simp [State.jtagOn_of_phase hphase]))

end

/-- At the hold step the boundary register drives the pins, and their levels are free values. -/
theorem exec_extest_hold {s : State} (hphase : s.phase = .jtagHold) :
    exec .extest s = .next (s.useFree.jtagOut 0 (Config.freeValue s.free).toNat 32) := by
  rw [exec_extest_on (by simp [hphase]), if_pos hphase]

/-- While the module runs EXTEST acts as BYPASS. -/
theorem exec_extest_running {s : State} (hphase : s.phase = .on) :
    exec .extest s = .next (s.jtagOut 3 (if s.jtag.ir = 3 then s.jtag.tdo else 0) 1) := by
  rw [exec_extest_on (by simp [hphase]), if_neg (by simp [hphase])]

end Sys2Proof.Machine

/-! ## The obligations -/

open Sys2Proof Sys2Proof.Machine

/-- Settles O46: records programmed, the erase of a sector of each ring, and the time saved. -/
theorem recorderCompletes : Obligations.RecorderCompletes := by
  refine ⟨?program, ?keep, ?general, ?time⟩
  case program => exact fun n s hon => exec_recordProgramComplete_good hon
  case keep => exact fun k s hon => exec_sectorEraseComplete_keep hon
  case general => exact fun k s hon => exec_sectorEraseComplete_general hon
  case time => exact fun s => exec_opTimeSave_on

/-- Settles O47: the sources of a freeze, what clears them, and the window's two accesses. -/
theorem freezeCompletes : Obligations.FreezeCompletes := by
  refine ⟨?command, ?pin, ?planned, ?resume, ?release, ?read, ?write, ?disabled⟩
  case command => exact fun s hon => ⟨exec_eclFreeze_on hon rfl, exec_eclFreeze_on hon rfl⟩
  case pin => exact fun s => exec_freezeNAssert_enabled
  case planned => exact fun s => exec_freezeAtReached_due
  case resume => exact fun path s hon => exec_eclResume_on hon
  case release => exact fun s => exec_freezeNRelease_on
  case read => exact fun path off s hon => exec_debugWindowRead_inside hon
  case write => exact fun path off v s hon hpath hoff => exec_debugWindowWrite_inside hon hpath hoff v
  case disabled => exact fun addr v s => State.deposit_disabled addr v

/-- Settles O48: the instructions of the boundary scan, then the three that reach the freeze controller. -/
theorem jtagCompletes : Obligations.JtagCompletes := by
  refine ⟨?idcode, ?bypass, ?preload, ?extestHold, ?extestOn, ?address, ?data, ?control⟩
  case idcode => exact fun s => exec_idcode_on
  case bypass => exact fun tdi s hphase => ⟨_, exec_bypass_on hphase tdi, rfl, rfl, rfl, rfl, rfl, rfl⟩
  case preload => exact fun v s hphase => exec_samplePreload_on hphase v
  case extestHold => exact fun s => exec_extest_hold
  case extestOn => exact fun s => exec_extest_running
  case address => exact fun v s hon => exec_jtagEclAddr_on hon v
  case data => exact fun s => exec_jtagEclData_read
  case control => exact fun s => exec_jtagEclCtl_freeze

end

section
/-!
PROOFS. Power-up, power-down and resets (17_power_pace_and_cooling.md R406, R411; 19_module_connectors_and_power_up.md R435 to
R441).  The boot in one step, its wait for PACE_REF, and THERMTRIP_N at the loss of the input are log 83.
-/

namespace Sys2Proof.Machine

open Sys2Proof

/-! ## The start conditions (R435, R436) -/

/-- A module that is off starts once every condition holds. -/
theorem State.tryStart_ready {s : State} (hphase : s.phase = .off) (hen : s.pins.pwrEn = true) (hmated : s.pins.mated = true)
    (href : s.pace.refPresent = true) : s.tryStart = s.powerUp :=
  if_pos ⟨hphase, hen, hmated, href⟩

theorem State.tryStart_unmated {s : State} (hmated : s.pins.mated = false) : s.tryStart = s :=
  if_neg fun hstart => by simp [hmated] at hstart

section
variable {s : State}

theorem exec_pwrEnRise_starts (hphase : s.phase = .off) (hmated : s.pins.mated = true) (href : s.pace.refPresent = true) :
    exec .pwrEnRise s = .next (({ s with pins := { s.pins with pwrEn := true } } : State).powerUp) :=
  congrArg Host.Outcome.next (State.tryStart_ready hphase rfl hmated href)

theorem exec_pwrEnRise_unmated (hmated : s.pins.mated = false) :
    exec .pwrEnRise s = .next { s with pins := { s.pins with pwrEn := true } } :=
  congrArg Host.Outcome.next (State.tryStart_unmated hmated)

theorem exec_moduleInsertion_starts (hphase : s.phase = .off) (hen : s.pins.pwrEn = true)
    (href : s.pace.refPresent = true) :
    exec .moduleInsertion s = .next (({ s with pins := { s.pins with mated := true } } : State).powerUp) :=
  congrArg Host.Outcome.next (State.tryStart_ready hphase hen rfl href)

end

theorem exec_jtagHoldRelease_held {s : State} (hphase : s.phase = .jtagHold) :
    exec .jtagHoldRelease s = .next (({ s with pins := { s.pins with jtagHoldN := true } } : State).bootOn) :=
  congrArg Host.Outcome.next (if_pos hphase)

/-! ## Power-down and loss (R406, R411, R437) -/

/-- PWR_EN falling on a running module forces Nadir and begins the power-down. -/
theorem exec_pwrEnFall_on {s : State} (hphase : s.phase = .on) (hforced : s.get PWR_STATUS_FORCED ≠ 1) :
    exec .pwrEnFall s =
      .next { (({ s with pins := { s.pins with pwrEn := false } } : State).enterNadir 7) with phase := .poweringDown } := by
  change execPwrEnFall s = _
  unfold execPwrEnFall
  dsimp only
  rw [hphase]
  dsimp only
  rw [if_neg hforced]

theorem exec_powerDownComplete_running {s : State} (hphase : s.phase = .poweringDown) :
    exec .powerDownComplete s =
      .next ((((s.programOldest s.eph.staged.length).saveTime.saveDeep).powerOff).tryStart) :=
  congrArg Host.Outcome.next (if_pos hphase)

section
variable {s : State} (hphase : s.phase ≠ .off)
include hphase

/-- The loss of the input releases THERMTRIP_N. -/
theorem exec_powerLoss_powered :
    exec .powerLoss s = .next { s.powerOff with pins := { s.powerOff.pins with thermtripN := true } } := by
  change Host.Outcome.next s.inputLost = _
  rw [State.inputLost, if_neg hphase]

/-- A thermal trip turns the module off and latches. -/
theorem exec_hardwareThermalTrip_powered :
    exec .hardwareThermalTrip s = .next (({ s.powerOff with
      pwr := { s.powerOff.pwr with thermalLatch := true }, pins := { s.powerOff.pins with thermtripN := false } } : State).emit
        (.pin "THERMTRIP_N" false)) :=
  congrArg Host.Outcome.next (if_neg hphase)

end

theorem exec_moduleRemoval (s : State) :
    exec .moduleRemoval s = .next { s.inputLost with pins := { s.inputLost.pins with mated := false } } := rfl

/-! ## Resets (R438 to R441) -/

section
variable {s : State} (hphase : s.phase = .on)
include hphase

theorem exec_coldResetN_on : exec .coldResetN s = .next (s.coldReset 1) := congrArg Host.Outcome.next (if_pos hphase)

theorem exec_hubResetCold_sideband : exec (.hubResetCold .sideband) s = .next (s.coldReset 2) :=
  congrArg Host.Outcome.next (if_pos ⟨hphase, rfl⟩)

section
variable (hfrozen : s.frozen = false) (hwaits : s.resetWaits = false)
include hfrozen hwaits

/-- Outside a freeze a warm reset that need not wait runs. -/
theorem exec_warmResetN_runs : exec .warmResetN s = .next (s.warmReset 3) := by
  change Host.Outcome.next (if s.phase = .on then s.tryReset .warmResetN else s) = _
  rw [if_pos hphase, State.tryReset, hwaits, if_neg Bool.false_ne_true, State.warmRun, hfrozen]
  exact congrArg Host.Outcome.next (if_neg Bool.false_ne_true)

theorem exec_hubResetWarm_runs {path : Path} (hpath : ctrlPath path = true) :
    exec (.hubResetWarm path) s = .next (s.warmReset 4) := by
  change Host.Outcome.next (if s.phase = .on ∧ ctrlPath path then s.tryReset (.hubResetWarm path) else s) = _
  rw [if_pos ⟨hphase, hpath⟩, State.tryReset, hwaits, if_neg Bool.false_ne_true, State.warmRun, hfrozen]
  exact congrArg Host.Outcome.next (if_neg Bool.false_ne_true)

end

section
variable {path : Path} {p : Fin 128} (hpath : ctrlPath path = true) (hvalid : s.partValid p.val = true)
include hpath hvalid

theorem exec_hubResetPartition_runs (hwaits : s.partWaits p.val = false) :
    exec (.hubResetPartition path p) s = .next (s.partReset p.val) := by
  refine congrArg Host.Outcome.next ((if_pos ⟨hphase, hpath, hvalid⟩).trans ?_)
  rw [State.tryReset, hwaits, if_neg Bool.false_ne_true, if_pos hvalid]

/-- A partition reset that must wait is kept. -/
theorem exec_hubResetPartition_kept (hwaits : s.partWaits p.val = true) :
    exec (.hubResetPartition path p) s =
      .next { s with cfg := { s.cfg with resets := s.cfg.resets ++ [.hubResetPartition path p] } } := by
  refine congrArg Host.Outcome.next ((if_pos ⟨hphase, hpath, hvalid⟩).trans ?_)
  rw [State.tryReset, if_pos hwaits]
  rfl

end

end

/-- A reset waits only for a firmware switch or for forced Nadir (R441). -/
theorem State.resetWaits_false {s : State} (hdrain : s.get FW_STATUS_DRAINING ≠ 1) (hforced : s.get PWR_STATUS_FORCED ≠ 1) :
    s.resetWaits = false := by
  simp [State.resetWaits, hdrain, hforced]

end Sys2Proof.Machine

/-! ## The obligation -/

open Sys2Proof Sys2Proof.Machine

/-- Settles O49: the start, the orderly power-down, the losses, and the three kinds of reset. -/
theorem resetsComplete : Obligations.ResetsComplete := by
  refine ⟨?rise, ?unmated, ?insertion, ?hold, ?fall, ?down, ?loss, ?thermal, ?removal, ?cold, ?warm, ?part, ?partWaits⟩
  case rise => exact fun s => exec_pwrEnRise_starts
  case unmated => exact fun s _ => exec_pwrEnRise_unmated
  case insertion => exact fun s => exec_moduleInsertion_starts
  case hold => exact fun s => exec_jtagHoldRelease_held
  case fall => exact fun s => exec_pwrEnFall_on
  case down => exact fun s => exec_powerDownComplete_running
  case loss => exact fun s => exec_powerLoss_powered
  case thermal => exact fun s => exec_hardwareThermalTrip_powered
  case removal => exact exec_moduleRemoval
  case cold => exact fun s hphase => ⟨exec_coldResetN_on hphase, exec_hubResetCold_sideband hphase⟩
  case warm =>
    intro path s hphase hfrozen hdrain hforced
    have hwaits := State.resetWaits_false hdrain hforced
    exact ⟨exec_warmResetN_runs hphase hfrozen hwaits, exec_hubResetWarm_runs hphase hfrozen hwaits⟩
  case part => exact fun path p s hphase => exec_hubResetPartition_runs hphase
  case partWaits => exact fun path p s hphase => exec_hubResetPartition_kept hphase

end
